-- ==== Sys2Proof/Word.lean ====
section
/-! DEFINITION. The word types of the module's registers (00 R11, R13) and their plainest arithmetic. -/

namespace Sys2Proof

abbrev Byte := BitVec 8
abbrev Word16 := BitVec 16
abbrev Word32 := BitVec 32
abbrev Word64 := BitVec 64

/-- A counter of `w` bits that stops at its largest value (the spec's "saturates"). -/
def satAdd {w : Nat} (a : BitVec w) (n : Nat) : BitVec w :=
  if a.toNat + n < 2 ^ w then BitVec.ofNat w (a.toNat + n) else BitVec.allOnes w

/-- One bit of a word as a truth value. -/
def bitAt {w : Nat} (x : BitVec w) (i : Nat) : Bool := x.getLsbD i

/-- A truth value as the bit of a register. -/
def bitOf (b : Bool) : Nat := if b then 1 else 0

/-- Ceiling of a quotient; 0 where the divisor is 0. -/
def ceilDiv (a b : Nat) : Nat := (a + b - 1) / b

end Sys2Proof
end

