-- ==== Sys2Proof/Machine/FMap.lean ====
section
/-! DEFINITION. A sparse map from numbers to values: a list of (key, value) pairs, keys strictly rising, no
entry equal to what an unlisted key reads as. State holds its register arrays and its memory in this form. -/

namespace Sys2Proof.Machine

abbrev FMap (α : Type) := List (Nat × α)

/-- The value of key `k`; `d` where the map does not list it. -/
def FMap.get {α : Type} (d : α) : FMap α → Nat → α
  | [], _ => d
  | (k', v) :: t, k => if k' = k then v else FMap.get d t k

/-- The value of key `k`, if the map lists it. -/
def FMap.find {α : Type} : FMap α → Nat → Option α
  | [], _ => none
  | (k', v) :: t, k => if k' = k then some v else FMap.find t k

/-- The map without key `k`. -/
def FMap.erase {α : Type} (m : FMap α) (k : Nat) : FMap α := m.filter (fun p => decide (p.1 ≠ k))

/-- The map with `(k, v)` put before the first greater key. -/
def FMap.ins {α : Type} (k : Nat) (v : α) : FMap α → FMap α
  | [] => [(k, v)]
  | (k', v') :: t => if k < k' then (k, v) :: (k', v') :: t else (k', v') :: FMap.ins k v t

/-- The map that reads `v` at `k`; writing the default removes the entry. -/
def FMap.set {α : Type} [DecidableEq α] (d : α) (m : FMap α) (k : Nat) (v : α) : FMap α :=
  if v = d then FMap.erase m k else FMap.ins k v (FMap.erase m k)

/-- The map with `f` applied to the value of key `k`. -/
def FMap.mod {α : Type} [DecidableEq α] (d : α) (m : FMap α) (k : Nat) (f : α → α) : FMap α :=
  FMap.set d m k (f (FMap.get d m k))

/-- The map over keys below `n` with `f` applied to the values of the keys that `p` names. -/
def FMap.tab {α : Type} [DecidableEq α] (d : α) (m : FMap α) (n : Nat) (p : Nat → Bool) (f : α → α) : FMap α :=
  (List.range n).filterMap (fun k =>
    let v := if p k then f (FMap.get d m k) else FMap.get d m k
    if v = d then none else some (k, v))

/-- Keys strictly rise. -/
def FMap.sorted {α : Type} : FMap α → Bool
  | [] => true
  | [_] => true
  | a :: b :: t => decide (a.1 < b.1) && FMap.sorted (b :: t)

/-- The canonical form: keys strictly rise and no entry equals the default. -/
def FMap.wf {α : Type} [DecidableEq α] (d : α) (m : FMap α) : Bool :=
  FMap.sorted m && m.all (fun p => decide (p.2 ≠ d))

end Sys2Proof.Machine
end

