-- ==== Sys2Proof/Machine/Base.lean ====
section
/-! DEFINITION. The physical indices of the module's units (01 R20 to R26, 15 T15.2) and the writes of register
fields by their access codes (00 R12, R14). -/

namespace Sys2Proof.Machine

/-- A physical core, 16t + n. -/
abbrev CoreId := Fin 512
/-- A tower or its compute die, t. -/
abbrev TowerId := Fin 32
/-- A partition number. -/
abbrev PartId := Fin 4
/-- A quadrant. -/
abbrev QuadId := Fin 4
/-- A link die; link die d serves quadrant d (10.1). -/
abbrev LinkDieId := Fin 4
/-- A KLP port, P = 6d + p. -/
abbrev PortId := Fin 24
/-- A DRAM channel, 32t + c. -/
abbrev ChannelId := Fin 1024
/-- A queue endpoint of a core. -/
abbrev EpId := Fin 32

/-- The tower of a core. -/
def CoreId.tower (c : CoreId) : Nat := c.val / 16
/-- R24: the quadrant of a tower. -/
def quadOfTower (t : Nat) : Nat := t / 8
/-- The quadrant of a core. -/
def CoreId.quad (c : CoreId) : Nat := c.val / 128

/-- The core with a number, modulo the number of cores. -/
def coreOf (n : Nat) : CoreId := ⟨n % 512, Nat.mod_lt _ (by decide)⟩
/-- The tower with a number, modulo the number of towers. -/
def towerOf (n : Nat) : TowerId := ⟨n % 32, Nat.mod_lt _ (by decide)⟩
/-- The partition with a number, modulo four. -/
def partOf (n : Nat) : PartId := ⟨n % 4, Nat.mod_lt _ (by decide)⟩
/-- The endpoint with a number, modulo 32. -/
def epOf (n : Nat) : EpId := ⟨n % 32, Nat.mod_lt _ (by decide)⟩
/-- The port with a number, modulo 24. -/
def portOf (n : Nat) : PortId := ⟨n % 24, Nat.mod_lt _ (by decide)⟩

/-- R14: a write-one-to-clear field; a hardware set in the same cycle wins (Table 00.5). -/
def w1c {w : Nat} (old written hwSet : BitVec w) : BitVec w := (old &&& ~~~written) ||| hwSet

/-- R13: one word of a 64-bit register. -/
def setHalf (old : BitVec 64) (hi : Bool) (v : BitVec 32) : BitVec 64 :=
  if hi then v ++ old.setWidth 32 else old.extractLsb' 32 32 ++ v

/-- R13: a 64-bit register after a write of both words (`half` none), or of the low or the high word alone. -/
def write64 (old : BitVec 64) (half : Option Bool) (v : BitVec 64) : BitVec 64 :=
  match half with
  | none => v
  | some hi => setHalf old hi (v.setWidth 32)

/-- R14: a read-and-clear counter read together with a hardware advance keeps the advance. -/
def rcRead {w : Nat} (_old : BitVec w) (adv : Nat) : BitVec w := satAdd (0 : BitVec w) adv

/-- The `n` bits of `x` from bit `lo` up. -/
def bitsAt (x lo n : Nat) : Nat := x / 2 ^ lo % 2 ^ n

/-- A list of fields of one width placed from a bit up. -/
def placeFields (lo w : Nat) : List Nat → Nat
  | [] => 0
  | a :: t => a % 2 ^ w * 2 ^ lo + placeFields (lo + w) w t

/-- A list with the value at one place replaced; a place outside it is left. -/
def listSet {α : Type} : List α → Nat → α → List α
  | [], _, _ => []
  | _ :: t, 0, v => v :: t
  | a :: t, n + 1, v => a :: listSet t n v

/-- The bytes of a number, the lowest first (00 R11). -/
def bytesOf (n : Nat) : Nat → List Byte
  | 0 => []
  | k + 1 => BitVec.ofNat 8 n :: bytesOf (n / 256) k

/-- The number whose bytes, the lowest first, are given (00 R11). -/
def ofBytes : List Byte → Nat
  | [] => 0
  | b :: t => b.toNat + 256 * ofBytes t

end Sys2Proof.Machine
end

