-- ==== Sys2Proof/Machine/Keccak.lean ====
section
/-! DEFINITION. SHAKE256 (02 R60, 12 R329) and the CRC-32 of 10 R277: Keccak-f[1600], 24 rounds, rate 136 bytes. The bits
of SHAKE256 are those of its published standard, which the spec names. -/

namespace Sys2Proof.Machine

/-- The 25 lanes as five rows: lane (x, y) is at place x of row y. -/
abbrev Rows := List (List Word64)

/-- Lane (x, y), both modulo 5. -/
def Rows.at (a : Rows) (x y : Nat) : Word64 := (a.getD (y % 5) []).getD (x % 5) 0

/-- The rows of a function of the lane. -/
def Rows.of (f : Nat → Nat → Word64) : Rows := (List.range 5).map (fun y => (List.range 5).map (fun x => f x y))

/-- Theta: each lane with the parities of the column before it and, rotated by one, of the column behind it. -/
def theta (a : Rows) : Rows :=
  let parity := (List.range 5).map (fun x => a.foldl (fun q row => q ^^^ row.getD x 0) 0)
  let mask := (List.range 5).map (fun x => parity.getD ((x + 4) % 5) 0 ^^^ (parity.getD ((x + 1) % 5) 0).rotateLeft 1)
  a.map (fun row => List.zipWith (fun l m => l ^^^ m) row mask)

/-- The place of each lane on the walk of rho, from lane (1, 0) on, by (x, y) → (y, 2x + 3y); lane (0, 0) is not on it. -/
def walkPlace : List (List Nat) :=
  [[0, 1, 19, 7, 13], [8, 24, 3, 10, 23], [2, 4, 18, 17, 21], [14, 9, 5, 6, 16], [20, 11, 22, 15, 12]]

/-- Rho: the lane at place u of the walk is rotated by the u-th triangular number. -/
def rho (a : Rows) : Rows :=
  List.zipWith (fun row us => List.zipWith (fun (l : Word64) u => l.rotateLeft (u * (u + 1) / 2 % 64)) row us) a walkPlace

/-- Pi: lane (x, y) is the one that stood at (x + 3y, x). -/
def piStep (a : Rows) : Rows := Rows.of (fun x y => a.at (x + 3 * y) x)

/-- Chi, row by row. -/
def chi (a : Rows) : Rows :=
  a.map (fun row => (List.range 5).map (fun x => row.getD x 0 ^^^ (~~~(row.getD ((x + 1) % 5) 0) &&& row.getD ((x + 2) % 5) 0)))

/-- The bits of the feedback register that gives the round constants, seven a round, the first the lowest. -/
def iotaBits : Nat := 0xE886C79CC5A452A7767BF4CD460EABE509FE178D01

/-- The constant of a round: bit j of its seven stands at bit 2^j - 1. -/
def iotaConst (round : Nat) : Word64 :=
  BitVec.ofNat 64 ((List.range 7).map (fun j => if iotaBits.testBit (7 * round + j) then 2 ^ (2 ^ j - 1) else 0)).sum

/-- Iota: the constant into lane (0, 0). -/
def iota (round : Nat) : Rows → Rows
  | (l :: row) :: rest => ((l ^^^ iotaConst round) :: row) :: rest
  | a => a

/-- The permutation: 24 rounds. -/
def keccakF (a : Rows) : Rows := (List.range 24).foldl (fun b i => iota i (chi (piStep (rho (theta b))))) a

/-- A message of four lanes as the one block of its hash: SHAKE's suffix 0x1F after 32 bytes, the final bit at byte 135. -/
def absorb32 (m : List Word64) : Rows :=
  Rows.of (fun x y =>
    let i := x + 5 * y
    if i < 4 then m.getD i 0 else if i = 4 then 0x1F else if i = 16 then 0x8000000000000000 else 0)

/-- R60: the first 256 bytes of output as 32 lanes (17 of the first permutation, 15 of the second). -/
def shake256of32 (m : List Word64) : List Word64 :=
  let s1 := keccakF (absorb32 m)
  let s2 := keccakF s1
  s1.flatten.take 17 ++ s2.flatten.take 15

/-- R60: word i (0 to 63) of the output, little-endian 32-bit words. -/
def shakeWord (out : List Word64) (i : Nat) : Nat :=
  let l := (out.getD (i / 2 % 32) 0).toNat
  if i % 2 = 0 then l % 2 ^ 32 else l / 2 ^ 32

/-- R60: the random words of the group of 64 elements that holds `index`. -/
def stochasticBlock (seed step : Word64) (tensor : Word32) (index : Nat) : List Word64 :=
  let i64 : Word64 := BitVec.ofNat 64 (index / 64)
  -- bytes 16 to 19 tensor, 20 to 27 index / 64, 28 to 31 zero
  let w2 : Word64 := (tensor.setWidth 64) ||| (i64 <<< 32)
  let w3 : Word64 := i64 >>> 32
  shake256of32 [seed, step, w2, w3]

/-- R60: the random word of element `index`. -/
def stochasticWord (seed step : Word64) (tensor : Word32) (index : Nat) : Nat :=
  shakeWord (stochasticBlock seed step tensor index) (index % 64)

/-- Bytes as lanes, the lowest byte first. -/
def lanesOf : Nat → List Byte → List Word64
  | 0, _ => []
  | n + 1, bs => BitVec.ofNat 64 ((bs.take 8).foldr (fun b a => b.toNat + 256 * a) 0) :: lanesOf n (bs.drop 8)

/-- SHAKE's padding to a whole number of 136-byte blocks. -/
def shakePad (bs : List Byte) : List Byte :=
  let r := 136 - bs.length % 136
  if r = 1 then bs ++ [0x9F] else bs ++ [0x1F] ++ List.replicate (r - 2) 0 ++ [0x80]

/-- One block of 17 lanes absorbed. -/
def absorb (a : Rows) (block : List Byte) : Rows :=
  let m := lanesOf 17 block
  keccakF (Rows.of (fun x y => a.at x y ^^^ m.getD (x + 5 * y) 0))

/-- Blocks absorbed in order. -/
def absorbAll (a : Rows) : Nat → List Byte → Rows
  | 0, _ => a
  | n + 1, bs => absorbAll (absorb a (bs.take 136)) n (bs.drop 136)

/-- 12 R329: SHAKE256 with a 256-bit output, as 32 bytes. -/
def shake256 (bs : List Byte) : List Byte :=
  let padded := shakePad bs
  let a := absorbAll (Rows.of (fun _ _ => 0)) (padded.length / 136) padded
  (a.flatten.take 4).flatMap (fun l => (List.range 8).map (fun i => BitVec.ofNat 8 (l.toNat / 256 ^ i)))

/-- 10 R277: one bit step of the reflected CRC-32. -/
def crcBit (c : Word32) : Word32 := if c.getLsbD 0 then (c >>> 1) ^^^ 0xEDB88320 else c >>> 1

/-- 10 R277: one byte. -/
def crcByte (c : Word32) (b : Byte) : Word32 :=
  (List.range 8).foldl (fun a _ => crcBit a) (c ^^^ b.setWidth 32)

/-- 10 R277: the CRC-32 of a byte string. -/
def crc32 (bs : List Byte) : Word32 := ~~~(bs.foldl crcByte (BitVec.allOnes 32))

end Sys2Proof.Machine
end

