-- ==== Sys2Proof/Machine/LinkTypes.lean ====
section
/-! DEFINITION. Packets, their sub-headers, link dies and ports (10, 08 Tables 08.5 and 08.8). -/

namespace Sys2Proof.Machine

/-- A packet at its source, before its header is built (10 R282): what the link die of quadrant `quad` takes. -/
structure OutPkt where
  quad : BitVec 2 := 0
  cls : BitVec 3 := 0
  group : BitVec 8 := 0
  dst : BitVec 12 := 0
  dstCore : BitVec 9 := 0
  dstEp : BitVec 5 := 0
  seq : BitVec 32 := 0
  step : BitVec 16 := 0
  part : BitVec 3 := 0
  fin : Bool := false
  payload : List Byte := []
  deriving DecidableEq, Repr

/-- Table 10.6a: a packet's header, with its payload. -/
structure Packet where
  crc : BitVec 32 := 0
  epoch : BitVec 32 := 0
  seq : BitVec 32 := 0
  step : BitVec 16 := 0
  route : BitVec 40 := 0
  hops : BitVec 4 := 0
  hop : BitVec 4 := 0
  dst : BitVec 12 := 0
  src : BitVec 12 := 0
  group : BitVec 8 := 0
  dstCore : BitVec 9 := 0
  dstEp : BitVec 5 := 0
  part : BitVec 3 := 0
  fin : Bool := false
  len : BitVec 8 := 0
  cls : BitVec 3 := 0
  ver : BitVec 2 := 0
  payload : List Byte := []
  deriving DecidableEq, Repr

/-- R284: the flow of a packet within its class. -/
def flowOf (cls : BitVec 3) (core : BitVec 9) (ep : BitVec 5) (payload : List Byte) : Nat :=
  let n := Machine.ofBytes (payload.take 32)
  match cls.toNat with
  | 1 => core.toNat * 32 + ep.toNat
  | 2 | 3 => bitsAt n 192 32
  | 4 => bitsAt n 165 27
  | _ => 0

/-- The flow of a packet at its source. -/
def OutPkt.flow (x : OutPkt) : Nat := flowOf x.cls x.dstCore x.dstEp x.payload
/-- The flow of a packet. -/
def Packet.flow (x : Packet) : Nat := flowOf x.cls x.dstCore x.dstEp x.payload

/-- Table 10.6a: the header as bits, with the CRC and KH.HOP that are given. -/
def Packet.header (x : Packet) (crc : Nat) (hop : Nat) : Nat :=
  x.ver.toNat * 2 ^ 33 + x.cls.toNat * 2 ^ 35 + x.len.toNat * 2 ^ 38 + bitOf x.fin * 2 ^ 46 + x.part.toNat * 2 ^ 47 +
    x.dstEp.toNat * 2 ^ 50 + x.dstCore.toNat * 2 ^ 55 + x.group.toNat * 2 ^ 64 + x.src.toNat * 2 ^ 72 +
    x.dst.toNat * 2 ^ 84 + hop % 16 * 2 ^ 96 + x.hops.toNat * 2 ^ 100 + x.route.toNat * 2 ^ 104 + x.step.toNat * 2 ^ 144 +
    x.seq.toNat * 2 ^ 160 + x.epoch.toNat * 2 ^ 192 + crc * 2 ^ 224

/-- R277: the end-to-end CRC of a packet: header bits [223:0] with KH.HOP zero, then the payload as carried. -/
def Packet.crcOf (x : Packet) : Word32 := crc32 (bytesOf (x.header 0 0) 28 ++ x.payload)

/-- A delivered packet that waits for the unit it was delivered to (Table 10.6): the partition it came to, and the link die that
received it, whose run tables say which core that is (R278). -/
structure Delivered where
  part : BitVec 2 := 0
  die : BitVec 2 := 0
  pkt : Packet := {}
  deriving DecidableEq, Repr

/-- Table 08.5: the reduction sub-header. -/
structure Rc where
  step : BitVec 32 := 0
  tile : BitVec 32 := 0
  count : BitVec 16 := 0
  member : BitVec 12 := 0
  group : BitVec 8 := 0
  scale : BitVec 8 := 0
  kind : BitVec 2 := 0
  seg : BitVec 2 := 0
  last : Bool := false
  nonfinite : Bool := false
  round : BitVec 8 := 0
  deriving DecidableEq, Repr

/-- Table 08.5's 32 bytes. -/
def Rc.bytes (r : Rc) : List Byte :=
  bytesOf (r.round.toNat * 2 ^ 134 + bitOf r.nonfinite * 2 ^ 142 + bitOf r.last * 2 ^ 143 + r.seg.toNat * 2 ^ 144 +
    r.kind.toNat * 2 ^ 146 + r.scale.toNat * 2 ^ 148 + r.group.toNat * 2 ^ 156 + r.member.toNat * 2 ^ 164 +
    r.count.toNat * 2 ^ 176 + r.tile.toNat * 2 ^ 192 + r.step.toNat * 2 ^ 224) 32

/-- Table 08.5 read from a payload. -/
def Rc.ofBytes (bs : List Byte) : Rc :=
  let n := Machine.ofBytes (bs.take 32)
  { step := BitVec.ofNat 32 (bitsAt n 224 32), tile := BitVec.ofNat 32 (bitsAt n 192 32),
    count := BitVec.ofNat 16 (bitsAt n 176 16), member := BitVec.ofNat 12 (bitsAt n 164 12),
    group := BitVec.ofNat 8 (bitsAt n 156 8), scale := BitVec.ofNat 8 (bitsAt n 148 8),
    kind := BitVec.ofNat 2 (bitsAt n 146 2), seg := BitVec.ofNat 2 (bitsAt n 144 2), last := n.testBit 143,
    nonfinite := n.testBit 142, round := BitVec.ofNat 8 (bitsAt n 134 8) }

/-- Table 08.8: the parameter sub-header. -/
structure Pb where
  step : BitVec 32 := 0
  tile : BitVec 32 := 0
  nextScale : BitVec 8 := 0
  format : BitVec 4 := 0
  copy : Bool := false
  part : BitVec 2 := 0
  last : Bool := false
  skipped : Bool := false
  member : BitVec 12 := 0
  group : BitVec 8 := 0
  deriving DecidableEq, Repr

/-- Table 08.8's 32 bytes. -/
def Pb.bytes (r : Pb) : List Byte :=
  bytesOf (r.group.toNat * 2 ^ 155 + r.member.toNat * 2 ^ 163 + bitOf r.skipped * 2 ^ 175 + bitOf r.last * 2 ^ 176 +
    r.part.toNat * 2 ^ 177 + bitOf r.copy * 2 ^ 179 + r.format.toNat * 2 ^ 180 + r.nextScale.toNat * 2 ^ 184 +
    r.tile.toNat * 2 ^ 192 + r.step.toNat * 2 ^ 224) 32

/-- Table 08.8 read from a payload. -/
def Pb.ofBytes (bs : List Byte) : Pb :=
  let n := Machine.ofBytes (bs.take 32)
  { step := BitVec.ofNat 32 (bitsAt n 224 32), tile := BitVec.ofNat 32 (bitsAt n 192 32),
    nextScale := BitVec.ofNat 8 (bitsAt n 184 8), format := BitVec.ofNat 4 (bitsAt n 180 4), copy := n.testBit 179,
    part := BitVec.ofNat 2 (bitsAt n 177 2), last := n.testBit 176, skipped := n.testBit 175,
    member := BitVec.ofNat 12 (bitsAt n 163 12), group := BitVec.ofNat 8 (bitsAt n 155 8) }

/-- Table 10.7: the control sub-header; `rest` is bits [203:0], which the kinds of 12 Table 12.5 use. -/
structure Ctl where
  kind : BitVec 8 := 0
  edge : BitVec 16 := 0
  count : BitVec 8 := 0
  member : BitVec 12 := 0
  group : BitVec 8 := 0
  rest : Nat := 0
  deriving DecidableEq, Repr

/-- Table 10.7's 32 bytes. -/
def Ctl.bytes (r : Ctl) : List Byte :=
  bytesOf (r.rest % 2 ^ 204 + r.group.toNat * 2 ^ 204 + r.member.toNat * 2 ^ 212 + r.count.toNat * 2 ^ 224 + r.edge.toNat * 2 ^ 232 +
    r.kind.toNat * 2 ^ 248) 32

/-- Table 10.7 read from a payload. -/
def Ctl.ofBytes (bs : List Byte) : Ctl :=
  let n := Machine.ofBytes (bs.take 32)
  { kind := BitVec.ofNat 8 (bitsAt n 248 8), edge := BitVec.ofNat 16 (bitsAt n 232 16),
    count := BitVec.ofNat 8 (bitsAt n 224 8), member := BitVec.ofNat 12 (bitsAt n 212 12),
    group := BitVec.ofNat 8 (bitsAt n 204 8), rest := bitsAt n 0 204 }

/-- 12 Table 12.5: a snapshot control kind with its 64-bit identifier or step and the fields below it. -/
def Ctl.snap (kind : BitVec 8) (id : BitVec 64) (low : Nat) : Ctl := { kind := kind, rest := id.toNat * 2 ^ 140 + low % 2 ^ 140 }
/-- The identifier or step of a snapshot control packet. -/
def Ctl.id (c : Ctl) : BitVec 64 := BitVec.ofNat 64 (bitsAt c.rest 140 64)

/-- 12 Table 12.4: the snapshot sub-header. -/
structure Sn where
  id : BitVec 64 := 0
  index : BitVec 27 := 0
  offset : BitVec 21 := 0
  kind : BitVec 3 := 0
  slot : BitVec 1 := 0
  member : BitVec 12 := 0
  deriving DecidableEq, Repr

/-- Table 12.4's 32 bytes. -/
def Sn.bytes (r : Sn) : List Byte :=
  bytesOf (r.member.toNat * 2 ^ 128 + r.slot.toNat * 2 ^ 140 + r.kind.toNat * 2 ^ 141 + r.offset.toNat * 2 ^ 144 +
    r.index.toNat * 2 ^ 165 + r.id.toNat * 2 ^ 192) 32

/-- Table 12.4 read from a payload. -/
def Sn.ofBytes (bs : List Byte) : Sn :=
  let n := Machine.ofBytes (bs.take 32)
  { id := BitVec.ofNat 64 (bitsAt n 192 64), index := BitVec.ofNat 27 (bitsAt n 165 27),
    offset := BitVec.ofNat 21 (bitsAt n 144 21), kind := BitVec.ofNat 3 (bitsAt n 141 3),
    slot := BitVec.ofNat 1 (bitsAt n 140 1), member := BitVec.ofNat 12 (bitsAt n 128 12) }

/-- Table 10.8: a route entry. -/
structure Route where
  valid : Bool := false
  live : Bool := false
  hops : BitVec 4 := 0
  first : BitVec 5 := 0
  route : BitVec 40 := 0
  self : Bool := false
  deriving DecidableEq, Repr

/-- Table 10.8 from its 64 bits. -/
def Route.ofNat (n : Nat) : Route :=
  { valid := n.testBit 63, live := n.testBit 62, hops := BitVec.ofNat 4 (bitsAt n 58 4), first := BitVec.ofNat 5 (bitsAt n 53 5),
    route := BitVec.ofNat 40 (bitsAt n 13 40), self := n.testBit 12 }

/-- A link die (10 R281, R287): its epoch and its route memory. The entry of (group g, member m) is at 4096g + m; the
run tables are keyed by group, each run its first tile and its logical core. -/
structure LinkDie where
  epoch : BitVec 32 := 0
  routes : FMap Route := []
  ownerRuns : FMap (List (Nat × Nat)) := []
  homeRuns : FMap (List (Nat × Nat)) := []
  /-- the place of a group's first home run in the home-run table (08 R217) -/
  homeFirst : FMap Nat := []
  /-- the mask of member ports of bond b (R284) -/
  bonds : FMap (BitVec 24) := []
  /-- words written behind the runs of a group, which no lookup reads (R281) -/
  spare : FMap (BitVec 64) := []
  deriving DecidableEq, Repr

/-- 08 R210: a run-table entry's 64 bits: its first tile, its logical core. -/
def runBits (r : Nat × Nat) : Nat := r.1 % 2 ^ 32 * 2 ^ 32 + r.2 % 512

/-- 08 R210: a run-table entry read from its 64 bits. -/
def runOf (v : BitVec 64) : Nat × Nat := (bitsAt v.toNat 32 32, bitsAt v.toNat 0 9)

/-- 08 R217: the group whose home runs hold entry `j` of the home-run table, and the entry's place among them. -/
def LinkDie.homeAt (x : LinkDie) (j : Nat) : Option (Nat × Nat) :=
  (x.homeRuns.find? (fun e => decide (x.homeFirst.get 0 e.1 ≤ j) && decide (j < x.homeFirst.get 0 e.1 + e.2.length))).map
    (fun e => (e.1, j - x.homeFirst.get 0 e.1))

/-- R281: the 8-byte entry `k` of the route memory behind the route entries: the owner-run tables of 512 entries a group, the home-run
table, the bond table. R281 gives their sizes and no places: they stand in the order it names them in, an owner-run table at 4 KiB times
its group, a bond in 8 bytes (DESIGN CHOICE, log 108). -/
def LinkDie.runWord (x : LinkDie) (k : Nat) : Nat :=
  if k < 131072 then (match (x.ownerRuns.get [] (k / 512))[k % 512]? with | some r => runBits r | none => (x.spare.get 0 k).toNat)
  else if k < 262144 then
    match x.homeAt (k - 131072) with
    | some (g, i) => (match (x.homeRuns.get [] g)[i]? with | some r => runBits r | none => 0)
    | none => (x.spare.get 0 k).toNat
  else (x.bonds.get 0 (k - 262144)).toNat

/-- A word behind the runs of a group is held as it is written; its reserved bits read 0. -/
def LinkDie.setSpare (x : LinkDie) (k : Nat) (v : BitVec 64) : LinkDie :=
  { x with spare := FMap.set 0 x.spare k (BitVec.ofNat 64 (runBits (runOf v))) }

/-- R281: that entry written; it takes effect between two packets. -/
def LinkDie.setRunWord (x : LinkDie) (k : Nat) (v : BitVec 64) : LinkDie :=
  if k < 131072 then
    let l := x.ownerRuns.get [] (k / 512)
    if k % 512 < l.length then { x with ownerRuns := FMap.set [] x.ownerRuns (k / 512) (listSet l (k % 512) (runOf v)) } else x.setSpare k v
  else if k < 262144 then
    match x.homeAt (k - 131072) with
    | some (g, i) => { x with homeRuns := FMap.set [] x.homeRuns g (listSet (x.homeRuns.get [] g) i (runOf v)) }
    | none => x.setSpare k v
  else if k < 262152 then { x with bonds := FMap.set 0 x.bonds (k - 262144) (v.setWidth 24) } else x

/-- Table 10.12: KLP.STATE. -/
inductive PortState where
  | disabled | signal | equalise | lock | exchange | up | retrain | down | loopback
  deriving DecidableEq, Repr

/-- Table 10.12: the code of a port state. -/
def PortState.code : PortState → Nat
  | .disabled => 0 | .signal => 1 | .equalise => 2 | .lock => 3 | .exchange => 4 | .up => 5 | .retrain => 6 | .down => 7
  | .loopback => 8

/-- 08 R233: whether a packet is counted apart from the transfer counts of 05 R140: a NOTICE, a RESCALE, a segment of a round after 0. -/
def Packet.apart (x : Packet) : Bool :=
  let rc := Rc.ofBytes x.payload
  decide (x.cls = 2) && (decide (rc.kind = 1) || decide (rc.kind = 2) || (decide (rc.kind = 0) && decide (rc.round ≠ 0)))

/-- Table 10.4: an exchange block; its reserved bits are 0. -/
structure ExBlock where
  magic : BitVec 32 := 0
  moduleId : BitVec 64 := 0
  major : BitVec 8 := 0
  maxMinor : BitVec 8 := 0
  port : BitVec 8 := 0
  lanes : BitVec 8 := 0
  cred : List (BitVec 16) := []
  acked : Bool := false
  crc : BitVec 32 := 0
  deriving DecidableEq, Repr

/-- Table 10.4's bits above EX.CRC. -/
def ExBlock.upper (b : ExBlock) : Nat :=
  b.magic.toNat * 2 ^ 448 + b.moduleId.toNat * 2 ^ 384 + b.major.toNat * 2 ^ 376 + b.maxMinor.toNat * 2 ^ 368 + b.port.toNat * 2 ^ 360 +
    b.lanes.toNat * 2 ^ 352 +
    ((List.range 5).map (fun n => (b.cred.getD n 0).toNat * 2 ^ (336 - 16 * n))).sum + bitOf b.acked * 2 ^ 271

/-- Table 10.4: the CRC-32 of R277 over bits [511:32]. -/
def ExBlock.crcOf (b : ExBlock) : BitVec 32 := crc32 (bytesOf b.upper 60)

/-- Table 10.4's 64 bytes. -/
def ExBlock.bytes (b : ExBlock) : List Byte := bytesOf (b.upper * 2 ^ 32 + b.crc.toNat) 64

/-- R269, Table 10.2: a flit: the fields of its link control word, the headers in its slots with the offsets of their payloads in
32-byte units, and its data field (zeros beyond the list). -/
structure Flit where
  seq : BitVec 12 := 0
  ack : BitVec 12 := 0
  nak : Bool := false
  credits : List Nat := []
  heads : List (Packet × Nat) := []
  data : List Byte := []
  crc : BitVec 32 := 0
  deriving DecidableEq, Repr

/-- Table 10.2: the link control word, with a value of FL.CRC. -/
def Flit.control (f : Flit) (crc : Nat) : Nat :=
  f.seq.toNat * 2 ^ 116 + f.ack.toNat * 2 ^ 104 + bitOf f.nak * 2 ^ 103 + f.heads.length % 4 * 2 ^ 101 +
    placeFields 80 7 ((f.heads.take 3).map Prod.snd) + placeFields 40 8 (f.credits.take 5) + crc

/-- R269: a flit's 2,160 bytes, with a value of FL.CRC: the data field, the link control word, the three header slots, in the order in
which R269 names them (DEDUCED, log 101). -/
def Flit.bytes (f : Flit) (crc : Nat) : List Byte :=
  let slot (n : Nat) : List Byte := match f.heads[n]? with
    | some h => bytesOf (h.1.header h.1.crc.toNat h.1.hop.toNat) 32
    | none => List.replicate 32 0
  (f.data.take 2048 ++ List.replicate (2048 - f.data.length) 0) ++ (bytesOf (f.control crc) 16 ++ (slot 0 ++ (slot 1 ++ slot 2)))

/-- Table 10.2: FL.CRC: the CRC-32 of R277 over the whole flit, with the field taken as zero. -/
def Flit.crcOf (f : Flit) : BitVec 32 := crc32 (f.bytes 0)

/-- The flit with its FL.CRC. -/
def Flit.sealed (f : Flit) : Flit := { f with crc := f.crcOf }

/-- What FEC and FL.CRC find in a flit that carries an exchange block (R270, R294): the symbols corrected, the codewords that could not be,
and whether FL.CRC is wrong. -/
structure FlitCheck where
  corrected : Nat := 0
  uncorr : Nat := 0
  crcWrong : Bool := false
  deriving DecidableEq, Repr

/-- A port (Tables 10.11 to 10.13) with its replay, credit and packet buffers (R269 to R272). -/
structure Port where
  enable : Bool := false
  retrainReq : Bool := false
  fwdEn : Bool := false
  degradeEn : Bool := false
  loopback : BitVec 2 := 0
  maxVer : BitVec 2 := 2
  snapFloor : BitVec 4 := 0
  state : PortState := .disabled
  lanes : BitVec 8 := 0
  peerPort : BitVec 5 := 0
  ver : BitVec 2 := 0
  degraded : Bool := false
  peerId : BitVec 64 := 0
  replayTo : BitVec 32 := 4096
  aheadLimit : BitVec 32 := 24
  counters : FMap (BitVec 64) := []
  /-- packets started that 05 R140 counts, and those counted apart from them (08 R233) -/
  transfers : BitVec 64 := 0
  apart : BitVec 64 := 0
  /-- failed attempts of this training, whether it is a retrain, the phase it has reached, and the exchange -/
  attempts : Nat := 0
  retraining : Bool := false
  phase : BitVec 2 := 0
  /-- the minor version offered in the training under way or the last one (EX.MAX_MINOR) -/
  offer : BitVec 2 := 2
  /-- the transmitter coefficients of the lanes, those last in use once trained; the next training from signal detect starts from them
  (16 Table 16.3); how many equalisations there have been -/
  coefs : List (BitVec 44) := []
  keepCoefs : Bool := false
  trainings : Nat := 0
  lastBlock : Option ExBlock := none
  sameBlocks : Nat := 0
  acked : Bool := false
  /-- a block with EX.ACKED = 1 has been sent, and one received -/
  sentAcked : Bool := false
  peerAcked : Bool := false
  -- sender
  txSeq : BitVec 12 := 0
  replay : List Flit := []
  resend : List Flit := []
  /-- the link control word last sent -/
  lastSent : Flit := {}
  txCredits : List Nat := []
  queue : List Packet := []
  rest : List Byte := []
  /-- the VC that took the latest round-robin turn, and the window of R272 -/
  turn : Nat := 3
  starts : Nat := 0
  starts4 : Nat := 0
  -- receiver
  rxSeq : BitVec 12 := 0
  nakPending : Bool := false
  nakSent : Bool := false
  returns : List Nat := []
  /-- packets started of which the peer has not acknowledged every flit, with the flit that carries the last byte once it has been sent -/
  unacked : List (Packet × Option (BitVec 12)) := []
  /-- header and payload bytes of the packets whose payload has not all arrived -/
  partials : List (Packet × List Byte) := []
  /-- intact packets in the VC buffers, in arrival order, and whether each was found ahead (R288) -/
  received : List (Packet × Bool) := []
  /-- FL.NAK has been read and not acted on; how often each unacknowledged flit has been sent again (R290) -/
  nakRead : Bool := false
  resent : FMap Nat := []
  deriving DecidableEq, Repr

end Sys2Proof.Machine
end

