-- ==== Sys2Proof/Machine/StreamTypes.lean ====
section
/-! DEFINITION. Stream contexts (06) and tower memory (09 R237 to R257). -/

namespace Sys2Proof.Machine

/-- A stream context: 6c + i for context Si of core c, and 4096 + 16t + 4m + j for context Cj of mover m of tower t. -/
abbrev CtxKey := Fin 4608

/-- Whether a key names a context (Table 06.1). -/
def ctxExists (k : Nat) : Bool := decide (k < 3072) || decide (4096 ≤ k)

/-- Table 06.8: STR.STATE. -/
inductive StrState where
  | idle | running | serialWait | halting | halted | disabling | disabled
  deriving DecidableEq, Repr

/-- Table 06.5: DESC.KIND. -/
inductive StrKind where
  | inLoad | outStore | ringRecv | copy
  deriving DecidableEq, Repr

/-- Whether a kind is COPY. -/
def StrKind.isCopy : StrKind → Bool
  | .copy => true
  | _ => false

/-- Whether a kind sends a core's bytes. -/
def StrKind.isOut : StrKind → Bool
  | .outStore => true
  | _ => false

/-- Whether a kind brings bytes into a core. -/
def StrKind.isIn : StrKind → Bool
  | .inLoad | .ringRecv => true
  | _ => false

/-- A stream descriptor (06 R160). -/
structure Desc where
  words : List (BitVec 32) := []
  areg : List (BitVec 64) := []
  saveArea : BitVec 48 := 0
  bufOffset : Nat := 0
  bufSize : Nat := 0
  teeOffset : Nat := 0
  relBase : Nat := 0
  relPeriod : Nat := 0
  operator : BitVec 24 := 0
  timeout : BitVec 8 := 0
  mergeHold : Nat := 0
  plLead : Bool := false
  tee : Bool := false
  release : Bool := false
  store : BitVec 2 := 0
  kind : StrKind := .inLoad
  deriving DecidableEq, Repr

/-- R155: a generator's program state; a PC of 16 is past the end. -/
structure Gen where
  pc : Nat := 0
  dims : List (BitVec 32 × BitVec 32) := List.replicate 6 (0, 0)
  areg : List (BitVec 64) := List.replicate 8 0
  len : BitVec 32 := 0
  plen : BitVec 32 := 0
  plLast : Bool := false
  plValid : Bool := false
  ended : Bool := false
  deriving DecidableEq, Repr

/-- A request that has issued and not retired (R154), or that the merge buffer holds (R162). -/
structure StrReq where
  addr : BitVec 64 := 0
  /-- the destination of a COPY request -/
  dst : BitVec 64 := 0
  len : Nat := 0
  /-- delivery position of its first byte, counted from the descriptor's activation -/
  pos : Nat := 0
  /-- number among the requests of the step (R161) -/
  index : Nat := 0
  /-- bytes read so far, by offset -/
  data : FMap (Option Byte) := []
  /-- offsets of the pieces whose write is acknowledged, with their lengths -/
  acked : List (Nat × Nat) := []
  /-- lines that have reached their channel: offsets of those read and of those written (R22) -/
  asked : List Nat := []
  told : List Nat := []
  /-- a refusal that the request met on its way, whose response has not come yet: its code, its first faulting byte and whether that
  lies at the destination of a COPY -/
  refused : Option (BitVec 16 × BitVec 64 × Bool) := none
  fault : Option (BitVec 16) := none
  faultAddr : BitVec 64 := 0
  faultDst : Bool := false
  /-- completed already before a halt (R169 step 4) -/
  already : Bool := false
  /-- the read of a PLFETCH or BFETCH (R157) -/
  serial : Bool := false
  /-- the hub's read of the host window behind the request has come back (R177) -/
  backed : Bool := false
  /-- the hub has sent the request, or a part of it, to the host (11 R315) -/
  sent : Bool := false
  /-- the generator after the request's last EMIT: what the retire generator reaches when it retires -/
  after : Gen := {}
  deriving DecidableEq, Repr

/-- What a resume knows of the requests issued after the faulted one: the end of their positions and which were done
(R169). -/
structure Cover where
  start : Nat := 0
  stop : Nat := 0
  done : Bool := false
  deriving DecidableEq, Repr

/-- What a response brings to a request: bytes read, the acknowledgement of bytes written, or a refusal. -/
inductive Answer where
  | data (bytes : List Byte)
  | ack (n : Nat)
  | refused (code : BitVec 16) (addr : BitVec 64) (dst : Bool)
  deriving DecidableEq, Repr

/-- A response to a context: the delivery position of its request, the offset of the piece, what it brings. -/
structure Response where
  pos : Nat := 0
  off : Nat := 0
  answer : Answer := .ack 0
  deriving DecidableEq, Repr

/-- A stream context. -/
structure Ctx where
  disableMode : Bool := false
  disableReq : Bool := false
  /-- the disable request in force abandons (R166, 15 R421) -/
  abandoned : Bool := false
  enable : Bool := false
  state : StrState := .idle
  faultCode : BitVec 16 := 0
  lastResult : BitVec 2 := 0
  rearmRefused : Bool := false
  active : BitVec 64 := 0
  shadow : BitVec 64 := 0
  desc : Desc := {}
  gen : Gen := {}
  merge : Option StrReq := none
  issued : List StrReq := []
  /-- delivery position of the next emitted byte, and of the first byte not retired -/
  emitPos : Nat := 0
  deliverPos : Nat := 0
  /-- bytes of the region freed by their consumers since activation, or, for an output, written by their producers -/
  moved : Nat := 0
  /-- what has been written in the core's stores and not been taken as source bytes of an output descriptor yet: store, offset, number -/
  wrote : List (BitVec 2 × Nat × Nat) := []
  /-- bytes of earlier descriptors that their consumers have not freed, oldest first: store, offset, number (R154) -/
  olds : List (BitVec 2 × Nat × Nat) := []
  /-- requests issued in the step (R161) -/
  stepIndex : Nat := 0
  /-- the halting fault's first faulting byte -/
  faultAddr : BitVec 64 := 0
  settled : Bool := false
  saveTrusted : Bool := false
  /-- what a resume knows of the requests that were issued before the halt (R169) -/
  covers : List Cover := []
  /-- bytes that had arrived behind a faulted request, in place at their delivery positions (R169 step 4) -/
  placed : FMap (Option Byte) := []
  /-- responses that wait at the crossing into the context's island, whose clock is stopped (R35, R172) -/
  waiting : List Response := []
  /-- the destination of the faulted COPY request's remainder -/
  copyDst : BitVec 64 := 0
  deriving DecidableEq, Repr

/-- R154: the ranges of the store that `n` bytes of a circular region from a position take. -/
def Desc.ranges (d : Desc) (pos n : Nat) : List (BitVec 2 × Nat × Nat) :=
  if n = 0 || d.bufSize = 0 then []
  else
    let o := pos % d.bufSize
    let first := min n (d.bufSize - o)
    (d.store, d.bufOffset + o, first) :: (if first < n then [(d.store, d.bufOffset, n - first)] else [])

/-- Whether two ranges of stores are apart. -/
def apart (a b : BitVec 2 × Nat × Nat) : Bool :=
  decide (a.1 ≠ b.1) || decide (a.2.1 + a.2.2 ≤ b.2.1) || decide (b.2.1 + b.2.2 ≤ a.2.1)

/-- A range of a store without what another has of it. -/
def cutRange (r c : BitVec 2 × Nat × Nat) : List (BitVec 2 × Nat × Nat) :=
  if apart r c then [r]
  else
    (if r.2.1 < c.2.1 then [(r.1, r.2.1, c.2.1 - r.2.1)] else []) ++
      (if c.2.1 + c.2.2 < r.2.1 + r.2.2 then [(r.1, c.2.1 + c.2.2, r.2.1 + r.2.2 - (c.2.1 + c.2.2))] else [])

/-- Ranges without what others have of them. -/
def cutRanges (l cs : List (BitVec 2 × Nat × Nat)) : List (BitVec 2 × Nat × Nat) :=
  cs.foldl (fun a c => a.flatMap (fun r => cutRange r c)) l

/-- R154: the bytes of an input context's region that have been delivered and not freed. -/
def Ctx.unread (x : Ctx) : List (BitVec 2 × Nat × Nat) :=
  if x.desc.kind.isIn then x.desc.ranges x.moved (x.deliverPos - x.moved) else []

/-- R154: the bytes of a context's region that are still to be read: delivered to an input's and not freed, those of earlier descriptors
too, or written for an output and not sent. -/
def Ctx.toRead (x : Ctx) : List (BitVec 2 × Nat × Nat) :=
  x.olds ++ x.unread ++ (if x.desc.kind.isOut && decide (x.active ≠ 0) then x.desc.ranges x.deliverPos (x.moved - x.deliverPos) else [])

/-- Table 09.2: an address map entry. -/
structure Amap where
  jobPage : BitVec 27 := 0
  pages : BitVec 21 := 0
  tower : BitVec 5 := 0
  pairFirst : BitVec 4 := 0
  pairSpan : BitVec 5 := 0
  frameBase : BitVec 12 := 0
  valid : Bool := false
  deriving DecidableEq, Repr

/-- Table 09.3: FT.PROT. -/
inductive Prot where
  | ro | rw | cowPending | reserved
  deriving DecidableEq, Repr

/-- Table 09.3: a frame table entry. -/
structure Frame where
  jobPage : BitVec 27 := 0
  prot : Prot := .ro
  present : Bool := false
  touched : Bool := false
  part : BitVec 2 := 0
  deriving DecidableEq, Repr

/-- Table 09.3: FT.PROT's code. -/
def Prot.code : Prot → Nat | .ro => 0 | .rw => 1 | .cowPending => 2 | .reserved => 3

/-- Table 09.3: a frame table entry's 64 bits. -/
def Frame.bits (f : Frame) : Nat :=
  f.part.toNat * 2 ^ 31 + bitOf f.touched * 2 ^ 33 + bitOf f.present * 2 ^ 34 + f.prot.code * 2 ^ 35 + f.jobPage.toNat * 2 ^ 37

/-- Who sent a request to a channel. -/
inductive ReqSrc where
  /-- a stream context: its request (delivery position of its first byte) and the offset of the piece -/
  | stream (k : Nat) (pos off : Nat) (write : Bool)
  /-- the host endpoint, one source (R248) -/
  | host
  /-- the reduction port of a core -/
  | port (core : Nat)
  /-- the snapshot copier -/
  | copier
  /-- a module controller, where no core's port is the sender (R248) -/
  | control
  deriving DecidableEq, Repr

/-- What a request does to one line or part of it (R239, R257). -/
inductive MemAct where
  | read (n : Nat)
  | write (bytes : List Byte)
  | memside (code : BitVec 4) (mask : BitVec 64) (operand : List Byte)
  deriving DecidableEq, Repr

/-- What the channel code finds when a line is read (Table 09.5), which the DRAM decides. -/
inductive LineFound where
  | good | corrected | bad
  deriving DecidableEq, Repr

/-- A request at a channel controller. -/
structure MemReq where
  src : ReqSrc := .host
  part : BitVec 2 := 0
  page : BitVec 27 := 0
  /-- the frame, 3,072p + f within its tower -/
  frame : Nat := 0
  /-- channel byte address -/
  addr : Nat := 0
  act : MemAct := .read 0
  /-- its refusal made the controller refuse its source (R248) -/
  retry : Bool := false
  /-- what the channel code finds in its line when a held request is applied (R254) -/
  found : LineFound := .good
  deriving DecidableEq, Repr

/-- What reaches the far end of a request: at a channel controller, a piece of a stream context's outstanding request that lies in one
line, or a line request of a core's mesh port at a job address; at the hub or a ring's next core, a part of a request outside partition
memory, with the bytes that the host answers a read with; the end of the hub's read behind posted writes (06 R177); the hub's sending of a
request to the host (11 R315). -/
inductive ChanArrival where
  | stream (k : CtxKey) (request : Fin 32) (off : Nat) (write : Bool)
  | port (core : CoreId) (addr : BitVec 48) (act : MemAct)
  | external (k : CtxKey) (request : Fin 32) (second write : Bool) (host : List Byte)
  | readBack (k : CtxKey) (request : Fin 32)
  | hostSend (k : CtxKey) (request : Fin 32)
  deriving DecidableEq, Repr

/-- 09 R263: a far page being resolved: the device page taken, none while it waits for one. -/
structure FarRes where
  port : Nat := 0
  page : Nat := 0
  dpa : Option Nat := none
  deriving DecidableEq, Repr

/-- 09 R261: a device page in use: the partition and far page that hold it. -/
structure FarUse where
  part : Nat := 0
  page : Nat := 0
  dpa : Nat := 0
  deriving DecidableEq, Repr

/-- A CXL root port of the hub: its link, its device pages and those in use. -/
structure CxlPort where
  linkUp : Bool := false
  pages : Nat := 0
  used : List FarUse := []
  deriving DecidableEq, Repr

/-- A DRAM channel (Table 09.6) with its hold buffer (R247) and the sources it refuses (R248). -/
structure Channel where
  temp : BitVec 8 := 0
  selfRef : Bool := false
  ref2x : Bool := false
  poisonSeen : Bool := false
  ceCount : BitVec 32 := 0
  odeccCount : BitVec 32 := 0
  ueCount : BitVec 32 := 0
  retryCount : BitVec 32 := 0
  scrubPasses : BitVec 64 := 0
  lastUeAddr : BitVec 64 := 0
  hold : List MemReq := []
  /-- refused requests in the order of their refusal, one list over the sources -/
  refused : List MemReq := []
  /-- refresh slots run, and row the next scrub slot reads -/
  refreshSlot : Nat := 0
  scrubRow : Nat := 0
  /-- line addresses that are poisoned -/
  poisoned : List Nat := []
  deriving DecidableEq, Repr

end Sys2Proof.Machine
end

