-- ==== Sys2Proof/Config.lean ====
section
/-! DEFINITION. What an implementation of the part fixes, and the free values: constants without a body
that stand where the spec leaves a value open. -/

namespace Sys2Proof.Config

/-- R87: whether the faithfully rounded result of the function numbered `fn` (0 exp2, 1 log2, 2 recip, 3 rsqrt, 4 sqrt)
at the FP32 pattern `x` is the neighbour above the exact value. Nothing constrains it. DESIGN CHOICE, log 7. -/
opaque faithfulUp (fn : Nat) (x : Word32) : Bool

/-- 03 Table 03.7: the word that a compare of the vector unit writes for a truth value; the spec states none. Log 20. -/
opaque compareWord (b : Bool) : Word32

/-- 07 R194: the maximum of a row with no element, which the operator defines and the spec does not. Log 20. -/
opaque emptyMax : Word32

/-- 13 R355: a byte of a core store that nothing has written since reset number `epoch` of the core. Log 5. -/
opaque freeStoreByte (epoch : Nat) (core store offset : Nat) : Byte

/-- A truth value the spec leaves open (19 R469), drawn by a counter of the state. Log 9. -/
opaque freeBit (n : Nat) : Bool

/-- A 64-bit value the spec leaves open (14 R393: DBG.CHALLENGE), drawn by a counter of the state. Log 9. -/
opaque freeWord64 (n : Nat) : Word64

/-- A byte the spec leaves open, byte `i` of the draw `n` of a counter of the state. Log 9. -/
opaque freeByte (n i : Nat) : Byte

/-- 14 R386: byte `i` of the Falcon-1024 signature of a message, made as draw `n` with a private key of the module (`meter` false) or of its
meter. Log 6. -/
opaque signatureByte (meter : Bool) (key : List Byte) (n : Nat) (message : List Byte) (i : Nat) : Byte

/-- 14 R384: the length of that signature, less 1, modulo 1,462. Log 6. -/
opaque signatureLen (meter : Bool) (key : List Byte) (n : Nat) (message : List Byte) : Nat

/-- 11 Table 11.1: Talarpa's PCI-SIG vendor ID, one fixed number that the spec does not state. Log 98. -/
opaque vendorId : BitVec 16

/-- 01 R22: which of the two routers of a bridge port (`side` of `die`) a packet from the router (x, y) crosses at. Log 87. -/
opaque bridgeChoice (die side x y : Nat) : Bool

/-- 16 R437, Table 16.9: whether transmitter coefficients lie within the bounds that the factory block gives a lane; the spec gives neither
the coefficients nor the bounds a form. Log 112. -/
opaque presetFits (bounds : BitVec 64) (value : BitVec 44) : Bool

/-- 10 R273: the transmitter coefficients that the standard's update protocol leaves in a lane (8P + l) that starts from `start` at its
port's training number `n`. Log 113. -/
opaque trainedCoef (lane n : Nat) (start : BitVec 44) : BitVec 44

end Sys2Proof.Config
end

