-- ==== Sys2Proof/Machine/Formats.lean ====
section
/-! DEFINITION. Number formats (02 R37 to R41, R44), exact values, and the one rounding of a drain or conversion
(02 R55, R57, R61). -/

namespace Sys2Proof.Machine

/-- The element formats of Table 02.1, in the order of their codes. -/
inductive Fmt where
  | fp32 | bf16 | e4m3 | e5m2 | fp4 | int8 | int32 | int24 | ue5m3
  deriving DecidableEq, Repr

/-- Table 02.1: the format of a code; codes 0x9 to 0xF are reserved. -/
def Fmt.ofCode (n : Nat) : Option Fmt :=
  match n with
  | 0 => some .fp32 | 1 => some .bf16 | 2 => some .e4m3 | 3 => some .e5m2 | 4 => some .fp4
  | 5 => some .int8 | 6 => some .int32 | 7 => some .int24 | 8 => some .ue5m3 | _ => none

/-- Table 02.1: the code of a format. -/
def Fmt.code : Fmt → Nat
  | .fp32 => 0 | .bf16 => 1 | .e4m3 => 2 | .e5m2 => 3 | .fp4 => 4 | .int8 => 5 | .int32 => 6 | .int24 => 7
  | .ue5m3 => 8

/-- Bits of one element (Table 02.1). -/
def Fmt.bits : Fmt → Nat
  | .fp32 => 32 | .bf16 => 16 | .e4m3 => 8 | .e5m2 => 8 | .fp4 => 4 | .int8 => 8 | .int32 => 32 | .int24 => 24
  | .ue5m3 => 8

/-- Mantissa bits of a floating format (0 for the integer formats). -/
def Fmt.man : Fmt → Nat
  | .fp32 => 23 | .bf16 => 7 | .e4m3 => 3 | .e5m2 => 2 | .fp4 => 1 | .ue5m3 => 3 | _ => 0

/-- Exponent bias of a floating format. -/
def Fmt.bias : Fmt → Nat
  | .fp32 => 127 | .bf16 => 127 | .e4m3 => 7 | .e5m2 => 15 | .fp4 => 1 | .ue5m3 => 15 | _ => 0

/-- The pattern, without its sign bit, of the largest finite magnitude (Table 02.1). -/
def Fmt.maxCode : Fmt → Nat
  | .fp32 => 0x7F7FFFFF | .bf16 => 0x7F7F | .e4m3 => 0x7E | .e5m2 => 0x7B | .fp4 => 0x7 | .ue5m3 => 0xFE
  | .int8 => 127 | .int32 => 2 ^ 31 - 1 | .int24 => 2 ^ 23 - 1

/-- Weight of the sign bit in the pattern; UE5M3 has no sign. -/
def Fmt.signBit : Fmt → Nat
  | .ue5m3 => 0
  | f => 2 ^ (f.bits - 1)

/-- A decoded element: NaN, an infinity, or the finite value (-1)^neg × man × 2^exp. -/
inductive Val where
  | nan
  | inf (neg : Bool)
  | fin (neg : Bool) (man : Nat) (exp : Int)
  deriving DecidableEq, Repr

/-- The finite value of a magnitude pattern (R38). -/
def finOfCode (f : Fmt) (neg : Bool) (mag : Nat) : Val :=
  let m := f.man
  let e := mag / 2 ^ m
  let frac := mag % 2 ^ m
  if e = 0 then .fin neg frac (1 - (f.bias : Int) - (m : Int))
  else .fin neg (2 ^ m + frac) ((e : Int) - (f.bias : Int) - (m : Int))

/-- A two's complement pattern of `w` bits as an integer. -/
def signedOf (w n : Nat) : Int :=
  let k := n % 2 ^ w
  if k < 2 ^ (w - 1) then (k : Int) else (k : Int) - (2 ^ w : Nat)

/-- An integer as a finite value. -/
def Val.ofInt (z : Int) : Val := .fin (decide (z < 0)) z.natAbs 0

/-- R38, R44: the value of an element's pattern, block scale not applied. -/
def decodeElem (f : Fmt) (n : Nat) : Val :=
  match f with
  | .int8 => Val.ofInt (signedOf 8 n)
  | .int32 => Val.ofInt (signedOf 32 n)
  | .int24 =>
    let z := signedOf 24 n
    -- R44: the code 0x80_0000 is read as -(2^23 - 1)
    Val.ofInt (if z = -(2 ^ 23 : Int) then -(2 ^ 23 - 1 : Int) else z)
  | .ue5m3 => if n % 256 = 0xFF then .nan else finOfCode .ue5m3 false (n % 256)
  | .fp4 => finOfCode .fp4 (decide (n % 16 ≥ 8)) (n % 8)
  | .e4m3 => if n % 128 = 0x7F then .nan else finOfCode .e4m3 (decide (n % 256 ≥ 128)) (n % 128)
  | .e5m2 =>
    let mag := n % 128
    let neg := decide (n % 256 ≥ 128)
    if mag = 0x7C then .inf neg else if mag > 0x7C then .nan else finOfCode .e5m2 neg mag
  | .bf16 =>
    let mag := n % 2 ^ 15
    let neg := decide (n % 2 ^ 16 ≥ 2 ^ 15)
    if mag = 0x7F80 then .inf neg else if mag > 0x7F80 then .nan else finOfCode .bf16 neg mag
  | .fp32 =>
    let mag := n % 2 ^ 31
    let neg := decide (n % 2 ^ 32 ≥ 2 ^ 31)
    if mag = 0x7F800000 then .inf neg else if mag > 0x7F800000 then .nan else finOfCode .fp32 neg mag

/-- Quotient rounded to nearest, ties to even. -/
def rneDiv (n d : Nat) : Nat :=
  let q := n / d
  let r := n % d
  if 2 * r > d then q + 1 else if 2 * r = d then (if q % 2 = 0 then q else q + 1) else q

/-- The rounding modes of R55 and R61; `sr r` is stochastic with the element's random word `r`; `dn` and `up` are the
two faithful neighbours of R87. -/
inductive RMode where
  | rne
  | sr (r : Nat)
  | dn
  | up
  deriving DecidableEq, Repr

/-- The rounded quotient n / d under a mode (R55, R61 step 4). -/
def roundDiv (mode : RMode) (n d : Nat) : Nat :=
  match mode with
  | .rne => rneDiv n d
  | .dn => n / d
  | .up => ceilDiv n d
  | .sr r =>
    let q := n / d
    let f := (n % d) * 2 ^ 32 / d
    if f + r % 2 ^ 32 ≥ 2 ^ 32 then q + 1 else q

/-- num × 2^e as a pair (numerator, denominator) of naturals. -/
def scalePair (num : Nat) (e : Int) : Nat × Nat :=
  if e < 0 then (num, 2 ^ e.natAbs) else (num * 2 ^ e.natAbs, 1)

/-- ⌊log₂ (n / d)⌋ for n, d > 0. -/
def floorLog2 (n d : Nat) : Int :=
  let g : Int := (Nat.log2 n : Int) - (Nat.log2 d : Int)
  -- n / d lies in (2^(g-1), 2^(g+1))
  if (if g < 0 then n * 2 ^ g.natAbs ≥ d else n ≥ d * 2 ^ g.natAbs) then g else g - 1

/-- The magnitude pattern of n / d × 2^e rounded once into a floating format, with no upper end of the exponent
range (R57). -/
def roundMag (f : Fmt) (mode : RMode) (n d : Nat) (e : Int) : Nat :=
  if n = 0 then 0
  else
    let m := f.man
    let emin : Int := 1 - (f.bias : Int)
    let lg := floorLog2 n d + e
    let u : Int := (if lg < emin then emin else lg) - (m : Int)
    let (a, b) := scalePair n (e - u)
    let q := roundDiv mode a (b * d)
    (((u + (m : Int) + (f.bias : Int)).toNat) * 2 ^ m + q) - 2 ^ m

/-- n / d × 2^e rounded once to an integer magnitude. -/
def roundInt (mode : RMode) (n d : Nat) (e : Int) : Nat :=
  let (a, b) := scalePair n e
  roundDiv mode a (b * d)

/-- What a conversion did besides its result. -/
structure ConvFlags where
  sat : Bool := false
  inf : Bool := false
  nan : Bool := false
  miss : Bool := false
  nonfinite : Bool := false
  deriving DecidableEq, Repr

/-- The flags of two conversions together. -/
def ConvFlags.or (a b : ConvFlags) : ConvFlags :=
  { sat := a.sat || b.sat, inf := a.inf || b.inf, nan := a.nan || b.nan, miss := a.miss || b.miss,
    nonfinite := a.nonfinite || b.nonfinite }

/-- The pattern of a NaN result in a format (Table 02.5; INT formats and FP4 store element 0). -/
def Fmt.nanCode : Fmt → Nat
  | .fp32 => 0x7FC00000 | .bf16 => 0x7FC0 | .e4m3 => 0x7F | .e5m2 => 0x7E | .ue5m3 => 0xFF | _ => 0

/-- A two's complement pattern of `w` bits. -/
def patOfInt (w : Nat) (z : Int) : Nat := (z % ((2 ^ w : Nat) : Int)).toNat

/-- R57, Table 02.5: the pattern of an exact value, man / den × 2^exp with sign, NaN or infinity, in a target format
after one rounding, and the flags it sets. The block scale has been divided out already. -/
def convert (f : Fmt) (mode : RMode) (v : Val) (den : Nat) : Nat × ConvFlags :=
  match f with
  | .fp32 | .bf16 | .e5m2 =>
    let infCode := f.maxCode + 1
    match v with
    | .nan => (f.nanCode, { nan := true })
    | .inf neg => (infCode + (if neg then f.signBit else 0), { inf := true })
    | .fin neg man exp =>
      let c := roundMag f mode man den exp
      let s := if neg then f.signBit else 0
      if c > f.maxCode then (infCode + s, { inf := true }) else (c + s, {})
  | .e4m3 | .fp4 =>
    match v with
    | .nan => (f.nanCode, { nan := true })
    | .inf neg => (f.maxCode + (if neg then f.signBit else 0), { sat := true })
    | .fin neg man exp =>
      let c := roundMag f mode man den exp
      let s := if neg then f.signBit else 0
      if c > f.maxCode then (f.maxCode + s, { sat := true }) else (c + s, {})
  | .ue5m3 =>
    match v with
    | .nan => (0xFF, { nan := true })
    | .inf neg => if neg then (0xFF, { nan := true }) else (f.maxCode, { sat := true })
    | .fin neg man exp =>
      if neg && man ≠ 0 then (0xFF, { nan := true })
      else
        let c := roundMag f mode man den exp
        if c > f.maxCode then (f.maxCode, { sat := true }) else (c, {})
  | .int8 | .int32 =>
    match v with
    | .nan => (0, { nan := true })
    | .inf neg => (patOfInt f.bits (if neg then -(f.maxCode : Int) else f.maxCode), { sat := true })
    | .fin neg man exp =>
      let c := roundInt mode man den exp
      let c' := if c > f.maxCode then f.maxCode else c
      (patOfInt f.bits (if neg then -(c' : Int) else c'), { sat := decide (c > f.maxCode) })
  | .int24 =>
    match v with
    | .nan => (0, { nonfinite := true })
    | .inf _ => (0, { nonfinite := true })
    | .fin neg man exp =>
      let c := roundInt mode man den exp
      let c' := if c > f.maxCode then f.maxCode else c
      (patOfInt 24 (if neg then -(c' : Int) else c'), { miss := decide (c > f.maxCode) })

/-- R41: the exponent of an E8M0 scale byte; 0xFF is NaN. -/
def e8m0 (b : Nat) : Option Int := if b % 256 = 0xFF then none else some ((b % 256 : Nat) - 127 : Int)

/-- A value times 2^k. -/
def Val.scale (v : Val) (k : Int) : Val :=
  match v with
  | .fin neg man exp => .fin neg man (exp + k)
  | w => w

/-- R188: an element widened exactly, with its block scale. -/
def widen (f : Fmt) (code scaleByte : Nat) : Val :=
  match e8m0 scaleByte with
  | none => .nan
  | some k => (decodeElem f code).scale k

/-- R56 step 2: emax of the block-scaled targets; R205 gives 16 for UE5M3. -/
def Fmt.emax : Fmt → Int
  | .e4m3 => 8 | .e5m2 => 15 | .fp4 => 2 | .ue5m3 => 16 | _ => 0

/-- -127 to 127. -/
def clampX (x : Int) : Int := if x < -127 then -127 else if x > 127 then 127 else x

/-- ⌊log₂⌋ of the largest finite magnitude of a block, if it has a non-zero finite entry. -/
def amaxLog : List Val → Option Int
  | [] => none
  | v :: t =>
    match v, amaxLog t with
    | .fin _ man exp, r =>
      if man = 0 then r
      else
        let g := (Nat.log2 man : Int) + exp
        match r with
        | none => some g
        | some h => some (if g < h then h else g)
    | _, r => r

/-- R56 step 2 with the tensor shift: the block's scale exponent X. -/
def blockX (f : Fmt) (shift : Int) (vs : List Val) : Int :=
  let x0 : Int :=
    match amaxLog vs with
    | some g => clampX (g - f.emax)
    | none => if f = .e5m2 && vs.any (fun v => match v with | .inf _ => true | _ => false) then 0 else -127
  if shift = 0 then x0 else clampX (x0 + shift)

/-- R56: a block's scale byte and, for each element, its pattern and flags; `modes` gives each element's rounding. Which flags the
elements of an FP4 block with a NaN set besides NAN_SEEN the spec does not say: an infinite one sets SAT_SEEN as its own row of Table 02.5
gives, a finite one none, since the zero that is written for it lies in range (DESIGN CHOICE, log 91). What a UE5M3 block with a negative
input writes beside that element's 0xFF the spec does not say either: the block keeps an ordinary scale byte, and the negative magnitude
counts in its amax (DESIGN CHOICE, log 106). -/
def convertBlock (f : Fmt) (shift : Int) (vs : List Val) (modes : List RMode) : Nat × List (Nat × ConvFlags) :=
  let x := blockX f shift vs
  let hasNan := vs.any (fun v => decide (v = .nan))
  let one (v : Val) (m : RMode) : Nat × ConvFlags :=
    if f = .fp4 && hasNan then
      -- Table 02.5: a block with a NaN has elements 0x0 in FP4
      (0, { nan := decide (v = .nan), sat := match v with | .inf _ => true | _ => false })
    else convert f m (v.scale (-x)) 1
  (if hasNan then 0xFF else (x + 127).toNat, List.zipWith one vs modes)

end Sys2Proof.Machine
end

