-- ==== Sys2Proof/Machine/Fp32.lean ====
section
/-! DEFINITION. FP32 arithmetic (02 R53, R63) and the five functions of 03 R87. -/

namespace Sys2Proof.Machine

abbrev F32 := Word32

/-- The value of an FP32 pattern. -/
def F32.val (x : F32) : Val := decodeElem .fp32 x.toNat

/-- R63: the one NaN result. -/
def f32NaN : F32 := 0x7FC00000

/-- Sign of an FP32 pattern. -/
def F32.neg (x : F32) : Bool := x.getLsbD 31

/-- An infinity. -/
def f32Inf (neg : Bool) : F32 := if neg then 0xFF800000 else 0x7F800000

/-- A zero. -/
def f32Zero (neg : Bool) : F32 := if neg then 0x80000000 else 0

/-- An exact value rounded once to FP32, ties to even; an exact zero takes the sign given. -/
def f32Round (neg : Bool) (man : Nat) (exp : Int) : F32 :=
  if man = 0 then f32Zero neg else BitVec.ofNat 32 (convert .fp32 .rne (.fin neg man exp) 1).1

/-- n × 2^e of a signed mantissa aligned down to exponent `e0` ≤ `e`. -/
def alignTo (neg : Bool) (man : Nat) (e e0 : Int) : Int :=
  let m : Int := (man * 2 ^ (e - e0).toNat : Nat)
  if neg then -m else m

/-- The exact sum of two finite values, rounded once; an exact zero sum is +0 unless both terms are -0 or negative
zeros alike (IEEE 754, ties to even). -/
def finAdd (na : Bool) (ma : Nat) (ea : Int) (nb : Bool) (mb : Nat) (eb : Int) : F32 :=
  let e0 := if ea < eb then ea else eb
  let z := alignTo na ma ea e0 + alignTo nb mb eb e0
  if z = 0 then f32Zero (na && nb && decide (ma = 0) && decide (mb = 0))
  else f32Round (decide (z < 0)) z.natAbs e0

/-- Sum of two decoded values. -/
def valAdd (a b : Val) : F32 :=
  match a, b with
  | .nan, _ => f32NaN
  | _, .nan => f32NaN
  | .inf na, .inf nb => if na = nb then f32Inf na else f32NaN
  | .inf na, .fin _ _ _ => f32Inf na
  | .fin _ _ _, .inf nb => f32Inf nb
  | .fin na ma ea, .fin nb mb eb => finAdd na ma ea nb mb eb

/-- R63: FP32 addition. -/
def f32Add (a b : F32) : F32 := valAdd a.val b.val

/-- The negation of a pattern. -/
def f32Neg (a : F32) : F32 := a ^^^ 0x80000000

/-- R63: FP32 subtraction. -/
def f32Sub (a b : F32) : F32 := valAdd a.val (match b.val with
  | .fin n m e => .fin (!n) m e
  | .inf n => .inf (!n)
  | .nan => .nan)

/-- The exact product of two values, not rounded. -/
def valMul (a b : Val) : Val :=
  match a, b with
  | .nan, _ => .nan
  | _, .nan => .nan
  | .inf na, .inf nb => .inf (na != nb)
  | .inf na, .fin nb mb _ => if mb = 0 then .nan else .inf (na != nb)
  | .fin na ma _, .inf nb => if ma = 0 then .nan else .inf (na != nb)
  | .fin na ma ea, .fin nb mb eb => .fin (na != nb) (ma * mb) (ea + eb)

/-- A value rounded once to FP32. -/
def f32Of (v : Val) : F32 :=
  match v with
  | .nan => f32NaN
  | .inf n => f32Inf n
  | .fin n m e => f32Round n m e

/-- R63: FP32 multiplication. -/
def f32Mul (a b : F32) : F32 := f32Of (valMul a.val b.val)

/-- R63: fused multiply-add a × b + c, one rounding. -/
def f32Fma (a b c : F32) : F32 := valAdd (valMul a.val b.val) c.val

/-- Order of two values, a < b: false where either is NaN (IEEE 754). -/
def valLt (a b : Val) : Bool :=
  match a, b with
  | .nan, _ => false
  | _, .nan => false
  | .inf na, .inf nb => na && !nb
  | .inf na, _ => na
  | _, .inf nb => !nb
  | .fin na ma ea, .fin nb mb eb =>
    let e0 := if ea < eb then ea else eb
    decide (alignTo na ma ea e0 < alignTo nb mb eb e0)

/-- FP32 less-than; false where either is NaN. -/
def f32Lt (a b : F32) : Bool := valLt a.val b.val

/-- R63: maximum, NaN if either is NaN, +0 above -0. -/
def f32Max (a b : F32) : F32 :=
  if a.val = .nan || b.val = .nan then f32NaN
  else if f32Lt a b then b else if f32Lt b a then a else if a.neg then b else a

/-- R63: minimum, NaN if either is NaN, -0 below +0. -/
def f32Min (a b : F32) : F32 :=
  if a.val = .nan || b.val = .nan then f32NaN
  else if f32Lt a b then a else if f32Lt b a then b else if a.neg then a else b

/-- R53 step 2: one level of the fixed pairwise tree. -/
def pairUp (f : F32 → F32 → F32) : List F32 → List F32
  | a :: b :: t => f a b :: pairUp f t
  | t => t

/-- R53 step 2, R194: the fixed pairwise tree over `levels` levels. -/
def pairTree (f : F32 → F32 → F32) : Nat → List F32 → List F32
  | 0, l => l
  | k + 1, l => pairTree f k (pairUp f l)

/-- The tree's single result; the element that stands for an empty row is given. -/
def treeFold (f : F32 → F32 → F32) (z : F32) (l : List F32) : F32 :=
  match pairTree f (Nat.log2 l.length + 1) l with
  | a :: _ => a
  | [] => z

/-- A quotient of two FP32 values, correctly rounded (IEEE 754). -/
def f32Div (a b : F32) : F32 :=
  match a.val, b.val with
  | .nan, _ => f32NaN
  | _, .nan => f32NaN
  | .inf _, .inf _ => f32NaN
  | .inf na, .fin nb _ _ => f32Inf (na != nb)
  | .fin na _ _, .inf nb => f32Zero (na != nb)
  | .fin na ma ea, .fin nb mb eb =>
    if mb = 0 then (if ma = 0 then f32NaN else f32Inf (na != nb))
    else if ma = 0 then f32Zero (na != nb)
    else BitVec.ofNat 32 (convert .fp32 .rne (.fin (na != nb) ma (ea - eb)) mb).1

/-- Integer square root by binary digits: the largest r with r² ≤ n, `k` bits. -/
def isqrtAux (n : Nat) : Nat → Nat → Nat
  | 0, r => r
  | k + 1, r =>
    let r' := r + 2 ^ k
    isqrtAux n k (if r' * r' ≤ n then r' else r)

/-- The integer square root. -/
def isqrt (n : Nat) : Nat := isqrtAux n (Nat.log2 n / 2 + 1) 0

/-- The five functions of Table 03.7's reduced-rate row. -/
inductive VFn where
  | exp2 | log2 | recip | rsqrt | sqrt
  deriving DecidableEq, Repr

/-- The mode that chooses a faithful neighbour (R87). -/
def faithful (fn : Nat) (x : F32) : RMode := if Config.faithfulUp fn x then .up else .dn

/-- R87: reciprocal, within one unit in the last place, the neighbour free (log 7). -/
def f32Recip (x : F32) : F32 :=
  match x.val with
  | .nan => f32NaN
  | .inf n => f32Zero n
  | .fin n m e =>
    if m = 0 then f32Inf n
    else BitVec.ofNat 32 (convert .fp32 (faithful 2 x) (.fin n 1 (-e)) m).1

/-- R87: square root, faithful, the neighbour free (log 7). -/
def f32Sqrt (x : F32) : F32 :=
  match x.val with
  | .nan => f32NaN
  | .inf n => if n then f32NaN else f32Inf false
  | .fin n m e =>
    if m = 0 then f32Zero n
    else if n then f32NaN
    else
      -- m × 2^e = m' × 2^(2h); 60 further bits below, the last of them standing for any remainder
      let h : Int := e / 2
      let m' := m * 2 ^ (e % 2).toNat
      let s := isqrt (m' * 2 ^ 120)
      let t := 2 * s + (if s * s = m' * 2 ^ 120 then 0 else 1)
      BitVec.ofNat 32 (convert .fp32 (faithful 4 x) (.fin false t (h - 61)) 1).1

/-- R87: reciprocal square root, faithful, the neighbour free (log 7). -/
def f32Rsqrt (x : F32) : F32 :=
  match x.val with
  | .nan => f32NaN
  | .inf n => if n then f32NaN else f32Zero false
  | .fin n m e =>
    if m = 0 then f32Inf n
    else if n then f32NaN
    else
      let h : Int := e / 2
      let m' := m * 2 ^ (e % 2).toNat
      -- 1 / sqrt m' with 120 bits: floor sqrt (2^240 / m')
      let q := 2 ^ 240 / m'
      let s := isqrt q
      let t := 2 * s + (if s * s * m' = 2 ^ 240 then 0 else 1)
      BitVec.ofNat 32 (convert .fp32 (faithful 3 x) (.fin false t (-h - 121)) 1).1

/-- An integer within a range, as the exponent of a power of two. -/
def valIsInt (v : Val) : Option Int :=
  match v with
  | .fin n m e =>
    if 0 ≤ e then (if e < 16 then some (if n then -(m * 2 ^ e.toNat : Nat) else (m * 2 ^ e.toNat : Nat)) else none)
    else if m % 2 ^ (-e).toNat = 0 then
      some (if n then -((m / 2 ^ (-e).toNat : Nat) : Int) else (m / 2 ^ (-e).toNat : Nat))
    else none
  | _ => none

/-- The greatest finite FP32 magnitude pattern for which `le` holds, where `le` holds of an initial part of them. -/
def floorPat (le : Nat → Bool) : Nat :=
  (List.range 31).foldl (fun p i =>
    let q := p + 2 ^ (30 - i)
    if decide (q < 0x7F800000) && le q then q else p) 0

/-- The magnitude a × 2^b of a finite FP32 pattern: a, b. -/
def patMag (p : Nat) : Nat × Int :=
  match decodeElem .fp32 p with
  | .fin _ m e => (m, e)
  | _ => (0, 0)

/-- R87: one of the two FP32 neighbours of an exact value between them, `p` being the pattern of the one nearer to zero: which one is
free (log 7). -/
def neighbour (fn : Nat) (x : F32) (neg : Bool) (p : Nat) : F32 :=
  let q := if decide (Config.faithfulUp fn x ≠ neg) then p + 1 else p
  BitVec.ofNat 32 (q + if neg then 2 ^ 31 else 0)

/-- Whether a × 2^b ≤ 2^(n / 2^j). -/
def leExp2 (n : Int) (j : Nat) (p : Nat) : Bool :=
  let (a, b) := patMag p
  let d : Int := b * ((2 ^ j : Nat) : Int) - n
  decide (a ^ 2 ^ j * 2 ^ d.toNat ≤ 2 ^ (-d).toNat)

/-- R87: 2^x. Exact where x is an infinity, or an integer whose power is an FP32 value; else one of the two neighbours, free. -/
def f32Exp2 (x : F32) : F32 :=
  match x.val with
  | .nan => f32NaN
  | .inf n => if n then 0 else f32Inf false
  | .fin n m e =>
    let exact := match valIsInt (.fin n m e) with | some k => decide (-149 ≤ k) && decide (k < 128) | none => false
    if exact then f32Round false 1 ((valIsInt (.fin n m e)).getD 0)
    else if valLt (.fin false 256 0) (.fin false m e) then neighbour 0 x false (if n then 0 else 0x7F7FFFFF)
    else
      let w := m * 2 ^ e.toNat
      let z : Int := if n then -(w : Int) else (w : Int)
      neighbour 0 x false (floorPat (leExp2 z (-e).toNat))

/-- Whether a × 2^b ≤ |log₂ (m × 2^e)|, where `neg` says that the logarithm is negative. -/
def leLog2 (neg : Bool) (m : Nat) (e : Int) (p : Nat) : Bool :=
  let (a, b) := patMag p
  let j : Nat := 2 ^ (-b).toNat
  let n : Int := ((a * 2 ^ b.toNat : Nat) : Int)
  -- 2^n ≤ (m 2^e)^j, or 2^n (m 2^e)^j ≤ 1
  if neg then decide (m ^ j * 2 ^ (n + e * (j : Int)).toNat ≤ 2 ^ (-(n + e * (j : Int))).toNat)
  else decide (2 ^ (n - e * (j : Int)).toNat ≤ m ^ j * 2 ^ (-(n - e * (j : Int))).toNat)

/-- R87: log₂ x. Exact where x is a power of two, a zero, an infinity or invalid; else one of the two neighbours, free. -/
def f32Log2 (x : F32) : F32 :=
  match x.val with
  | .nan => f32NaN
  | .inf n => if n then f32NaN else f32Inf false
  | .fin n m e =>
    if m = 0 then f32Inf true
    else if n then f32NaN
    else if m = 2 ^ Nat.log2 m then
      let k : Int := Nat.log2 m + e
      f32Round (decide (k < 0)) k.natAbs 0
    else
      let neg := decide ((Nat.log2 m : Int) + e < 0)
      neighbour 1 x neg (floorPat (leLog2 neg m e))

/-- R87: one of the five functions. -/
def VFn.apply (f : VFn) (x : F32) : F32 :=
  match f with
  | .exp2 => f32Exp2 x
  | .log2 => f32Log2 x
  | .recip => f32Recip x
  | .rsqrt => f32Rsqrt x
  | .sqrt => f32Sqrt x

/-- R63: INT32 to FP32, nearest even. -/
def f32OfInt (z : Int) : F32 := f32Round (decide (z < 0)) z.natAbs 0

end Sys2Proof.Machine
end

