-- ==== Sys2Proof/Machine/CoreTypes.lean ====
section
/-! DEFINITION. The state of one core: accumulator slots (02 R46, 03 R78), operator instances and their tiling
(04 R97), lists (03 R70), queue endpoints and steering nodes (05), report registers (05 R147), and the core
registers (03 R89). -/

namespace Sys2Proof.Machine

/-- Table 02.2: an accumulator entry; `acc` joins CARRY and WINDOW, 114 bits. In the BF16 path the low 32 bits hold
the FP32 value (R53). -/
structure Entry where
  acc : BitVec 114 := 0
  anchor : BitVec 10 := 0
  nan : Bool := false
  infPos : Bool := false
  infNeg : Bool := false
  wuf : Bool := false
  deriving DecidableEq, Repr

/-- Table 03.4: the state of an accumulator slot. -/
inductive SlotState where
  | free | opened | held | spilled
  deriving DecidableEq, Repr

/-- Table 03.4: the state's code in CORE.ACC_SLOT_STATE. -/
def SlotState.code : SlotState → Nat
  | .free => 0 | .opened => 1 | .held => 2 | .spilled => 3

/-- An output tile of an operator instance: M block, N tile. -/
structure TileRef where
  inst : Nat
  mb : Nat
  nt : Nat
  deriving DecidableEq, Repr

/-- An accumulator slot: its state, the tile it holds, whether the tile is of a BF16 operator, and its entries, entry
64m + n; `empty` is what an unlisted entry reads as. -/
structure Slot where
  state : SlotState := .free
  tile : TileRef := ⟨0, 0, 0⟩
  bf16 : Bool := false
  int8 : Bool := false
  empty : Entry := {}
  entries : FMap Entry := []
  deriving DecidableEq, Repr

/-- Table 02.2: an accumulator entry's 128 bits: CARRY and WINDOW are the two ends of the 114-bit sum. -/
def Entry.toNat (e : Entry) : Nat :=
  e.acc.toNat % 2 ^ 104 + bitOf e.wuf * 2 ^ 104 + bitOf e.infNeg * 2 ^ 105 + bitOf e.infPos * 2 ^ 106 + bitOf e.nan * 2 ^ 107 +
    e.anchor.toNat * 2 ^ 108 + e.acc.toNat / 2 ^ 104 * 2 ^ 118

/-- Table 02.2 read from 128 bits. -/
def Entry.ofNat (n : Nat) : Entry :=
  { acc := BitVec.ofNat 114 (bitsAt n 0 104 + bitsAt n 118 10 * 2 ^ 104), anchor := BitVec.ofNat 10 (bitsAt n 108 10),
    nan := n.testBit 107, infPos := n.testBit 106, infNeg := n.testBit 105, wuf := n.testBit 104 }

/-- Table 04.3: a loop descriptor. -/
structure LoopDesc where
  wordAddr : BitVec 48 := 0
  max : BitVec 32 := 0
  breg : BitVec 3 := 0
  src : BitVec 2 := 0
  mode : Bool := false
  deriving DecidableEq, Repr

/-- Table 04.3 read from the 128 bits of `n` from bit `lo` up. -/
def LoopDesc.ofBits (n lo : Nat) : LoopDesc :=
  { wordAddr := BitVec.ofNat 48 (bitsAt n (lo + 80) 48), max := BitVec.ofNat 32 (bitsAt n (lo + 32) 32),
    breg := BitVec.ofNat 3 (bitsAt n (lo + 5) 3), src := BitVec.ofNat 2 (bitsAt n (lo + 3) 2), mode := n.testBit (lo + 2) }

/-- Table 04.2: a tiling descriptor, its header and the loops M, N, K. -/
structure Tiling where
  spillBase : BitVec 32 := 0
  spillSlots : BitVec 16 := 0
  plMax : BitVec 16 := 0
  arrayMask : BitVec 4 := 0
  slotBase : BitVec 4 := 0
  slotBudget : BitVec 4 := 0
  run : BitVec 4 := 0
  order : BitVec 3 := 0
  m : LoopDesc := {}
  n : LoopDesc := {}
  k : LoopDesc := {}
  deriving DecidableEq, Repr

/-- R97, Table 04.2: a tiling descriptor read from its 64 bytes: the header, then the loops M, N and K at 16, 32 and 48. -/
def Tiling.ofBits (n : Nat) : Tiling :=
  { spillBase := BitVec.ofNat 32 (bitsAt n 96 32), spillSlots := BitVec.ofNat 16 (bitsAt n 80 16),
    plMax := BitVec.ofNat 16 (bitsAt n 64 16), arrayMask := BitVec.ofNat 4 (bitsAt n 36 4), slotBase := BitVec.ofNat 4 (bitsAt n 28 4),
    slotBudget := BitVec.ofNat 4 (bitsAt n 24 4), run := BitVec.ofNat 4 (bitsAt n 20 4), order := BitVec.ofNat 3 (bitsAt n 13 3),
    m := LoopDesc.ofBits n 128, n := LoopDesc.ofBits n 256, k := LoopDesc.ofBits n 384 }

/-- Table 03.5: a drain descriptor. -/
structure DrainDesc where
  indexBase : BitVec 48 := 0
  rowLen : BitVec 32 := 0
  tensorId : BitVec 32 := 0
  destOffset : BitVec 32 := 0
  int24Scale : BitVec 8 := 0
  tensorShift : BitVec 8 := 0
  valueShift : BitVec 8 := 0
  destQueue : BitVec 5 := 0
  destKind : BitVec 3 := 0
  format : BitVec 4 := 0
  keep : Bool := false
  round : Bool := false
  scaleAxis : Bool := false
  rowAxis : Bool := false
  eos : Bool := false
  slot : BitVec 5 := 0
  deriving DecidableEq, Repr

/-- Table 03.5: a drain descriptor read from its 32 bytes; reserved bits are ignored. -/
def DrainDesc.ofBits (n : Nat) : DrainDesc :=
  { indexBase := BitVec.ofNat 48 (bitsAt n 160 48), rowLen := BitVec.ofNat 32 (bitsAt n 128 32),
    tensorId := BitVec.ofNat 32 (bitsAt n 96 32), destOffset := BitVec.ofNat 32 (bitsAt n 64 32),
    int24Scale := BitVec.ofNat 8 (bitsAt n 56 8), tensorShift := BitVec.ofNat 8 (bitsAt n 48 8),
    valueShift := BitVec.ofNat 8 (bitsAt n 40 8), destQueue := BitVec.ofNat 5 (bitsAt n 35 5),
    destKind := BitVec.ofNat 3 (bitsAt n 32 3), format := BitVec.ofNat 4 (bitsAt n 20 4), keep := n.testBit 19,
    round := n.testBit 18, scaleAxis := n.testBit 17, rowAxis := n.testBit 16, eos := n.testBit 15,
    slot := BitVec.ofNat 5 (bitsAt n 0 5) }

/-- A drain descriptor of an operator's set, as its 32 bytes lie in the image, with the output tile it drains: array, M block, N tile
(R479). -/
structure OpDrain where
  array : BitVec 2 := 0
  mb : Nat := 0
  nt : Nat := 0
  bits : BitVec 256 := 0
  /-- the forward drain that this drain of a recomputed row input repeats: logical core, place in its pass list, place in that
  operator's drain set (07 R193) -/
  forward : Option (BitVec 9 × Nat × Nat) := none
  deriving DecidableEq, Repr

/-- R80: the descriptor of a drain. -/
def OpDrain.desc (d : OpDrain) : DrainDesc := DrainDesc.ofBits d.bits.toNat

/-- 07 R197, R200: the parameter region that a product reads as its weight: a trainable region of a group, by its place, or a frozen
region. -/
inductive ParamRef where
  | trainable (group : BitVec 8) (region : Nat)
  | frozen (region : Nat)
  deriving DecidableEq, Repr

/-- 07 Table 07.1: the axes of a parameter's products. -/
inductive Axis where
  | inFeatures | outFeatures | tokens
  deriving DecidableEq, Repr

/-- 07 R186: the axes that the K, M and N of a product of a parameter run along. -/
structure Product where
  k : Axis := .inFeatures
  m : Axis := .tokens
  n : Axis := .outFeatures
  deriving DecidableEq, Repr

/-- A pass-list entry: one operator (R479), its product pair, its report operator index, its tiling descriptor as its 64 bytes lie in
the image (R97), and its drain set. -/
structure OpEntry where
  reportOp : BitVec 24 := 0
  xFmt : Fmt := .e4m3
  wFmt : Fmt := .e4m3
  /-- the operand has a scale plane; an INT8 tensor without one reads 0x7F in every block (R42) -/
  xPlane : Bool := true
  wPlane : Bool := true
  /-- the K length of the whole contraction, where this operator is one share of a K split (R114) -/
  fullK : Option Nat := none
  tilingBits : BitVec 512 := 0
  drains : List OpDrain := []
  /-- the operand passes through Twill, and its scales lie along the axis that becomes K (R84) -/
  xTwill : Bool := false
  wTwill : Bool := false
  xAlongK : Bool := true
  wAlongK : Bool := true
  /-- the axes of a product of a parameter (07 R186), the region it reads as a weight, and the report operator to whose
  weight-gradient drains its gradient flows (07 R200) -/
  product : Option Product := none
  param : Option ParamRef := none
  gradOp : Option (BitVec 24) := none
  /-- 07 R199: the second region that a fused contraction reads as a weight, and the operator that its gradient flows to -/
  fused : Option ParamRef := none
  fusedOp : Option (BitVec 24) := none
  /-- the rank of the adapter whose product this is (07 R198) -/
  rank : Option Nat := none
  /-- endpoints whose oldest token the operator's first pass waits on (R103) -/
  waits : List EpId := []
  /-- 06 R174: its passes are marked as reading this half of a ring's weight staging -/
  half : Option Bool := none
  deriving DecidableEq, Repr

/-- R97: the tiling descriptor of an operator. -/
def OpEntry.tiling (o : OpEntry) : Tiling := Tiling.ofBits o.tilingBits.toNat

/-- A fetched pointer-list entry (Table 04.4). -/
structure PlEntry where
  inputBase : BitVec 64 := 0
  weightBase : BitVec 64 := 0
  outputBase : BitVec 64 := 0
  length : BitVec 32 := 0
  lenAxis : BitVec 2 := 0
  valid : Bool := false
  last : Bool := false
  deriving DecidableEq, Repr

/-- One pass of an instance: M block, K tile, first N tile and number of N tiles (R68, R93). -/
structure Pass where
  mb : Nat := 0
  kt : Nat := 0
  n0 : Nat := 0
  cnt : Nat := 0
  deriving DecidableEq, Repr

/-- A running operator instance: its entry, its number, its latched lengths and the passes not yet issued. -/
structure Instance where
  op : OpEntry := {}
  serial : Nat := 0
  lenM : Nat := 0
  lenN : Nat := 0
  lenK : Nat := 0
  demand : Nat := 0
  spilling : Bool := false
  /-- no pass of it has issued -/
  fresh : Bool := true
  outBase : Nat := 0
  passes : List Pass := []
  /-- output tiles whose anchor has been computed, in the order the passes first open them (R47) -/
  anchored : Nat := 0
  deriving DecidableEq, Repr

/-- A drain-list entry: the descriptor, its tile's array and reference, its instance's geometry. -/
structure DrainItem where
  op : OpEntry := {}
  array : Nat := 0
  tile : TileRef := ⟨0, 0, 0⟩
  home : Nat := 0
  /-- the instance's K length is 0: the tile is drained as the empty sum (R104) -/
  emptyK : Bool := false
  /-- the instance runs in spill mode: the tile is drained from its home slot, whatever DRAIN.SLOT names (R479); the address of the
  tile's own spill position (R112), and its live group (R111) -/
  spilling : Bool := false
  place : Nat := 0
  group : Nat × Nat := (0, 0)
  outBase : Nat := 0
  /-- the tile is never opened, but its drain is the last write of an endpoint in the step: it writes nothing and sends the marker (05 R129) -/
  markerOnly : Bool := false
  desc : DrainDesc := {}
  deriving DecidableEq, Repr

/-- FP32 and INT32 vector operations of Table 03.7, the row reductions of 07 R194, the conversions and the widening of 07
R188. A mask is the offset of words whose zeros are masked elements (07 R194, R195). -/
inductive VecOp where
  | add | sub | mul | fma | min | max
  | cmpLt | cmpLe | cmpEq | select
  | iadd | isub | ishl | ishr | iushr | iand | ior | ixor
  | toInt | ofInt
  | fn (f : VFn)
  | rowSum (mask : Option Nat)
  | rowDot (mask : Option Nat)
  | rowMax (mask : Option Nat)
  | convert (fmt : Fmt) (stochastic : Bool) (tensorShift : BitVec 8) (tensorId : BitVec 32) (indexBase : BitVec 48)
      (int24Scale : BitVec 8)
  /-- 07 R196: `rows` rows of FP32 terms converted into INT24 at the scale in force of a contributor record, and summed: that of the entry's
  reduction word, or, for sums that go to the tile's home core through a queue (08 R216), of the word given here -/
  | termSum (rows : Nat) (word : BitVec 32)
  /-- `scales` is the offset of the scale bytes, none for an INT8 tensor without a scale plane (R42) -/
  | widen (fmt : Fmt) (scales : Option Nat)
  | copy
  /-- R131: a token whose TOK.SEL is the word at operand a, or fixed -/
  | token (seq : BitVec 32) (sel : Option (BitVec 2))
  /-- the update of an owned tile (07 R204) -/
  | adamw (group : BitVec 8) (tile : BitVec 32)
  deriving DecidableEq, Repr

/-- Where a vector entry's result goes (Table 03.7, last row). -/
inductive VecDest where
  | scratch (off : Nat)
  | input (off : Nat)
  | weights (off : Nat)
  | queue (ep : EpId) (seq : BitVec 32)
  /-- INT32 partial sums of 07 R196, with the reduction word and their scale byte (08 R212, R216) -/
  | reduction (word : BitVec 32)
  deriving DecidableEq, Repr

/-- A vector-list entry: its operation, the byte offsets of its operands in vector scratch, the number of elements and
the destination. The image's byte layout of vector lists is not given (log 13). -/
structure VecEntry where
  reportOp : BitVec 24 := 0
  op : VecOp := .copy
  a : Nat := 0
  b : Nat := 0
  c : Nat := 0
  count : Nat := 0
  dest : VecDest := .scratch 0
  /-- input endpoints whose oldest tile this entry reads, and those whose tile it frees -/
  reads : List EpId := []
  frees : List EpId := []
  eos : Bool := false
  /-- the entry marks its step's last write of an endpoint that writes no tile (R129) -/
  markerOnly : Bool := false
  /-- 07 R195: the offset of the entry's mask words and their number: one for each element, or those of a whole row for an entry on one word
  of that row, which is masked where they all are -/
  mask : Option (Nat × Nat) := none
  /-- 07 R200: the parameter region that the entry reads as a weight (a gain, an embedding), and the report operator to whose drains or
  entries its gradient flows -/
  param : Option ParamRef := none
  gradOp : Option (BitVec 24) := none
  deriving DecidableEq, Repr

/-- One column of an input tile, or one weight vector: the element patterns that lie within the K length, and the scale
bytes of their K blocks. -/
structure OpVec where
  elems : List Nat := []
  scales : List Nat := []
  deriving DecidableEq, Repr

/-- A stationary input tile in an array's registers: its columns that lie within the M length; the others are masked
(R107). An unlisted array holds a zero tile. -/
structure InTile where
  inst : Nat := 0
  mb : Nat := 0
  kt : Nat := 0
  cols : List OpVec := []
  deriving DecidableEq, Repr

/-- R83, R84: one 64 × 64 block that leaves Twill transposed: the half it stands in, its number there, the offset of its first row's
elements and of that row's scale bytes at the destination. -/
structure TwillMove where
  half : Fin 2 := 0
  block : Nat := 0
  dst : Nat := 0
  scaleDst : Nat := 0
  deriving DecidableEq, Repr

/-- The pass that runs: the slots that SRAM_UE must mark (R82). -/
structure RunningPass where
  slots : List Nat := []
  deriving DecidableEq, Repr

/-- The drain in flight (R72), what it posts to a scaling record when it completes (07 R191): saturated elements, largest finite
magnitude; the region bytes that it moves then (06 R154); and the place in a core store that it has reserved: store, offset, length. -/
structure RunningDrain where
  slot : Nat := 0
  item : DrainItem := {}
  post : Option (Nat × BitVec 32) := none
  moves : List (Fin 6 × BitVec 16) := []
  place : Option (BitVec 2 × Nat × Nat) := none
  deriving DecidableEq, Repr

/-- One row of a term at the reduction port: its elements, its SCALE_MISS and NONFINITE marks, and whether it has been
added or set non-finite (R214). -/
structure RedRow where
  elems : List Int := []
  miss : Bool := false
  nonfinite : Bool := false
  done : Bool := false
  deriving DecidableEq, Repr

/-- A term at the reduction port (08 R212 to R214): an INT24 drain, with its slot, or INT32 partial sums of the vector
unit (R196), which name none. -/
structure RedTerm where
  slot : Option Nat := none
  tile : TileRef := ⟨0, 0, 0⟩
  rowAxis : Bool := false
  valueShift : BitVec 8 := 0
  bf16 : Bool := false
  /-- Table 08.2 -/
  word : BitVec 32 := 0
  /-- the term scale s, and the offset of the drain that gave the rows: 0, 8, 16 or 24 -/
  scale : Nat := 0
  offset : Nat := 0
  /-- low 32 bits of the step the term belongs to -/
  step : BitVec 32 := 0
  /-- the rows have been added since they were drained -/
  applied : Bool := false
  /-- RED.COUNT has been added -/
  counted : Bool := false
  rows : List RedRow := []
  deriving DecidableEq, Repr

/-- The gradients of a COMPLETE tile, written into vector scratch (08 R228): the offset of the first, 4 bytes each in tile order. -/
structure Grad where
  group : Nat := 0
  tile : Nat := 0
  off : Nat := 0
  deriving DecidableEq, Repr

/-- A tile computed ahead by the anchor unit (R47). -/
structure Anchored where
  tile : TileRef := ⟨0, 0, 0⟩
  array : Nat := 0
  anchor : BitVec 10 := 0
  allNan : Bool := false
  deriving DecidableEq, Repr

/-- A tile held in a queue's store slot. -/
structure QTile where
  seq : BitVec 32 := 0
  step : BitVec 16 := 0
  slot : Nat := 0
  len : Nat := 0
  /-- the producer's credit is still held by this tile (R136) -/
  credit : Bool := true
  /-- visible to the issue rule: an external tile is not before its release (R143) -/
  visible : Bool := true
  deriving DecidableEq, Repr

/-- A tile in the queue spill region. -/
structure SpillTile where
  seq : BitVec 32 := 0
  step : BitVec 16 := 0
  /-- as in QTile: an external tile keeps waiting for its release (R143) -/
  visible : Bool := true
  bytes : List Byte := []
  deriving DecidableEq, Repr

/-- The far end of a link stream: job module, logical core and endpoint (R139, 10 R280). -/
structure LinkEnd where
  member : BitVec 12 := 0
  core : BitVec 9 := 0
  ep : BitVec 5 := 0
  deriving DecidableEq, Repr

/-- An edge leaving an output endpoint: consumer, or link stream (R139), and credits left. -/
structure Edge where
  edgeId : BitVec 16 := 0
  dstCore : Nat := 0
  dstEp : BitVec 5 := 0
  link : Option LinkEnd := none
  credits : Nat := 0
  deriving DecidableEq, Repr

/-- A queue endpoint (R126 to R130, Table 05.7). -/
structure Endpoint where
  dir : BitVec 2 := 0
  kind : BitVec 2 := 0
  depth : BitVec 8 := 0
  spilled : Bool := false
  stuckSeen : Bool := false
  -- input
  store : BitVec 2 := 0
  bufOff : Nat := 0
  slotUnits : Nat := 0
  tiles : List QTile := []
  spill : List SpillTile := []
  /-- end-of-step markers that are held, one for each step, in order (R129) -/
  markers : List (BitVec 16) := []
  lastFreed : Option (BitVec 32) := none
  /-- step and sequence number of the latest arrival, for R128 -/
  lastSeq : Option (BitVec 16 × BitVec 32) := none
  /-- the steps whose markers have arrived, from the one before the core's on (R129) -/
  closed : List (BitVec 16) := []
  src : Option (Nat × BitVec 5 × Nat) := none
  srcLink : Option LinkEnd := none
  /-- parts received of a tile of a link stream (10 R278) -/
  parts : List Byte := []
  releaseBase : Nat := 0
  releasePeriod : Nat := 0
  -- output
  nextSeq : BitVec 32 := 0
  edgeId : BitVec 16 := 0
  edges : List Edge := []
  deriving DecidableEq, Repr

/-- What travels to an input endpoint: a tile or token, or an end-of-step marker (R128, R129). -/
structure Arrival where
  ep : BitVec 5 := 0
  seq : BitVec 32 := 0
  step : BitVec 16 := 0
  marker : Bool := false
  bytes : List Byte := []
  /-- its number among the entries of its core's crossing (01 R34) -/
  ord : Nat := 0
  deriving DecidableEq, Repr

/-- A credit on its way to edge `edge` of an output endpoint (R127), with its number among the entries of its core's crossing (01 R34). -/
structure CreditIn where
  ep : Nat := 0
  edge : Nat := 0
  ord : Nat := 0
  deriving DecidableEq, Repr

/-- Kinds of a steering node (Table 05.8). -/
inductive SteerKind where
  | unused | switch | select | merge
  deriving DecidableEq, Repr

/-- A steering node (Table 05.8). -/
structure Steer where
  kind : SteerKind := .unused
  inA : BitVec 5 := 0
  inB : BitVec 5 := 0
  token : BitVec 5 := 0
  outA : BitVec 5 := 0
  outB : BitVec 5 := 0
  fired : BitVec 64 := 0
  stopped : Bool := false
  deriving DecidableEq, Repr

/-- Table 02.6: CORE.ARITH_STATUS. -/
structure ArithStatus where
  nan : Bool := false
  inf : Bool := false
  sat : Bool := false
  wuf : Bool := false
  miss : Bool := false
  nonfinite : Bool := false
  deriving DecidableEq, Repr

/-- The RW bits of CORE.CTRL (Table 03.11). -/
structure CoreCtrl where
  enable : Bool := false
  haltReq : Bool := false
  gateDis : Bool := false
  deriving DecidableEq, Repr

/-- Table 05.12: RPT.STATUS bits 1 to 9 and UNPREDICTED, UNVERIFIED. -/
structure RptStatus where
  error : Bool := false
  queueSpill : Bool := false
  accSpill : Bool := false
  streamFault : Bool := false
  late : Bool := false
  snapshot : Bool := false
  resend : Bool := false
  clock : Bool := false
  debug : Bool := false
  unpredicted : Bool := false
  unverified : Bool := false
  deriving DecidableEq, Repr

/-- An engine's running counts for the report operator at its list's head (R142, R145). -/
structure EngineCount where
  op : Option (BitVec 24) := none
  fire : BitVec 32 := 0
  waitIn : BitVec 32 := 0
  waitOut : BitVec 32 := 0
  idle : BitVec 32 := 0
  instances : BitVec 32 := 0
  /-- the instance of the latest drain (R145 counts an instance once) -/
  lastInst : Nat := 0
  done : Bool := false
  deriving DecidableEq, Repr

/-- Table 05.10: a counter log record. -/
structure LogRec where
  idle : BitVec 32 := 0
  waitOut : BitVec 32 := 0
  waitIn : BitVec 32 := 0
  fire : BitVec 32 := 0
  instances : BitVec 32 := 0
  step : BitVec 32 := 0
  operator : BitVec 24 := 0
  engine : BitVec 2 := 0
  status : BitVec 12 := 0
  deriving DecidableEq, Repr

/-- Table 05.10's 256 bits. -/
def LogRec.toNat (e : LogRec) : Nat :=
  e.status.toNat + e.engine.toNat * 2 ^ 30 + e.operator.toNat * 2 ^ 40 + e.step.toNat * 2 ^ 64 + e.instances.toNat * 2 ^ 96 +
    e.fire.toNat * 2 ^ 128 + e.waitIn.toNat * 2 ^ 160 + e.waitOut.toNat * 2 ^ 192 + e.idle.toNat * 2 ^ 224

/-- Table 05.10 read from 256 bits. -/
def LogRec.ofNat (n : Nat) : LogRec :=
  { status := BitVec.ofNat 12 (bitsAt n 0 12), engine := BitVec.ofNat 2 (bitsAt n 30 2), operator := BitVec.ofNat 24 (bitsAt n 40 24),
    step := BitVec.ofNat 32 (bitsAt n 64 32), instances := BitVec.ofNat 32 (bitsAt n 96 32), fire := BitVec.ofNat 32 (bitsAt n 128 32),
    waitIn := BitVec.ofNat 32 (bitsAt n 160 32), waitOut := BitVec.ofNat 32 (bitsAt n 192 32), idle := BitVec.ofNat 32 (bitsAt n 224 32) }

/-- What a core counted in a step beside its records (R149, R150): passes, routed tiles of each steering node, packets and bytes of each
link stream. -/
structure StepCounts where
  step : BitVec 64 := 0
  passes : BitVec 64 := 0
  fired : List (BitVec 64) := []
  streams : List (Nat × Nat × Nat) := []
  /-- the placement variant that the step ran under (R149) -/
  variant : Nat := 0
  deriving DecidableEq, Repr

/-- The report registers (Tables 05.11 to 05.13). The records of the ring that the core has written and its tower's DRAM has not yet
taken stand in `logOut`, with their places in the ring. -/
structure Report where
  status : RptStatus := {}
  logSize : BitVec 4 := 0
  logEn : Bool := false
  logBase : BitVec 64 := 0
  /-- the RWL locks of RPT.LOG_CTRL and of RPT.LOG_BASE -/
  logLocked : Bool := false
  baseLocked : Bool := false
  logWr : BitVec 32 := 0
  logRd : BitVec 32 := 0
  logDropped : BitVec 32 := 0
  lateTiles : BitVec 32 := 0
  step : BitVec 64 := 0
  gateWait : BitVec 64 := 0
  /-- RPT.GATE_WAIT's advance since the last step ended -/
  gateNow : BitVec 32 := 0
  /-- RPT.TOTAL[e][k] at 4e + k -/
  totals : FMap (BitVec 64) := []
  logOut : List (Nat × LogRec) := []
  inStep : Bool := false
  ended : Bool := false
  engines : FMap EngineCount := []
  /-- CORE.PASS_COUNT and STEER.FIRED when the step began (R149, R150) -/
  passBase : BitVec 64 := 0
  firedBase : List (BitVec 64) := []
  /-- packets and bytes sent in the step on each link stream, by output endpoint (R140) -/
  sent : FMap (Nat × Nat) := []
  /-- counts of the steps that have ended and have not been compared -/
  ends : List StepCounts := []
  deriving DecidableEq, Repr

/-- Ring registers of 06 Table 06.9, with the chunk size of the image's ring list and the bytes of the period's send and incoming chunk
that have retired (06 R173, R174). The tee slot of the current chunk has the number RING.HALF, as its weight-staging half has. -/
structure Ring where
  size : BitVec 8 := 0
  pos : BitVec 8 := 0
  half : Bool := false
  en : Bool := false
  periods : BitVec 64 := 0
  chunk : Nat := 0
  sent : Nat := 0
  got : Nat := 0
  deriving DecidableEq, Repr

/-- The byte stores of a core (Table 03.6): Twill, input buffer, weight staging, vector scratch. -/
structure Stores where
  /-- how many resets have made the stores undefined (13 R355) -/
  epoch : Nat := 0
  input : FMap (Option Byte) := []
  weights : FMap (Option Byte) := []
  scratch : FMap (Option Byte) := []
  twill : FMap (Option Byte) := []
  deriving DecidableEq, Repr

/-- The lists of a core's programs (05 T05.3 type 0x03). -/
structure CoreLists where
  passList : List OpEntry := []
  vectorList : List VecEntry := []
  /-- pass-list and vector-list positions of the step that runs -/
  ops : List OpEntry := []
  vecs : List VecEntry := []
  drains : List DrainItem := []
  /-- instances that have been latched and have passes to issue, in pass-list order; the first is the one that runs -/
  insts : List Instance := []
  nextSerial : Nat := 1
  /-- instances numbered below this one were dropped with their lists (12 R346, R352): a slot that one of them left OPEN or SPILLED keeps
  its state until a pass or a reload opens it (03 Table 03.4, log 96) -/
  floor : Nat := 0
  plPending : Option PlEntry := none
  plIndex : Nat := 0
  gateEp : Option (BitVec 5) := none
  overcommitSpill : Bool := false
  /-- the per-tensor shifts of the step (07 R192), by tensor identifier -/
  shifts : FMap Nat := []
  /-- bytes of the core's queue spill region (R136) -/
  queueSpill : Nat := 0
  /-- the core's arm list (06 R152), context and descriptor address, and what of it the sequencer has not armed -/
  armList : List (Fin 6 × BitVec 64) := []
  arms : List (Fin 6 × BitVec 64) := []
  deriving DecidableEq, Repr

/-- One core. -/
structure Core where
  ctrl : CoreCtrl := {}
  pendCtrl : Option CoreCtrl := none
  /-- issue stopped by a program fault (R110, 15 R408) or an uncorrectable error (R82) -/
  faultStop : Bool := false
  /-- issue from the pass list stopped by a faulted instance; the drains of earlier instances go on (04 R110) -/
  passFault : Bool := false
  arith : ArithStatus := {}
  sramCe : BitVec 32 := 0
  wufCount : BitVec 64 := 0
  passCount : BitVec 64 := 0
  drainCount : BitVec 64 := 0
  /-- ARRn.GATED_CELL_CYCLES at n -/
  gated : FMap (BitVec 64) := []
  slots : FMap Slot := []
  /-- tiles, with their arrays, whose wide forms lie in the accumulator spill region in tower DRAM (04 R112) -/
  spilled : List (Nat × TileRef) := []
  lists : CoreLists := {}
  shadow : FMap InTile := []
  active : FMap InTile := []
  anchors : List Anchored := []
  pass : Option RunningPass := none
  drain : Option RunningDrain := none
  /-- the block status of the latest INT24 drain: the rows that are marked SCALE_MISS (R58), and those marked NONFINITE (R57) -/
  scaleMiss : List Nat := []
  nonfinite : List Nat := []
  red : List RedTerm := []
  /-- contributor records whose closing term has been added, with the step (08 R216), and gradients formed for the update (R228) -/
  closes : List (Nat × BitVec 32) := []
  grads : List Grad := []
  stores : Stores := {}
  eps : FMap Endpoint := []
  /-- what has come over the core's crossing, oldest first; `crossed` entries have come so far (01 R34) -/
  arrivals : List Arrival := []
  creditsIn : List CreditIn := []
  crossed : Nat := 0
  /-- what the core sends to itself, which crosses nothing (05 R130) -/
  own : List Arrival := []
  ownCredits : List CreditIn := []
  steer : FMap Steer := []
  bnd : FMap (BitVec 32) := []
  bndValid : BitVec 8 := 0
  report : Report := {}
  ring : Ring := {}
  mergeCount : BitVec 64 := 0
  deriving DecidableEq, Repr

/-- R82: an error in a store of Table 03.6: a number that were corrected in place, or an uncorrectable one at an offset. -/
inductive SramHit where
  | corrected (count : BitVec 32)
  | uncorrectable (offset : BitVec 32)
  deriving DecidableEq, Repr

/-- What the environment gives a pass: the run's place in weight staging, the blocks that leave Twill for it, the
endpoints whose oldest tile it frees (05 R127), region bytes it moves (06 R154), its cycles of waiting (05 R142), and the
SRAM errors corrected meanwhile (R82). -/
structure PassIo where
  off : Nat := 0
  twill : List TwillMove := []
  frees : List EpId := []
  moves : List (Fin 6 × BitVec 16) := []
  waitIn : BitVec 32 := 0
  waitOut : BitVec 32 := 0
  sramCe : BitVec 32 := 0
  deriving DecidableEq, Repr

/-- What the environment gives a drain or a vector-list entry: region bytes it moves, its cycles of waiting, and the SRAM errors
corrected since the last that were counted (R82). -/
structure IssueIo where
  moves : List (Fin 6 × BitVec 16) := []
  waitIn : BitVec 32 := 0
  waitOut : BitVec 32 := 0
  sramCe : BitVec 32 := 0
  deriving DecidableEq, Repr

/-- R78: the lists of a core whose instances are dropped: numbering goes on, so a slot that one of them left OPEN or SPILLED is known by its
number (log 96). -/
def CoreLists.dropped (l : CoreLists) : CoreLists := { nextSerial := l.nextSerial, floor := l.nextSerial }

/-- Table 03.4: the reduction path releases the HELD slots. -/
def Core.releaseHeld (k : Core) : Core := { k with slots := k.slots.filter (fun x => decide (x.2.state ≠ .held)) }

/-- The instance that runs: the first whose passes have not all issued. -/
def CoreLists.inst (l : CoreLists) : Option Instance := l.insts.head?

/-- The lists with the running instance replaced; one without passes left is gone. -/
def CoreLists.setInst (l : CoreLists) (i : Instance) : CoreLists :=
  { l with insts := if i.passes.isEmpty then l.insts.tail else i :: l.insts.tail }

end Sys2Proof.Machine
end

