-- ==== Sys2Proof/Machine/FwTypes.lean ====
section
/-! DEFINITION. Firmware, trust and the records in NOR flash (14). -/

namespace Sys2Proof.Machine

/-- 16 Table 16.6: a valid V/F entry: MHz, mV, power ratio. -/
def vfEntry (f v r : Nat) : BitVec 64 := BitVec.ofNat 64 (f * 2 ^ 48 + v * 2 ^ 36 + r * 2 ^ 24 + 1)

/-- 16 Tables 16.5 and 16.6: the typical entry of point k of island n (Island.number) at 8n + k; an empty one at a point that is not in
use. The voltages and ratios of every island but the cores are log 8. -/
def vfTypical (key : Nat) : BitVec 64 :=
  let place := key / 8 % 4096
  let die := key / 8 / 4096
  let points : List (BitVec 64) :=
    if place < 16 then [vfEntry 1900 780 1024, vfEntry 1700 740 825, vfEntry 1500 700 651, vfEntry 1200 640 435, vfEntry 950 580 283]
    else if place = 16 then (if die < 32 then [vfEntry 2000 780 1024, vfEntry 1000 580 283] else [vfEntry 2000 780 1024])
    else if place = 17 ∨ place = 18 then [vfEntry 1200 780 1024, vfEntry 600 580 283]
    else if die = 36 then (if place = 19 then [vfEntry 400 780 1024] else [])
    else if place < 64 then [vfEntry 1600 780 1024]
    else [vfEntry 1562 780 1024]
  points.getD (key % 8) 0

/-- 16 R429: the V/F tables of the islands: how many of an island's points are known (none, the base point of the fuses, or eight), and
the entries that differ from the typical ones, of point k of island n at 8n + k. -/
structure VfTables where
  points : Nat := 0
  entries : FMap (BitVec 64) := []
  deriving DecidableEq, Repr

/-- 16 R430: the entry of a point of an island. -/
def VfTables.entry (x : VfTables) (n k : Nat) : BitVec 64 :=
  if k < x.points then x.entries.get (vfTypical (8 * n + k)) (8 * n + k) else 0

/-- 16 Table 16.6: VF.VALID, VF.VOLT_MV, VF.FREQ_MHZ and VF.PWR_RATIO of a point. -/
def VfTables.valid (x : VfTables) (n k : Nat) : Bool := (x.entry n k).getLsbD 0
/-- VF.VOLT_MV. -/
def VfTables.millivolts (x : VfTables) (n k : Nat) : Nat := bitsAt (x.entry n k).toNat 36 12
/-- VF.FREQ_MHZ. -/
def VfTables.megahertz (x : VfTables) (n k : Nat) : Nat := bitsAt (x.entry n k).toNat 48 16
/-- VF.PWR_RATIO. -/
def VfTables.ratio (x : VfTables) (n k : Nat) : Nat := bitsAt (x.entry n k).toNat 24 12

/-- 16 Table 16.7: the tower limits in degrees. -/
structure TowerLimits where
  logicThrottle : Nat := 100
  logicStop : Nat := 105
  logicTrip : Nat := 110
  logicClear : Nat := 95
  refresh : Nat := 85
  dramThrottle : Nat := 88
  dramStop : Nat := 92
  dramTrip : Nat := 97
  dramClear : Nat := 85
  deriving DecidableEq, Repr

/-- 16 R436: what the signed factory block of NOR holds (log 8, log 112): the V/F entries that differ from the typical ones, the offset of
sensor n of tower t at 18t + n, the limits, and of lane l of port P at 8P + l the equalisation seed and the bounds of the user's presets. -/
structure FactoryCal where
  vf : FMap (BitVec 64) := []
  offsets : FMap (BitVec 8) := []
  limits : TowerLimits := {}
  seeds : FMap (BitVec 44) := []
  bounds : FMap (BitVec 64) := []
  /-- the meter's constants, of which the meter keeps its own copy -/
  meter : List Byte := []
  deriving DecidableEq, Repr

/-- R382: one copy of a fuse row: its data bits, and whether its parity is wrong. -/
structure FuseCopy (w : Nat) where
  data : BitVec w := 0
  parityBad : Bool := false
  deriving DecidableEq, Repr

/-- R382: the two copies of a row that is programmed after manufacture. -/
structure FuseRow (w : Nat) where
  copy0 : FuseCopy w := {}
  copy1 : FuseCopy w := {}
  deriving DecidableEq, Repr

/-- A row whose two copies hold a value. -/
def FuseRow.of {w : Nat} (v : BitVec w) : FuseRow w := { copy0 := { data := v }, copy1 := { data := v } }

/-- R382: what option loading reads of a row: a copy with wrong parity is ignored if the other is correct, two correct ones are joined by OR;
none where both are wrong. -/
def FuseRow.read {w : Nat} (x : FuseRow w) : Option (BitVec w) :=
  match x.copy0.parityBad, x.copy1.parityBad with
  | false, false => some (x.copy0.data ||| x.copy1.data)
  | false, true => some x.copy0.data
  | true, false => some x.copy1.data
  | true, true => none

/-- The value of a row that a load has read. -/
def FuseRow.value {w : Nat} (x : FuseRow w) : BitVec w := x.read.getD 0

/-- R382: a raise: bits are only ever set, in copy 0 and then in copy 1. -/
def FuseRow.raise {w : Nat} (x : FuseRow w) (v : BitVec w) : FuseRow w :=
  { copy0 := { x.copy0 with data := x.copy0.data ||| v }, copy1 := { x.copy1 with data := x.copy1.data ||| v } }

/-- The fuse rows of 14 Table 14.3 and the quadrant bits of CAP.QUADS; the values at manufacture are log 8. -/
structure Fuses where
  moduleId : BitVec 64 := 0
  rootHash : BitVec 256 := 0
  deviceSecret : BitVec 256 := 0
  lifecycle : FuseRow 8 := {}
  keyRevoke : FuseRow 16 := {}
  fwSvn : FuseRow 64 := {}
  mgmtSvn : FuseRow 32 := {}
  usable : BitVec 4 := 0xF
  fencedQuads : BitVec 4 := 0
  /-- 13 R368: the pad fuse map of die d (36 the hub), where it is not the factory map: 2 bits for each of its 64 groups -/
  pads : FMap (BitVec 128) := []
  /-- 16 R436: the base points of the V/F tables that differ from the typical ones, of island n (Island.number) at 8n; its trim at n -/
  vf : FMap (BitVec 64) := []
  trims : FMap (BitVec 64) := []
  deriving DecidableEq, Repr

/-- R383: any value but 0 is production. -/
def Fuses.production (f : Fuses) : Bool := decide (f.lifecycle.value ≠ 0)

/-- R382: whether each of the rows can be read: a row of which both copies are wrong gives no consistent read (13 R363). -/
def Fuses.readable (f : Fuses) : Bool := f.lifecycle.read.isSome && f.keyRevoke.read.isSome && f.fwSvn.read.isSome && f.mgmtSvn.read.isSome

/-- 13 R368: the factory map of a die: drive low at the clock-enable and reset groups of its DRAM channels, a weak pull-down at the data groups
of its die bridges and hub bridge, high-Z elsewhere. Which number a group has is the model's choice (log 8): DRAM channel n drives group n,
the bridge of side n group 32 + n, the hub bridge group 36; hub bridge n of the hub drives group n there. -/
def factoryPads (d : Nat) : BitVec 128 :=
  if d < 32 then BitVec.ofNat 128 (2 ^ 64 - 1 + 0x155 * 2 ^ 64)
  else if d < 36 then BitVec.ofNat 128 (0x55 * 2 ^ 64)
  else BitVec.ofNat 128 0x5555

/-- 14 Table 14.7, 17 R444, Table 17.5: what a signature is made for. -/
inductive SigContext where
  | firmware | weave | manifest | attestation | certificate | token | factory | meterRecord | meterLog
  deriving DecidableEq, Repr

/-- Table 14.7, 17 R444: the code of a context. -/
def SigContext.code : SigContext → Nat
  | .firmware => 1 | .weave => 2 | .manifest => 3 | .attestation => 4 | .certificate => 5 | .token => 6 | .factory => 7
  | .meterRecord => 0x41 | .meterLog => 0x42

/-- The number whose little-endian bytes a digest is. -/
def digestOf (bs : List Byte) : BitVec 256 := BitVec.ofNat 256 (Machine.ofBytes (shake256 bs))

/-- R386: the 36-byte message that a signature signs: the context code, little-endian, then the digest. -/
def sigMessage (c : SigContext) (digest : BitVec 256) : List Byte := bytesOf c.code 4 ++ bytesOf digest.toNat 32

/-- R384, R386: the bytes of a Falcon-1024 signature of a message, a free value of the key, the message and the draw `n` (log 6). -/
def signature (meter : Bool) (key : List Byte) (n : Nat) (message : List Byte) : List Byte :=
  (List.range (1 + Config.signatureLen meter key n message % 1462)).map (Config.signatureByte meter key n message)

/-- A signature zero-padded to a length. -/
def padTo (n : Nat) (bs : List Byte) : List Byte := bs ++ List.replicate (n - bs.length) 0

/-- R385: a certificate: its header, the subject's public key, the issuer's signature. -/
def certBytes (issuer : BitVec 256) (moduleId : BitVec 64) (cls index : BitVec 4) (dev : Bool) (subject sig : List Byte) : List Byte :=
  bytesOf (bitOf dev * 2 ^ 135 + index.toNat * 2 ^ 136 + cls.toNat * 2 ^ 140 + sig.length * 2 ^ 144 + 0x43455254 * 2 ^ 160 +
    moduleId.toNat * 2 ^ 192 + issuer.toNat * 2 ^ 256) 64 ++ ((padTo 1856 subject).take 1856 ++ (padTo 1472 sig).take 1472)

/-- A signature block (R384, R385): the fields of its header and the bytes of its certificate, if any. Of the certificate's signature and of
the object's, the message that the issuing and the signing key made it over; none where it is no signature of that key (R386, log 6). -/
structure SigBlock where
  magic : BitVec 32 := 0
  signerHash : BitVec 256 := 0
  len : BitVec 16 := 0
  cls : BitVec 4 := 0
  keyIndex : BitVec 4 := 0
  cert : Bool := false
  certificate : List Byte := []
  issuerMsg : Option (List Byte) := none
  objectMsg : Option (List Byte) := none
  deriving DecidableEq, Repr

/-- R384, Table 14.5: a signature block from its 8,192 bytes, with the messages that its two signatures were made over. -/
def SigBlock.ofBytes (bs : List Byte) (issuerMsg objectMsg : Option (List Byte)) : SigBlock :=
  let h := Machine.ofBytes (bs.take 64)
  { magic := BitVec.ofNat 32 (bitsAt h 224 32), signerHash := BitVec.ofNat 256 (bitsAt h 256 256), len := BitVec.ofNat 16 (bitsAt h 208 16),
    cls := BitVec.ofNat 4 (bitsAt h 204 4), keyIndex := BitVec.ofNat 4 (bitsAt h 200 4), cert := h.testBit 199,
    certificate := if h.testBit 199 then (bs.drop 1536).take 3392 else [], issuerMsg := issuerMsg, objectMsg := objectMsg }

/-- Table 14.6: the bits of the certificate's header. -/
def SigBlock.certHead (b : SigBlock) : Nat := Machine.ofBytes (b.certificate.take 64)
/-- CERT.ISSUER_HASH. -/
def SigBlock.certIssuer (b : SigBlock) : BitVec 256 := BitVec.ofNat 256 (bitsAt b.certHead 256 256)
/-- CERT.MODULE_ID. -/
def SigBlock.certModule (b : SigBlock) : BitVec 64 := BitVec.ofNat 64 (bitsAt b.certHead 192 64)
/-- CERT.CLASS. -/
def SigBlock.certCls (b : SigBlock) : BitVec 4 := BitVec.ofNat 4 (bitsAt b.certHead 140 4)
/-- CERT.KEY_INDEX. -/
def SigBlock.certIndex (b : SigBlock) : BitVec 4 := BitVec.ofNat 4 (bitsAt b.certHead 136 4)
/-- CERT.DEV. -/
def SigBlock.certDev (b : SigBlock) : Bool := b.certHead.testBit 135
/-- R385: the subject's public key, 1,793 bytes. -/
def SigBlock.subject (b : SigBlock) : List Byte := (b.certificate.drop 64).take 1793
/-- Table 14.7: SHAKE256 of certificate bytes 0 to 1,919. -/
def SigBlock.certDigest (b : SigBlock) : BitVec 256 := digestOf (b.certificate.take 1920)
/-- R385: whether the bytes are those of a certificate: CERT.MAGIC, and CERT.SIG_LEN in 1 to 1,462. -/
def SigBlock.certOk (b : SigBlock) : Bool :=
  decide (bitsAt b.certHead 160 32 = 0x43455254) && decide (1 ≤ bitsAt b.certHead 144 16) && decide (bitsAt b.certHead 144 16 ≤ 1462)
/-- R384: whether SIG.LEN is in 1 to 1,462. -/
def SigBlock.lenOk (b : SigBlock) : Bool := decide (1 ≤ b.len.toNat) && decide (b.len.toNat ≤ 1462)

/-- R399: a copy of the owner record, with the FUSE.DEVICE_SECRET from which the key that seals it was derived; an empty key is an empty
record. -/
structure OwnerRec where
  key : List Byte := []
  seq : BitVec 32 := 0
  revoke : BitVec 16 := 0
  secret : BitVec 256 := 0
  deriving DecidableEq, Repr

/-- R380: a private key as the key store of NOR holds it, encrypted under a key derived from a FUSE.DEVICE_SECRET. -/
structure StoredKey where
  secret : BitVec 256 := 0
  key : List Byte := []
  deriving DecidableEq, Repr

/-- A module or management firmware image as it is read: its 512-byte header, its signature block, the SHAKE256 of each part's
bytes, and whether the read of the hub region or of the control region met an error (R389, R392). -/
structure FwImage where
  header : List Byte := []
  sig : SigBlock := {}
  digests : List (BitVec 256) := []
  readError : Bool := false
  ctlError : Bool := false
  deriving DecidableEq, Repr

/-- Table 14.9's bits. -/
def FwImage.bits (i : FwImage) : Nat := Machine.ofBytes (i.header.take 512)
/-- FWH.SVN. -/
def FwImage.svn (i : FwImage) : Nat := bitsAt i.bits 128 8
/-- FWH.IFACE. -/
def FwImage.iface (i : FwImage) : Nat := bitsAt i.bits 112 16
/-- FWH.VERSION. -/
def FwImage.version (i : FwImage) : BitVec 32 := BitVec.ofNat 32 (bitsAt i.bits 64 32)
/-- FWH.MAGIC. -/
def FwImage.magic (i : FwImage) : Nat := bitsAt i.bits 0 32
/-- SHAKE256 of the header. -/
def FwImage.digest (i : FwImage) : BitVec 256 := digestOf (i.header.take 512)

/-- Table 14.11: what a valid commit or intent record holds. -/
structure FwRec where
  digest : BitVec 256 := 0
  version : BitVec 32 := 0
  seq : BitVec 16 := 0
  deriving DecidableEq, Repr

/-- R389: the image that the bytes of a slot hold: the header at 0x1000, the signature block at 0x2000, each part at its PART.OFFSET; with
the messages that the block's signatures were made over. -/
def FwImage.ofSlot (bs : List Byte) (issuerMsg objectMsg : Option (List Byte)) : FwImage :=
  let header := (bs.drop 0x1000).take 512
  let bits := Machine.ofBytes header
  { header := header, sig := SigBlock.ofBytes ((bs.drop 0x2000).take 8192) issuerMsg objectMsg,
    digests := (List.range (bitsAt bits 136 8)).map (fun k =>
      digestOf ((bs.drop (bitsAt bits (1088 + 384 * k) 32)).take (bitsAt bits (1120 + 384 * k) 32))) }

/-- R389: a module or management slot: its commit record (at 0 of the slot) and its intent record (at 0x800) as they lie in NOR, and what it
holds. NOR that nothing has programmed reads ones (log 8). -/
structure FwSlot where
  commit : BitVec 512 := BitVec.allOnes 512
  intent : BitVec 512 := BitVec.allOnes 512
  image : FwImage := {}
  seq : BitVec 16 := 0
  deriving DecidableEq, Repr

/-- Table 14.12: what a valid selector record holds. -/
structure Selector where
  seq : BitVec 32 := 0
  trialLeft : BitVec 2 := 0
  trial : Bool := false
  mgmtSlot : Bool := false
  slot : Bool := false
  deriving DecidableEq, Repr

/-- Table 14.12a: FWU.STATE. -/
inductive FwuState where
  | idle | busy | done | refused | failed
  deriving DecidableEq, Repr

/-- Firmware and trust. -/
structure Firmware where
  /-- the fuse rows as programmed, and as the last option loading read them -/
  fuses : Fuses := {}
  loaded : Fuses := {}
  /-- the two copies of the owner record (R399) -/
  own0 : Option OwnerRec := none
  own1 : Option OwnerRec := none
  /-- NOR: the root key record's public key; the low 512 bits of the two selector copies; the module slots A (0) and B (1); the
  management slots -/
  rootKey : List Byte := []
  /-- the identity key store: the encrypted private key, the certificate and the message that its issuer signed (R380, R385); the public key -/
  identityStore : StoredKey := {}
  identityKey : List Byte := []
  identityCert : List Byte := []
  identityIssued : Option (List Byte) := none
  sel0 : BitVec 512 := 0
  sel1 : BitVec 512 := 0
  slots : FMap FwSlot := []
  mgmt : FMap FwSlot := []
  /-- the slot last written; the running slot was booted while on trial, and has been confirmed since (R395) -/
  lastSlot : Option Bool := none
  bootedTrial : Bool := false
  confirmed : Bool := false
  /-- the factory calibration block: its digest, its signature block -/
  factory : BitVec 256 := 0
  factorySig : SigBlock := {}
  /-- 16 R436: the calibration that the block holds -/
  factoryCal : FactoryCal := {}
  -- hub memory
  staged : Option FwImage := none
  hub : FwImage := {}
  mgmtSet : FwImage := {}
  /-- the set each quadrant runs; the quadrant being activated -/
  quadSets : FMap FwImage := []
  activating : Option Nat := none
  -- Table 14.12a
  addr : BitVec 64 := 0
  len : BitVec 32 := 0
  arg : BitVec 32 := 0
  error : BitVec 16 := 0
  lastCmd : BitVec 4 := 0
  state : FwuState := .idle
  challenge : BitVec 64 := 0
  unlocked : Bool := false
  attNonce : BitVec 256 := 0
  attAddr : BitVec 64 := 0
  attStatus : BitVec 3 := 0
  deriving DecidableEq, Repr

/-- R399: a copy of the owner record that opens: it was sealed under the key of this module's FUSE.DEVICE_SECRET. -/
def Firmware.opens (f : Firmware) (x : Option OwnerRec) : Option OwnerRec := x.filter (fun r => decide (r.secret = f.loaded.deviceSecret))

/-- R399: the owner record in force: the valid copy with the higher OWN.SEQ; none is an empty record. -/
def Firmware.owner (f : Firmware) : OwnerRec :=
  match f.opens f.own0, f.opens f.own1 with
  | some a, some b => if a.seq < b.seq then b else a
  | some a, none => a
  | none, some b => b
  | none, none => {}

/-- R399: a new owner record goes into the copy that is not in force, sealed, OWN.SEQ one higher. -/
def Firmware.writeOwner (f : Firmware) (r : OwnerRec) : Firmware :=
  let y : OwnerRec := { r with seq := f.owner.seq + 1, secret := f.loaded.deviceSecret }
  match f.opens f.own0, f.opens f.own1 with
  | some a, some b => if a.seq < b.seq then { f with own0 := some y } else { f with own1 := some y }
  | some _, none => { f with own1 := some y }
  | none, _ => { f with own0 := some y }

/-- OWN.KEY. -/
def Firmware.ownKey (f : Firmware) : List Byte := f.owner.key
/-- OWN.SEQ. -/
def Firmware.ownSeq (f : Firmware) : BitVec 32 := f.owner.seq
/-- OWN.IMAGE_REVOKE. -/
def Firmware.imageRevoke (f : Firmware) : BitVec 16 := f.owner.revoke

/-- R380: the identity private key, which only the security core opens; nothing where the store was encrypted under another secret. -/
def Firmware.identityPrivate (f : Firmware) : List Byte :=
  if f.identityStore.secret = f.loaded.deviceSecret then f.identityStore.key else []

/-- R384, R386: the signature block that the security core makes with its identity key for a digest in a context, as draw `n`. -/
def Firmware.identityBlock (f : Firmware) (n : Nat) (c : SigContext) (digest : BitVec 256) : List Byte :=
  let sig := signature false f.identityPrivate n (sigMessage c digest)
  let index := bitsAt (Machine.ofBytes (f.identityCert.take 64)) 136 4
  let head := bitOf true * 2 ^ 199 + index * 2 ^ 200 + 7 * 2 ^ 204 + sig.length * 2 ^ 208 + 0x53494742 * 2 ^ 224 +
    (digestOf f.identityKey).toNat * 2 ^ 256
  let cert := (padTo 3392 f.identityCert).take 3392
  bytesOf head 64 ++ (padTo 1472 sig ++ (cert ++ List.replicate 3264 0))

/-- R383: the lifecycle that option loading read. -/
def Firmware.production (f : Firmware) : Bool := f.loaded.production

/-- Table 14.2: the hash of the anchor of a key class: the root key, the owner's key, or, of classes 7 and 8, the class 3 key that issued the
module's identity certificate (log 103); none where there is none. -/
def Firmware.anchor (f : Firmware) (cls : Nat) : Option (BitVec 256) :=
  match cls with
  | 1 | 2 | 3 | 4 => some f.loaded.rootHash
  | 5 | 6 => if f.ownKey.isEmpty then none else some (digestOf f.ownKey)
  | 7 | 8 => if f.identityCert.isEmpty then none else some (BitVec.ofNat 256 (bitsAt (Machine.ofBytes (f.identityCert.take 64)) 256 256))
  | _ => none

/-- R387: the number of the first check that fails for an object of a digest in a context, which admits some classes. A class 4 key is
anchored by a certificate with CERT.DEV = 1, one of class 7 or 8 by one that names this module (Table 14.2). Bytes that are no certificate
fail check 2, a SIG.LEN out of its range check 5 (log 103). -/
def Firmware.sigCheck (f : Firmware) (c : SigContext) (digest : BitVec 256) (admits : List Nat) (b : SigBlock) : Option Nat :=
  let k := b.cls.toNat
  let resolved :=
    if b.cert then
      b.certOk && decide (digestOf b.subject = b.signerHash) && decide (f.anchor k = some b.certIssuer) &&
        decide (b.issuerMsg = some (sigMessage .certificate b.certDigest)) &&
        decide (b.certCls = b.cls) && decide (b.certIndex = b.keyIndex) && (decide (k ≠ 4) || b.certDev) &&
        (decide (b.certModule = f.loaded.moduleId) || (decide (b.certModule = 0) && decide (k ≠ 7) && decide (k ≠ 8)))
    else decide (k = 5) && decide (f.anchor 5 = some b.signerHash)
  let revoked := match k with
    | 2 | 4 => f.loaded.keyRevoke.value.getLsbD b.keyIndex.toNat
    | 6 => f.imageRevoke.getLsbD b.keyIndex.toNat
    | _ => false
  if !(decide (b.magic = 0x53494742) && admits.contains k) then some 1
  else if !resolved then some 2
  else if revoked then some 3
  else if b.cert && b.certDev && f.production then some 4
  else if !b.lenOk || decide (b.objectMsg ≠ some (sigMessage c digest)) then some 5
  else none

end Sys2Proof.Machine
end

