-- ==== Sys2Proof/Machine/HostTypes.lean ====
section
/-! DEFINITION. The host-visible state: job control page (11 R303), module status (Table 11.4), the error log and its
records (15 R403), store windows (11 R314), Gingham and fence registers (15 R422), and the loaded weave image
(05 R116 to R126). -/

namespace Sys2Proof.Machine

/-- Table 11.6: JCP.STATE. -/
inductive JobState where
  | idle | loading | running | pausing | paused | stopping | done | failed | refused | aborting | notLead | clearing
  deriving DecidableEq, Repr

/-- Table 11.6: the code of a job state. -/
def JobState.code : JobState → Nat
  | .idle => 0 | .loading => 1 | .running => 2 | .pausing => 3 | .paused => 4 | .stopping => 5 | .done => 6
  | .failed => 7 | .refused => 8 | .aborting => 9 | .notLead => 10 | .clearing => 11

/-- Table 11.7: job commands. -/
inductive JobCmd where
  | start | pause | resume | stop | abort | clear
  deriving DecidableEq, Repr

/-- Table 11.7: the code of a command. -/
def JobCmd.code : JobCmd → BitVec 4
  | .start => 1 | .pause => 2 | .resume => 3 | .stop => 4 | .abort => 5 | .clear => 6

/-- Table 11.5: the fields of a job control page that START latches. -/
structure JcpLatched where
  seed : BitVec 64 := 0
  imageMpa : BitVec 64 := 0
  imageLen : BitVec 32 := 0
  reportLen : BitVec 32 := 0
  reportMpa : BitVec 64 := 0
  routeMpa : BitVec 64 := 0
  peerMpa : BitVec 64 := 0
  farTable : BitVec 64 := 0
  ident : BitVec 32 := 0
  modes : BitVec 32 := 0
  startStep : BitVec 64 := 0
  restoreId : BitVec 64 := 0
  snapA : BitVec 32 := 0
  snapB : BitVec 32 := 0
  partner : BitVec 32 := 0
  deriving DecidableEq, Repr

/-- Tables 11.5 and 11.6: a job control page. -/
structure Jcp where
  latch : JcpLatched := {}
  state : JobState := .idle
  lastCmd : BitVec 4 := 0
  cmdRefused : Bool := false
  ackRefused : Bool := false
  quotaRefused : Bool := false
  epochRefused : Bool := false
  reason : BitVec 8 := 0
  step : BitVec 64 := BitVec.allOnes 64
  epoch : BitVec 32 := 0
  epochAck : BitVec 32 := 0
  endStep : BitVec 64 := BitVec.allOnes 64
  latTolUs : BitVec 32 := 0
  eventStatus : BitVec 11 := 0
  eventEn : BitVec 11 := 0
  stepIrqEvery : BitVec 32 := 0
  segWritten : BitVec 64 := 0
  persistAck : BitVec 64 := 0
  farQuota0 : BitVec 32 := 0
  farQuota1 : BitVec 32 := 0
  evictStatus : BitVec 2 := 0
  imageId : BitVec 64 := 0
  failRec : BitVec 64 := 0
  deriving DecidableEq, Repr

/-- Table 15.1: an error record. -/
structure ErrRec where
  imageId : BitVec 64 := 0
  info : BitVec 64 := 0
  step : BitVec 32 := 0
  detail : BitVec 32 := 0
  code : BitVec 16 := 0
  unitKind : BitVec 4 := 0
  unit : BitVec 12 := 0
  cls : BitVec 3 := 0
  action : BitVec 3 := 0
  part : Option (BitVec 2) := none
  suppressed : BitVec 16 := 0
  deriving DecidableEq, Repr

/-- A suppressed pair of code and unit with its count since the last record (R405); `part` is the job's partition,
none outside a job. -/
structure Suppress where
  part : Option (BitVec 2) := none
  code : BitVec 16 := 0
  unitKind : BitVec 4 := 0
  unit : BitVec 12 := 0
  /-- the index in its tower of a frame -/
  frame : Nat := 0
  cls : BitVec 3 := 0
  count : Nat := 0
  deriving DecidableEq, Repr

/-- The error log ring (11 R313), the suppression counts (15 R405), and the control cores' own logs of the records that they have
written (15 R403), by core, numbered as Table 15.2 does. -/
structure ErrLog where
  wr : BitVec 32 := 0
  rd : BitVec 32 := 0
  dropped : BitVec 32 := 0
  ring : FMap ErrRec := []
  suppress : List Suppress := []
  own : FMap (List ErrRec) := []
  deriving DecidableEq, Repr

/-- Table 11.4 and Table 11.3: module status and host words. -/
structure ModRegs where
  ready : Bool := false
  quiesced : BitVec 4 := 0
  fenced : BitVec 4 := 0
  inReset : BitVec 4 := 0xF
  cfgBusy : Bool := false
  cfgRefused : Bool := false
  qpart : BitVec 8 := 0xE4
  /-- MOD.STEP_RESULT of a partition, 64 bits -/
  stepResult : FMap (BitVec 64) := []
  eventStatus : BitVec 4 := 0
  eventEn : BitVec 4 := 0
  bar2Base : BitVec 64 := 0
  bar2Part : BitVec 2 := 0
  bar2En : Bool := false
  bar2Refused : BitVec 32 := 0
  hostMaxVersion : BitVec 32 := 0
  jcpVersion : BitVec 16 := 0
  deriving DecidableEq, Repr

/-- Table 11.10: SW.STATE. -/
inductive SwState where
  | disabled | enabled | disabling
  deriving DecidableEq, Repr

/-- Table 11.10: a store window. SW.INFLIGHT is counted from the contexts' outstanding requests. -/
structure StoreWindow where
  hostAddr : BitVec 64 := 0
  size : BitVec 32 := 0
  part : BitVec 2 := 0
  enable : Bool := false
  /-- SW.MODE, and the mode of the disable request in force (R315, 15 R421) -/
  mode : Bool := false
  abandon : Bool := false
  state : SwState := .disabled
  deriving DecidableEq, Repr

/-- A fence table entry (Table 15.6). -/
structure FenceEntry where
  kind : BitVec 4 := 0
  index : BitVec 28 := 0
  code : BitVec 16 := 0
  cause : BitVec 8 := 0
  valid : Bool := false
  deriving DecidableEq, Repr

/-- A unit of Table 15.2; the index of a frame is 49,152t + g. -/
structure UnitRef where
  kind : BitVec 4 := 0
  index : BitVec 28 := 0
  deriving DecidableEq, Repr

/-- A test that is scheduled: at once or deferred, the ERR.WR index and code of its cause, and whether the host asked
for it (R410). -/
structure Test where
  target : UnitRef := {}
  deferred : Bool := false
  cause : BitVec 32 := 0
  code : BitVec 16 := 0
  host : Bool := false
  part : Option (BitVec 2) := none
  /-- what the test found and puts back: a port's KLP.ENABLE, a core's GATE_DIS; of a frame, that its page is being moved (09 R249) -/
  was : Bool := false
  /-- the index, 49,152t + g, of the frame whose half a channel's row test takes (Table 15.4) -/
  row : Option Nat := none
  deriving DecidableEq, Repr

/-- The tower and the index of a frame. -/
def UnitRef.frame (x : UnitRef) : Nat × Nat := (x.index.toNat / 49152, x.index.toNat % 49152)

/-- The frames that a test writes (Table 15.4), by 49,152t + g. -/
def Test.frames (t : Test) : List Nat := if t.target.kind = 13 then [t.target.index.toNat] else t.row.toList

/-- Gingham and fencing (15.3, 15.4, Table 15.7). -/
structure Gingham where
  queue : List Test := []
  /-- tests that run, with the control cluster that runs each -/
  running : List (Nat × Test) := []
  reqState : BitVec 3 := 0
  reqRefused : Bool := false
  divLimit : BitVec 8 := 4
  repeatLimit : BitVec 8 := 4
  tests : BitVec 64 := 0
  transient : BitVec 64 := 0
  /-- transient counts by unit: key kind × 2^28 + index -/
  counts : FMap Nat := []
  /-- consecutive divergences by core -/
  diverged : FMap Nat := []
  fences : FMap FenceEntry := []
  /-- retired frames (49,152t + g) that the full fence table holds no more (R416, R417) -/
  retiredMore : List Nat := []
  fenceRefused : Bool := false
  fenceArg : BitVec 64 := 0
  /-- units disabled for a test or by a fence -/
  disabled : List UnitRef := []
  notReady : Bool := false
  deriving DecidableEq, Repr

/-- 15 R415, Table 15.6: whether a fence entry of a unit is in force. -/
def Gingham.fenced (g : Gingham) (kind index : Nat) : Bool :=
  g.fences.any (fun e => e.2.valid && decide (e.2.kind.toNat = kind) && decide (e.2.index.toNat = index))

/-- R418: whether a unit that has returned from a fence has yet to pass its test. -/
def Gingham.returning (g : Gingham) (kind index : Nat) : Bool :=
  (g.queue ++ g.running.map Prod.snd).any (fun t => decide (t.code = 0x0F06) && decide (t.target.kind.toNat = kind) &&
    decide (t.target.index.toNat = index))

/-- R416, Table 15.6: the retired frames: those that the fence table lists under kind 13, and those whose entries have given way to their
tower's (log 56). -/
def Gingham.retired (g : Gingham) : List Nat :=
  g.fences.filterMap (fun e => if e.2.valid && decide (e.2.kind = 13) then some e.2.index.toNat else none) ++ g.retiredMore

/-- R416, R418: the frames that no page may use: those retired, and those that have yet to pass a test after their return. -/
def Gingham.barredFrames (g : Gingham) : List Nat :=
  g.retired ++ (g.queue ++ g.running.map Prod.snd).filterMap (fun t =>
    if decide (t.code = 0x0F06) && decide (t.target.kind = 13) then some t.target.index.toNat else none)

/-- Table 05.5: a placement variant. -/
structure Variant where
  inPlace : Bool := false
  towerExcl : BitVec 32 := 0
  portExcl : BitVec 24 := 0
  coreExcl : BitVec 512 := 0
  deriving DecidableEq, Repr

/-- Table 05.5 from its 768 bits. -/
def Variant.ofNat (n : Nat) : Variant :=
  { inPlace := n.testBit 576, towerExcl := BitVec.ofNat 32 (bitsAt n 544 32), portExcl := BitVec.ofNat 24 (bitsAt n 512 24),
    coreExcl := BitVec.ofNat 512 (bitsAt n 0 512) }

/-- Table 05.6: a queue map entry, with what the share map and the release plan give its edge. -/
structure QmEntry where
  slotUnits : BitVec 16 := 0
  bufOffset : BitVec 32 := 0
  depth : BitVec 8 := 0
  store : BitVec 2 := 0
  kind : BitVec 2 := 0
  dstEp : BitVec 5 := 0
  dstCore : BitVec 9 := 0
  srcEp : BitVec 5 := 0
  srcCore : BitVec 9 := 0
  edgeId : BitVec 16 := 0
  /-- the other end of a link stream: leaving (`srcCore` is here) or arriving -/
  linkOut : Option LinkEnd := none
  linkIn : Option LinkEnd := none
  releaseBase : Nat := 0
  releasePeriod : Nat := 0
  deriving DecidableEq, Repr

/-- Table 05.6 from its 128 bits: `x` is the entry's edge as the share map and the release plan give it. -/
def QmEntry.ofNat (x : QmEntry) (n : Nat) : QmEntry :=
  { x with slotUnits := BitVec.ofNat 16 (bitsAt n 96 16), bufOffset := BitVec.ofNat 32 (bitsAt n 64 32),
           depth := BitVec.ofNat 8 (bitsAt n 56 8), store := BitVec.ofNat 2 (bitsAt n 54 2), kind := BitVec.ofNat 2 (bitsAt n 48 2),
           dstEp := BitVec.ofNat 5 (bitsAt n 39 5), dstCore := BitVec.ofNat 9 (bitsAt n 30 9), srcEp := BitVec.ofNat 5 (bitsAt n 25 5),
           srcCore := BitVec.ofNat 9 (bitsAt n 16 9), edgeId := BitVec.ofNat 16 (bitsAt n 0 16) }

/-- Table 05.8's settings of one node, with its logical core. -/
structure SteerSetting where
  core : BitVec 9 := 0
  node : BitVec 3 := 0
  kind : BitVec 3 := 0
  inA : BitVec 5 := 0
  inB : BitVec 5 := 0
  token : BitVec 5 := 0
  outA : BitVec 5 := 0
  outB : BitVec 5 := 0
  deriving DecidableEq, Repr

/-- One logical core's program. -/
structure CoreProgram where
  core : BitVec 9 := 0
  passList : List OpEntry := []
  vectorList : List VecEntry := []
  gateEp : Option (BitVec 5) := none
  /-- counter log ring: base address and size code -/
  ring : Option (BitVec 64 × BitVec 16) := none
  queueSpill : Nat := 0
  deriving DecidableEq, Repr

/-- A section table entry (Table 05.2). -/
structure Section where
  offset : BitVec 64 := 0
  length : BitVec 32 := 0
  share : BitVec 16 := 0
  variant : BitVec 4 := 0
  target : BitVec 4 := 0
  type : BitVec 8 := 0
  deriving DecidableEq, Repr

/-- Table 05.1: the header fields that the loader uses. -/
structure WvHeader where
  imageId : BitVec 64 := 0
  bodyLen : BitVec 32 := 0
  sectionCount : BitVec 16 := 0
  shares : BitVec 16 := 0
  stallLimit : BitVec 8 := 0
  flags : BitVec 8 := 0
  reportVer : BitVec 16 := 0
  streamIsaVer : BitVec 16 := 0
  coreIsaVer : BitVec 16 := 0
  klpMinVer : BitVec 16 := 0
  formatVer : BitVec 16 := 0
  targets : BitVec 4 := 0
  variants : BitVec 4 := 0
  pairKind : BitVec 2 := 0
  quads : BitVec 2 := 0
  magic : BitVec 32 := 0
  deriving DecidableEq, Repr

/-- Table 16.2: power states of a partition. -/
inductive PState where
  | run | doze | park | retain | standby
  deriving DecidableEq, Repr

/-- Table 16.2: the code of a power state. -/
def PState.code : PState → Nat
  | .run => 0 | .doze => 1 | .park => 2 | .retain => 3 | .standby => 4

/-- The power state of a partition, and the state that an entry or a wake in progress leads to; PWR.TARGET and PWR.LIMIT, as they were last
evaluated (16 R427). -/
structure PartPower where
  state : PState := .run
  moving : Option PState := none
  target : PState := .run
  limit : PState := .run
  deriving DecidableEq, Repr

end Sys2Proof.Machine
end

