-- ==== Sys2Proof/Machine/SysTypes.lean ====
section
/-! DEFINITION. Resets and their episodes (13), power, thermals and calibration (16), the sealed energy meter (17), and what the
environment gives the commands of 13 to 17. -/

namespace Sys2Proof.Machine

-- Reset -------------------------------------------------------------------------------------------------------------------

/-- 01 Table 01.4: the clock islands that do not lie on the hub die. -/
inductive Island where
  | core (c : CoreId) | mesh (t : TowerId) | channel (k : ChannelId) | dieControl (t : TowerId)
  | linkMesh (d : LinkDieId) | port (p : PortId) | linkControl (d : LinkDieId)
  deriving DecidableEq, Repr

/-- 13 Table 13.1: a reset reach. A die is compute die t at t, link die d at 32 + d. -/
inductive Reach where
  | island (i : Island)
  | die (d : Fin 36)
  | quadrant (q : QuadId)
  | warm | cold | powerOn
  deriving DecidableEq, Repr

/-- Table 13.1: the code of a reach. -/
def Reach.code : Reach → Nat
  | .island _ => 1 | .die _ => 2 | .quadrant _ => 3 | .warm => 4 | .cold => 5 | .powerOn => 6

/-- Table 13.3, with the two forms of a debug request (Table 13.8). -/
inductive RstSource where
  | powerOn | brownOut | mrst | watchdog | software | dbgreq | jtag | clock | lockup
  deriving DecidableEq, Repr

/-- Table 13.8: a source's bit of RST.STATUS. -/
def RstSource.bit : RstSource → Nat
  | .powerOn => 0 | .brownOut => 1 | .mrst => 2 | .watchdog => 3 | .software => 4 | .dbgreq => 5 | .jtag => 6 | .clock => 7
  | .lockup => 8

/-- Table 13.5: the phases of an exit, from the release on. -/
inductive RstPhase where
  | release | clockStart | strapSample | optionLoading | hubStart | configRead | bringUp | islandExit | ready
  deriving DecidableEq, Repr

/-- R361: an episode: its latched reach, the sources that still assert, those that have joined (Table 13.8's bits), its phase. -/
structure Episode where
  reach : Reach := .powerOn
  asserted : List (RstSource × Reach) := []
  joined : BitVec 9 := 0
  phase : RstPhase := .release
  /-- module slots that this exit has rejected (14 R392), and whether it waits for an image (R367) -/
  tried : List Nat := []
  waiting : Bool := false
  /-- dies that have been brought up -/
  dies : List Nat := []
  /-- the wake of a module whose hub was off (16 R428) -/
  hubWake : Bool := false
  deriving DecidableEq, Repr

/-- 13.7: the reset block, the episodes and the pins. -/
structure RstRegs where
  -- record domain
  lastReach : BitVec 4 := 0
  sources : BitVec 9 := 0
  loadRestarts : BitVec 16 := 0
  loadPasses : BitVec 8 := 0
  loadFail : Bool := false
  clkStrapBad : Bool := false
  optValid : Bool := false
  optBusy : Bool := false
  bootFail : BitVec 4 := 0
  recoveryWait : Bool := false
  fallback : Bool := false
  bootSrc : BitVec 2 := 0
  strapClk : BitVec 2 := 0
  strapBoot : BitVec 2 := 0
  /-- RST.QCOUNT of quadrant q at q -/
  qcount : FMap (BitVec 16) := []
  recSnapId : BitVec 64 := 0
  recSnapValid : Bool := false
  recFwValid : Bool := false
  recSnapReach : BitVec 3 := 0
  recFwReach : BitVec 3 := 0
  recFlashSlot : BitVec 4 := 0
  recPart : BitVec 2 := 0
  recFwSlot : Bool := false
  -- hub domain, but bit 0 of RST.CONNECTOR_EN, which is the management domain's
  wdtReach : BitVec 3 := 4
  wdtLocked : Bool := false
  connectorEn : BitVec 8 := 0
  bootAddr : BitVec 64 := 0
  bootLen : BitVec 32 := 0
  bootStatus : BitVec 3 := 0
  -- what stands behind the registers: the episodes, the inputs, the TAP's reset-request register (R360)
  episodes : List Episode := []
  /-- the 12 V input is absent, not only low (R376) -/
  absent12 : Bool := false
  mgmtUp : Bool := false
  /-- an option load has completed since power-on (13 R368) -/
  padsLoaded : Bool := false
  tapRequest : BitVec 11 := 4
  trstLow : Bool := false
  /-- the TAP shifts a register out on TDO (19 R463) -/
  tapShifting : Bool := false
  /-- control cores that JTAG holds halted or is to halt (18 R453), numbered as 15 Table 15.2 does -/
  haltedCores : List Nat := []
  /-- the management controller's dynamic I3C address (19 R465) -/
  i3cAddr : Option (BitVec 7) := none
  /-- the host link is trained; REFCLK has failed under STRAP_CLK = 10 (R366) -/
  hostLink : Bool := false
  refclkLost : Bool := false
  /-- 14 R379: the configured WDT_LOG, and the cycles of each control cluster's watchdog since it was last restarted -/
  wdtLog : BitVec 6 := 28
  wdt : FMap Nat := []
  deriving DecidableEq, Repr

/-- The power-on episode in which the module begins (R361, R375). -/
def RstRegs.atPowerOn : RstRegs :=
  { lastReach := 6, sources := 1, absent12 := true, trstLow := true,
    episodes := [{ reach := .powerOn, asserted := [(.powerOn, .powerOn)], joined := 1 }] }

/-- 13 R359: a write to RST.CTRL by the host, or a control core's request for an island or its die. -/
inductive SwRequest where
  | host (w : BitVec 32)
  | control (r : Reach)
  deriving DecidableEq, Repr

/-- 13 R360: DBGREQ_N low for a time in nanoseconds, or the JTAG reset-request instruction updated with a value; and what else JTAG does to
the module's state: a halt of a control core, or its release (18 R453), and the start or end of a shift (19 R463). -/
inductive DbgRequest where
  | pin (lowNs : Nat)
  | jtag (v : BitVec 11)
  | halt (core : Fin 78) (on : Bool)
  | shift (on : Bool)
  deriving DecidableEq, Repr

/-- 13 R366: a clock that a monitor finds absent or off frequency. -/
inductive ClockSource where
  | oscillator | refclk | management | hubPll | islandPll (i : Island)
  deriving DecidableEq, Repr

-- Power -------------------------------------------------------------------------------------------------------------------

/-- 16 Table 16.11, THM.TOWER and THM.COUNT, with what the tower's thermal controller holds (R433). Times are in nanoseconds. -/
structure TowerThermal where
  trip : Bool := false
  stop : BitVec 2 := 0
  meshHalf : Bool := false
  op : BitVec 3 := 0
  cause : BitVec 2 := 0
  dram : BitVec 8 := 0
  logic : BitVec 8 := 0
  trips : BitVec 32 := 0
  stepsDown : BitVec 32 := 0
  /-- how long the logic and the DRAM reading have stayed 5 degrees below their limits, and since the last step -/
  coolLogic : Nat := 0
  coolDram : Nat := 0
  sinceStep : Nat := 1000000
  deriving DecidableEq, Repr

/-- THM.LINK and THM.HUB. -/
structure DieThermal where
  trip : Bool := false
  temp : BitVec 8 := 0
  deriving DecidableEq, Repr

/-- 16 Table 16.9: a valid user calibration: UC.SEQ, its entries, its bytes. -/
structure UserCal where
  seq : BitVec 32 := 0
  entries : List (BitVec 64) := []
  bytes : List Byte := []
  deriving DecidableEq, Repr

/-- 16 Table 16.1: an input's voltage in 10 mV; none where the input is absent. -/
abbrev InputVolts := Option Nat

/-- 16 R423: the two inputs when a source is to release. -/
structure InputPair where
  v48 : InputVolts := some 4800
  v12 : InputVolts := some 1200
  deriving DecidableEq, Repr

/-- 16 R423, R424: the 48 V input as it leaves its range, and the quadrant banks whose input has run down. -/
structure Input48 where
  volts : InputVolts := none
  off : BitVec 4 := 0
  deriving DecidableEq, Repr

/-- A management notice that the I3C controller has not read (19 R465). -/
inductive MgmtNotice where
  | meterStale (v : Bool) | sealBroken | calInvalid | bootRejected
  deriving DecidableEq, Repr

/-- 16.6: power and thermals. -/
structure Power where
  capEff : BitVec 16 := 10400
  capW : BitVec 16 := 10400
  calStatus : BitVec 2 := 0
  hubOffEn : Bool := false
  calAddr : BitVec 64 := 0
  calLen : BitVec 32 := 0
  current48 : BitVec 16 := 0
  voltage48 : BitVec 16 := 0
  current12 : BitVec 16 := 0
  voltage12 : BitVec 16 := 0
  flow : BitVec 12 := 0
  outlet : BitVec 10 := 0
  inlet : BitVec 10 := 0
  towers : FMap TowerThermal := []
  links : FMap DieThermal := []
  hub : DieThermal := {}
  /-- the coolant cap of the latest reading, and whether it is an alarm (R434) -/
  coolantCap : Nat := 10400
  alarm : Bool := false
  /-- R436: the V/F tables, and the factory calibration, that are in force -/
  vf : VfTables := {}
  fac : FactoryCal := {}
  /-- 13 R363: the trim that island n (Island.number) has taken from the hub's shadow at n -/
  trims : FMap (BitVec 64) := []
  /-- R437: the user calibration in use, and which copy of NOR it is -/
  cal : Option UserCal := none
  calCopy : Bool := false
  deriving DecidableEq, Repr

-- Meter -------------------------------------------------------------------------------------------------------------------

/-- 17 Table 17.3: an event log entry. -/
structure MeterEvent where
  e48 : BitVec 64 := 0
  seconds : BitVec 64 := 0
  detail : BitVec 64 := 0
  index : BitVec 32 := 0
  kind : BitVec 8 := 0
  deriving DecidableEq, Repr

/-- What a commit writes (R442): the energy registers and the counters. -/
structure MeterRegs where
  e48 : BitVec 64 := 0
  e12 : BitVec 64 := 0
  seconds : BitVec 64 := 0
  seq : BitVec 64 := 0
  interruptions : BitVec 32 := 0
  deriving DecidableEq, Repr

/-- 17 R445, R449: what the meter's one signing engine is asked for: a broadcast record, a requested one, a log extract. -/
inductive MeterAsk where
  | broadcast
  | read (tag : BitVec 16) (nonce : BitVec 256)
  | log (tag : BitVec 16) (nonce : BitVec 256) (first : BitVec 32) (count : BitVec 8)
  deriving DecidableEq, Repr

/-- R445: what the engine signs: for whom, the bytes as they were sampled at its start, the samples of the 48 V channel since then. -/
structure MeterSigning where
  ask : MeterAsk := .broadcast
  bytes : List Byte := []
  ticks : Nat := 0
  deriving DecidableEq, Repr

/-- The meter unit (17), which no reset reaches. Its identity and its values at manufacture are log 12. -/
structure Meter where
  running : Bool := false
  /-- 12 V has gone, and the hold-up capacitor carries the meter to its commit (R442) -/
  holdup : Bool := false
  regs : MeterRegs := {}
  /-- what the ferroelectric memory holds -/
  committed : MeterRegs := {}
  /-- the products of the samples that do not yet make 1 mWh -/
  rest48 : Nat := 0
  rest12 : Nat := 0
  v48 : BitVec 16 := 0
  i48 : BitVec 16 := 0
  v12 : BitVec 16 := 0
  i12 : BitVec 16 := 0
  selfCheckFail : Bool := false
  overSeen : Bool := false
  over48 : Bool := false
  over12 : Bool := false
  holdupSeen : Bool := false
  sealed : Bool := true
  /-- the cell that latches an unpowered break (R447) -/
  cell : Bool := false
  /-- a hold-up commit has failed since the last start -/
  commitLost : Bool := false
  log : List MeterEvent := []
  fwSum : BitVec 256 := 0
  /-- the firmware sum that the log holds last -/
  fwLogged : Option (BitVec 256) := none
  fwVersion : BitVec 32 := 0
  meterId : BitVec 64 := 0
  moduleId : BitVec 64 := 0
  cert : List Byte := []
  privateKey : List Byte := []
  /-- what the signing engine signs, and what waits for it, in order of arrival (R445) -/
  signing : Option MeterSigning := none
  waiting : List MeterAsk := []
  /-- the broadcast record on the internal line, which the management controller has not taken (R452) -/
  line : Option (List Byte) := none
  deriving DecidableEq, Repr

/-- 17 Table 17.6: the meter view. -/
structure MeterView where
  age : BitVec 16 := 65535
  gen : BitVec 8 := 0
  sealBroken : Bool := false
  stale : Bool := true
  sigBad : Bool := false
  rejected : BitVec 32 := 0
  record : List Byte := []
  signature : List Byte := []
  deriving DecidableEq, Repr

/-- 17 R449: why a frame is answered with ERROR. -/
inductive MeterFault where
  | frame | code | busy
  deriving DecidableEq, Repr

-- Commands ----------------------------------------------------------------------------------------------------------------

/-- An image as it is received, laid out as a slot is (14 R389): its bytes, the messages that its block's signatures were made over, whether
the read met an error. -/
structure FwSupply where
  bytes : List Byte := []
  issuerMsg : Option (List Byte) := none
  objectMsg : Option (List Byte) := none
  readError : Bool := false
  deriving DecidableEq, Repr

/-- The image that lies in the bytes. -/
def FwSupply.image (x : FwSupply) : FwImage := FwImage.ofSlot x.bytes x.issuerMsg x.objectMsg
/-- The commit record, at 0. -/
def FwSupply.commit (x : FwSupply) : BitVec 512 := BitVec.ofNat 512 (Machine.ofBytes (x.bytes.take 64))
/-- The first `n` bytes of it, as a command names its length. -/
def FwSupply.upTo (x : FwSupply) (n : Nat) : FwSupply := { x with bytes := x.bytes.take n }

/-- 14 R390: how far a slot was written before a reset, if one fell. -/
inductive SlotCut where
  | zeroed | intent | content
  deriving DecidableEq, Repr

/-- 14 R400: a token: its bytes, the messages that its block's signatures were made over, whether it came over I3C. -/
structure Token where
  bytes : List Byte := []
  issuerMsg : Option (List Byte) := none
  objectMsg : Option (List Byte) := none
  i3c : Bool := false
  deriving DecidableEq, Repr

/-- What the configuration read finds in NOR beside the slot: the configuration of the watchdogs (14 R379, Table 13.11). -/
structure ConfigNor where
  wdtLog : BitVec 6 := 28
  wdtReach : BitVec 3 := 4
  deriving DecidableEq, Repr

/-- How a Gingham test ended: its unit passes; it fails, at an address; a channel's code check fails, not its row test. -/
inductive TestEnd where
  | pass
  | fail (addr : BitVec 64)
  | codeFail (addr : BitVec 64)
  deriving DecidableEq, Repr

/-- What the management controller is asked over I3C (R428, 14 R398, R402, 17 R452, 19 R465). -/
inductive PldmReq where
  /-- SETDASA to a static address, ENTDAA: a dynamic address -/
  | setdasa (target address : BitVec 7)
  | entdaa (address : BitVec 7)
  /-- any request that wakes a module whose hub is off -/
  | wake
  /-- a boot image, under STRAP_BOOT = 11 or in recovery wait -/
  | bootImage (x : FwSupply)
  /-- the module component of an update, and its activation -/
  | moduleImage (x : FwSupply) (cut : Option SlotCut)
  | activate
  /-- the management component -/
  | mgmtImage (x : FwSupply) (cut : Option SlotCut)
  /-- the attestation report, with the requester's nonce -/
  | attest (nonce : BitVec 256)
  /-- the meter's record -/
  | meterRecord
  /-- the notices held -/
  | notices
  deriving DecidableEq, Repr

/-- A write of a 64-bit register: whole, or (`half`) of its high (true) or low word (00 R13). -/
structure WordWrite where
  half : Option Bool := none
  value : BitVec 64 := 0
  deriving DecidableEq, Repr

/-- The end of a context's settle phase in cycle `now` of its step, with the cycle in which each outstanding request's bytes came
(06 R161, R167). -/
structure HaltSettle where
  ctx : CtxKey
  now : Nat := 0
  arrived : List Nat := []
  deriving DecidableEq, Repr

/-- A die controller's poll, with the errors that its cores and channels correct in the read's own cycle (15 R409, 00 R14). -/
structure CePoll where
  tower : TowerId
  coreNow : List Nat := []
  chanNow : List Nat := []
  deriving DecidableEq, Repr

/-- The meter's commit on hold-up: whether it was completed, and how many bytes of a response under way have left (17 R442, R451). -/
structure Holdup where
  ok : Bool
  cut : Option Nat := none
  deriving DecidableEq, Repr

/-- A register without a row of its own, by the space in which it is written: BAR0 (11 Table 11.2) at an offset; a core's, a
context's, a die's, a channel's, a link die's or a port's control space, which firmware writes: by name, or at its offset there. -/
inductive RegRef where
  | bar0 (off : BitVec 26)
  /-- CORE.CTRL's GATE_DIS; CORE.ARITH_STATUS; QEP.STUCK_SEEN; RPT.LOG_CTRL (SIZE and EN); RPT.LOG_BASE; RPT.LOG_RD -/
  | coreGateDis (c : CoreId) | coreArith (c : CoreId) | queueStuck (c : CoreId) (e : EpId)
  | logCtrl (c : CoreId) | logBase (c : CoreId) | logRd (c : CoreId)
  /-- BNDn; BND_VALID; RING.SIZE, POS and EN; STR.DISABLE_MODE; STR.REARM_REFUSED -/
  | bnd (c : CoreId) (n : Fin 8) | bndValid (c : CoreId) | ringCtrl (c : CoreId)
  | strMode (k : CtxKey) | strRefused (k : CtxKey)
  /-- an address map entry's low and high words; CHN.POISON_SEEN; a route entry -/
  | amapLow (t : TowerId) (e : Fin 1024) | amapHigh (t : TowerId) (e : Fin 1024) | chanPoison (k : ChannelId)
  | route (d : LinkDieId) (key : Fin 1048576)
  /-- an entry of the route memory's run tables or bond table -/
  | routeRun (d : LinkDieId) (key : Fin 393216)
  /-- KLP.CTRL's RW fields but ENABLE; KLP.REPLAY_TO; KLP.AHEAD_LIMIT -/
  | klpCtrl (p : PortId) | klpReplayTo (p : PortId) | klpAhead (p : PortId)
  /-- the register at an offset of a core's window (03 R89), of a die's (09 R256, 06 R163) or of a link die's control space (10 R294) -/
  | coreAt (c : CoreId) (off : BitVec 12)
  | dieAt (t : TowerId) (off : BitVec 20)
  | linkAt (d : LinkDieId) (off : BitVec 28)
  deriving DecidableEq, Repr

end Sys2Proof.Machine
end

