-- ==== Sys2Proof/Machine/JobTypes.lean ====
section
/-! DEFINITION. A partition: its job control page, the copy START latched, and the state of the job that runs
(05, 07, 11, 12). -/

namespace Sys2Proof.Machine

/-- 09 R241, 05 Table 05.3: an extent of the memory map: job pages laid over frames of a logical tower; `ro` marks pages that
are mapped read-only. -/
structure Extent where
  jobPage : BitVec 27 := 0
  pages : BitVec 21 := 0
  tower : BitVec 5 := 0
  pairFirst : BitVec 4 := 0
  pairSpan : BitVec 5 := 0
  frameBase : BitVec 12 := 0
  ro : Bool := false
  deriving DecidableEq, Repr

/-- A stream program of the image: its logical context, numbered as CtxKey, the descriptor's byte offset in the image, and, where it
reads training data, the address register that takes the data-order index and the bytes of a micro-batch (07 R180, log 94). -/
structure StreamProg where
  ctx : Nat := 0
  off : Nat := 0
  data : Option (Fin 8 × Nat) := none
  /-- the pointer lists that it fetches name addresses of space 1 or 2 (06 R161) -/
  farLists : Bool := false
  deriving DecidableEq, Repr

/-- 06 R173: a member of a ring: its logical core and the bytes of its chunk. -/
structure RingMember where
  core : BitVec 9 := 0
  chunk : Nat := 0
  deriving DecidableEq, Repr

/-- The sections of one placement variant (05 T05.3) for this module's share. -/
structure VariantBody where
  descr : Variant := {}
  programs : List CoreProgram := []
  queues : List QmEntry := []
  steers : List SteerSetting := []
  extents : List Extent := []
  /-- the stream programs in the order of the arm lists (06 R152), and the rings in order of their members (06 R173) -/
  streams : List StreamProg := []
  rings : List (List RingMember) := []
  deriving DecidableEq, Repr

/-- The programs of a variant that run: an excluded core runs nothing (05 R123). -/
def VariantBody.running (v : VariantBody) : List CoreProgram := v.programs.filter (fun c => !v.descr.coreExcl.getLsbD c.core.toNat)

/-- Expected records of a core in a step (05 R149, R150). -/
structure ReportStep where
  step : BitVec 64 := 0
  /-- the length trace has this step's lengths (R149) -/
  predicted : Bool := true
  /-- the report marks the step as expected off-report (R150) -/
  offReport : Bool := false
  core : BitVec 9 := 0
  records : List LogRec := []
  passes : BitVec 64 := 0
  /-- STEER.FIRED increments by node, and packets and bytes of each link stream by output endpoint (R140, R149) -/
  fired : List (BitVec 64) := []
  streams : List (Nat × Nat × Nat) := []
  /-- the packets of the step by KLP port, where this entry gives them (R140) -/
  ports : List (Nat × Nat) := []
  /-- the placement variant whose report this is (R149) -/
  variant : Nat := 0
  deriving DecidableEq, Repr

/-- Table 07.7: an optimiser descriptor, with its byte offset in the image, the offsets of its scale planes (04 R100) and the tensor
identifiers of its moments (07 R205). -/
structure OptDesc where
  off : Nat := 0
  masterBase : BitVec 48 := 0
  mBase : BitVec 48 := 0
  rBase : BitVec 48 := 0
  count : BitVec 32 := 0
  beta1 : BitVec 32 := 0
  beta2 : BitVec 32 := 0
  omb1 : BitVec 32 := 0
  omb2 : BitVec 32 := 0
  eps : BitVec 32 := 0
  wd : BitVec 32 := 0
  t0 : BitVec 32 := 0
  schedule : BitVec 16 := 0
  workFmt : BitVec 4 := 2
  wtBwd : BitVec 2 := 0
  decay : Bool := false
  momSr : Bool := false
  nonfinite : Bool := false
  mScaleOff : Nat := 0
  rScaleOff : Nat := 0
  mTensor : BitVec 32 := 0
  rTensor : BitVec 32 := 0
  deriving DecidableEq, Repr

/-- Table 07.7 from its 512 bits. -/
def OptDesc.ofNat (x : OptDesc) (n : Nat) : OptDesc :=
  { x with masterBase := BitVec.ofNat 48 (bitsAt n 464 48), mBase := BitVec.ofNat 48 (bitsAt n 416 48),
           rBase := BitVec.ofNat 48 (bitsAt n 368 48), count := BitVec.ofNat 32 (bitsAt n 336 32),
           beta1 := BitVec.ofNat 32 (bitsAt n 304 32), beta2 := BitVec.ofNat 32 (bitsAt n 272 32),
           omb1 := BitVec.ofNat 32 (bitsAt n 240 32), omb2 := BitVec.ofNat 32 (bitsAt n 208 32), eps := BitVec.ofNat 32 (bitsAt n 176 32),
           wd := BitVec.ofNat 32 (bitsAt n 144 32), t0 := BitVec.ofNat 32 (bitsAt n 112 32), schedule := BitVec.ofNat 16 (bitsAt n 96 16),
           workFmt := BitVec.ofNat 4 (bitsAt n 20 4), wtBwd := BitVec.ofNat 2 (bitsAt n 18 2), decay := n.testBit 17,
           momSr := n.testBit 16, nonfinite := n.testBit 15 }

/-- 07 R201: the ranges of the optimiser state of `len` elements from index `n` of a region: w, then the elements and scales of m and
√v. -/
def OptDesc.ranges (o : OptDesc) (n : Nat) (len : Nat := 4096) : List (Nat × Nat) :=
  [(o.masterBase.toNat + 4 * n, 4 * len), (o.mBase.toNat + n, len), (o.mBase.toNat + o.mScaleOff + n / 32, len / 32),
   (o.rBase.toNat + n, len), (o.rBase.toNat + o.rScaleOff + n / 32, len / 32)]

/-- 07 R202: how many elements of a tile of a region lie within OPT.COUNT. -/
def OptDesc.elems (o : OptDesc) (tl : Nat) : Nat := min 4096 (o.count.toNat - 4096 * tl)

/-- 07 R203: a segment of a learning-rate schedule. -/
structure LrSeg where
  start : BitVec 32 := 0
  lr0 : BitVec 32 := 0
  slope : BitVec 32 := 0
  deriving DecidableEq, Repr

/-- 07 R203 from its 128 bits. -/
def LrSeg.ofNat (n : Nat) : LrSeg :=
  { start := BitVec.ofNat 32 (bitsAt n 96 32), lr0 := BitVec.ofNat 32 (bitsAt n 64 32), slope := BitVec.ofNat 32 (bitsAt n 32 32) }

/-- A trainable region of a group: its tiles, its gradient producer (07 R200), its optimiser descriptor, and for each generation (07 R181) the
job addresses of the forward and backward copies' elements and scales; the endpoints that take its generation tokens. -/
structure Region where
  tiles : Nat := 0
  producer : BitVec 24 := 0
  opt : OptDesc := {}
  fwd : List Nat := []
  fwdScales : List Nat := []
  bwd : List Nat := []
  bwdScales : List Nat := []
  tokens : List (BitVec 9 × BitVec 5) := []
  deriving DecidableEq, Repr

/-- 07 R197: a frozen parameter region: its elements, its format and WT_BWD, the job addresses of its forward and backward copies. -/
structure FrozenRegion where
  count : Nat := 0
  workFmt : BitVec 4 := 2
  wtBwd : BitVec 2 := 0
  fwd : Nat := 0
  fwdScales : Nat := 0
  bwd : Nat := 0
  bwdScales : Nat := 0
  deriving DecidableEq, Repr

/-- 07 R185: the operand copies that a deferred weight-gradient instance reads: the places (job address and bytes) that the copies of
successive micro-batches take in turn, and the largest distance, in micro-batches, between an instance and its deferred slot. -/
structure Retained where
  places : List (Nat × Nat) := []
  distance : Nat := 0
  deriving DecidableEq, Repr

/-- Table 08.1: a group descriptor, with its byte offset in the image, its regions and its runs (R210, R217). -/
structure GroupDesc where
  off : Nat := 0
  combineBase : BitVec 48 := 0
  headerBase : BitVec 48 := 0
  sumBase : BitVec 48 := 0
  orBase : BitVec 48 := 0
  tiles : BitVec 32 := 0
  ownFirst : BitVec 32 := 0
  ownCount : BitVec 32 := 0
  members : BitVec 13 := 0
  self : BitVec 12 := 0
  id : BitVec 8 := 0
  runBase : BitVec 48 := 0
  runs : BitVec 10 := 0
  statusAddr : BitVec 48 := 0
  homeFirst : BitVec 17 := 0
  homeCount : BitVec 13 := 0
  ownerRuns : List (Nat × Nat) := []
  homeRuns : List (Nat × Nat) := []
  regions : List Region := []
  deriving DecidableEq, Repr

/-- Table 08.1 from its 512 bits. -/
def GroupDesc.ofNat (x : GroupDesc) (n : Nat) : GroupDesc :=
  { x with combineBase := BitVec.ofNat 48 (bitsAt n 464 48), headerBase := BitVec.ofNat 48 (bitsAt n 416 48),
           sumBase := BitVec.ofNat 48 (bitsAt n 368 48), orBase := BitVec.ofNat 48 (bitsAt n 320 48),
           tiles := BitVec.ofNat 32 (bitsAt n 288 32), ownFirst := BitVec.ofNat 32 (bitsAt n 256 32),
           ownCount := BitVec.ofNat 32 (bitsAt n 224 32), members := BitVec.ofNat 13 (bitsAt n 211 13),
           self := BitVec.ofNat 12 (bitsAt n 199 12), id := BitVec.ofNat 8 (bitsAt n 191 8), runBase := BitVec.ofNat 48 (bitsAt n 143 48),
           runs := BitVec.ofNat 10 (bitsAt n 133 10), statusAddr := BitVec.ofNat 48 (bitsAt n 85 48),
           homeFirst := BitVec.ofNat 17 (bitsAt n 68 17), homeCount := BitVec.ofNat 13 (bitsAt n 55 13) }

/-- R210, R217: a run from its 64 bits: its first tile and its logical core. -/
def runOfNat (n : Nat) : Nat × Nat := (bitsAt n 32 32, bitsAt n 0 9)

/-- 07 R190: a managed tensor and the job address of its scaling record. -/
structure Managed where
  tensor : BitVec 32 := 0
  addr : BitVec 48 := 0
  deriving DecidableEq, Repr

/-- 12 R326: an entry of the page list. -/
structure Ple where
  frozen : Bool := false
  ride : Bool := false
  page : BitVec 27 := 0
  deriving DecidableEq, Repr

/-- 12 Table 12.3: the snapshot plan with its page list. -/
structure SnapPlan where
  partnerBase : BitVec 48 := 0
  partnerPages : BitVec 32 := 0
  catalogue : BitVec 48 := 0
  pages : List Ple := []
  stepCycles : BitVec 48 := 0
  sign : Bool := false
  deriving DecidableEq, Repr

/-- A weave image's sections: what the spec lays out is read from the image (log 13), the rest comes typed: variants, groups with the
job address and contents of the contributor records (08 R218), the offset and length of the schedule directory (07 R203), managed
tensors, micro-batches a step and tokens of each (07 R180). -/
structure ImageBody where
  variants : List VariantBody := []
  groups : List GroupDesc := []
  frozen : List FrozenRegion := []
  crBase : BitVec 48 := 0
  crs : List (BitVec 128) := []
  dirOff : Nat := 0
  dirCount : Nat := 0
  managed : List Managed := []
  mbCount : Nat := 1
  mbTokens : Nat := 0
  retained : List Retained := []
  plan : Option SnapPlan := none
  /-- the job state page, and the job address ranges that the memory map gives to anything but the owned optimiser state (12 R324,
  R327) -/
  jobState : BitVec 27 := 0
  others : List (Nat × Nat) := []
  /-- what the memory map places in job memory at job start, by job address: scaling records (07 R192), the working copies of frozen
  regions (07 R197) -/
  placed : List (Nat × List Byte) := []
  /-- the job page at which the image region is mapped (R119 step 6) -/
  imagePage : BitVec 27 := 0
  /-- the offset of the home-run table (08 R217) -/
  homeOff : Nat := 0
  /-- the route image (10 R281, R284), its entries of Table 10.8 at 4096g + m, and the expected-peer table (R285: port, peer identifier,
  peer port), by the host -/
  routes : FMap (BitVec 64) := []
  bonds : FMap (BitVec 24) := []
  peers : List (BitVec 5 × BitVec 64 × BitVec 5) := []
  deriving DecidableEq, Repr

/-- 05 R119 step 6: the job address of a byte of the image region: `mpa` is the image's. -/
def ImageBody.addrOf (b : ImageBody) (mpa off : Nat) : Nat := 2 ^ 21 * b.imagePage.toNat + mpa % 2 ^ 21 + off

/-- 07 R203: schedule `n` of the directory at an address: its segments, `rd` reading numbers of bytes there. -/
def lrSchedule (rd : Nat → Nat → Nat) (dir n : Nat) : List LrSeg :=
  let e := rd (dir + 16 * n) 16
  (List.range (bitsAt e 64 16)).map (fun i => LrSeg.ofNat (rd (bitsAt e 80 48 + 16 * i) 16))

/-- What START finds in partition memory beside the header, the signature block, the section table and what it reads of the sections:
the rest of the sections (log 13), the counter section of the report, the messages that the two signatures were made over (log 6). -/
structure StartImage where
  body : ImageBody := {}
  report : List ReportStep := []
  issuerMsg : Option (List Byte) := none
  objectMsg : Option (List Byte) := none
  deriving DecidableEq, Repr

/-- Table 12.3 from its 512 bits, and SP.LIST's page list. -/
def SnapPlan.ofNat (n : Nat) (pages : List Ple) : SnapPlan :=
  { partnerBase := BitVec.ofNat 48 (bitsAt n 464 48), partnerPages := BitVec.ofNat 32 (bitsAt n 432 32),
    catalogue := BitVec.ofNat 48 (bitsAt n 384 48), pages := pages, stepCycles := BitVec.ofNat 48 (bitsAt n 256 48),
    sign := n.testBit 248 }

/-- 12 R326: a page list entry from its 32 bits. -/
def Ple.ofNat (n : Nat) : Ple := { frozen := n.testBit 31, ride := n.testBit 30, page := BitVec.ofNat 27 (bitsAt n 0 27) }

/-- 12 R328 to R335: the copy of a Muslin snapshot in progress at the module. -/
structure SnapRun where
  id : BitVec 64 := 0
  step : BitVec 64 := 0
  slot : Nat := 0
  epoch : BitVec 32 := 0
  variant : Nat := 0
  /-- page indices whose frames the copiers have not copied, in the order in which they take them -/
  queue : List Nat := []
  /-- ME.DIGEST by page index -/
  digests : FMap (List Byte) := []
  /-- pages handed to the ride whose digest has not returned, and bytes of each that have been sent -/
  ride : List Nat := []
  rideSent : FMap Nat := []
  rode : List Nat := []
  /-- the manifest as sent, with its signature block -/
  manifest : List Byte := []
  sealed : Bool := false
  deriving DecidableEq, Repr

/-- 12 R341, R350: a fetch of pages from the partner's slot. -/
structure FetchRun where
  id : BitVec 64 := 0
  /-- the manifest that the pages are checked against -/
  manifest : List Byte := []
  /-- FETCH has been sent -/
  begun : Bool := false
  /-- bytes received of each page -/
  got : FMap (List Byte) := []
  /-- pages checked and written, and pages whose digest did not match -/
  placed : List Nat := []
  bad : List Nat := []
  ended : Option (BitVec 4) := none
  resends : Nat := 0
  deriving DecidableEq, Repr

/-- 12 R341: a flash snapshot in progress: the Muslin snapshot, its number φ, and the flash slot. -/
structure FlashRun where
  fetch : FetchRun := {}
  step : BitVec 64 := 0
  number : Nat := 0
  slot : Nat := 0
  /-- the partner's slot is pinned: the flash slot's commit record has been zeroed and its intent record written (13 R373) -/
  opened : Bool := false
  deriving DecidableEq, Repr

/-- 12 R342: a Serge snapshot in progress: the flash slot, the number of its first segment, how many it has. -/
structure SergeRun where
  id : BitVec 64 := 0
  step : BitVec 64 := 0
  slot : Nat := 0
  first : BitVec 64 := 0
  total : Nat := 0
  pages : Nat := 0
  /-- its entry of the catalogue (Table 12.9) -/
  cat : Nat := 10
  deriving DecidableEq, Repr

/-- 12 R350: a restore in progress: of a START or of a rollback. -/
structure Restore where
  fetch : FetchRun := {}
  rollback : Bool := false
  /-- the partner slot that holds the snapshot -/
  slot : Option Nat := none
  /-- every page is in place -/
  done : Bool := false
  deriving DecidableEq, Repr

/-- What a tier's header area holds of a snapshot: its commit record, its manifest with the signature block, and the message that the key
named there made the signature over; none where it is no signature of that key (14 R386, log 6). -/
structure HeaderArea where
  commit : BitVec 512 := 0
  manifest : List Byte := []
  sigMsg : Option (List Byte) := none
  deriving DecidableEq, Repr

/-- What a store window holds of a Serge snapshot (12 R350). -/
structure SergeCopy where
  header : HeaderArea := {}
  pages : List (List Byte) := []
  deriving DecidableEq, Repr

/-- A committed Muslin snapshot: identifier, step, slot, whether it is job-complete (R333). -/
structure Newest where
  id : BitVec 64 := 0
  step : BitVec 64 := 0
  slot : Nat := 0
  complete : Bool := false
  deriving DecidableEq, Repr

/-- The job of a partition between START and CLEAR. -/
structure Job where
  latched : JcpLatched := {}
  header : WvHeader := {}
  /-- SHAKE256 of the image's header (14 Table 14.13) -/
  headDigest : BitVec 256 := 0
  body : ImageBody := {}
  loaded : Bool := false
  /-- physical quadrants of the logical quadrants, in order (Table 05.4) -/
  quads : List Nat := []
  target : Nat := 0
  variant : Nat := 0
  report : List ReportStep := []
  reportLoaded : Bool := false
  stopStep : Option (BitVec 64) := none
  /-- commands accepted that have not taken effect, in order (11 R318, 15 R410, R414), with the image of a START -/
  waitingCmds : List (JobCmd × StartImage) := []
  /-- JCP.STEP at the last STEP event (Table 11.8) -/
  stepIrqBase : BitVec 64 := BitVec.allOnes 64
  /-- an owner core has begun the update of the current step (15 R407) -/
  updateBegun : Bool := false
  /-- withdrawn from the step; the step S_j of the rejoin (12 R346) -/
  withdrawn : Option (BitVec 64) := none
  /-- a rollback hold is in force (12 R345) -/
  hold : Bool := false
  /-- RPT.STATUS of the cores that have ended a step, ORed, by step (R148) -/
  stepStatus : FMap (BitVec 12) := []
  /-- packets of a step that a KLP port has been given, port P and the low 16 bits of the step at 2^16 P + step (R140) -/
  portSent : FMap Nat := []
  /-- the data-order cursor (07 R180) -/
  cursor : BitVec 64 := 0
  /-- parts of a generation written, by (group × 2^16 + region) × 2^32 + its step (07 R181) -/
  genParts : FMap Nat := []
  /-- members that rejoin, with their step (12 R346) -/
  rejoins : List (BitVec 12 × BitVec 64) := []
  /-- the snapshot step whose point has not been passed (12 R328) -/
  snapDue : Option (BitVec 64) := none
  snap : Option SnapRun := none
  /-- the step whose start has reset the status blocks of the groups (08 R232) -/
  opened : Option (BitVec 64) := none
  /-- the step that a copy budget which expired marks (12 R334) -/
  rideStep : Option (BitVec 64) := none
  /-- SNAP_DONE received: snapshot and member -/
  snapDone : List (BitVec 64 × BitVec 12) := []
  flash : Option FlashRun := none
  /-- Serge snapshots that are written, in order -/
  serge : List SergeRun := []
  restore : Option Restore := none
  /-- a fence asks for a variant selection at the next step boundary (05 R124, 15 R418): the index of its record -/
  reselect : Option (BitVec 32) := none
  /-- the newest committed Muslin snapshot, and whether the snapshot point of JCP.SNAP_AT_STOP has been passed -/
  newest : Option Newest := none
  stopSnap : Bool := false
  /-- the partner is unreachable (12 R347) -/
  partnerLost : Bool := false
  /-- JCP.EPOCH has been raised in Retain or Standby, and is applied on wake (12 R348) -/
  raised : Bool := false
  deriving DecidableEq, Repr

/-- A slot of the partner region (12 R333, R339). -/
structure PartnerSlot where
  committed : Bool := false
  pinned : Bool := false
  opened : Bool := false
  id : BitVec 64 := 0
  member : BitVec 12 := 0
  pages : Nat := 0
  /-- bytes written of each page, of the manifest, and the manifest's length once sealed -/
  got : FMap Nat := []
  manifestGot : Nat := 0
  sealLen : Option Nat := none
  /-- pages of which a piece came by the ride -/
  rides : List Nat := []
  /-- commits made into this area (CM.SEQ) -/
  seq : BitVec 16 := 0
  deriving DecidableEq, Repr

/-- A partition. -/
structure Part where
  jcp : Jcp := {}
  job : Job := {}
  power : PartPower := {}
  partner : FMap PartnerSlot := []
  /-- far pages being resolved (09 R263) and the page being evicted (09 R264) -/
  far : List FarRes := []
  evict : Option (Nat × Nat) := none
  /-- members reported unreachable, with their group, that the module controller has not taken (10 R286) -/
  unreach : List (Nat × Nat) := []
  deriving DecidableEq, Repr

/-- The variant that a job runs. -/
def Job.body' (j : Job) : VariantBody := j.body.variants.getD j.variant {}

end Sys2Proof.Machine
end

