-- ==== Sys2Proof/Syntax.lean ====
section
/-! DEFINITION. The commands of the module: one constructor per row of the table of operations and events. The table
gives a row no fields; its operands are what the row's rule names (log 14). -/

namespace Sys2Proof

open Sys2Proof.Machine

/-- A command or event of the module. -/
inductive Instr where
  /-- PASS_ISSUE (R71): The array sequencer issues the head pass of the pass list once every condition of Table 03.2 holds, and the pass runs to its end. -/
  | passIssue (core : CoreId) (io : PassIo)
  /-- ANCHOR_COMPUTE (R47): The anchor unit computes the anchor of the next output tile once the previous tile is done and both full summaries are present. -/
  | anchorCompute (core : CoreId) (inputSummary weightSummary : Nat)
  /-- SHADOW_LOAD (R74): An array loads the input tile of its next pass into its shadow registers while the current pass runs. -/
  | shadowLoad (core : CoreId) (array : Fin 4) (offset : Nat) (twill : List TwillMove)
  /-- DRAIN_ISSUE (R72): The drain port issues the head drain once the last-vector latency has elapsed and the destination space is reserved, then rounds each entry once into the target format. -/
  | drainIssue (core : CoreId) (io : IssueIo)
  /-- DRAIN_COMPLETE (R78): A drain completes, and its slot becomes FREE, OPEN or HELD as DRAIN.KEEP and the destination give; an end-of-step marker follows where DRAIN.EOS is set. -/
  | drainComplete (core : CoreId)
  /-- VECTOR_ISSUE (R118): The vector unit issues the head entry of its vector list once its operands are in vector scratch and space for its result is reserved. -/
  | vectorIssue (core : CoreId) (io : IssueIo)
  /-- SRAM_UE (R82): An uncorrectable SRAM error stops the core at once, marks the slots of the interrupted pass as NaN and sends an error record. -/
  | sramUe (core : CoreId) (store : Fin 5) (bank : BitVec 8) (offset : SramHit)
  /-- CORE_ENABLE (R90): A write of CORE.ENABLE sets or clears issue from the core's lists, taking effect at the next pass boundary. -/
  | coreEnable (core : CoreId) (on : Bool)
  /-- CORE_HALT_REQ (R90): A write of CORE.HALT_REQ requests a debug stop of issue at the next pass boundary, or resumes issue. -/
  | coreHaltReq (core : CoreId) (on : Bool)
  /-- PASS_BOUNDARY_STOP (R73): At a pass boundary, a pending halt, CORE.CTRL change or quiesce takes effect and CORE.HALTED reads 1 once nothing is in flight. -/
  | passBoundaryStop (core : CoreId)
  /-- LOOP_LENGTH_LATCH (R103): The sequencer latches each dynamic loop length of an instance before its first pass, then checks the lengths and tests for overcommit. -/
  | loopLengthLatch (core : CoreId)
  /-- SLOT_SPILL (R111): The sequencer writes a resident tile's wide form to its spill position, and the slot becomes SPILLED. -/
  | slotSpill (core : CoreId) (slot : Fin 32)
  /-- SLOT_RELOAD (R111): A needed tile is reloaded into its home slot from its spill position, or reset as an empty wide form, and the slot becomes OPEN. -/
  | slotReload (core : CoreId) (slot : Fin 32)
  /-- ADD_MODE_RELOAD (R115): A partial wide form of a K split is reloaded in add mode into the OPEN slot of the same tile, adding entries as integers. -/
  | addModeReload (core : CoreId) (slot : Fin 32) (source : CoreId) (sourceSlot : Fin 32)
  /-- BOUNDARY_GATE_CLOSE (R27): The hub stops new packets at a boundary bridge, delivers those in flight and closes the gate, discarding and counting packets from a side in reset. -/
  | boundaryGateClose (gate : Fin 12) (packets : Fin 129)
  /-- TILE_ARRIVE (R128): A tile arrives at an input endpoint with its sequence and step numbers and becomes present once it is the oldest tile of its step. -/
  | tileArrive (core : CoreId) (ep : EpId)
  /-- END_OF_STEP_MARKER (R129): An end-of-step marker arrives at an input endpoint and is held, passed on or discarded as the consumer's kind gives. -/
  | endOfStepMarker (core : CoreId) (ep : EpId)
  /-- EXTERNAL_EVENT_RELEASE (R143): An external event becomes visible to the issue rule at the later of its arrival and its planned release cycle; a late arrival sets LATE. -/
  | externalEventRelease (core : CoreId) (ep : EpId) (arrived : Nat)
  /-- CREDIT_RECEIVE (R127): A returned queue credit reaches the producer's output endpoint, which may issue the write it allows in the next cycle. -/
  | creditReceive (core : CoreId) (ep : EpId)
  /-- SWITCH (R132): A SWITCH node routes the data tile named by a token to output A or B, or discards it. -/
  | steerSwitch (core : CoreId) (node : Fin 8)
  /-- SELECT (R132): A SELECT node takes the oldest tile of input A or B, as its token gives, and sends it as tile n, or records a gap. -/
  | steerSelect (core : CoreId) (node : Fin 8)
  /-- MERGE (R132): A MERGE node sends the older of its two inputs' tiles by sequence number once the other input holds a tile or its marker. -/
  | steerMerge (core : CoreId) (node : Fin 8)
  /-- STALL_TIMER_EXPIRE (R135): A queue meets the stuck conditions for STALL_LIMIT die-control cycles, and is spilled or faulted as JCP.STALL_MODE gives. -/
  | stallTimerExpire (core : CoreId) (eps : BitVec 32)
  /-- QUEUE_MOVE_BACK (R136): A spilled tile moves back from the spill region into the store once the store has a free slot of the queue. -/
  | queueMoveBack (core : CoreId) (ep : EpId)
  /-- STALL_SUSPECT (R138): A wait of STALL_LIMIT cycles that involves no full queue is recorded as an event, with nothing spilled. -/
  | stallSuspect (core : CoreId) (engine : Fin 3) (operator : BitVec 24)
  /-- STEP_START (R141): A core begins step S once its previous step has ended and any gate tile and tensor shifts are present. -/
  | stepStart (core : CoreId) (wait : BitVec 32)
  /-- STEP_END (R141): A core's step ends when all three engines have completed their last entry, and its end-of-step and step-end records are written. -/
  | stepEnd (core : CoreId) (idleArrays idleDrain idleVector : BitVec 32)
  /-- REPORT_COMPARE (R151): The die controller compares its cores' records of a predicted, verified step with the loaded report and advances RPT.LOG_RD. -/
  | reportCompare (tower : TowerId)
  /-- VARIANT_CHANGE (R125): At a step boundary after a fence, the lowest qualifying variant is loaded and the job continues in place or is restored from a snapshot. -/
  | variantChange (part : PartId)
  /-- STR_ARM (R164): A write to STR.ARM makes a descriptor active, places it in the shadow slot, or is refused with STR.REARM_REFUSED. -/
  | strArm (ctx : CtxKey) (addr : Option (BitVec 64))
  /-- DESCRIPTOR_ACTIVATE (R164): The shadow descriptor becomes active in the cycle after the active descriptor's last request retires. -/
  | descriptorActivate (ctx : CtxKey)
  /-- STR_ENABLE (R164): A write of STR.ENABLE lets the context accept descriptors. -/
  | strEnable (ctx : CtxKey)
  /-- STR_DISABLE_REQ (R166): A disable request moves the context to DISABLING, discards its shadow descriptor, and drains or abandons the active one. -/
  | strDisableReq (ctx : CtxKey) (abandon : Bool)
  /-- STR_RESUME (R169): A write to STR.RESUME reloads the save area of a halted context and regenerates its requests, skipping those already done. -/
  | strResume (ctx : CtxKey)
  /-- END (R156): The END instruction ends the program, and the descriptor completes once every request has retired. -/
  | endProgram (ctx : CtxKey)
  /-- LOOPB (R156): The LOOPB instruction sets a dimension counter's index to zero and its limit from the source, skipping past its LOOPE when the limit is 0. -/
  | loopb (ctx : CtxKey)
  /-- LOOPE (R156): The LOOPE instruction increments a dimension index and branches while it is below the limit. -/
  | loope (ctx : CtxKey)
  /-- STRIDE (R156): The STRIDE instruction adds a shifted immediate to an address register. -/
  | strStride (ctx : CtxKey)
  /-- ADD (R156): The ADD instruction sets an address register from others by its mode. -/
  | strAdd (ctx : CtxKey)
  /-- EMIT (R154): The EMIT instruction generates one request of 1 to 4,096 bytes, which issues, is merged or waits as the flow-control rules give. -/
  | emit (ctx : CtxKey)
  /-- SKIP (R156): The SKIP instruction skips the next k words when a dimension index reaches the length LEN or PLEN. -/
  | strSkip (ctx : CtxKey)
  /-- PLFETCH (R156): The PLFETCH instruction reads a pointer-list entry and loads the bases, PLEN and flags, skipping k words for an invalid entry. -/
  | plfetch (ctx : CtxKey)
  /-- BFETCH (R156): The BFETCH instruction reads a bound word atomically into LEN, into a bound register with its valid bit set, or into both. -/
  | bfetch (ctx : CtxKey)
  /-- TWAIT (R156): The TWAIT instruction waits for and consumes a token, continuing or ending the program as TOK.SEL gives. -/
  | twait (ctx : CtxKey)
  /-- MERGE_HOLD_EXPIRE (R162): DESC.MERGE_HOLD cycles pass with no request joining, and the merge buffer issues as one request. -/
  | mergeHoldExpire (ctx : CtxKey)
  /-- REQUEST_RETIRE (R154): A request retires in issue order once all its bytes have arrived or every write of it is acknowledged. -/
  | requestRetire (ctx : CtxKey) (now arrived : Nat)
  /-- REQUEST_TIMEOUT (R178): A far-tier or host request gets no response within 2^DESC.TIMEOUT cycles and faults with TIMEOUT. -/
  | requestTimeout (ctx : CtxKey) (request : Fin 32)
  /-- STREAM_FAULT (R167): The first fault response stops a context: no further request issues, the unissued merge buffer is discarded and the context is HALTING. -/
  | streamFault (ctx : CtxKey) (request : Fin 32) (code : Fin 8) (addr : BitVec 64)
  /-- HALT_SETTLE_DONE (R167): Every outstanding request has completed or faulted, the retire generator passes completed requests and the save area write is handed over. -/
  | haltSettleDone (settle : HaltSettle)
  /-- SETTLE_TIMEOUT (R167): The settle phase reaches 2^DESC.TIMEOUT cycles, and the requests still outstanding count as TIMEOUT. -/
  | settleTimeout (ctx : CtxKey)
  /-- SAVE_AREA_WRITTEN (R167): The save area write is acknowledged or fails, the fault record reaches the die controller and the context becomes HALTED. -/
  | saveAreaWritten (ctx : CtxKey) (ok : Bool)
  /-- RING_PERIOD_END (R174): A ring member's period ends once its passes, its send and its incoming chunk are done, and RING.HALF and the tee slots swap. -/
  | ringPeriodEnd (core : CoreId) (passed : Bool)
  /-- TENSOR_SHIFT_UPDATE (R192): After every core has ended step S − 1, the module controller computes the per-tensor shift for step S + 1 and writes the scaling record. -/
  | tensorShiftUpdate (part : PartId) (managed : Nat)
  /-- ADAMW_UPDATE (R204): An owner core updates a COMPLETE tile's master weights and moments by AdamW, forms the working parameters and broadcasts them. -/
  | adamwUpdate (core : CoreId) (io : IssueIo)
  /-- REDUCTION_ADD (R213): The reduction port adds a drain's INT24 terms into the member's combine tile by memory-side INT64 adds and updates its header. -/
  | reductionAdd (core : CoreId)
  /-- REDRAIN (R214): Rows that mark SCALE_MISS are re-drained at a scale byte 8 higher and added shifted, or set non-finite beyond 254. -/
  | redrain (core : CoreId)
  /-- SLOT_RELEASE (R214): Once every row is added or set non-finite and every add is acknowledged, the reduction port releases a HELD slot to FREE. -/
  | slotRelease (core : CoreId) (slot : Fin 32)
  /-- MEMSIDE_OP (R257): A channel controller applies a memory-side operation to one line and acknowledges it. -/
  | memsideOp (core : CoreId) (addr : BitVec 64) (code : BitVec 4) (mask : BitVec 64) (operand : BitVec 512) (found : LineFound)
  /-- TILE_CLOSE_REPORT (R221): After the closing term's adds are acknowledged, the reduction port rounds the combine tile to its send scale and sends four segments or a NOTICE. -/
  | tileCloseReport (core : CoreId)
  /-- SEGMENT_RECEIVE (R224): The owner adds a SEGMENT of the current round into the tile's sum and decides the tile. -/
  | segmentReceive (part : PartId) (index : Nat)
  /-- NOTICE_RECEIVE (R224): The owner counts a NOTICE of the current round, raises OR.NEED and decides the tile. -/
  | noticeReceive (part : PartId) (index : Nat)
  /-- RESCALE_RECEIVE (R225): A member takes a RESCALE, setting its send scale and round, and reports again from the retained sum or records the values for its close. -/
  | rescaleReceive (part : PartId) (index : Nat)
  /-- MEMBER_REMOVAL (R229): The module controller applies a membership change: GS.LIVE falls, RT.LIVE clears, and owned tiles are reopened and decided again. -/
  | memberRemoval (part : PartId) (group : BitVec 8) (member : BitVec 12)
  /-- WITHDRAW_STEP (R234): A member abandons a step in the reduction path, zeroing its combine tiles and resetting its records. -/
  | withdrawStep (part : PartId)
  /-- PARAM_PART_RECEIVE (R236): A member writes a parameter-broadcast part into the next generation, acknowledges the tile on part 0 and posts generation tokens when the region is complete. -/
  | paramPartReceive (part : PartId) (index : Nat)
  /-- CHANNEL_REQUEST (R245): A request reaching a channel controller is checked against its frame entry and served, faulted, held or refused. -/
  | channelRequest (arrival : ChanArrival) (found : LineFound)
  /-- RETRY_RESEND (R248): 64 cycles after a refusal, the source resends the refused request with a retry mark. -/
  | retryResend (channel : ChannelId) (source : Fin 1026) (found : LineFound)
  /-- FRAME_COPIED (R329): The copier's last read of a protected frame completes, the frame becomes RW and its held requests are applied in arrival order. -/
  | frameCopied (tower : TowerId) (frame : Fin 49152) (bad : Option (Fin 32768))
  /-- FRAME_TABLE_WRITE (R246): A firmware write to a frame table entry takes effect between two requests to that frame. -/
  | frameTableWrite (tower : TowerId) (frame : Fin 49152) (value : BitVec 64)
  /-- REFRESH_SLOT (R250): A channel runs a refresh slot at its period, halving or restoring the period as its DRAM temperature gives. -/
  | refreshSlot (channel : ChannelId) (temp : BitVec 8)
  /-- SCRUB_SLOT (R251): A channel runs a patrol scrub slot that reads one row, corrects and writes back lines, and counts completed passes. -/
  | scrubSlot (channel : ChannelId) (corrected bad : BitVec 32) (onDie : Nat)
  /-- FAR_FAULT_RESOLVE (R263): The module controller resolves a NOT_PRESENT far-tier fault by taking a device page and starting its fill, or stops the job. -/
  | farFaultResolve (ctx : CtxKey)
  /-- FAR_FILL_COMPLETE (R263): A bulk mover finishes filling a device page, the entry is marked present and halted contexts are resumed. -/
  | farFillComplete (part : PartId) (port : Fin 2) (page : Fin 2097152) (host : List Byte)
  /-- FAR_EVICT (R319): A write to JCP.FAR_EVICT starts the eviction of a resident far page, or reads refused. -/
  | farEvict (part : PartId) (addr : BitVec 64)
  /-- EVICT_COMPLETE (R264): An eviction finishes its write-back, its device page returns to the free list and JCP.EVICT_STATUS reads done. -/
  | evictComplete (part : PartId)
  /-- CXL_LINK_DOWN (R265): A CXL port's link goes down: its outstanding requests time out and every page of the port is marked not present. -/
  | cxlLinkDown (port : Fin 2)
  /-- FLIT_SEND (R272): At each flit boundary a port sends a flit, starting packets by VC arbitration and returning credits and acknowledgements. -/
  | flitSend (port : PortId)
  /-- FLIT_RECEIVE (R270): A port receives a flit, accepting it in order, or discarding it and sending a NAK; returned credits and acknowledgements are applied. -/
  | flitReceive (port : PortId) (flit : Flit) (corrected : Nat) (uncorr : Nat)
  /-- NAK_RECEIVE (R270): A sender that reads FL.NAK resends every flit after FL.ACK in order. -/
  | nakReceive (port : PortId)
  /-- REPLAY_TIMEOUT (R270): No acknowledgement advances within KLP.REPLAY_TO cycles, and the sender replays from its oldest unacknowledged flit. -/
  | replayTimeout (port : PortId)
  /-- SIGNAL_DETECT (R273): Stable signal on at least 4 lanes for 2^12 port cycles declares the lanes present and starts equalisation. -/
  | signalDetect (port : PortId) (lanes : BitVec 8)
  /-- EQUALISATION_DONE (R273): Every present lane reports trained, or the limit passes, and FEC lock and deskew begin. -/
  | equalisationDone (port : PortId) (trained : BitVec 8)
  /-- FEC_LOCK_DONE (R273): Alignment markers lock on the lanes in use, and the exchange phase begins. -/
  | fecLockDone (port : PortId)
  /-- EXCHANGE_BLOCK_RECEIVE (R274): A port receives an exchange block, negotiates the version and enters UP once both ends have acknowledged. -/
  | exchangeBlockReceive (port : PortId) (block : ExBlock) (check : FlitCheck)
  /-- TRAINING_ATTEMPT_TIMEOUT (R273): A training attempt does not reach UP within 2^27 cycles and starts again, the port going DOWN after three failures. -/
  | trainingAttemptTimeout (port : PortId)
  /-- SIGNAL_LOSS (R275): Signal is lost on all lanes for 2^12 cycles, and the port goes DOWN at once. -/
  | signalLoss (port : PortId)
  /-- LINK_RETRAIN (R290): A port retrains from equalisation, keeping its replay buffer, sequence numbers and credits, and replays afterwards. -/
  | linkRetrain (port : PortId) (seen : Bool)
  /-- PACKET_SEND (R282): The injecting link die builds a packet header from the route entry, stamps the epoch and sends the packet, or refuses it. -/
  | packetSend (index : Nat)
  /-- PACKET_RECEIVE (R283): A receiving port checks a packet's epoch and then forwards, delivers or discards it. -/
  | packetReceive (port : PortId) (vc : Fin 5)
  /-- CREDIT (R280): A CREDIT control packet returns queue credits of a link stream to the producer's endpoint. -/
  | klpCredit (part : PartId) (index : Nat)
  /-- UNREACHABLE (R286): An UNREACHABLE control packet names a member that could not be reached, and a membership report follows. -/
  | unreachablePacket (part : PartId) (index : Nat)
  /-- MEMBER_UNREACHABLE (R286): The link controller reports an unreachable member to the module controller as a membership change. -/
  | memberUnreachable (part : PartId)
  /-- EPOCH_AHEAD (R288): A held newer-epoch packet is still ahead after KLP.AHEAD_LIMIT cycles and is discarded. -/
  | epochAhead (port : PortId) (vc : Fin 5)
  /-- LD_EPOCH_WRITE (R287): A write of LD.EPOCH changes the link die's epoch, and held packets are checked again in arrival order. -/
  | ldEpochWrite (die : LinkDieId) (epoch : BitVec 32)
  /-- KLP_ENABLE (R273): A write of KLP.ENABLE starts training the port, or disables it. -/
  | klpEnable (port : PortId) (on : Bool)
  /-- KLP_RETRAIN (R290): A write of 1 to KLP.RETRAIN requests a retrain of the port. -/
  | klpRetrain (port : PortId)
  /-- KLP_CTR_CLR (R294): A write of 1 to KLP.CTR_CLR clears every counter of the port. -/
  | klpCtrClr (port : PortId)
  /-- FUNCTION_LEVEL_RESET (R296): A Function Level Reset or fundamental reset aborts non-idle jobs, resets the host-side registers and abandons the store windows. -/
  | functionLevelReset (unsent : List (Fin 16 × CtxKey))
  /-- BAR2_ACCESS (R300): A BAR2 access to module memory is served or refused, and a refusal advances MOD.BAR2_REFUSED. -/
  | bar2Access (offset : BitVec 36) (act : MemAct) (found : LineFound)
  /-- HOST_MAX_VERSION_WRITE (R301): A write to CAP.HOST_MAX_VERSION negotiates CAP.JCP_VERSION. -/
  | hostMaxVersionWrite (value : BitVec 32)
  /-- PART_CFG_WRITE (R302): A write to MOD.PART_CFG is refused, or sets CFG_BUSY and starts opening and closing boundary gates. -/
  | partCfgWrite (qpart : BitVec 8)
  /-- LAYOUT (R302): The gate changes of a layout write complete, CFG_BUSY clears and the LAYOUT event is raised. -/
  | layoutDone
  /-- START (R305): START moves an IDLE partition to LOADING and runs the image checks, route loading and any restore. -/
  | jobStart (part : PartId) (image : StartImage)
  /-- JOB_ENABLE_COMPLETE (R305): LD.EPOCH is set in every link die and every core is enabled, and the partition enters RUNNING. -/
  | jobEnableComplete (part : PartId)
  /-- PAUSE (R307): PAUSE sets the stop step and moves the partition to PAUSING. -/
  | jobPause (part : PartId)
  /-- RESUME (R306): RESUME returns a PAUSED partition to RUNNING, and its cores begin the step after the stop step. -/
  | jobResume (part : PartId)
  /-- STOP (R307): STOP sets the stop step and moves the partition to STOPPING. -/
  | jobStop (part : PartId)
  /-- STOP_STEP_REACHED (R307): Every core has ended the stop step and no copy is in flight, and the partition enters PAUSED or DONE. -/
  | stopStepReached (part : PartId)
  /-- END_STEP_WRITE (R307): A write lowering JCP.END_STEP below a step already begun takes effect as a STOP. -/
  | endStepWrite (part : PartId) (write : WordWrite)
  /-- ABORT (R308): ABORT abandons every stream context, stops issue, abandons reduction rounds and writes epoch 0. -/
  | jobAbort (part : PartId)
  /-- ABORT_COMPLETE (R308): Every engine and context of an aborting partition is idle, and the partition enters FAILED with ABORTED. -/
  | abortComplete (part : PartId)
  /-- CLEAR (R309): CLEAR starts zeroing the partition's frames and invalidating its tables. -/
  | jobClear (part : PartId)
  /-- CLEAR_COMPLETE (R309): Zeroing completes, far-tier pages are returned, the page's fields are reset and the partition is IDLE. -/
  | clearComplete (part : PartId)
  /-- EPOCH_WRITE (R310): A write to JCP.EPOCH is refused, stored, or applied to every link die and acknowledged. -/
  | epochWrite (part : PartId) (value : BitVec 32)
  /-- EVENT_ENABLE_WRITE (R311): A write to an event-enable word may raise a vector's OR from 0 to 1 and send an MSI-X message. -/
  | eventEnableWrite (part : Option PartId) (value : BitVec 11)
  /-- SW_ENABLE (R314): A write of SW.ENABLE = 1 enables a store window for its partition. -/
  | swEnable (window : Fin 16)
  /-- SW_DISABLE (R315): A write of SW.ENABLE = 0 moves a store window to DISABLING, and drains or abandons its accepted requests. -/
  | swDisable (window : Fin 16) (abandon : Bool) (unsent : List CtxKey)
  /-- SERGE_SEGMENT_WRITE (R316): The module writes the next deep snapshot segment into its window slot once the persistence window allows, and advances JCP.SEG_WRITTEN. -/
  | sergeSegmentWrite (part : PartId)
  /-- PERSIST_ACK_WRITE (R317): A write to JCP.PERSIST_ACK acknowledges persisted segments, or is refused. -/
  | persistAckWrite (part : PartId) (write : WordWrite)
  /-- LAT_TOL_WRITE (R318): A write to JCP.LAT_TOL_US makes firmware re-evaluate the partition's target power state. -/
  | latTolWrite (part : PartId) (value : BitVec 32)
  /-- FAR_QUOTA_WRITE (R319): A write to a far-tier quota is accepted, or refused when the ports' totals would be exceeded. -/
  | farQuotaWrite (part : PartId) (port : Fin 2) (value : BitVec 32)
  /-- SNAPSHOT_POINT (R328): Once every core has ended a snapshot step, the job state block is written, state pages are protected and the cores are released. -/
  | snapshotPoint (part : PartId)
  /-- SNAP_OPEN (R333): The holder receives SNAP_OPEN, invalidates the slot's commit record, or refuses the open. -/
  | snapOpen (part : PartId) (index : Nat)
  /-- PAGE_DATA (R331): The partner-region writer places a PAGE_DATA packet at its page index and offset in the slot. -/
  | pageData (part : PartId) (index : Nat)
  /-- MANIFEST (R331): The holder places a MANIFEST packet by its offset within the manifest. -/
  | snapManifest (part : PartId) (index : Nat)
  /-- FETCH_DATA (R341): A module receives a FETCH_DATA page, checks it against its manifest digest and writes it to flash or restores it. -/
  | fetchData (part : PartId) (index : Nat)
  /-- RIDE_DATA (R335): The holder places a RIDE_DATA piece and returns the page's digest once the page is complete. -/
  | rideData (part : PartId) (index : Nat)
  /-- RIDE_DIGEST (R335): The module enters a ride page's digest from the holder into the manifest. -/
  | rideDigest (part : PartId) (index : Nat)
  /-- SNAP_SEAL (R333): The holder receives SNAP_SEAL and commits the snapshot once every page, ride digest and the manifest are written. -/
  | snapSeal (part : PartId) (index : Nat)
  /-- SNAP_COMMITTED (R333): The module records the commit, raises SNAPSHOT, sends SNAP_DONE and begins a flash snapshot when one is due. -/
  | snapCommitted (part : PartId) (index : Nat)
  /-- SNAP_DONE (R333): A module records SNAP_DONE from a group 0 member and marks the snapshot job-complete once every member has sent it. -/
  | snapDone (part : PartId) (index : Nat)
  /-- SNAP_ABORT (R332): SNAP_ABORT abandons a snapshot in progress, and the previous committed snapshot remains. -/
  | snapAbort (part : PartId) (index : Nat)
  /-- COPY_BUDGET_EXPIRE (R334): The copy budget expires with pages uncopied, and rideable frames are made RW and handed to the ride. -/
  | copyBudgetExpire (part : PartId) (begun : List Nat)
  /-- FETCH (R341): A holder receives FETCH, pins the slot if asked and returns the pages as FETCH_DATA. -/
  | snapFetch (part : PartId) (index : Nat)
  /-- FETCH_END (R332): The module receives FETCH_END with the status of its fetch, and the holder's pin is released. -/
  | fetchEnd (part : PartId) (index : Nat)
  /-- FLASH_WRITE_COMPLETE (R341): A flash snapshot's pages and manifest are written, its commit record is written and a Serge snapshot begins when one is due. -/
  | flashWriteComplete (part : PartId)
  /-- REJOIN (R346): A receiver takes REJOIN and makes the rejoining module live from step S_j, or answers REJOIN_LATE. -/
  | rejoin (part : PartId) (index : Nat)
  /-- REJOIN_LATE (R346): A withdrawn module receives REJOIN_LATE and sends REJOIN again for the step after the one named. -/
  | rejoinLate (part : PartId) (index : Nat)
  /-- RESTORE (R350): A restore takes each page of the snapshot from the first tier that holds a good copy, checking the manifest and every digest. -/
  | snapRestore (part : PartId) (muslin : Option HeaderArea) (flashSig : Option (List Byte)) (serge : Option SergeCopy)
  /-- RESTORE_COMPLETE (R352): After the pages are placed, combine state is zeroed, routes are reloaded, parameters are rebroadcast and the step is set to T + 1. -/
  | restoreComplete (part : PartId)
  /-- POWER_ON (R358): The 12 V input is absent or below its threshold, and a power-on reset source asserts. -/
  | powerOn (v12 : InputVolts)
  /-- BROWN_OUT (R358): The 48 V input falls below its threshold, or is absent while 12 V is good, and a module-cold source asserts. -/
  | brownOut (input : Input48)
  /-- MRST_N (R358): A low level on MRST_N asserts a module-warm reset source. -/
  | mrstN (lowNs : Nat)
  /-- WATCHDOG_EXPIRE (R379): A control cluster's watchdog expires and asserts the watchdog reset source at its reach. -/
  | watchdogExpire (cluster : Fin 39) (cycles : Nat)
  /-- WATCHDOG_RESTART (R379): A firmware write restarts a cluster's watchdog. -/
  | watchdogRestart (cluster : Fin 39)
  /-- RST_SW_REQUEST (R359): A keyed write to RST.CTRL requests a die, quadrant or module-warm reset. -/
  | rstSwRequest (request : SwRequest)
  /-- DEBUG_REQUEST (R360): DBGREQ_N falls, or the JTAG reset-request instruction is updated, and a reset of the registered reach asserts. -/
  | debugRequest (request : DbgRequest)
  /-- CLOCK_FAILURE (R366): A clock monitor finds its clock absent or off frequency and asserts a reset of the clock's reach, or the host link drops. -/
  | clockFailure (clock : ClockSource) (unsent : List (Fin 16 × CtxKey))
  /-- CONTROL_CORE_LOCKUP (R358): A control core retires no instruction for 2^24 cycles, and a lock-up reset asserts. -/
  | controlCoreLockup (unit : Fin 78)
  /-- SOURCE_RELEASE (R362): A reset source releases, and the episode begins its exit once every joined source has released. -/
  | sourceRelease (src : RstSource) (reach : Reach) (inputs : InputPair)
  /-- MANAGEMENT_START (R370): The management controller starts from its ROM after the power-on source releases and enables its connector group. -/
  | managementStart
  /-- CLOCK_START (R370): The selected reference is qualified and the PLLs lock, clocking the reach's islands. -/
  | clockStart (reach : Reach)
  /-- STRAP_SAMPLE (R365): STRAP_BOOT and STRAP_CLK are sampled once for a power-on or module-cold exit. -/
  | strapSample (boot clk : BitVec 2)
  /-- OPTION_LOADING (R363): An option-loading pass reads the fuse rows and trims, repeating up to three passes or setting RST.LOAD_FAIL. -/
  | optionLoading (passes : Fin 3) (ok : Bool)
  /-- HUB_START (R392): The security core runs the boot chain and releases the module-controller cores, enabling the host endpoint. -/
  | hubStart
  /-- CONFIGURATION_READ (R372): The configuration read loads control firmware, the factory calibration and the user calibration from NOR into hub memory. -/
  | configurationRead (config : ConfigNor)
  /-- BRING_UP (R370): Each die loads its control firmware and trains, zeroes or self-refresh-exits its DRAM, and becomes issue-ready. -/
  | bringUp (die : Fin 36)
  /-- ISLAND_EXIT (R370): An island leaves an island-reach reset, taking its trims from the hub's shadow. -/
  | islandExit (island : Island)
  /-- READY (R370): All quadrants are up and the CXL ports train, and MOD.READY becomes 1. -/
  | moduleReady (cxl0 cxl1 : Option (Fin 2097153))
  /-- REC_SNAP_ACK (R373): A write of 1 to REC.SNAP_VALID acknowledges the report, and firmware zeroes that intent record. -/
  | recSnapAck
  /-- BOOT_GO (R369): A write of BOOT.GO reads and verifies a boot image from host memory through the boot mailbox. -/
  | bootGo (supply : FwSupply)
  /-- WRITE_SLOT (R394): WRITE_SLOT reads and checks an image, stages it and writes it into the other NOR slot under the commit rule. -/
  | writeSlot (key : BitVec 8) (supply : FwSupply) (cut : Option SlotCut)
  /-- ACTIVATE_QUAD (R396): ACTIVATE_QUAD runs the staged die, link and Gingham parts on one quadrant through a die-reach reset. -/
  | activateQuad (key : BitVec 8)
  /-- CONFIRM (R395): CONFIRM clears the trial flag of the booted slot. -/
  | fwuConfirm (key : BitVec 8)
  /-- SVN_COMMIT (R395): SVN_COMMIT raises FUSE.FW_SVN to the running security version. -/
  | svnCommit (key : BitVec 8)
  /-- MGMT_WRITE (R398): MGMT_WRITE checks a management image, writes it into the unused management slot and switches the selector. -/
  | mgmtWrite (key : BitVec 8) (supply : FwSupply) (cut : Option SlotCut)
  /-- CLAIM (R399): An unsigned CLAIM token over I3C sets the owner key of an empty owner record. -/
  | ownerClaim (key : BitVec 8) (token : Token)
  /-- TRANSFER (R399): A TRANSFER token signed by the current owner replaces the owner key. -/
  | ownerTransfer (key : BitVec 8) (token : Token)
  /-- REVOKE_IMAGE (R399): A REVOKE_IMAGE token signed by the owner ORs bits into OWN.IMAGE_REVOKE. -/
  | revokeImage (key : BitVec 8) (token : Token)
  /-- RELEASE (R399): A RELEASE token signed by a class 2 key empties the owner record. -/
  | ownerRelease (key : BitVec 8) (token : Token)
  /-- DEBUG_UNLOCK (R401): A DEBUG_UNLOCK token matching DBG.CHALLENGE opens JTAG and debug halts until the next warm exit. -/
  | debugUnlock (key : BitVec 8) (token : Token)
  /-- LIFECYCLE (R383): A LIFECYCLE token moves FUSE.LIFECYCLE from development to production for good. -/
  | lifecycleToken (key : BitVec 8) (token : Token)
  /-- ATT_GO (R402): A write of ATT.GO makes the security core sample, sign and write an attestation report. -/
  | attGo
  /-- GINGHAM_TEST (R411): A scheduled test disables its unit in abandon mode and runs its pattern test once the unit and its cluster are free. -/
  | ginghamTest (cluster : Fin 39)
  /-- GINGHAM_TEST_COMPLETE (R413): A test ends as pass, repeat-limit failure or failure, and a lasting fault fences the containing unit. -/
  | ginghamTestComplete (cluster : Fin 39) (ended : TestEnd)
  /-- CE_POLL (R409): Every 2^20 cycles a die controller reads its units' corrected-error counters and records CE_STORM at 256 or more. -/
  | cePoll (poll : CePoll)
  /-- SUPPRESSION_WINDOW_EXPIRE (R405): Outside a job, every 2^20 cycles of the writer's cluster, summary records are written for suppressed pairs. -/
  | suppressionWindowExpire (cluster : Fin 39)
  /-- GH_REQ (R419): A keyed write to GH.REQ requests a test of a unit, or is refused. -/
  | ghReq (key : BitVec 8) (kind : BitVec 4) (unit : BitVec 12)
  /-- GH_CLR_COUNTS (R413): A write of 1 to GH.CLR_COUNTS clears every unit's transient count. -/
  | ghClrCounts
  /-- FENCE_ADD (R419): A keyed FENCE.CTRL add writes a host fence entry, or sets FENCE.REFUSED. -/
  | fenceAdd (key : BitVec 8)
  /-- FENCE_REMOVE (R419): A keyed FENCE.CTRL remove clears a fence table entry and writes UNFENCED. -/
  | fenceRemove (key : BitVec 8) (index : Fin 512)
  /-- PSTATE_ENTRY_COMPLETE (R427): A partition finishes entering a deeper power state, releasing far-tier pages on entry to Standby. -/
  | pstateEntryComplete (part : PartId)
  /-- WAKE_COMPLETE (R427): A partition finishes waking to Run, and waiting commands and a new target take effect. -/
  | wakeComplete (part : PartId)
  /-- BANK_PRECHARGE_COMPLETE (R424): A quadrant bank finishes precharging, and the next bank may start. -/
  | bankPrechargeComplete (bank : Fin 5)
  /-- THERMAL_EVALUATION (R433): Every 2^16 mesh cycles a tower's thermal controller evaluates its demands and steps its throttle down, up or to a trip. -/
  | thermalEvaluation (tower : TowerId) (sensors : List (BitVec 8)) (power : Nat)
  /-- COOLANT_READ (R434): Every 1 ms the management controller reads the coolant and applies the coolant cap and tower shares. -/
  | coolantRead (flow : BitVec 12) (inlet outlet : BitVec 10) (v48 i48 v12 i12 : BitVec 16)
  /-- DIE_THERMAL_TRIP (R435): A link die or the hub crosses 110 °C and trips, disabling its ports or opening the 48 V switch. -/
  | dieThermalTrip (die : Option LinkDieId) (temp : BitVec 8)
  /-- PWR_CAP_WRITE (R434): A write to PWR.CAP_W sets the module cap, clamped, and the effective cap and shares follow. -/
  | pwrCapWrite (value : BitVec 16)
  /-- PWR_CAL_GO (R438): A keyed PWR.CAL_GO checks a user calibration and writes it into the copy not in force. -/
  | pwrCalGo (key : BitVec 8) (go : Bool) (bytes : List Byte) (cut : Bool)
  /-- METER_SAMPLE (R440): At 8 kHz each meter channel samples voltage and current and integrates energy. -/
  | meterSample (ch12 : Bool) (volts amps : BitVec 16) (selfFail : Bool)
  /-- METER_BROADCAST (R445): At each whole second the meter commits its registers, signs a broadcast record and sends it to the management controller. -/
  | meterBroadcast
  /-- HOLDUP_COMMIT (R442): 12 V falls below 10.5 V, and the meter commits its registers on hold-up and logs SUPPLY_LOSS or HOLDUP_FAIL. -/
  | holdupCommit (held : Holdup)
  /-- METER_START (R446): The meter starts on 12 V, computes its firmware sum, logs SUPPLY_RETURN and reads its seal cell. -/
  | meterStart (fwSum : BitVec 256)
  /-- SEAL_BROKEN (R447): An opening of the seal loop latches a permanent break, which is logged once and flagged in later records. -/
  | sealBroken
  /-- GET_INFO (R449): The meter answers GET_INFO with its identifiers, firmware version and firmware sum, unsigned. -/
  | getInfo (tag : BitVec 16)
  /-- READ (R449): The meter answers READ with a signed requested record that carries the nonce. -/
  | meterRead (tag : BitVec 16) (nonce : BitVec 256)
  /-- READ_LOG (R449): The meter answers READ_LOG with up to 32 log entries, signed together with a header. -/
  | readLog (tag : BitVec 16) (nonce : BitVec 256) (first : BitVec 32) (count : BitVec 8)
  /-- GET_CERT (R449): The meter answers GET_CERT with its certificate. -/
  | getCert (tag : BitVec 16)
  /-- FRAME_GAP_TIMEOUT (R449): A gap of more than 1 ms inside a frame discards the frame without a reply. -/
  | frameGapTimeout
  /-- METER_RECORD_RECEIVE (R452): The management controller checks a broadcast record and copies it into the BAR0 meter view, or rejects it. -/
  | meterRecordReceive (crcOk sigOk : Bool)
  /-- METER_STALE (R452): No meter record is accepted for 3,000 ms, MTR.STALE sets and a MGMT notice is posted. -/
  | meterStale (ms : Nat)
  /-- REGISTER_WRITE (R14): A write to a register with no row of its own sets fields by their access codes, with hardware updates in the same cycle resolved by Table 00.5. -/
  | registerWrite (reg : RegRef) (wide : Bool) (value hwSet : BitVec 64)
  /-- FWU_SELECT (R395): The SELECT command of FWU.CTRL writes a selector that names the last slot written, on trial with three boots left, or is refused with error 6. -/
  | fwuSelect (key : BitVec 8)
  /-- FETCH_RESEND (R353): A FETCH that got no answer from a holder not yet at the new epoch is resent every 2^20 hub cycles, at most 64 times. -/
  | fetchResend (part : PartId)
  /-- ERROR (R449): A meter frame with a wrong CRC, sync or length, an unknown code, or arriving while two requests wait is answered with ERROR and has no other effect. -/
  | meterError (header rest : List Byte)
  /-- PLDM_REQUEST (R428): The management controller takes an MCTP or PLDM request over I3C, waking a module whose hub is off, serving recovery images, attestation and notice reads that release ALERT_N. -/
  | pldmRequest (request : PldmReq)
  /-- DIE_TRIP_CLEAR (R435): A tripped link die or hub reads below 95 °C, and the trip clears, the hub closing the 48 V input switch. -/
  | dieTripClear (die : Option LinkDieId) (temp : BitVec 8)
  /-- CXL_LINK_RETRAIN (R265): A CXL port whose link went down trains again, so later far-tier faults on its pages refill instead of stopping the job. -/
  | cxlLinkRetrain (port : Fin 2) (pages : Fin 2097153)
  /-- REFCLK_RETURN (R366): Under STRAP_CLK = 10, REFCLK returns after a failure and the host link retrains. -/
  | refclkReturn
  /-- TRST_N (R466): TRST_N low resets the TAP controller and its instruction register but not its reset-request register. -/
  | trstN (low : Bool)
  deriving DecidableEq, Repr

end Sys2Proof
end

