-- ==== Sys2Proof/Machine/Floor.lean ====
section
/-! DEFINITION. The floor plan: what stands at which router (01 R20), the package grid (R24, R25), the routes of the mesh (R22); the
clock islands (R32); and what a reset reach contains of them (13 R354). -/

namespace Sys2Proof.Machine

-- The compute die -----------------------------------------------------------------------------------------------------------

/-- A router C(x, y) of a compute die's mesh (01.2). -/
structure Router where
  die : Nat
  x : Nat
  y : Nat
  deriving DecidableEq, Repr

/-- Table 01.2: a core stands at its own router; its number in the die is 4y + x. -/
def coreRouter (c : Nat) : Router := ⟨c / 16, c % 4, c % 16 / 4⟩
/-- Table 01.2: channels 2n and 2n + 1 stand at the router of core n, as its home channels. -/
def channelRouter (k : Nat) : Router := coreRouter (16 * (k / 32) + k % 32 / 2)
/-- Table 01.2: the home channels of a core. -/
def homeChannels (c : Nat) : List Nat := [32 * (c / 16) + 2 * (c % 16), 32 * (c / 16) + 2 * (c % 16) + 1]
/-- Table 01.2: the die-controller cores DC0 and DC1 of a die. -/
def dcRouter (t : Nat) (second : Bool) : Router := if second then ⟨t, 3, 3⟩ else ⟨t, 0, 0⟩
/-- Table 01.2: bulk mover m of a die. -/
def moverRouter (t m : Nat) : Router := ⟨t, 3 * (m % 2), 3 * (m / 2 % 2)⟩
/-- Table 01.2: the hub port of a die that has one. -/
def hubRouter (t : Nat) : Router := ⟨t, 1, 1⟩
/-- Table 01.2: the two middle routers of an edge, at which its bridge port stands: sides 0 N, 1 E, 2 S, 3 W (15 Table 15.2). -/
def bridgeRouters (t side : Nat) : List Router :=
  match side with
  | 0 => [⟨t, 1, 0⟩, ⟨t, 2, 0⟩]
  | 1 => [⟨t, 3, 1⟩, ⟨t, 3, 2⟩]
  | 2 => [⟨t, 1, 3⟩, ⟨t, 2, 3⟩]
  | _ => [⟨t, 0, 1⟩, ⟨t, 0, 2⟩]

-- The package ---------------------------------------------------------------------------------------------------------------

/-- R24: the package row of a tower. -/
def towerRow (t : Nat) : Nat := 2 * (t / 16) + t / 4 % 2
/-- R24: the package column of a tower. -/
def towerCol (t : Nat) : Nat := 4 * (t / 8 % 2) + t % 4
/-- R24: the tower at a place of the package grid. -/
def towerAt (r c : Nat) : Nat := 16 * (r / 2) + 8 * (c / 4) + 4 * (r % 2) + c % 4

/-- R25: what a bridge port of a compute die is joined to. -/
inductive BridgeEnd where
  | tower (t : Nat)
  | linkDie (d : Nat)
  deriving DecidableEq, Repr

/-- R25: the far end of the bridge on side 0 N, 1 E, 2 S or 3 W of a tower; the W ports of column 0 and the E ports of column 7 are
terminated. -/
def bridgeEnd (t side : Nat) : Option BridgeEnd :=
  let row := towerRow t
  let col := towerCol t
  match side with
  | 0 => if row = 0 then some (.linkDie (t / 8)) else some (.tower (towerAt (row - 1) col))
  | 1 => if col = 7 then none else some (.tower (towerAt row (col + 1)))
  | 2 => if row = 3 then some (.linkDie (t / 8)) else some (.tower (towerAt (row + 1) col))
  | _ => if col = 0 then none else some (.tower (towerAt row (col - 1)))

/-- R25: the tower across a die bridge; none at the edge of the package or where the bridge leads to a link die. -/
def bridgeAcross (t side : Nat) : Option Nat :=
  match bridgeEnd t side with
  | some (.tower u) => some u
  | _ => none

/-- R25: the dies that carry a hub bridge. -/
def hubBridges : List Nat := [6, 7, 12, 13, 18, 19, 24, 25]

/-- R25: the two quadrants that a boundary bridge joins: 0 to 3 the bridge of package row r across columns 3 and 4, 4 to 11 that of
package column c - 4 across rows 1 and 2. -/
def gateQuads (i : Nat) : Nat × Nat :=
  if i < 2 then (0, 1) else if i < 4 then (2, 3) else if i < 8 then (0, 2) else (1, 3)

/-- R25: the tower on side A (west or north) and on side B of a boundary bridge. -/
def gateTowers (i : Nat) : Nat × Nat :=
  if i < 4 then (towerAt i 3, towerAt i 4) else (towerAt 1 (i - 4), towerAt 2 (i - 4))

/-- R25: the boundary bridge between two neighbouring towers; none where they lie in one quadrant. -/
def gateBetween (a b : Nat) : Option Nat :=
  if a / 8 = b / 8 then none
  else if towerRow a = towerRow b then some (towerRow a) else some (4 + towerCol a)

-- Routes --------------------------------------------------------------------------------------------------------------------

/-- The numbers from `i` to `j`, both included, in either direction. -/
def walk (i j : Nat) : List Nat :=
  if i ≤ j then (List.range (j - i + 1)).map (fun k => i + k) else (List.range (i - j + 1)).map (fun k => i - k)

/-- R22 stage 1: the towers that a packet passes from tower `a` to tower `b`: along its package row, then along the column. -/
def dieRoute (a b : Nat) : List Nat :=
  (walk (towerCol a) (towerCol b)).map (fun c => towerAt (towerRow a) c) ++
  ((walk (towerRow a) (towerRow b)).drop 1).map (fun r => towerAt r (towerCol b))

/-- R22 stage 2: the routers that a packet passes within one die, X first and then Y. -/
def meshRoute (a b : Router) : List Router :=
  (walk a.x b.x).map (fun x => ⟨a.die, x, a.y⟩) ++ ((walk a.y b.y).drop 1).map (fun y => ⟨a.die, b.x, y⟩)

/-- The side of a tower on which a neighbour lies. -/
def sideTo (a b : Nat) : Nat :=
  if towerRow a = towerRow b then (if towerCol a < towerCol b then 1 else 3) else if towerRow a < towerRow b then 2 else 0

/-- R20, R22: the router at which a packet leaves a die over a bridge port, one of the port's two: the one in the packet's own row or
column, as in Table 01.5; for a packet in neither the spec does not say which, so a free choice of the router that it comes from
(log 87). -/
def exitRouter (r : Router) (side : Nat) : Router :=
  let ports := bridgeRouters r.die side
  match ports.find? (fun q => if side = 1 || side = 3 then decide (q.y = r.y) else decide (q.x = r.x)) with
  | some q => q
  | none => ports.getD (if Config.bridgeChoice r.die side r.x r.y then 1 else 0) r

/-- The router across a bridge from one of its two routers. -/
def acrossBridge (r : Router) (next side : Nat) : Router :=
  match side with
  | 0 => ⟨next, r.x, 3⟩ | 1 => ⟨next, 0, r.y⟩ | 2 => ⟨next, r.x, 0⟩ | _ => ⟨next, 3, r.y⟩

/-- The rest of a route over towers, from a router of the one before them. -/
def routeFrom (dst : Router) : List Nat → Router → List Router
  | [], r => meshRoute r dst
  | t :: rest, r =>
    let side := sideTo r.die t
    let out := exitRouter r side
    meshRoute r out ++ routeFrom dst rest (acrossBridge out t side)

/-- R22: the routers that a packet passes between two routers: die to die across the grid, then within the destination die. -/
def tulleRoute (a b : Router) : List Router := routeFrom b ((dieRoute a.die b.die).drop 1) a

/-- R22, R25: the boundary bridges on a list of neighbouring towers. -/
def gatesAlong : List Nat → List Nat
  | a :: b :: rest => (gateBetween a b).toList ++ gatesAlong (b :: rest)
  | _ => []

/-- R22: the gates that the route between two towers crosses. -/
def routeGates (a b : Nat) : List Nat := gatesAlong (dieRoute a b)

-- Clock islands -------------------------------------------------------------------------------------------------------------

/-- Table 01.4: the clock islands of the hub die; no reset narrower than module-warm reaches one (R29). -/
inductive HubIsland where
  | mesh | host | cxl (i : Fin 2) | moduleControl | security | management
  deriving DecidableEq, Repr

/-- Table 01.4: a clock island of the module. -/
inductive ClockIsland where
  | die (i : Island)
  | hub (h : HubIsland)
  deriving DecidableEq, Repr

/-- Table 01.4: the control cluster that an island is: of die t at t, of link die d at 32 + d, then 36, 37, 38. -/
def ClockIsland.ofCluster (u : Nat) : ClockIsland :=
  if u < 32 then .die (.dieControl (towerOf u))
  else if u < 36 then .die (.linkControl ⟨(u - 32) % 4, Nat.mod_lt _ (by decide)⟩)
  else if u = 36 then .hub .moduleControl else if u = 37 then .hub .security else .hub .management

/-- R32: the clock islands, in the order of Table 01.4. -/
def clockIslands : List ClockIsland :=
  (List.finRange 512).map (fun c => .die (.core c)) ++ (List.finRange 32).map (fun t => .die (.mesh t)) ++
  (List.finRange 4).map (fun d => .die (.linkMesh d)) ++ [.hub .mesh] ++ (List.finRange 1024).map (fun k => .die (.channel k)) ++
  (List.finRange 24).map (fun p => .die (.port p)) ++ [.hub .host, .hub (.cxl 0), .hub (.cxl 1)] ++
  (List.finRange 32).map (fun t => .die (.dieControl t)) ++ (List.finRange 4).map (fun d => .die (.linkControl d)) ++
  [.hub .moduleControl, .hub .security, .hub .management]

/-- 16 Table 16.5, 01 Table 01.4: the nominal frequency of an island in kHz; none where a standard of its link sets it. -/
def ClockIsland.nominalKhz : ClockIsland → Option Nat
  | .die (.core _) => some 1900000
  | .die (.mesh _) | .die (.linkMesh _) | .hub .mesh => some 2000000
  | .die (.channel _) => some 1600000
  | .die (.port _) => some 1562500
  | .die (.dieControl _) | .die (.linkControl _) | .hub .moduleControl | .hub .security => some 1200000
  | .hub .management => some 400000
  | .hub .host | .hub (.cxl _) => none

-- What a reach contains -----------------------------------------------------------------------------------------------------

/-- The die of an island: compute die t at t, link die d at 32 + d. -/
def Island.die : Island → Nat
  | .core c => c.val / 16 | .mesh t => t.val | .channel k => k.val / 32 | .dieControl t => t.val
  | .linkMesh d => 32 + d.val | .port p => 32 + p.val / 6 | .linkControl d => 32 + d.val

/-- The number under which the fuses hold an island's trim (13 R363, log 8): 4,096 for each die (36 the hub), and its place in the die. -/
def Island.number (i : Island) : Nat :=
  4096 * i.die + (match i with
    | .core c => c.val % 16 | .mesh _ | .linkMesh _ => 16 | .dieControl _ | .linkControl _ => 17 | .channel k => 32 + k.val % 32
    | .port p => 64 + p.val % 6)

/-- The quadrant of a die. -/
def dieQuad (d : Nat) : Nat := if d < 32 then d / 8 else d - 32

/-- R354: whether a reach contains the hub (but its management domain). -/
def Reach.hub : Reach → Bool
  | .warm | .cold | .powerOn => true
  | _ => false

/-- R354: whether a reach contains a quadrant. -/
def Reach.hasQuad (r : Reach) (q : Nat) : Bool := match r with | .quadrant x => decide (x.val = q) | r => r.hub

/-- R354: whether a reach contains a die. -/
def Reach.hasDie (r : Reach) (d : Nat) : Bool :=
  match r with
  | .island _ => false
  | .die x => decide (x.val = d)
  | .quadrant q => decide (dieQuad d = q.val)
  | _ => true

/-- R354: whether a reach contains an island. -/
def Reach.hasIsland (r : Reach) (i : Island) : Bool := match r with | .island j => decide (i = j) | r => r.hasDie i.die

/-- The island of a core with a number. -/
def coreIsland (c : Nat) : Island := .core (coreOf c)
/-- The island of a channel with a number. -/
def channelIsland (k : Nat) : Island := .channel ⟨k % 1024, Nat.mod_lt _ (by decide)⟩
/-- The mesh island of a compute die. -/
def meshIsland (t : Nat) : Island := .mesh (towerOf t)
/-- The island of a link die's mesh. -/
def linkIsland (d : Nat) : Island := .linkMesh ⟨d % 4, Nat.mod_lt _ (by decide)⟩

/-- 13 Table 13.5: whether an episode holds an island in reset: it reaches the island, whose die its exit has not brought up yet. -/
def Episode.holds (e : Episode) (i : Island) : Bool := e.reach.hasIsland i && !e.dies.contains i.die

/-- R354: whether the second reach lies in the first. -/
def Reach.contains (a b : Reach) : Bool :=
  match b with
  | .island i => a.hasIsland i
  | .die d => a.hasDie d.val
  | .quadrant q => a.hasQuad q.val
  | _ => decide (b.code ≤ a.code)

/-- R354: two reaches nest, or are disjoint. -/
def Reach.nests (a b : Reach) : Bool := a.contains b || b.contains a

/-- The wider of two reaches that nest. -/
def Reach.wider (a b : Reach) : Reach := if a.code < b.code then b else a

/-- R357: whether a reach reaches a tower (t) or a link die (32 + d), or a part of it. -/
def Reach.reaches (r : Reach) (u : Nat) : Bool := match r with | .island i => decide (i.die = u) | r => r.hasDie u

/-- A control cluster: of die t at t, of link die d at 32 + d, the module controllers 36, the security core 37, the management
controller 38. -/
def Reach.hasCluster (r : Reach) (u : Nat) : Bool :=
  match r with
  | .island (.dieControl t) => decide (t.val = u)
  | .island (.linkControl d) => decide (32 + d.val = u)
  | .island _ => false
  | .powerOn => true
  | r => if u < 36 then r.hasDie u else r.hub && decide (u ≠ 38)

/-- Whether a reach reaches a unit of Table 15.2. -/
def Reach.hasUnit (r : Reach) (x : UnitRef) : Bool :=
  let i := x.index.toNat
  match x.kind.toNat with
  | 1 => r.hasIsland (coreIsland i)
  | 2 => r.hasIsland (channelIsland i)
  | 3 => r.hasIsland (meshIsland i)
  | 4 => r.hasIsland (meshIsland (if i < 128 then i / 4 else i - 128))
  | 5 => r.hasIsland (meshIsland (i / 4))
  | 6 => r.hasCluster (if i < 64 then i / 2 else if i < 72 then 32 + (i - 64) / 2 else if i < 76 then 36 else i - 39)
  | 7 => r.hasIsland (.port (portOf i))
  | 8 => r.hasIsland (linkIsland i)
  | 13 => r.hasIsland (channelIsland (32 * (i / 49152) + i % 49152 / 3072 * 2)) ||
      r.hasIsland (channelIsland (32 * (i / 49152) + i % 49152 / 3072 * 2 + 1))
  | _ => r.hub

-- Control clusters ----------------------------------------------------------------------------------------------------------

/-- 15 R412, Table 15.4: the control cluster that runs a unit's test, numbered as watchdogs are. -/
def UnitRef.cluster (x : UnitRef) : Nat :=
  let i := x.index.toNat
  match x.kind.toNat with
  | 1 => i / 16
  | 2 => i / 32
  | 3 => i
  | 4 => if i < 128 then (let t := i / 4; let u := (bridgeAcross t (i % 4)).getD t; if t < u then t else u) else i - 128
  | 5 => i / 4
  | 6 => if i < 64 then i / 2 else if i < 72 then 32 + (i - 64) / 2 else 36
  | 7 => 32 + i / 6
  | 8 => 32 + i
  | 13 => i / 49152
  | _ => 36

/-- 15 R405: the cluster partner of a control core (Table 15.2); of a hub core that has failed, MC0 or MC1. -/
def partnerCore (c : Nat) : Nat := if c < 72 then (if c % 2 = 0 then c + 1 else c - 1) else if c = 72 then 73 else 72

/-- 15 R405: the control core, numbered as Table 15.2 does, that writes a record about a unit: of a die's units that die's DC0 (14 Table
14.1) or LC0, of the partitions their module controller, of the rest of the hub MC0. `failed` says that the record is of a control core's
own failure, which its partner writes (DESIGN CHOICE, log 100: LC0 of the two, MC0 for what names no partition). -/
def writerCore (kind unit : Nat) (part : Option Nat) (failed : Bool) : Nat :=
  match kind with
  | 1 => 2 * (unit / 16)
  | 2 => 2 * (unit / 32)
  | 3 | 13 => 2 * unit
  | 4 => 2 * (if unit < 128 then unit / 4 else unit - 128)
  | 5 => 2 * (unit / 4)
  | 6 => if failed then partnerCore unit else if unit < 76 then unit else 72
  | 7 => 64 + 2 * (unit / 6)
  | 8 => 64 + 2 * unit
  | _ => match part with | some p => 72 + p | none => 72

/-- The control cluster of a control core, numbered as watchdogs are. -/
def clusterOfCore (c : Nat) : Nat := if c < 64 then c / 2 else if c < 72 then 32 + (c - 64) / 2 else if c < 76 then 36 else c - 39

end Sys2Proof.Machine
end

