-- ==== Sys2Proof/Machine/State.lean ====
section
/-! DEFINITION. The state of the module, the reasons a step can stop, and the state after reset. -/

namespace Sys2Proof.Machine

/-- A step never faults: the block raises no exception, and every rule's condition that fails has an effect of its own.
The one constructor is kept for the host's interface and nothing raises it (safe). -/
inductive Fault where
  /-- Raised by no command. -/
  | none
  deriving DecidableEq, Repr

/-- Why a command has no meaning. -/
inductive Refusal where
  /-- Raised by exec's arm of a command that has no meaning yet (safe). -/
  | notModelled (mnemonic : String)
  deriving DecidableEq, Repr

/-- What leaves the module on an interface that the state does not hold otherwise. -/
inductive OutMsg where
  /-- an MSI-X message of a vector (11 R311) -/
  | msix (vector : Nat)
  /-- a posted write through a store window: window, offset, bytes (06 R177) -/
  | hostWrite (window offset : Nat) (bytes : List Byte)
  /-- the data of a BAR2 read (11 R300) -/
  | hostRead (bytes : List Byte)
  /-- a flit on a port (10 R269) -/
  | flit (port : Nat) (f : Flit)
  /-- an exchange block in the data field of a port's flits (10 R273) -/
  | exchange (port : Nat) (b : ExBlock)
  /-- bytes on METER_TX (17 R448) -/
  | meterTx (bytes : List Byte)
  /-- a posted write of the hub to host memory: bus address, bytes (14 R402) -/
  | hubWrite (addr : Nat) (bytes : List Byte)
  /-- an MCTP message of the management controller over I3C (14 R402, 17 R452) -/
  | mctp (bytes : List Byte)
  /-- the notices that an I3C controller reads (19 R465) -/
  | notices (l : List MgmtNotice)
  deriving DecidableEq, Repr

/-- The module. -/
structure State where
  /-- commands that wait, first in first out (the model's own) -/
  pending : List Instr := []
  /-- how many free values have been drawn (the model's own, log 9) -/
  freeCounter : Nat := 0
  cores : FMap Core := []
  parts : FMap Part := []
  err : ErrLog := {}
  mod : ModRegs := {}
  /-- accesses of the host, BAR0 writes and BAR2 accesses, that wait in the hub behind a BAR2 access that its channel does not take, in the
  order in which they came (11 R297, 09 R248) -/
  hostWait : List Instr := []
  /-- the MSI-X table: words 0 to 2 (address, data) of vector v at 4v; mask bits and pending bits of the 36 vectors (log 11) -/
  msixTable : FMap (BitVec 32) := []
  msixMask : BitVec 36 := BitVec.allOnes 36
  msixPend : BitVec 36 := 0
  windows : FMap StoreWindow := []
  ctxs : FMap Ctx := []
  /-- packets at their sources that no link die has taken (10 R282), and delivered packets that wait for their unit -/
  txq : List OutPkt := []
  rx : List Delivered := []
  /-- link die d at d, port P at P -/
  linkDies : FMap LinkDie := []
  ports : FMap Port := []
  /-- boundary gates: 0 to 3 the bridge of package row r across columns 3 and 4, 4 to 11 the bridge of package column
  c - 4 across rows 1 and 2 (01 R25, R27); a gate not listed is closed -/
  gates : FMap Bool := []
  /-- address map entry e of tower t at 1024t + e; its mirror in the control reserve (09 R243), while it matters, at 1024(32 + t) + e -/
  amaps : FMap Amap := []
  /-- frame table entry g of tower t at 49,152t + g; its mirror at 49,152(32 + t) + g -/
  frames : FMap Frame := []
  /-- channel c of tower t at 32t + c -/
  channels : FMap Channel := []
  /-- tower DRAM: channel byte address a of channel k at 2^32 k + a; an unlisted byte reads 0 (13 T13.2, log 4) -/
  dram : List Host.Cell := []
  /-- far-tier device memory: device address a of port i at 2^42 i + a; an unlisted byte reads 0 (log 4) -/
  far : List Host.Cell := []
  /-- CXL root port i at i -/
  cxl : FMap CxlPort := []
  /-- NAND flash: byte a of the area of quadrant q at 2^41 q + a; an unlisted byte reads 0 (log 4) -/
  flash : List Host.Cell := []
  /-- commits made into the flash and into the shared store, CM.SEQ (12 Table 12.8) -/
  flashSeq : BitVec 16 := 0
  sergeSeq : BitVec 16 := 0
  /-- 12 R349: the epoch at which a tower (t) or a link die (32 + d) was last brought into its partition's variant, and the
  units that have returned from a fence -/
  unitEpochs : FMap (BitVec 32) := []
  fromFence : List Nat := []
  /-- units that have returned from a reset, a test, an update or a state below Park; at the first start, every one -/
  returned : List Nat := List.range 36
  gh : Gingham := {}
  fw : Firmware := {}
  rst : RstRegs := {}
  pwr : Power := {}
  /-- 16 R424, R428: the quadrant banks (q) and the hub bank (4) that are off; the hub has been switched off; the towers whose
  DRAM has lost its contents and has not been zeroed -/
  banksOff : BitVec 5 := 0
  hubOff : Bool := false
  /-- 16 R435, R423: the 48 V input switch has been opened by the hub's trip; by an input above 58.0 V -/
  switchOpen : Bool := false
  switchOver : Bool := false
  dramLost : List Nat := []
  meter : Meter := {}
  meterView : MeterView := {}
  /-- notices that the I3C controller has not read: ALERT_N is asserted while there is one (19 R465) -/
  notices : List MgmtNotice := []
  /-- NOR: the two copies of the user calibration (16 R437), none where not valid -/
  userCal0 : Option UserCal := none
  userCal1 : Option UserCal := none
  out : List OutMsg := []
  deriving DecidableEq, Repr

/-- SHAKE256 of the root key record of NOR at manufacture, which FUSE.ROOT_HASH holds; the model has no bytes of that key, and
writes it as none (log 8). -/
def rootAtManufacture : BitVec 256 := 0x2F76D56E64270CB5821BB862EA52CD3F24EB3E74EB3F3B23138DA80B2BDDB946

/-- 14 Table 14.12: the selector record that names slot A, not on trial, with FSEL.SEQ 0. -/
def selectorAtManufacture : BitVec 512 := 0x4653454c0000000000000000712b19d6

/-- A public key of 1,793 bytes, as which the model writes each key of whose bytes it knows nothing (log 8). -/
def unknownKey : List Byte := List.replicate 1793 0

/-- The firmware key's certificate at manufacture, by the root key (14 R385; log 8). -/
def firmwareCert : List Byte := certBytes rootAtManufacture 0 2 0 false unknownKey [0]

/-- The identity certificate at manufacture, by the factory key: in development CERT.DEV = 1 (14 R383; log 8). -/
def identityCertAtManufacture : List Byte := certBytes (digestOf unknownKey) 0 7 0 true unknownKey [0]

/-- The meter's certificate, by the factory key: CERT.CLASS = 8, CERT.MODULE_ID as MR.MODULE_ID (17 R450; log 12). -/
def meterCertAtManufacture : List Byte := certBytes (digestOf unknownKey) 0 8 0 false unknownKey [0]

/-- Firmware and trust as manufactured (14 R381, R388; log 8): FUSE.ROOT_HASH agrees with the root key record, the factory calibration block
is signed by a firmware key that the root key certifies, the identity key has its certificate, the selector's copy 0 names slot A, and both
module slots are empty. -/
def Firmware.manufactured : Firmware :=
  { fuses := { rootHash := rootAtManufacture }
    sel0 := selectorAtManufacture
    identityKey := unknownKey
    identityCert := identityCertAtManufacture
    identityIssued := some (sigMessage .certificate (digestOf (identityCertAtManufacture.take 1920)))
    factorySig := { magic := 0x53494742, cls := 2, len := 1, cert := true, signerHash := digestOf unknownKey, certificate := firmwareCert,
                    issuerMsg := some (sigMessage .certificate (digestOf (firmwareCert.take 1920))),
                    objectMsg := some (sigMessage .factory 0) } }

/-- The state right after a power-on reset has asserted (13 R361): every register at its Reset column. Log 1. -/
def State.reset : State :=
  { rst := RstRegs.atPowerOn, banksOff := 0xF, dramLost := List.range 32, fw := Firmware.manufactured,
    meter := { cert := meterCertAtManufacture } }

end Sys2Proof.Machine
end

