-- ==== Sys2Proof/Machine/Ops.lean ====
section
/-! DEFINITION. The named operations over the state: reading and writing its units, events and MSI-X messages
(11 R311), error records (15 R403 to R406). -/

namespace Sys2Proof.Machine

/-- The core `c`. -/
def State.core (s : State) (c : Nat) : Core := s.cores.get {} c
/-- The state with core `c` replaced. -/
def State.setCore (s : State) (c : Nat) (k : Core) : State := { s with cores := s.cores.set {} c k }
/-- The state with `f` applied to core `c`. -/
def State.modCore (s : State) (c : Nat) (f : Core → Core) : State := s.setCore c (f (s.core c))
/-- The partition `p`. -/
def State.part (s : State) (p : Nat) : Part := s.parts.get {} p
/-- The state with partition `p` replaced. -/
def State.setPart (s : State) (p : Nat) (k : Part) : State := { s with parts := s.parts.set {} p k }
/-- The state with `f` applied to partition `p`. -/
def State.modPart (s : State) (p : Nat) (f : Part → Part) : State := s.setPart p (f (s.part p))
/-- The state with `f` applied to the job control page of `p`. -/
def State.modJcp (s : State) (p : Nat) (f : Jcp → Jcp) : State := s.modPart p (fun k => { k with jcp := f k.jcp })
/-- The state with `f` applied to the job of `p`. -/
def State.modJob (s : State) (p : Nat) (f : Job → Job) : State := s.modPart p (fun k => { k with job := f k.job })

/-- A slot of a core. -/
def Core.slot (k : Core) (j : Nat) : Slot := k.slots.get {} j
/-- The core with a slot replaced. -/
def Core.setSlot (k : Core) (j : Nat) (x : Slot) : Core := { k with slots := k.slots.set {} j x }
/-- An endpoint of a core. -/
def Core.ep (k : Core) (e : Nat) : Endpoint := k.eps.get {} e
/-- The core with an endpoint replaced. -/
def Core.setEp (k : Core) (e : Nat) (x : Endpoint) : Core := { k with eps := k.eps.set {} e x }
/-- The core with `f` applied to an endpoint. -/
def Core.modEp (k : Core) (e : Nat) (f : Endpoint → Endpoint) : Core := k.setEp e (f (k.ep e))
/-- The core with `f` applied to its lists. -/
def Core.modLists (k : Core) (f : CoreLists → CoreLists) : Core := { k with lists := f k.lists }
/-- The core with `f` applied to its report registers. -/
def Core.modReport (k : Core) (f : Report → Report) : Core := { k with report := f k.report }
/-- The core with bits of RPT.STATUS set. -/
def Core.rptSet (k : Core) (f : RptStatus → RptStatus) : Core := k.modReport (fun r => { r with status := f r.status })

/-- R302: the partition that quadrant `q` belongs to. -/
def State.partOfQuad (s : State) (q : Nat) : Nat := bitsAt s.mod.qpart.toNat (2 * q) 2
/-- The partition of a tower. -/
def State.partOfTower (s : State) (t : Nat) : Nat := s.partOfQuad (quadOfTower t)
/-- The partition of a core. -/
def State.partOfCore (s : State) (c : Nat) : Nat := s.partOfQuad (c / 128)
/-- R302: the quadrants of partition `p`, in ascending order. -/
def State.quadsOf (s : State) (p : Nat) : List Nat := (List.range 4).filter (fun q => s.partOfQuad q = p)
/-- The towers of partition `p`. -/
def State.towersOf (s : State) (p : Nat) : List Nat := (List.range 32).filter (fun t => s.partOfTower t = p)
/-- The cores of partition `p`. -/
def State.coresOf (s : State) (p : Nat) : List Nat := (List.range 512).filter (fun c => s.partOfCore c = p)

/-- The job states in which work of a job may be in progress (15 R407). -/
def JobState.active : JobState → Bool
  | .loading | .running | .pausing | .stopping => true
  | _ => false

/-- Whether a job has been started and not ended. -/
def JobState.inJob : JobState → Bool
  | .loading | .running | .pausing | .paused | .stopping => true
  | _ => false

/-- R311: the vector of an event bit of a partition (Table 11.8). -/
def jobVector (p bit : Nat) : Nat :=
  8 * p + (match bit with
    | 0 => 0 | 1 => 1 | 2 => 2 | 3 => 2 | 4 => 3 | 5 => 4 | 6 => 4 | 7 => 5 | 8 => 6 | 9 => 6 | _ => 7)

/-- R311: the OR of the enabled, set bits of a partition's vector. -/
def jcpOr (j : Jcp) (p v : Nat) : Bool :=
  (List.range 11).any (fun b => jobVector p b = v && j.eventStatus.getLsbD b && j.eventEn.getLsbD b)

/-- R311: a vector's message; a masked vector sets its pending bit instead (log 11). -/
def State.sendMsix (s : State) (v : Nat) : State :=
  if s.msixMask.getLsbD v then { s with msixPend := s.msixPend ||| BitVec.ofNat 36 (2 ^ v) }
  else { s with out := s.out ++ [.msix v] }

/-- R311: whether the OR of a vector's enabled, set bits is 1. -/
def State.vectorOn (s : State) (v : Nat) : Bool :=
  if v < 32 then jcpOr (s.part (v / 8)).jcp (v / 8) v else s.mod.eventStatus.getLsbD (v - 32) && s.mod.eventEn.getLsbD (v - 32)

/-- R311: the pending bit of a masked vector whose events have been cleared or disabled is cleared (log 11). -/
def State.settleMsix (s : State) : State :=
  { s with msixPend := (List.range 36).foldl (fun m v => if s.vectorOn v then m else m &&& ~~~(BitVec.ofNat 36 (2 ^ v))) s.msixPend }

/-- R311: an event of partition `p` sets its bit, and its vector sends one message where its OR rises. A page that serves no partition
raises none (R302). -/
def State.jobEvent (s : State) (p bit : Nat) : State :=
  let j := (s.part p).jcp
  if j.state = .notLead then s else
  let j' : Jcp := { j with eventStatus := j.eventStatus ||| BitVec.ofNat 11 (2 ^ bit) }
  let v := jobVector p bit
  let s1 := s.modPart p (fun k => { k with jcp := j' })
  if jcpOr j p v = false && jcpOr j' p v = true then s1.sendMsix v else s1

/-- R311: a module event. -/
def State.modEvent (s : State) (bit : Nat) : State :=
  let m := s.mod
  let st := m.eventStatus ||| BitVec.ofNat 4 (2 ^ bit)
  let was := m.eventStatus.getLsbD bit && m.eventEn.getLsbD bit
  let s1 : State := { s with mod := { m with eventStatus := st } }
  if was = false && m.eventEn.getLsbD bit then s1.sendMsix (32 + bit) else s1

-- Power states ----------------------------------------------------------------------------------------------------------

/-- 16 R426: the deepest state open to a partition. -/
def State.deepestOpen (s : State) (p : Nat) : PState :=
  match (s.part p).jcp.state with
  | .loading | .running | .pausing | .stopping | .aborting | .clearing => .run
  | .paused => .park
  | _ => if (s.part p).partner.any (fun x => x.2.committed) then .park else .standby

/-- Whether a test of a unit of the partition is scheduled or runs (16 R427), or one of its islands is debug-halted
(18 R459). -/
def State.heldInRun (s : State) (p : Nat) : Bool :=
  s.gh.queue.any (fun t => t.part = some (BitVec.ofNat 2 p)) ||
    s.gh.running.any (fun t => t.2.part = some (BitVec.ofNat 2 p)) ||
    s.cores.any (fun x => decide (s.partOfCore x.1 = p) &&
      (x.2.ctrl.haltReq || (match x.2.pendCtrl with | some q => q.haltReq | none => false))) ||
    s.rst.haltedCores.any (fun k => decide (k < 72) && decide (s.partOfQuad (dieQuad (clusterOfCore k)) = p))

/-- Table 16.2, 16 R428: the wake time of a state in microseconds, for a partition of `q` quadrants. -/
def PState.wakeUs (q : Nat) : PState → Nat
  | .run => 0 | .doze => 1 | .park => 40 | .retain => 8000 | .standby => 4000000 * q

/-- 16 R427: the target of a partition. -/
def State.powerTarget (s : State) (p : Nat) : PState :=
  if s.heldInRun p then .run
  else
    let tol := (s.part p).jcp.latTolUs.toNat
    let ok (x : PState) : Bool :=
      decide (x.code ≤ (s.deepestOpen p).code) && decide (x.wakeUs (s.quadsOf p).length ≤ tol)
    if ok .standby then .standby else if ok .retain then .retain else if ok .park then .park else if ok .doze then .doze
    else .run

/-- 16 R427: the target of a partition is evaluated: an entry or a wake begins, unless one is in progress. -/
def State.retarget (s : State) (p : Nat) : State :=
  let w := (s.part p).power
  let t := s.powerTarget p
  let dest := if w.moving.isSome then w.moving else if t = w.state then none else some (if t.code < w.state.code then .run else t)
  s.modPart p (fun k => { k with power := { w with moving := dest, target := t, limit := s.deepestOpen p } })

/-- R305, Table 11.8: JCP.STATE takes a value; entering RUNNING, PAUSED, DONE, FAILED, REFUSED or IDLE is an event. -/
def State.setJobState (s : State) (p : Nat) (st : JobState) : State :=
  let s1 := (s.modJcp p (fun j => { j with state := st })).retarget p
  match st with
  | .running | .paused | .done | .failed | .refused | .idle => s1.jobEvent p 0
  | _ => s1

/-- Table 15.3: the class of a code. -/
def errClass (code : Nat) : Nat :=
  match code with
  | 0x0201 | 0x0504 | 0x0505 | 0x0701 | 0x0802 | 0x0903 | 0x0904 | 0x0C01 | 0x0C02 | 0x0C03 | 0x0C04 | 0x0D02
  | 0x0F06 => 3
  | 0x0301 | 0x0302 | 0x0901 | 0x0D01 | 0x0607 => 1
  | 0x0401 | 0x0402 | 0x0403 | 0x0404 | 0x0405 | 0x0406 | 0x0501 | 0x0502 | 0x0503 | 0x0507 | 0x0508 | 0x0602
  | 0x0606 | 0x0702 | 0x0801 | 0x0902 => 2
  | 0x0506 => 3
  | 0x0601 | 0x0603 | 0x0604 | 0x0605 => 3
  | 0x0A01 | 0x0A02 | 0x0A03 | 0x0A04 | 0x0A05 | 0x0A06 | 0x0A07 | 0x0A08 | 0x0A09 => 4
  | 0x0E01 | 0x0E02 => 5
  | 0x0F01 | 0x0F02 | 0x0F03 | 0x0F05 | 0x0F07 => 6
  | 0x0F04 => 0
  | _ => 7

/-- What a control core reports: code, unit, ERR.DETAIL, ERR.INFO, ERR.ACTION, partition. -/
structure Report1 where
  code : Nat
  kind : Nat := 0
  unit : Nat := 0
  detail : Nat := 0
  info : Nat := 0
  action : Nat := 0
  part : Option Nat := none
  /-- the step that the record names, where it is not the one in progress (05 R151) -/
  step : Option (BitVec 64) := none
  /-- the index in its tower of a frame, of which `unit` names the tower alone (Table 15.2) -/
  frame : Nat := 0
  deriving DecidableEq, Repr

/-- Table 15.1: the record of a report; ERR.STEP is JCP.STEP + 1, all ones where no job runs. -/
def State.record (s : State) (r : Report1) (suppressed : Nat) : ErrRec :=
  let job : Option Part := r.part.map s.part
  let runs := match job with | some k => k.jcp.state.inJob | none => false
  { imageId := match job with | some k => k.jcp.imageId | none => 0
    info := BitVec.ofNat 64 r.info
    step := if runs then (match job with | some k => (r.step.getD (k.jcp.step + 1)).setWidth 32 | none => 0) else BitVec.allOnes 32
    detail := BitVec.ofNat 32 r.detail
    code := BitVec.ofNat 16 r.code
    unitKind := BitVec.ofNat 4 r.kind
    unit := BitVec.ofNat 12 r.unit
    cls := BitVec.ofNat 3 (errClass r.code)
    action := BitVec.ofNat 3 r.action
    part := r.part.map (BitVec.ofNat 2)
    suppressed := BitVec.ofNat 16 (if suppressed < 65536 then suppressed else 65535) }

/-- R403: the control core `c` that writes a record keeps it in its own log. -/
def ErrLog.keep (x : ErrLog) (c : Nat) (e : ErrRec) : ErrLog := { x with own := x.own.set [] c (x.own.get [] c ++ [e]) }

/-- R405, R411: the control core that writes a record of a code about a unit: while one is under test its partner has its duties. -/
def State.writer (s : State) (code kind unit : Nat) (part : Option Nat) : Nat :=
  let c := writerCore kind unit part (decide (errClass code = 1) || decide (errClass code = 6))
  if s.gh.running.any (fun t => decide (t.2.target = ⟨6, BitVec.ofNat 28 c⟩)) then partnerCore c else c

/-- R313, Table 11.8: a record enters its writer's own log and the error log ring, or is left out of the ring where 1,984 records are
unread. -/
def State.writeRecord (s : State) (e : ErrRec) : State :=
  let s : State := { s with err := s.err.keep (s.writer e.code.toNat e.unitKind.toNat e.unit.toNat (e.part.map BitVec.toNat)) e }
  if (s.err.wr - s.err.rd).toNat = 1984 then
    { s with err := { s.err with dropped := s.err.dropped + 1 } }
  else
    let err : ErrLog := { s.err with wr := s.err.wr + 1, ring := s.err.ring.set {} (s.err.wr.toNat % 1984) e }
    let s1 : State := { s with err := err }
    match e.part with
    | some p => s1.jobEvent p.toNat 7
    | none => s1.modEvent 0

/-- Whether a suppression entry is of this report's pair. -/
def Suppress.isOf (x : Suppress) (r : Report1) : Bool :=
  x.part = r.part.map (BitVec.ofNat 2) && x.code = BitVec.ofNat 16 r.code &&
    x.unitKind = BitVec.ofNat 4 r.kind && x.unit = BitVec.ofNat 12 r.unit && x.frame = r.frame

/-- R405: a report is written, or counted where a record of its code and unit has been written within the step;
hardware-class records are never suppressed. -/
def State.logError (s : State) (r : Report1) : State :=
  if errClass r.code ≠ 1 && s.err.suppress.any (fun x => x.isOf r) then
    { s with err := { s.err with suppress := s.err.suppress.map (fun x =>
        if x.isOf r then { x with count := x.count + 1 } else x) } }
  else
    let s1 := s.writeRecord (s.record r 0)
    if errClass r.code = 1 then s1
    else
      { s1 with err := { s1.err with suppress := s1.err.suppress ++ [
          { part := r.part.map (BitVec.ofNat 2), code := BitVec.ofNat 16 r.code, unitKind := BitVec.ofNat 4 r.kind,
            unit := BitVec.ofNat 12 r.unit, frame := r.frame, cls := BitVec.ofNat 3 (errClass r.code), count := 0 }] } }

/-- R405: the summary record of a pair: a frame's names its index (Table 15.2). The spec gives a summary no action of its own: 0, counted
only (log 15). -/
def Suppress.summary (x : Suppress) : Report1 :=
  { code := x.code.toNat, kind := x.unitKind.toNat, unit := x.unit.toNat, part := x.part.map BitVec.toNat,
    info := if x.unitKind = 13 then x.frame else 0, frame := x.frame }

/-- R405: the summary records of the pairs of one writer's window, whose counts then start anew. -/
def State.summaries (s : State) (part : Option Nat) : State :=
  let mine := s.err.suppress.filter (fun x => x.part = part.map (BitVec.ofNat 2))
  let rest := s.err.suppress.filter (fun x => !decide (x.part = part.map (BitVec.ofNat 2)))
  let s1 : State := { s with err := { s.err with suppress := rest } }
  mine.foldl (fun a x =>
    if x.count = 0 then a
    else a.writeRecord (a.record x.summary x.count)) s1

/-- The partition that a report of core `c` names, with the core as its unit. -/
def State.coreReport (s : State) (c code detail info action : Nat) : Report1 :=
  { code := code, kind := 1, unit := c, detail := detail, info := info, action := action,
    part := some (s.partOfCore c) }

end Sys2Proof.Machine
end

