-- ==== Sys2Proof/Machine/Operands.lean ====
section
/-! DEFINITION. Operand forms: the bytes of core stores (03 R81), the elements packed in them (02 R39), tower DRAM and
its addresses (09 R238 to R245), module physical addresses (11 R299), far-tier addresses (09 R261), and the
logical-to-physical mapping (05 R120, R121). -/

namespace Sys2Proof.Machine

/-- Table 03.6: the stores a core's data lies in, numbered as DESC.STORE and QM.STORE. -/
inductive StoreId where
  | input | weights | scratch | twill
  deriving DecidableEq, Repr

/-- The store of a 2-bit code. -/
def StoreId.ofCode (n : Nat) : StoreId :=
  match n % 4 with
  | 0 => .input | 1 => .weights | 2 => .scratch | _ => .twill

/-- The code of a store. -/
def StoreId.code : StoreId → Nat
  | .input => 0 | .weights => 1 | .scratch => 2 | .twill => 3

/-- Table 03.6: the size of a store in bytes. -/
def StoreId.size : StoreId → Nat
  | .input => 6 * 2 ^ 20 | .weights => 512 * 2 ^ 10 | .scratch => 512 * 2 ^ 10 | .twill => 128 * 2 ^ 10

/-- Bytes that a store holds: Twill carries the scale bytes of its blocks beside its capacity, behind which the model puts them (R84,
log 89). -/
def StoreId.limit : StoreId → Nat
  | .twill => 136 * 2 ^ 10
  | i => i.size

/-- The bytes of a store. -/
def Stores.map (x : Stores) : StoreId → FMap (Option Byte)
  | .input => x.input | .weights => x.weights | .scratch => x.scratch | .twill => x.twill

/-- The stores with one store's bytes replaced. -/
def Stores.setMap (x : Stores) (i : StoreId) (m : FMap (Option Byte)) : Stores :=
  match i with
  | .input => { x with input := m }
  | .weights => { x with weights := m }
  | .scratch => { x with scratch := m }
  | .twill => { x with twill := m }

/-- A byte of a store of core `c`; one that nothing has written since the reset is a free value (13 R355, log 5). -/
def Stores.byte (x : Stores) (c : Nat) (i : StoreId) (off : Nat) : Byte :=
  match (x.map i).get none off with
  | some b => b
  | none => Config.freeStoreByte x.epoch c i.code off

/-- `n` bytes of a store from `off` up. -/
def Stores.bytes (x : Stores) (c : Nat) (i : StoreId) (off n : Nat) : List Byte :=
  (List.range n).map (fun k => x.byte c i (off + k))

/-- Whether every byte of a range has been written since the reset. -/
def Stores.present (x : Stores) (i : StoreId) (off n : Nat) : Bool :=
  (List.range n).all (fun k => ((x.map i).get none (off + k)).isSome)

/-- Bytes written into a store map from `off` up; a byte beyond the store's size is not written. -/
def writeBytes (lim : Nat) (m : FMap (Option Byte)) (off : Nat) : List Byte → FMap (Option Byte)
  | [] => m
  | b :: t => writeBytes lim (if off < lim then m.set none off (some b) else m) (off + 1) t

/-- Bytes written into a store. -/
def Stores.write (x : Stores) (i : StoreId) (off : Nat) (bs : List Byte) : Stores :=
  x.setMap i (writeBytes i.limit (x.map i) off bs)

/-- Bytes taken out of a store: they are no longer there. -/
def Stores.drop (x : Stores) (i : StoreId) (off n : Nat) : Stores :=
  x.setMap i ((List.range n).foldl (fun m k => m.set none (off + k) none) (x.map i))

/-- The core with bytes written into a store. -/
def Core.writeStore (k : Core) (i : StoreId) (off : Nat) (bs : List Byte) : Core :=
  { k with stores := k.stores.write i off bs }

/-- R39: the pattern of element `i` in a packed byte string. -/
def elemOf (f : Fmt) (bs : List Byte) (i : Nat) : Nat :=
  if f = .fp4 then
    let b := (bs.getD (i / 2) 0).toNat
    if i % 2 = 0 then b % 16 else b / 16
  else
    let w := f.bits / 8
    ofBytes ((bs.drop (i * w)).take w)

/-- R39: elements packed into bytes, the lower index in the lower place. -/
def packElems (f : Fmt) : List Nat → List Byte
  | [] => []
  | [a] => if f = .fp4 then [BitVec.ofNat 8 (a % 16)] else bytesOf a (f.bits / 8)
  | a :: b :: t =>
    if f = .fp4 then BitVec.ofNat 8 (a % 16 + 16 * (b % 16)) :: packElems f t
    else bytesOf a (f.bits / 8) ++ (bytesOf b (f.bits / 8) ++ packElems f t)

/-- Bytes that `n` elements take. -/
def Fmt.bytesFor (f : Fmt) (n : Nat) : Nat := (n * f.bits + 7) / 8

/-- A physical place in tower DRAM: tower, channel pair, frame, offset in the frame. -/
structure Place where
  tower : Nat
  pair : Nat
  frame : Nat
  off : Nat
  deriving DecidableEq, Repr

/-- R242: the channel of a place, 32t + 2p + o[8]. -/
def Place.channel (p : Place) : Nat := 32 * p.tower + 2 * p.pair + bitsAt p.off 8 1

/-- R242: the channel byte address of a place. -/
def Place.chanAddr (p : Place) : Nat := p.frame * 2 ^ 20 + p.off / 512 * 256 + p.off % 256

/-- The key of a byte of channel `k` at a channel byte address. -/
def dramKey (k addr : Nat) : Nat := k * 2 ^ 32 + addr

/-- The key of a place's byte. -/
def Place.key (p : Place) : Nat := dramKey p.channel p.chanAddr

/-- The index of a place's frame in the tower page table, 3,072p + f (R299). -/
def Place.g (p : Place) : Nat := 3072 * p.pair + p.frame

/-- R238: whether a channel byte address exists: rows 0 to 49,151. -/
def chanAddrOk (a : Nat) : Bool := decide (a < 49152 * 2 ^ 16)

/-- The canonical form of a memory: addresses strictly rising, and no byte listed that is what an unlisted one reads as. -/
def Memory.wf (m : List Host.Cell) : Bool := FMap.wf 0 m

/-- A byte of DRAM. -/
def State.dramByte (s : State) (key : Nat) : Byte := FMap.get (0 : Byte) s.dram key

/-- The state with a byte of DRAM written. -/
def State.setDramByte (s : State) (key : Nat) (b : Byte) : State := { s with dram := FMap.set 0 s.dram key b }

/-- Bytes of DRAM from a key up. -/
def State.dramBytes (s : State) (key n : Nat) : List Byte := (List.range n).map (fun i => s.dramByte (key + i))

/-- Bytes written to DRAM from a key up. -/
def dramWrite (m : List Host.Cell) (key : Nat) : List Byte → List Host.Cell
  | [] => m
  | b :: t => dramWrite (FMap.set 0 m key b) (key + 1) t

/-- The state with bytes written to DRAM from a key up. -/
def State.setDramBytes (s : State) (key : Nat) (bs : List Byte) : State := { s with dram := dramWrite s.dram key bs }

/-- Whether an address map entry covers a job page (R240). -/
def Amap.covers (a : Amap) (page : Nat) : Bool :=
  a.valid && decide (a.jobPage.toNat ≤ page) && decide (page < a.jobPage.toNat + a.pages.toNat)

/-- R240: the entry of tower `t`'s die that covers a job page. -/
def State.amapFor (s : State) (t page : Nat) : Option Amap :=
  match s.amaps.find? (fun x => x.1 / 1024 = t && x.2.covers page) with
  | some x => some x.2
  | none => none

/-- R241: where page i of an extent lies, with an offset. -/
def Amap.place (a : Amap) (page off : Nat) : Place :=
  let i := page - a.jobPage.toNat
  { tower := a.tower.toNat
    pair := a.pairFirst.toNat + i % a.pairSpan.toNat
    frame := a.frameBase.toNat + i / a.pairSpan.toNat
    off := off }

/-- R240 to R242: a job address, as the die of tower `t` translates it; none faults with PROTECTION. -/
def State.translate (s : State) (t addr : Nat) : Option Place :=
  let page := addr / 2 ^ 21
  match s.amapFor t page with
  | some a => some (a.place page (addr % 2 ^ 21))
  | none => none

/-- R299: the place of a module physical address; none where it is unbacked. -/
def mpaPlace (mpa : Nat) : Option Place :=
  let t := mpa / 2 ^ 37
  let g := bitsAt mpa 21 16
  if t < 32 && g < 49152 then some { tower := t, pair := g / 3072, frame := g % 3072, off := mpa % 2 ^ 21 } else none

/-- R299: the module physical address of a place. -/
def Place.mpa (p : Place) : Nat := p.tower * 2 ^ 37 + 2 ^ 21 * p.g + p.off

/-- Bytes at consecutive module physical addresses; an unbacked byte reads 0. -/
def State.mpaBytes (s : State) (mpa n : Nat) : List Byte :=
  (List.range n).map (fun i => match mpaPlace (mpa + i) with | some p => s.dramByte p.key | none => 0)

/-- The frame table entry g of a tower. -/
def State.frame (s : State) (t g : Nat) : Frame := s.frames.get {} (49152 * t + g)
/-- The state with a frame table entry replaced. -/
def State.setFrame (s : State) (t g : Nat) (f : Frame) : State := { s with frames := s.frames.set {} (49152 * t + g) f }
/-- A channel. -/
def State.chan (s : State) (k : Nat) : Channel := s.channels.get {} k
/-- The state with a channel replaced. -/
def State.setChan (s : State) (k : Nat) (c : Channel) : State := { s with channels := s.channels.set {} k c }
/-- A stream context. -/
def State.ctx (s : State) (k : Nat) : Ctx := s.ctxs.get {} k
/-- The state with a stream context replaced. -/
def State.setCtx (s : State) (k : Nat) (x : Ctx) : State := { s with ctxs := s.ctxs.set {} k x }
/-- The state with `f` applied to a stream context. -/
def State.modCtx (s : State) (k : Nat) (f : Ctx → Ctx) : State := s.setCtx k (f (s.ctx k))

/-- The core of a core context's key. -/
def ctxCore (k : Nat) : Option Nat := if k < 3072 then some (k / 6) else none
/-- The tower that a context belongs to. Core contexts are 0 to 3071, bulk mover contexts 4096 + 16t + 4m + j. -/
def ctxTower (k : Nat) : Nat := if k < 3072 then k / 96 else (k - 4096) / 16
/-- The partition of a context. -/
def State.ctxPart (s : State) (k : Nat) : Nat := s.partOfTower (ctxTower k)

/-- Table 09.4: the outcome of a request at its frame. -/
inductive Access where
  | served | held | notPresent | protection
  deriving DecidableEq, Repr

/-- R245, Table 09.4. -/
def Frame.access (f : Frame) (part : BitVec 2) (page : BitVec 27) (write : Bool) : Access :=
  if f.present && f.part ≠ part then .protection
  else if !f.present || f.jobPage ≠ page then .notPresent
  else match f.prot with
    | .reserved => .protection
    | .ro => if write then .protection else .served
    | .rw => .served
    | .cowPending => if write then .held else .served

/-- R240, R245: what a read of one byte of job memory by a unit of tower `t` meets. -/
def State.jobRead1 (s : State) (t : Nat) (addr : Nat) : Except Access Byte :=
  match s.translate t addr with
  | none => .error .protection
  | some p =>
    match (s.frame p.tower p.g).access (BitVec.ofNat 2 (s.partOfTower t)) (BitVec.ofNat 27 (addr / 2 ^ 21)) false with
    | .served => .ok (s.dramByte p.key)
    | a => .error a

/-- A read of `n` bytes of job memory, or the first refusal it meets. -/
def State.jobRead (s : State) (t addr : Nat) : Nat → Except Access (List Byte)
  | 0 => .ok []
  | n + 1 =>
    match s.jobRead1 t addr with
    | .error a => .error a
    | .ok b => match s.jobRead t (addr + 1) n with | .error a => .error a | .ok l => .ok (b :: l)

/-- A write of bytes of job memory by firmware or a sequencer, unchecked by frames; a byte no entry covers is not
written. -/
def State.jobWrite (s : State) (t addr : Nat) : List Byte → State
  | [] => s
  | b :: l =>
    let s1 := match s.translate t addr with | some p => s.setDramByte p.key b | none => s
    s1.jobWrite t (addr + 1) l

/-- Bytes of job memory, unchecked by frames; a byte no entry covers reads 0 (log 17). -/
def State.jobBytes (s : State) (t addr n : Nat) : List Byte :=
  (List.range n).map (fun i => match s.translate t (addr + i) with | some p => s.dramByte p.key | none => 0)

/-- A tower of a partition, whose copy of the address map the module controller uses. -/
def State.someTower (s : State) (p : Nat) : Nat := (s.towersOf p).headD 0

/-- A number in partition memory of partition p: `n` bytes at a job address. -/
def State.jobNat (s : State) (p addr n : Nat) : Nat := ofBytes (s.jobBytes (s.someTower p) addr n)
/-- A number of `n` bytes written to partition memory. -/
def State.setJobNat (s : State) (p addr n v : Nat) : State := s.jobWrite (s.someTower p) addr (bytesOf v n)
/-- The image body of a partition's job. -/
def State.body (s : State) (p : Nat) : ImageBody := (s.part p).job.body

/-- A link die. -/
def State.linkDie (s : State) (d : Nat) : LinkDie := s.linkDies.get {} d
/-- The state with a link die replaced. -/
def State.setLinkDie (s : State) (d : Nat) (x : LinkDie) : State := { s with linkDies := s.linkDies.set {} d x }

/-- R261: port, far page and offset of a far-tier address; none where a reserved bit is set. -/
def farDecode (a : Nat) : Option (Nat × Nat × Nat) :=
  if bitsAt a 43 17 = 0 then some (bitsAt a 42 1, bitsAt a 21 21, a % 2 ^ 21) else none

/-- R121: the indices of logical core b: logical quadrant, tower row, tower column, core y, core x. -/
def logicalSplit (b : Nat) : Nat × Nat × Nat × Nat × Nat :=
  (b / 128 % 4, b / 64 % 2, b / 16 % 4, b / 4 % 4, b % 4)

/-- R120: the physical tower of logical tower (r', c') on physical quadrant q. -/
def physTower (q r c : Nat) : Nat :=
  let r' := if q < 2 then r else 1 - r
  let c' := if q % 2 = 0 then c else 3 - c
  8 * q + 4 * r' + c'

/-- R120: the physical core of logical core b, where `quads` gives the physical quadrants of L0, L1, ... in order. -/
def physCore (quads : List Nat) (b : Nat) : Nat :=
  let (l, r, c, y, x) := logicalSplit b
  let q := quads.getD l 0
  let x' := if q % 2 = 0 then x else 3 - x
  let y' := if q < 2 then y else 3 - y
  16 * physTower q r c + (4 * y' + x')

/-- The place of a value in a list, or 0. -/
def placeIn (l : List Nat) (v : Nat) : Nat := (l.findIdx? (fun x => x = v)).getD 0

/-- R120, R121: the logical core of a physical core. -/
def logicalCore (quads : List Nat) (c : Nat) : Nat :=
  let q := c / 128
  let t := c / 16
  let r := t / 4 % 2
  let col := t % 4
  let n := c % 16
  let y := n / 4
  let x := n % 4
  let r' := if q < 2 then r else 1 - r
  let c' := if q % 2 = 0 then col else 3 - col
  let x' := if q % 2 = 0 then x else 3 - x
  let y' := if q < 2 then y else 3 - y
  128 * placeIn quads q + 16 * (4 * r' + c') + (4 * y' + x')

end Sys2Proof.Machine
end

