-- ==== Sys2Proof/Machine/Accum.lean ====
section
/-! DEFINITION. The anchored accumulator and the BF16 path (02 R45 to R54), and the values a drain reads (02 R55). -/

namespace Sys2Proof.Machine

/-- R45: whether two formats are a legal product pair. -/
def legalPair (x w : Fmt) : Bool :=
  match x, w with
  | .e4m3, .e4m3 | .e4m3, .e5m2 | .e5m2, .e4m3 | .e5m2, .e5m2 | .fp4, .fp4 | .int8, .int8 | .bf16, .bf16 => true
  | _, _ => false

/-- Table 02.3: the exactness threshold T of a pair. -/
def pairT (x w : Fmt) : Int :=
  match x, w with
  | .e5m2, .e5m2 => 32
  | .e4m3, .e5m2 => 39
  | .e5m2, .e4m3 => 39
  | .e4m3, .e4m3 => 46
  | .fp4, .fp4 => 62
  | _, _ => 64

/-- R92: elements of a K tile. -/
def tileK (x : Fmt) : Nat := if x = .fp4 then 128 else 64

/-- The signed anchor of an entry. -/
def Entry.anchorInt (e : Entry) : Int := e.anchor.toInt

/-- R49: an exact product, shifted onto the window grid 2^(A - 64) and truncated toward zero, as a 114-bit integer. -/
def truncProduct (neg : Bool) (man : Nat) (exp a : Int) : BitVec 114 :=
  let sh := exp - (a - 64)
  let n := if sh < 0 then man / 2 ^ sh.natAbs else man * 2 ^ sh.natAbs
  let v := BitVec.ofNat 114 n
  if neg then -v else v

/-- R49, R52: one product added into an entry; `sx`, `sw` are the unbiased scales, none where a scale is NaN. -/
def Entry.addProduct (e : Entry) (x w : Val) (sx sw : Option Int) : Entry :=
  match sx, sw with
  | some a, some b =>
    match valMul x w with
    | .nan => { e with nan := true }
    | .inf neg => if neg then { e with infNeg := true } else { e with infPos := true }
    | .fin neg man exp => { e with acc := e.acc + truncProduct neg man (exp + a + b) e.anchorInt }
  | _, _ => { e with nan := true }

/-- What one K block did to an entry besides its sum: pairs below the threshold, and an anchor violation (R50, R51). -/
structure BlockNote where
  wuf : Nat := 0
  violation : Bool := false
  deriving DecidableEq, Repr

/-- R49 to R52: one K block of 32 elements (or what of it lies in K) added into an entry. -/
def Entry.addBlock (e : Entry) (xf wf : Fmt) (xs ws : List Nat) (xScale wScale : Nat) : Entry × BlockNote :=
  let sx := e8m0 xScale
  let sw := e8m0 wScale
  let e1 := (List.zip xs ws).foldl (fun a p => a.addProduct (decodeElem xf p.1) (decodeElem wf p.2) sx sw) e
  match sx, sw with
  | some a, some b =>
    let low := decide (a + b < e.anchorInt - pairT xf wf)
    ({ e1 with wuf := e1.wuf || low }, { wuf := bitOf low, violation := decide (a + b > e.anchorInt) })
  | _, _ => (e1, {})

/-- R49: the K blocks of one pass added into an entry, block by block; each block is its elements of both operands and
its two scale bytes. -/
def Entry.addBlocks (e : Entry) (xf wf : Fmt) : List (List Nat × List Nat × Nat × Nat) → Entry × BlockNote
  | [] => (e, {})
  | (xs, ws, sx, sw) :: t =>
    let (e1, n1) := e.addBlock xf wf xs ws sx sw
    let (e2, n2) := e1.addBlocks xf wf t
    (e2, { wuf := n1.wuf + n2.wuf, violation := n1.violation || n2.violation })

/-- R53: one BF16 weight row added into an entry: 64 products, the pairwise tree, one addition. -/
def Entry.addBf16Row (e : Entry) (xs ws : List Nat) : Entry :=
  let ps := (List.zip xs ws).map (fun p => valMul (decodeElem .bf16 p.1) (decodeElem .bf16 p.2))
  let rs := ps.map f32Of
  let sum := treeFold f32Add 0 rs
  let run : F32 := f32Add (e.acc.setWidth 32) sum
  let infs := List.zip ps rs
  { e with
    acc := run.setWidth 114
    nan := e.nan || ps.any (fun v => decide (v = .nan))
    infPos := e.infPos || infs.any (fun p => decide (p.1 ≠ .nan) && decide (p.2 = f32Inf false))
    infNeg := e.infNeg || infs.any (fun p => decide (p.1 ≠ .nan) && decide (p.2 = f32Inf true)) }

/-- R49, R115: partial wide forms added as integers, flags ORed. -/
def Entry.addWide (a b : Entry) : Entry :=
  { a with acc := a.acc + b.acc, nan := a.nan || b.nan, infPos := a.infPos || b.infPos, infNeg := a.infNeg || b.infNeg,
           wuf := a.wuf || b.wuf }

/-- R55, R57: what a drain reads of an entry: NaN where flagged or both infinities, an infinity, or the exact value times
2^DRAIN.VALUE_SHIFT. A BF16 entry reads its FP32 value, whatever the flags (R53). An exact zero of the anchored path is
+0 (R40). -/
def Entry.value (e : Entry) (bf16 : Bool) (shift : Int) : Val :=
  if bf16 then (F32.val (e.acc.setWidth 32)).scale shift
  else if e.nan || (e.infPos && e.infNeg) then .nan
  else if e.infPos then .inf false
  else if e.infNeg then .inf true
  else
    let z := e.acc.toInt
    .fin (decide (z < 0)) z.natAbs (e.anchorInt - 64 + shift)

/-- Whether an element's pattern is a zero of either sign, or INT8 0 (R75). -/
def isZeroCode (f : Fmt) (n : Nat) : Bool :=
  if f = .int8 then decide (n % 256 = 0) else decide (n % f.signBit = 0)

/-- R47: the anchor of a tile from its two summaries, with whether every pair is NaN. Pairs with a NaN scale take no
part (R41); none at all gives 0. -/
def anchorOf : List (Nat × Nat) → Option Int
  | [] => none
  | (x, w) :: t =>
    let r := anchorOf t
    match e8m0 x, e8m0 w with
    | some a, some b =>
      match r with
      | none => some (a + b)
      | some c => some (if c < a + b then a + b else c)
    | _, _ => r

/-- A signed anchor as the 10-bit field. -/
def anchorField (a : Int) : BitVec 10 := BitVec.ofInt 10 a

/-- The largest scale byte of a column group, as a summary byte (R43): NaN bytes stand only where no other is there.
DEDUCED: a NaN scale is no scale (R41), log 16. -/
def summaryByte : List Nat → Nat
  | [] => 0xFF
  | b :: t =>
    let r := summaryByte t
    if b % 256 = 0xFF then r else if r = 0xFF then b % 256 else if r < b % 256 then b % 256 else r

/-- A signed 8-bit field. -/
def sint8 (b : BitVec 8) : Int := b.toInt

end Sys2Proof.Machine
end

