-- ==== Sys2Proof/Machine/Loss.lean ====
section
/-! DEFINITION. What a failure does to a job: program-class errors (15 R408), hardware-class errors (15 R407), the
rollback hold (12 R345), withdrawal from a step (08 R234, 12 R344, R346), and the abandoning of contexts (06 R166). -/

namespace Sys2Proof.Machine

/-- The bytes of a request that have been read or acknowledged. -/
def StrReq.progress (r : StrReq) (kind : StrKind) : Bool :=
  let reads := decide (r.data.length = r.len)
  let acks := decide ((r.acked.map Prod.snd).sum = r.len)
  match kind with
  | .inLoad => reads
  | .ringRecv => reads
  | .outStore => acks
  | .copy => reads && acks

/-- 06 R154: whether all of a request's bytes have arrived, or every write of it is acknowledged. -/
def StrReq.completed (r : StrReq) (kind : StrKind) : Bool :=
  r.already || (if r.serial then decide (r.data.length = r.len) else r.progress kind)

/-- R166: under an abandon, requests that have completed or faulted are gone without retiring; a context in DISABLING whose requests are
all gone becomes DISABLED, and its enable and request bits clear. -/
def Ctx.settleDisable (x : Ctx) : Ctx :=
  if x.state = .disabling then
    let y : Ctx := if x.abandoned then
        { x with issued := x.issued.filter (fun r => r.fault.isNone && !r.completed x.desc.kind) }
      else x
    if y.issued.isEmpty && (x.abandoned || x.active = 0) then
      { y with state := .disabled, enable := false, disableReq := false, merge := none, active := 0 }
    else y
  else x

/-- R166: a disable request in abandon mode: no further request issues, the shadow descriptor goes, the descriptor ends
with ABORTED. A context that is HALTING takes it once the halt completes, its shadow descriptor kept until then. -/
def Ctx.abandon (x : Ctx) : Ctx :=
  let y : Ctx := { x with disableReq := true, abandoned := true, shadow := 0,
                          lastResult := if x.active = 0 && x.shadow = 0 then x.lastResult else 2 }
  match x.state with
  | .halting => { x with disableReq := true, abandoned := true }
  | .disabled => x
  | .halted => ({ y with state := .disabling, issued := [] } : Ctx).settleDisable
  | _ => ({ y with state := .disabling, merge := none } : Ctx).settleDisable

/-- Whether a context stays HALTED though its job stops: its fault cannot be resumed (R170). -/
def Ctx.stopped (x : Ctx) : Bool := decide (x.state = .halted) && decide (x.lastResult = 3)

/-- Every context of a set of towers is abandoned, but for those that R170 leaves HALTED. -/
def abandonCtxs (m : FMap Ctx) (inPart : Nat → Bool) : FMap Ctx :=
  m.foldl (fun a x => if inPart (ctxTower x.1) && !x.2.stopped then a.set {} x.1 x.2.abandon else a) m

/-- R90: issue stops on a core at its next pass boundary; with no pass running, at once. -/
def Core.stopIssue (k : Core) : Core :=
  if k.pass.isNone then
    { k with ctrl := { k.ctrl with enable := false }, pendCtrl := none }
  else { k with pendCtrl := some { (k.pendCtrl.getD k.ctrl) with enable := false } }

/-- A function applied to every core of a partition that the state lists; a core not listed is at reset, stopped. -/
def State.modCoresOf (s : State) (p : Nat) (f : Core → Core) : State :=
  { s with cores := s.cores.foldl (fun a x => if s.partOfCore x.1 = p then a.set {} x.1 (f x.2) else a) s.cores }

/-- R308, R345: every context of the partition is abandoned and issue stops on every core. -/
def State.abandonPart (s : State) (p : Nat) : State :=
  let s1 := s.modCoresOf p Core.stopIssue
  { s1 with ctxs := abandonCtxs s1.ctxs (fun t => s.partOfTower t = p) }

/-- A test is queued behind those of its cause (R412). -/
def State.schedule (s : State) (t : Test) : State := { s with gh := { s.gh with queue := s.gh.queue ++ [t] } }

/-- 12 R326: the snapshot plan of a partition's job. -/
def State.plan (s : State) (p : Nat) : Option SnapPlan := (s.body p).plan

/-- 12 R330: a first touch of a frame: FT.TOUCHED, and the frame moves to the head of its copier's queue. -/
def State.firstTouch (s : State) (t g : Nat) : State :=
  let f := s.frame t g
  if f.touched then s
  else
    let p := f.part.toNat
    let pages := match s.plan p with | some x => x.pages | none => []
    let mine (i : Nat) : Bool := match pages[i]? with | some e => decide (e.page = f.jobPage) && !e.frozen | none => false
    (s.setFrame t g { f with touched := true }).modJob p (fun j => { j with snap := j.snap.map (fun r =>
      { r with queue := r.queue.filter mine ++ r.queue.filter (fun i => !mine i) }) })

/-- The pages of a range of job addresses. -/
def pagesOf (addr len : Nat) : List Nat :=
  (List.range ((2 ^ 21 - 1 + len + addr) / 2 ^ 21 - addr / 2 ^ 21)).map (fun i => addr / 2 ^ 21 + i)

/-- R247: the places of the COW_PENDING frames under ranges of job addresses. -/
def State.cowPlaces (s : State) (p : Nat) (rs : List (Nat × Nat)) : List Place :=
  (rs.flatMap (fun r => pagesOf r.1 r.2)).filterMap (fun g =>
    match s.translate (s.someTower p) (2 ^ 21 * g) with
    | some pl => if (s.frame pl.tower pl.g).present && decide ((s.frame pl.tower pl.g).prot = .cowPending) then some pl else none
    | none => none)

/-- R247 step 1: a write that finds its frame COW_PENDING touches it. -/
def State.touch (s : State) (pl : Place) : State := s.firstTouch pl.tower pl.g

/-- The tower of a channel number. -/
def chanTower (k : Nat) : Nat := k / 32

/-- R254: the MPA of a line of a channel (R242, R299). -/
def lineMpa (chan addr : Nat) : Nat :=
  let pair := chan % 32 / 2
  let f := addr / 2 ^ 20
  let off := addr % 2 ^ 20 / 256 * 512 + 256 * (chan % 2) + addr % 256
  chanTower chan * 2 ^ 37 + (3072 * pair + f) * 2 ^ 21 + off

/-- R255: a merge or BAR2 read of a line already poisoned. -/
def State.poisonSeen (s : State) (k addr : Nat) : State :=
  s.setChan k { s.chan k with poisonSeen := true, lastUeAddr := BitVec.ofNat 64 (addr / 64 * 64) }

/-- R245, Table 09.4: the fault that an access of a unit of partition p to a job page meets: PROTECTION or NOT_PRESENT. -/
def State.pageFault (s : State) (p g : Nat) (write : Bool) : Option Nat :=
  match s.translate (s.someTower p) (2 ^ 21 * g) with
  | none => some 0x0602
  | some pl =>
    match (s.frame pl.tower pl.g).access (BitVec.ofNat 2 p) (BitVec.ofNat 27 g) write with
    | .protection => some 0x0602
    | .notPresent => some 0x0601
    | _ => none

/-- R240, R245: the first fault that an access to ranges of job addresses meets, with the job address of its page. -/
def State.placeFault (s : State) (p : Nat) (rs : List (Nat × Nat)) (write : Bool) : Option (Nat × Nat) :=
  (rs.flatMap (fun r => pagesOf r.1 r.2)).findSome? (fun g => (s.pageFault p g write).map (fun c => (c, 2 ^ 21 * g)))

/-- A poisoned line of partition memory: its channel, its channel byte address, its job address. -/
structure BadLine where
  chan : Nat
  addr : Nat
  job : Nat
  deriving DecidableEq, Repr

/-- R255: the poisoned lines that ranges of a partition's job addresses meet. -/
def State.poisonedIn (s : State) (p : Nat) (rs : List (Nat × Nat)) : List BadLine :=
  s.channels.flatMap (fun e => e.2.poisoned.filterMap (fun a =>
    let f := s.frame (chanTower e.1) (3072 * (e.1 % 32 / 2) + a / 2 ^ 20)
    let job := 2 ^ 21 * f.jobPage.toNat + lineMpa e.1 a % 2 ^ 21
    if f.present && decide (f.part.toNat = p) && rs.any (fun r => decide (r.1 < job + 64) && decide (job < r.1 + r.2)) then
      some { chan := e.1, addr := a, job := job }
    else none))

/-- Whether one of the ranges has the whole line. -/
def BadLine.inside (b : BadLine) (rs : List (Nat × Nat)) : Bool :=
  rs.any (fun r => decide (r.1 ≤ b.job) && decide (b.job + 64 ≤ r.1 + r.2))

/-- R255: a poisoned line that a unit writes: a write of the whole line clears it; a merge leaves it poisoned and is noted. -/
def State.writeOver (s : State) (full : List (Nat × Nat)) (b : BadLine) : State :=
  let c := s.chan b.chan
  if b.inside full then s.setChan b.chan { c with poisoned := c.poisoned.filter (fun a => decide (a ≠ b.addr)) }
  else s.poisonSeen b.chan b.addr

/-- The source that a request comes from (01 R22, R248): a core's or a bulk mover's mesh port, the host endpoint, the copiers and
controllers of the hub and the dies. -/
def ReqSrc.source : ReqSrc → Nat
  | .stream k _ _ _ => if k < 3072 then k / 6 else 512 + (k - 4096) / 4
  | .port c => c
  | .host => 1024
  | .copier => 1025
  | .control => 1025

/-- The core that a source belongs to. -/
def ReqSrc.core : ReqSrc → Option Nat
  | .stream k _ _ _ => if k < 3072 then some (k / 6) else none
  | .port c => some c
  | _ => none

/-- The source of an access of a unit: its core's port, or a controller. -/
def unitSrc : Option Nat → ReqSrc
  | some c => .port c
  | none => .control

/-- R248: RPT.SNAPSHOT in the step of a refused core. -/
def State.markRefused (s : State) (src : ReqSrc) : State :=
  match src.core with
  | some q => s.modCore q (fun z => z.rptSet (fun x => { x with snapshot := true }))
  | none => s

/-- R248: a refusal of a request: counted, and RPT.SNAPSHOT of its core's step. -/
def State.refuse (s : State) (k : Nat) (r : MemReq) : State :=
  let c := s.chan k
  (s.setChan k { c with retryCount := c.retryCount + 1, refused := c.refused ++ [r] }).markRefused r.src

/-- R248: whether a source has refused requests at a channel. -/
def State.refusedAt (s : State) (k : Nat) (src : ReqSrc) : Bool :=
  (s.chan k).refused.any (fun x => decide (x.src.source = src.source))

/-- R247: whether the hold buffers of a frame's pair hold a request for it. -/
def State.frameHeld (s : State) (t g : Nat) : Bool :=
  [0, 1].any (fun b => (s.chan (32 * t + 2 * (g / 3072) + b)).hold.any (fun r => decide (r.frame = g)))

/-- The request of a unit of partition p for a write at a place. -/
def writeReq (src : ReqSrc) (p addr : Nat) (pl : Place) (bs : List Byte) : MemReq :=
  { src := src, part := BitVec.ofNat 2 p, page := BitVec.ofNat 27 (addr / 2 ^ 21), frame := pl.g, addr := pl.chanAddr,
    act := .write bs }

/-- R247, R248: a write that is held: it touches its frame and joins the channel's hold buffer; it is refused where the buffer is full,
or where its source has refused requests there. The first refused request of a source bears the retry mark. -/
def State.holdWrite (s : State) (pl : Place) (r : MemReq) : State :=
  let s1 := s.touch pl
  if s1.refusedAt pl.channel r.src then s1.refuse pl.channel { r with retry := false }
  else if (s1.chan pl.channel).hold.length < 64 then
    s1.setChan pl.channel { s1.chan pl.channel with hold := (s1.chan pl.channel).hold ++ [r] }
  else s1.refuse pl.channel { r with retry := true }

/-- The pieces of a range that lie in one line each: offset and length. -/
def linePieces (addr n : Nat) : List (Nat × Nat) :=
  (List.range (ceilDiv (addr % 64 + n) 64)).map (fun i =>
    let off := if i = 0 then 0 else 64 * i - addr % 64
    (off, min (64 - (addr + off) % 64) (n - off)))

/-- R255: bytes written where no frame is COW_PENDING: the poisoned lines that they cover are cleared, those that they meet are noted and
stay poisoned. -/
def State.writeLines (s : State) (p addr : Nat) (bs : List Byte) : State :=
  ((s.poisonedIn p [(addr, bs.length)]).foldl (fun a b => a.writeOver [(addr, bs.length)] b) s).jobWrite (s.someTower p) addr bs

/-- R247: one piece within a line, `e` its offset and length, of a posted write: held where its frame is COW_PENDING. -/
def State.postPiece (s : State) (p addr : Nat) (bs : List Byte) (e : Nat × Nat) : State :=
  let part := (bs.drop e.1).take e.2
  match s.translate (s.someTower p) (addr + e.1) with
  | some pl =>
    if (s.cowPlaces p [(addr + e.1, e.2)]).isEmpty then s.writeLines p (addr + e.1) part
    else s.holdWrite pl (writeReq .control p (addr + e.1) pl part)
  | none => s

/-- R247, R255: a posted write that no frame refuses: what lies in a COW_PENDING frame is held line by line, and happens when the frame
becomes RW (log 17). -/
def State.postLines (s : State) (p addr : Nat) (bs : List Byte) : State :=
  if (s.cowPlaces p [(addr, bs.length)]).isEmpty then s.writeLines p addr bs
  else (linePieces addr bs.length).foldl (fun a e => a.postPiece p addr bs e) s

/-- The report of an access of a unit of partition p that faults: it names the partition's controller (log 17). -/
def placeReport (p : Nat) (e : Nat × Nat) : Report1 := { code := e.1, kind := 6, unit := 72 + p, info := e.2, part := some p }

/-- R240, R245: a posted write of an act that itself ends or holds the job: one that faults is recorded and stops nothing further
(log 17). -/
def State.postQuiet (s : State) (p addr : Nat) (bs : List Byte) : State :=
  match s.placeFault p [(addr, bs.length)] true with
  | some e => s.logError (placeReport p e)
  | none => s.postLines p addr bs

/-- 12 Table 12.9: CAT.ENTRY[i] as a number: the module lists its own Muslin slots at 0 and 1, its flash slots from 2, its Serge copies
at 10 and from 13, and the slots held for the partner at 11 and 12 (log 28). -/
def catEntry (id step : BitVec 64) (kind slot state : Nat) : Nat :=
  state % 4 * 2 ^ 118 + slot % 16 * 2 ^ 120 + kind % 16 * 2 ^ 124 + step.toNat * 2 ^ 128 + id.toNat * 2 ^ 192

/-- 12 Table 12.9: the entry of the snapshot that an abandon ends, cleared. -/
def State.clearCatEntry (s : State) (p : Nat) (r : SnapRun) : State :=
  match s.plan p with
  | some x => s.postQuiet p (x.catalogue.toNat + 0x40 + 32 * r.slot) (bytesOf (catEntry r.id r.step 1 r.slot 0) 32)
  | none => s

/-- 10 Table 10.6a: the low 16 bits of a partition's step, JCP.STEP + 1, which a control packet of a controller bears (log 108). -/
def State.ctlStep (s : State) (p : Nat) : BitVec 16 := ((s.part p).jcp.step + 1).setWidth 16

/-- A control packet of a partition's module controller to a member of group 0. -/
def State.sendCtl (s : State) (p : Nat) (dst : BitVec 12) (c : Ctl) : State :=
  { s with txq := s.txq ++
      [{ quad := BitVec.ofNat 2 ((s.quadsOf p).headD 0), cls := 0, dst := dst, step := s.ctlStep p, payload := c.bytes }] }

/-- JCP.PARTNER and the job module number of JCP.IDENT. -/
def State.partnerOf (s : State) (p : Nat) : BitVec 12 := (s.part p).job.latched.partner.setWidth 12
/-- The job module number. -/
def State.selfOf (s : State) (p : Nat) : BitVec 12 := (s.part p).job.latched.ident.setWidth 12

/-- 12 R332, R335, R345: the Muslin snapshot in progress is abandoned with SNAP_ABORT. Its frames become RW as the copiers
end their reads (log 29). -/
def State.abandonSnap (s : State) (p cause : Nat) : State :=
  match (s.part p).job.snap with
  | none => s
  | some r =>
    let s1 := s.sendCtl p (s.partnerOf p) (Ctl.snap 0x13 r.id (cause % 16 * 2 ^ 136))
    (s1.clearCatEntry p r).modJob p (fun j => { j with snap := none })

/-- 13 R373: an interrupted flash snapshot is reported in REC.SNAP_ID and REC.STATUS. -/
def State.reportSnap (s : State) (id : BitVec 64) (slot part reach : Nat) : State :=
  let r : RstRegs := { s.rst with recSnapId := id, recSnapValid := true, recSnapReach := BitVec.ofNat 3 reach, recPart := BitVec.ofNat 2 part,
                                  recFlashSlot := BitVec.ofNat 4 slot }
  { s with rst := r }

/-- 13 R373: a running flash snapshot that a quadrant reset or a disable abandons is reported at once. -/
def State.abandonFlash (s : State) (p : Nat) : State :=
  match (s.part p).job.flash with
  | none => s
  | some f => (s.reportSnap f.fetch.id f.slot p 3).modJob p (fun j => { j with flash := none })

/-- R234, R346 step 1: the partition withdraws from its step: its cores run neither it nor the next, and the rejoin is
for the step after. The reduction state is abandoned in the same act. -/
def State.withdraw (s : State) (p : Nat) : State :=
  let step := (s.part p).jcp.step + 1
  let s1 := match (s.part p).job.snap with
    | some r => if r.ride.isEmpty then s else s.abandonSnap p 0
    | none => s
  s1.modJob p (fun j => { j with withdrawn := some (step + 2), updateBegun := false })

/-- The job of a partition becomes FAILED with a reason, naming the record that ended it; its snapshot copy and its restore end. -/
def State.failJob (s : State) (p reason recIndex : Nat) : State :=
  let s1 := ((s.abandonSnap p 0).modJob p (fun j => { j with restore := none })).modJcp p (fun j => { j with reason := BitVec.ofNat 8 reason, failRec := BitVec.ofNat 64 recIndex })
  s1.setJobState p .failed

/-- R408: a program-class error: the record with action 4, every core of the partition stopped, every context
abandoned, FAILED with the reason given (0x21 PROGRAM_FAULT unless Table 11.9 names another). -/
def State.programFault (s : State) (r : Report1) (reason : Nat := 0x21) : State :=
  let idx := s.err.wr.toNat
  let s1 := s.logError { r with action := 4 }
  match r.part with
  | none => s1
  | some p => if (s.part p).jcp.state.inJob then (s1.abandonPart p).failJob p reason idx else s1

/-- R240, R245: an access of a unit of partition p that faults is recorded: PROTECTION stops the job (15 R408), NOT_PRESENT leaves what
was to be done for later. -/
def State.placeRefused (s : State) (p : Nat) (e : Nat × Nat) : State :=
  if e.1 = 0x0602 then s.programFault (placeReport p e) else s.logError (placeReport p e)

/-- R240, R245, R247, R255: a posted write of a unit that does not wait for its end. -/
def State.jobPost (s : State) (p addr : Nat) (bs : List Byte) : State :=
  match s.placeFault p [(addr, bs.length)] true with
  | some e => s.placeRefused p e
  | none => s.postLines p addr bs

/-- A number of `n` bytes posted to partition memory. -/
def State.postJobNat (s : State) (p addr n v : Nat) : State := s.jobPost p addr (bytesOf v n)

/-- 12 Table 12.9: CAT.HOLD written. -/
def State.setCatHold (s : State) (p v : Nat) : State :=
  match s.plan p with
  | some x => s.postJobNat p (x.catalogue.toNat + 8) 4 v
  | none => s

/-- 12 Table 12.9: CAT.ENTRY[i] written. -/
def State.setCatEntry (s : State) (p i : Nat) (id step : BitVec 64) (kind slot state : Nat) : State :=
  match s.plan p with
  | some x => s.postJobNat p (x.catalogue.toNat + 0x40 + 32 * i) 32 (catEntry id step kind slot state)
  | none => s

/-- R345: a rollback hold, for the cause whose record has the index given. Under page version 1.0 the job fails with
ROLLBACK instead of PAUSED. -/
def State.rollbackHold (s : State) (p cause : Nat) : State :=
  let s1 := ((s.withdraw p).abandonPart p).abandonSnap p 0
  let s2 := (s1.modJob p (fun j => { j with hold := true, snapDue := none, rideStep := none })).setCatHold p 1
  let idx := s2.err.wr.toNat
  let s3 := s2.logError { code := 0x0C03, detail := cause, action := 3, part := some p }
  if (s3.mod.jcpVersion &&& 0xFF) = 0 then s3.failJob p 0x27 idx else s3.setJobState p .paused

/-- R411: the unit that is tested for a report: the frame of an uncorrectable DRAM line, else the report's unit. -/
def Report1.target (r : Report1) : UnitRef :=
  if r.code = 0x0901 then
    { kind := 13, index := BitVec.ofNat 28 (49152 * (r.unit / 32) + 3072 * (r.unit % 32 / 2) + r.detail / 2 ^ 20) }
  else { kind := BitVec.ofNat 4 r.kind, index := BitVec.ofNat 28 r.unit }

/-- R414: whether a unit, by its kind and index, or the unit that a report has tested, is under test. -/
def State.underTest (s : State) (kind unit : Nat) (target : UnitRef) : Bool :=
  s.gh.running.any (fun t => decide (t.2.target = target) || decide (t.2.target = ⟨BitVec.ofNat 4 kind, BitVec.ofNat 28 unit⟩))

/-- R407, R410: a hardware-class error of a unit: recorded; in an active partition the step is withdrawn from, or a
rollback hold entered; the unit's test is scheduled at once. `rollback` says that the error itself asks for the hold. An error of a
unit under test is part of the test's outcome (R414). -/
def State.hwError (s : State) (r : Report1) (rollback : Bool := false) : State :=
  let idx := s.err.wr
  let test : Test := { target := r.target, cause := idx, code := BitVec.ofNat 16 r.code, part := r.part.map (BitVec.ofNat 2) }
  if s.underTest r.kind r.unit r.target then s
  else match r.part with
  | none => (s.logError { r with action := 1 }).schedule test
  | some p =>
    let k := s.part p
    -- Table 05.12: RPT.ERROR marks the step of an uncorrectable error
    let s := if decide (r.code = 0x0302) || decide (r.code = 0x0D01) then s else
      s.modCoresOf p (fun q => q.rptSet (fun x => { x with error := true }))
    if !k.jcp.state.active then (s.logError { r with action := 1 }).schedule test
    else if rollback || k.job.updateBegun then
      ((s.logError { r with action := 3 }).rollbackHold p idx.toNat).schedule test
    else
      let s1 := (s.logError { r with action := 2 }).withdraw p
      -- R344: policy 1 rolls back on every loss
      let s2 := if bitsAt k.job.latched.modes.toNat 2 2 = 1 then s1.rollbackHold p idx.toNat else s1.modCoresOf p Core.stopIssue
      s2.schedule test

end Sys2Proof.Machine
end

