-- ==== Sys2Proof/Machine/Access.lean ====
section
/-! DEFINITION. What a unit's access to partition memory meets (09 R240, R245, R247, R254, R255): a fault, a frame that holds it back, a
poisoned line; else it happens. -/

namespace Sys2Proof.Machine

/-- 12 R324: whether a job page is one of the pages of a partition's snapshot plan. -/
def State.inPlan (s : State) (p page : Nat) : Bool :=
  match s.plan p with
  | some x => x.pages.any (fun e => decide (e.page.toNat = page))
  | none => false

/-- R255: whether a job page holds owner sums or owner records of a group, whose loss is a rollback. -/
def State.ownerPage (s : State) (p page : Nat) : Bool :=
  (s.body p).groups.any (fun d => (pagesOf d.sumBase.toNat (32768 * d.ownCount.toNat)).contains page ||
    (pagesOf d.orBase.toNat (32 * d.ownCount.toNat)).contains page)

/-- R254, R255: an uncorrectable read of a line: counted, recorded, the line poisoned. It is an error of a unit of the partition that owns
the frame, or, for a frame that none has, of the channel's (15 R407). -/
def State.dramUe (s : State) (k addr : Nat) (page : Option (Nat × Nat)) : State :=
  let c := s.chan k
  let line := addr / 64 * 64
  let c1 : Channel := { c with poisonSeen := true, lastUeAddr := BitVec.ofNat 64 line, ueCount := satAdd c.ueCount 1,
                               poisoned := if c.poisoned.contains line then c.poisoned else c.poisoned ++ [line] }
  let roll := match page with | some (p, g) => s.inPlan p g || s.ownerPage p g | none => false
  (s.setChan k c1).hwError { code := 0x0901, kind := 2, unit := k, detail := line, info := lineMpa k line,
                             part := some ((page.map Prod.fst).getD (s.partOfTower (chanTower k))) } roll

/-- The pieces, one within each line, of ranges that lie in COW_PENDING frames: job address, length, place. -/
def State.cowPieces (s : State) (p : Nat) (rs : List (Nat × Nat)) : List (Nat × Nat × Place) :=
  rs.flatMap (fun r => (linePieces r.1 r.2).filterMap (fun e =>
    if (s.cowPlaces p [(r.1 + e.1, e.2)]).isEmpty then none
    else (s.translate (s.someTower p) (r.1 + e.1)).map (fun pl => (r.1 + e.1, e.2, pl))))

/-- R247: the writes that an access which led from state `s` to `a` makes in COW_PENDING frames: every line that it writes whole, and
those that it changed elsewhere but for poisoned lines, which a merge leaves poisoned (R255). -/
def State.heldWrites (s a : State) (p : Nat) (merge full : List (Nat × Nat)) : List (Nat × Nat × Place) :=
  s.cowPieces p full ++ (s.cowPieces p merge).filter (fun x =>
    decide (a.jobBytes (a.someTower p) x.1 x.2.1 ≠ s.jobBytes (s.someTower p) x.1 x.2.1) && (s.poisonedIn p [(x.1, x.2.1)]).isEmpty)

/-- R247, R248: whether the hold buffers take requests of a source at all of the pieces. -/
def State.holdRoom (s : State) (src : ReqSrc) (l : List (Nat × Nat × Place)) : Bool :=
  l.all (fun x => !s.refusedAt x.2.2.channel src &&
    decide ((s.chan x.2.2.channel).hold.length + l.countP (fun y => decide (y.2.2.channel = x.2.2.channel)) ≤ 64))

/-- R247: the state after an access, what it wrote at one piece put back and held instead. -/
def State.holdPiece (s : State) (p : Nat) (src : ReqSrc) (a : State) (x : Nat × Nat × Place) : State :=
  (a.jobWrite (a.someTower p) x.1 (s.jobBytes (s.someTower p) x.1 x.2.1)).holdWrite x.2.2
    (writeReq src p x.1 x.2.2 (a.jobBytes (a.someTower p) x.1 x.2.1))

/-- R247: an access of a unit that meets COW_PENDING frames, at places `l`. It touches them. What it reads there waits while requests
for the frame are held; what it writes there joins the hold buffers, and the rest happens. Where the buffers would not take all of it,
the access is refused with RETRY, and its unit sends it again (log 17). -/
def State.accessCow (s : State) (p : Nat) (src : ReqSrc) (use merge full : List (Nat × Nat)) (l : List Place) (f : State → State) : State :=
  let s1 := l.foldl State.touch s
  if (s1.cowPlaces p (use ++ merge)).any (fun pl => s1.frameHeld pl.tower pl.g) then s1
  else
    let a := f ((s1.poisonedIn p merge).foldl (fun a b => a.writeOver [] b) s1)
    let w := s1.heldWrites a p (use ++ merge) full
    if s1.holdRoom src w then w.foldl (fun b x => s1.holdPiece p src b x) a
    else match w with
      | x :: _ =>
        let c := s1.chan x.2.2.channel
        (s1.setChan x.2.2.channel { c with retryCount := c.retryCount + 1 }).markRefused src
      | [] => s1

/-- R240, R245, R247, R255: an access of a source in partition p to ranges of job addresses: those that it reads and may write, those
that it merges into (memory-side operations), and those that it writes. A fault stops it; a poisoned line that it reads is
uncorrectable; what meets a COW_PENDING frame is held; else it happens. -/
def State.accessBy (s : State) (p : Nat) (src : ReqSrc) (use merge full : List (Nat × Nat)) (f : State → State) : State :=
  match s.placeFault p (use ++ merge ++ full) true with
  | some e => s.placeRefused p e
  | none =>
    match s.poisonedIn p use with
    | b :: _ => s.dramUe b.chan b.addr (some (p, b.job / 2 ^ 21))
    | [] =>
      match s.cowPlaces p (use ++ merge ++ full) with
      | [] => f ((s.poisonedIn p (merge ++ full)).foldl (fun a b => a.writeOver full b) s)
      | l => s.accessCow p src use merge full l f

/-- An access of a controller. -/
def State.whenAccess (s : State) (p : Nat) (use merge full : List (Nat × Nat)) (f : State → State) : State :=
  s.accessBy p .control use merge full f

/-- R171, R247: an access of a controller to ranges that it reads and writes. -/
def State.whenWritable (s : State) (p : Nat) (rs : List (Nat × Nat)) (f : State → State) : State := s.whenAccess p rs [] [] f

/-- R240, R245, R247, R255: a read of ranges by a unit of partition p happens where no page of them faults, no line is poisoned, and no
request for a frame of them is held. -/
def State.whenReadable (s : State) (p : Nat) (rs : List (Nat × Nat)) (f : State → State) : State :=
  match s.placeFault p rs false with
  | some e => s.placeRefused p e
  | none => match s.poisonedIn p rs with
    | [] => if (s.cowPlaces p rs).any (fun pl => s.frameHeld pl.tower pl.g) then s else f s
    | b :: _ => s.dramUe b.chan b.addr (some (p, b.job / 2 ^ 21))

/-- What the three tests of `accessBy` ask of the ranges: covered and writable in their frames, none COW_PENDING, no line poisoned. -/
def State.mayAccess (s : State) (p : Nat) (rs : List (Nat × Nat)) : Bool :=
  (s.placeFault p rs true).isNone && (s.cowPlaces p rs).isEmpty && (s.poisonedIn p rs).isEmpty

/-- R240, R245, R255: the fault that a unit's read of a range meets, with its address. -/
def State.readFault (s : State) (p addr n : Nat) : Option (Nat × Nat) :=
  match s.placeFault p [(addr, n)] false with
  | some e => some e
  | none => match s.poisonedIn p [(addr, n)] with | b :: _ => some (0x0607, b.job) | [] => none

end Sys2Proof.Machine
end

