-- ==== Sys2Proof/Machine/Gates.lean ====
section
/-! DEFINITION. Boundary gates (01 R25 to R28): where a route crosses them, and their closing. -/

namespace Sys2Proof.Machine

/-- Whether a gate is open. -/
def State.gate (s : State) (i : Nat) : Bool := s.gates.get false i
/-- The state with a gate open or closed. -/
def State.setGate (s : State) (i : Nat) (g : Bool) : State := { s with gates := s.gates.set false i g }

/-- R27: whether a gate may be open: both quadrants in one partition, and neither in reset, quiesced, under test or
taking an update. -/
def State.gateMayOpen (s : State) (i : Nat) : Bool :=
  let (a, b) := gateQuads i
  decide (s.partOfQuad a = s.partOfQuad b) && !s.mod.inReset.getLsbD a && !s.mod.inReset.getLsbD b &&
    !s.mod.quiesced.getLsbD a && !s.mod.quiesced.getLsbD b

/-- R27 step 1, R28: whether a boundary bridge accepts a new packet: its gate is open, and nothing asks for its closing. -/
def State.gateTakes (s : State) (i : Nat) : Bool := s.gate i && s.gateMayOpen i

/-- R28: whether a packet between two towers is refused at the injecting router: its route crosses a bridge that takes none. -/
def State.gateRefuses (s : State) (a b : Nat) : Bool := (routeGates a b).any (fun i => !s.gateTakes i)

/-- 01 R28: whether the route of an access from tower t to one of the ranges' pages crosses a closed gate. -/
def State.rangesRefused (s : State) (p t : Nat) (rs : List (Nat × Nat)) : Bool :=
  (rs.flatMap (fun r => pagesOf r.1 r.2)).any (fun g => match s.translate (s.someTower p) (2 ^ 21 * g) with
    | some pl => s.gateRefuses t pl.tower
    | none => false)

/-- R28: the refusal of core `c`'s packet is reported to the die controller as a fault of the injecting stream. What the core does
after it is the model's choice (log 88): what a list, a queue or a sequencer holds stays there and is tried again; a marker, a credit or a
MEMSIDE_OP, which nothing holds, is lost. -/
def State.gateRefusal (s : State) (c : Nat) : State := s.logError (s.coreReport c 0x0603 0 0 0)

/-- R28, 09 R245, R247: an access of core `c` to ranges of its partition's job addresses is refused where a route crosses a closed gate;
else it meets what `accessBy` says. -/
def State.whenUnit (s : State) (p c : Nat) (use merge full : List (Nat × Nat)) (f : State → State) : State :=
  if s.rangesRefused p (c / 16) (use ++ merge ++ full) then s.gateRefusal c else s.accessBy p (.port c) use merge full f

/-- R28, 09 R245: a read of core `c` of ranges of its partition's job addresses. -/
def State.readUnit (s : State) (p c : Nat) (rs : List (Nat × Nat)) (f : State → State) : State :=
  if s.rangesRefused p (c / 16) rs then s.gateRefusal c else s.whenReadable p rs f

/-- R27: the gates whose conditions hold are open; the others stay as they are until they are closed. -/
def State.openGates (s : State) : State :=
  (List.range 12).foldl (fun a i => if a.gateMayOpen i then a.setGate i true else a) s

/-- R27: whether a gate that must close is still open. -/
def State.gatesToClose (s : State) : Bool := (List.range 12).any (fun i => s.gate i && !s.gateMayOpen i)

/-- R27, R35: packets or crossing entries discarded at a unit beside one in reset, counted in its error counters: one
CROSSING_DISCARD record names how many. -/
def State.discardRecord (s : State) (kind unit n : Nat) (part : Option Nat) : State :=
  if n = 0 then s else s.logError { code := 0x0D02, kind := kind, unit := unit, detail := n, part := part }

/-- R25: the bridge port (4t + side) of the surviving side of a gate: sides 0 N, 1 E, 2 S, 3 W (15 Table 15.2). -/
def gatePort (i : Nat) (sideB : Bool) : Nat :=
  let (a, b) := gateTowers i
  if i < 4 then (if sideB then 4 * b + 3 else 4 * a + 1) else (if sideB then 4 * b else 4 * a + 2)

/-- A list without the first `n` elements that hold, and how many there were. -/
def dropSome {α : Type} (f : α → Bool) : Nat → List α → List α × Nat
  | 0, l => (l, 0)
  | _ + 1, [] => ([], 0)
  | n + 1, a :: t =>
    if f a then ((dropSome f n t).1, (dropSome f n t).2 + 1) else (a :: (dropSome f (n + 1) t).1, (dropSome f (n + 1) t).2)

/-- Whether a packet from one core to another crosses a gate (R22). -/
def crossesGate (i src dst : Nat) : Bool := (routeGates (src / 16) (dst / 16)).contains i

/-- R27: the latest tiles, markers and credits on their way over gate `i` to core `c` are discarded, at most `n`; and how many they were. -/
def Core.dropOver (k : Core) (i c n : Nat) : Core × Nat :=
  let a := dropSome (fun x : Arrival => match (k.eps.get {} x.ep.toNat).src with | some (p, _, _) => crossesGate i p c | none => false) n
    k.arrivals.reverse
  let b := dropSome (fun x : CreditIn => match (k.eps.get {} x.ep).edges[x.edge]? with | some d => crossesGate i d.dstCore c | none => false)
    n k.creditsIn.reverse
  ({ k with arrivals := a.1.reverse, creditsIn := b.1.reverse }, a.2 + b.2)

/-- R27: of what is on its way over gate `i` into quadrant `q`, at most `n` packets still on the bridge are discarded; and how many they
were. -/
def State.dropOver (s : State) (i q n : Nat) : State × Nat :=
  (List.range 128).foldl (fun acc j =>
    let c := 128 * q + j
    let r := (acc.1.core c).dropOver i c (n - acc.2)
    if r.2 = 0 then acc else (acc.1.setCore c r.1, acc.2 + r.2)) (s, 0)

/-- R27: a gate closes beside a side in reset: the `n` packets on the bridge are discarded and counted at the surviving side. At most 64 of
them were on their way to it, of which the latest tiles, markers and credits go with them; the rest are memory traffic, whose contexts the
reset of the quadrant abandons (13 R356), and what the side in reset has lost with its crossings (R35). -/
def State.closeBeside (s : State) (i q n : Nat) (sideB : Bool) : State :=
  (s.dropOver i q (min n 64)).1.discardRecord 4 (gatePort i sideB) n (some (s.partOfQuad q))

/-- BOUNDARY_GATE_CLOSE (R27): nothing is taken at gate `i` any more since the conditions of its opening ceased; the `n` packets on the
bridge (at most 64 each way) are delivered, that is, stay on their way, or, where one side is in reset, are discarded and counted at the
surviving side; then the gate closes. A gate that is closed, or that may be open, stays as it is. -/
def boundaryGateClose (i : Fin 12) (n : Fin 129) (s : State) : State :=
  if s.gateMayOpen i.val || !s.gate i.val then s
  else
    let (qa, qb) := gateQuads i.val
    let s1 := s.setGate i.val false
    if s.mod.inReset.getLsbD qa && !s.mod.inReset.getLsbD qb then
      s1.closeBeside i.val qb n.val true
    else if s.mod.inReset.getLsbD qb && !s.mod.inReset.getLsbD qa then
      s1.closeBeside i.val qa n.val false
    else s1

/-- BOUNDARY_GATE_CLOSE. -/
def execBoundaryGateClose (i : Fin 12) (n : Fin 129) (s : State) : Host.Outcome State Fault Refusal :=
  .next (boundaryGateClose i n s)

end Sys2Proof.Machine
end

