-- ==== Sys2Proof/Machine/Clocks.lean ====
section
/-! DEFINITION. Whether the clock of an island runs (01 R33): no cycle passes in an island whose clock is stopped, and no work,
timeout or counter of it goes on. -/

namespace Sys2Proof.Machine

/-- CORE.HALTED (03 Table 03.11): issue stopped, and no pass or drain in flight. -/
def Core.halted (k : Core) : Bool :=
  !(k.ctrl.enable && !k.ctrl.haltReq && !k.faultStop) && k.pass.isNone && k.drain.isNone

/-- R33: a debug halt has stopped the core's clock: the halt is in force and nothing is in flight. -/
def Core.debugHalted (k : Core) : Bool := k.ctrl.haltReq && k.halted

/-- 16 Table 16.2: whether a power state stops the clock of an island of the quadrant, or takes its power. -/
def PState.stops (x : PState) (i : Island) : Bool :=
  match x, i with
  | .run, _ => false
  | .doze, .core _ | .doze, .dieControl _ | .park, .core _ | .park, .dieControl _ => true
  | .doze, _ | .park, _ => false
  | .retain, _ | .standby, _ => true

/-- The power state of the quadrant in which a die lies. -/
def State.diePower (s : State) (d : Nat) : PState := (s.part (s.partOfQuad (dieQuad d))).power.state

/-- 16 R433: whether a tower is tripped. -/
def State.tripped (s : State) (t : Nat) : Bool := (s.pwr.towers.get {} t).trip

/-- 16 R433: whether the tower that an island lies in is tripped: its core and mesh islands stop. -/
def State.throttleStops (s : State) (i : Island) : Bool :=
  match i with
  | .core c => s.tripped (c.val / 16)
  | .mesh t => s.tripped t.val
  | _ => false

/-- 13 Table 13.5: whether an episode of module-warm reach or wider holds an island of the hub in reset: the module controllers run
option loading (13 R363), the security core the boot chain (14 R392), the rest runs from the end of hub start. -/
def Episode.holdsHub (e : Episode) (h : HubIsland) : Bool :=
  e.reach.hub && (match e.phase with
    | .release | .clockStart | .strapSample => true
    | .optionLoading => decide (h ≠ .moduleControl)
    | .hubStart => decide (h ≠ .moduleControl) && decide (h ≠ .security)
    | _ => false)

/-- 18 R453, R459: whether a control core is debug-halted: a halt asked of one in a partition that is not in Run takes effect once the wake has
completed. -/
def State.ctlHalted (s : State) (k : Nat) : Bool :=
  s.rst.haltedCores.contains k && (decide (72 ≤ k) || decide ((s.part (s.partOfQuad (dieQuad (clusterOfCore k)))).power.state = .run))

/-- 15 Table 15.2: the control cores of a control cluster. -/
def clusterCores (u : Nat) : List Nat := (List.range 78).filter (fun k => decide (clusterOfCore k = u))

/-- 14 R379: whether a core of a cluster is debug-halted. -/
def State.clusterHalted (s : State) (u : Nat) : Bool := (clusterCores u).any s.ctlHalted

/-- R33: whether every core of a cluster is debug-halted: its island's clock is stopped. -/
def State.allHalted (s : State) (u : Nat) : Bool := (clusterCores u).all s.ctlHalted

/-- R33: whether the clock of an island is stopped: by a reset, clock or power gating, a throttle stop or a debug halt; an island of
the hub by a reset of the hub or with the hub off (16 R428), which leave the management cluster: that runs from management start on
(13 R370). -/
def State.islandStopped (s : State) : ClockIsland → Bool
  | .die i =>
    s.rst.episodes.any (fun e => e.holds i) || (s.diePower i.die).stops i || s.throttleStops i ||
      (match i with
        | .core c => (s.core c.val).debugHalted
        | .dieControl t => s.allHalted t.val
        | .linkControl d => s.allHalted (32 + d.val)
        | _ => false)
  | .hub .management => (s.rst.episodes.any (fun e => e.reach.hasCluster 38) && !s.rst.mgmtUp) || s.allHalted 38
  | .hub h => s.rst.episodes.any (fun e => e.holdsHub h) || s.hubOff ||
      (match h with | .moduleControl => s.allHalted 36 | .security => s.allHalted 37 | _ => false)

/-- R33: whether a core's clock is stopped. -/
def State.coreStopped (s : State) (c : Nat) : Bool := s.islandStopped (.die (coreIsland c))
/-- R33, 16 R433: whether a channel's clock is stopped, or its tower is tripped: the dies then refresh themselves, and nothing is served. -/
def State.chanStopped (s : State) (k : Nat) : Bool := s.islandStopped (.die (channelIsland k)) || s.tripped (k / 32)
/-- R33: whether the clock of a port is stopped. -/
def State.portStopped (s : State) (p : Nat) : Bool := s.islandStopped (.die (.port (portOf p)))
/-- R33: whether the clock of a control cluster is stopped. -/
def State.clusterStopped (s : State) (u : Nat) : Bool := s.islandStopped (ClockIsland.ofCluster u)

/-- R33: whether a stream context's clock is stopped: that of its core; a bulk mover's is its die's mesh clock, gated in Doze and
deeper (16 Table 16.2). -/
def State.ctxStopped (s : State) (k : Nat) : Bool :=
  match ctxCore k with
  | some c => s.coreStopped c
  | none => s.islandStopped (.die (meshIsland (ctxTower k))) || decide (1 ≤ (s.diePower (ctxTower k)).code)

/-- 05 R135: whether the stall watch of a die stands still: its cluster's clock is stopped, as in Doze and deeper, or a core of the die
is debug-halted. -/
def State.stallWatchStopped (s : State) (t : Nat) : Bool :=
  s.clusterStopped t || s.clusterHalted t || (List.range 16).any (fun n => (s.core (16 * t + n)).debugHalted)

end Sys2Proof.Machine
end

