-- ==== Sys2Proof/Machine/Queues.lean ====
section
/-! DEFINITION. Queues and steering (05 R126 to R138). -/

namespace Sys2Proof.Machine

/-- The low 16 bits of a core's current step. -/
def Core.step16 (k : Core) : BitVec 16 := k.report.step.setWidth 16

/-- R128: the oldest tile of an input endpoint where it is present for the issue rule. -/
def Core.present (k : Core) (e : Nat) : Option QTile :=
  match (k.ep e).tiles with
  | [] => none
  | t :: _ => if t.visible && t.step = k.step16 then some t else none

/-- Where a tile lies in its store. -/
def Endpoint.slotOff (x : Endpoint) (slot : Nat) : Nat := x.bufOff + 64 * x.slotUnits * slot

/-- The bytes of a tile held in the store of core `c`. -/
def Core.tileBytes (k : Core) (c e : Nat) (t : QTile) : List Byte :=
  let x := k.ep e
  k.stores.bytes c (StoreId.ofCode x.store.toNat) (x.slotOff t.slot) t.len

/-- Whether an endpoint is read by a steering node. -/
def Core.steered (k : Core) (e : Nat) : Bool :=
  k.steer.any (fun x => x.2.kind ≠ .unused && (x.2.inA.toNat = e || (x.2.kind ≠ .switch && x.2.inB.toNat = e)))

/-- R28: whether a write to a queue along the edges of an endpoint is refused at the injecting router: a route crosses a bridge that
takes no packet. -/
def State.edgeRefused (s : State) (c e : Nat) : Bool :=
  ((s.core c).ep e).edges.any (fun d => d.link.isNone && s.gateRefuses (c / 16) (d.dstCore / 16))

/-- 01 R34, R130: an item on its way to an endpoint of the core: past its crossing, or from the core itself in place. -/
def Core.pushArrival (k : Core) (here : Bool) (a : Arrival) : Core :=
  if here then { k with own := k.own ++ [a] }
  else { k with arrivals := k.arrivals ++ [{ a with ord := k.crossed }], crossed := k.crossed + 1 }

/-- 01 R34, R130: a credit on its way to an endpoint of the core. -/
def Core.pushCredit (k : Core) (here : Bool) (ep edge : Nat) : Core :=
  if here then { k with ownCredits := k.ownCredits ++ [{ ep := ep, edge := edge }] }
  else { k with creditsIn := k.creditsIn ++ [{ ep := ep, edge := edge, ord := k.crossed }], crossed := k.crossed + 1 }

/-- R127, R139: a credit on its way back to the producer of an endpoint's tiles; over a link stream it is a CREDIT packet
whose KH.SEQ is that of the newest tile freed (10 R280). -/
def State.returnCredit (s : State) (c e : Nat) (seq : BitVec 32) : State :=
  let x := (s.core c).ep e
  match x.src, x.srcLink with
  | some (pc, pe, i), _ =>
    if s.gateRefuses (c / 16) (pc / 16) then s.gateRefusal c
    else s.modCore pc (fun k => k.pushCredit (decide (pc = c)) pe.toNat i)
  | none, some l =>
    { s with txq := s.txq ++ [{ quad := BitVec.ofNat 2 (c / 128), dst := l.member, dstCore := l.core, dstEp := l.ep,
                                seq := seq, step := (s.core c).step16,
                                payload := ({ kind := 1, edge := x.edgeId, count := 1 } : Ctl).bytes }] }
  | none, none => s

/-- R127, R129, R136: the oldest tile of an endpoint is freed: its credit returns where it still holds one, and a
held marker that no tile precedes any more is discarded where no node reads it. -/
def State.freeTile (s : State) (c e : Nat) : State :=
  let k := s.core c
  let x := k.ep e
  match x.tiles with
  | [] => s
  | t :: rest =>
    let left (m : BitVec 16) : Bool := rest.any (fun y => decide (y.step = m)) || x.spill.any (fun y => decide (y.step = m))
    let x1 : Endpoint := { x with tiles := rest, lastFreed := some t.seq,
                                  markers := if k.steered e then x.markers else x.markers.filter left }
    let s1 := s.setCore c (k.setEp e x1)
    if t.credit then s1.returnCredit c e t.seq else s1

/-- Tiles of several endpoints freed, one each. -/
def State.freeTiles (s : State) (c : Nat) (l : List EpId) : State := l.foldl (fun a e => a.freeTile c e.val) s

/-- R127: whether every edge of an output endpoint has a credit. -/
def Core.canSend (k : Core) (e : Nat) : Bool := (k.ep e).edges.all (fun d => decide (0 < d.credits))

/-- Bytes with zeros up to a multiple of 32 (10 R276). -/
def pad32 (bs : List Byte) : List Byte := bs ++ List.replicate ((32 - bs.length % 32) % 32) 0

/-- 10 R278: the parts of a tile, at most 4,096 bytes each. -/
def tileParts (q : BitVec 2) (l : LinkEnd) (seq : BitVec 32) (step : BitVec 16) (bs : List Byte) : List OutPkt :=
  let n := if bs.length = 0 then 1 else ceilDiv bs.length 4096
  (List.range n).map (fun i =>
    { quad := q, cls := 1, dst := l.member, dstCore := l.core, dstEp := l.ep, seq := seq, step := step,
      part := BitVec.ofNat 3 i, fin := decide (i + 1 = n), payload := pad32 ((bs.drop (4096 * i)).take 4096) })

/-- An item of core `c` set on its way along one edge; a marker of a link stream has a zero payload (R129). -/
def State.sendEdge (s : State) (c e : Nat) (d : Edge) (seq : BitVec 32) (step : BitVec 16) (marker : Bool) (bs : List Byte) :
    State :=
  match d.link with
  | none => s.modCore d.dstCore (fun k => k.pushArrival (decide (d.dstCore = c))
      { ep := d.dstEp, seq := seq, step := step, marker := marker, bytes := bs })
  | some l =>
    let ps := tileParts (BitVec.ofNat 2 (c / 128)) l seq step (if marker then List.replicate 32 0 else bs)
    let sz := (ps.map (fun x => x.payload.length)).sum
    let k := (s.core c).modReport (fun r => { r with sent := r.sent.mod (0, 0) e (fun y => (y.1 + ps.length, y.2 + sz)) })
    let s1 := s.setCore c k
    { s1 with txq := s1.txq ++ ps }

/-- R127: a tile sent from an output endpoint along every edge, one credit taken on each. -/
def State.sendTile (s : State) (c e : Nat) (seq : BitVec 32) (bs : List Byte) : State :=
  let k := s.core c
  let x := k.ep e
  let x1 : Endpoint := { x with nextSeq := seq + 1, edges := x.edges.map (fun d => { d with credits := d.credits - 1 }) }
  x.edges.foldl (fun a d => a.sendEdge c e d seq k.step16 false bs) (s.setCore c (k.setEp e x1))

/-- R129: an end-of-step marker sent along every edge; it takes no credit. -/
def State.sendMarker (s : State) (c e : Nat) : State :=
  let k := s.core c
  if s.edgeRefused c e then s.gateRefusal c
  else (k.ep e).edges.foldl (fun a d => a.sendEdge c e d (BitVec.allOnes 32) k.step16 true []) s

/-- A program fault of core `c` (15 Table 15.3). -/
def State.coreFault (s : State) (c code detail info : Nat) : State :=
  (s.modCore c (fun k => { k with faultStop := true })).programFault (s.coreReport c code detail info 4)

/-- R110: an instance faults before issue: the core stops issuing from its pass list, and from its drain list after the drains of earlier
instances. -/
def State.instFault (s : State) (c code detail info : Nat) : State :=
  (s.modCore c (fun k => { k with passFault := true })).programFault (s.coreReport c code detail info 4)

/-- A list without its first element that holds, and that element. -/
def takeFirst {α : Type} (f : α → Bool) (l : List α) : Option (α × List α) :=
  match l.findIdx? f with
  | none => none
  | some i => match l[i]? with | some x => some (x, l.eraseIdx i) | none => none

/-- 01 R34, R130: the item that comes next for an endpoint, and the core without it: what the core sent itself in place, else the entry that
leaves its crossing next, where it is for the endpoint. The entries of the crossing leave in the order in which they entered. -/
def Core.nextArrival (k : Core) (e : BitVec 5) : Option (Arrival × Core) :=
  match takeFirst (fun a : Arrival => decide (a.ep = e)) k.own with
  | some (a, rest) => some (a, { k with own := rest })
  | none =>
    match k.arrivals with
    | [] => none
    | a :: rest =>
      if a.ep = e && k.creditsIn.all (fun x => decide (a.ord < x.ord)) then some (a, { k with arrivals := rest }) else none

/-- The lowest slot of a queue's store that no tile holds. -/
def Endpoint.freeSlot (x : Endpoint) : Option Nat :=
  (List.range x.depth.toNat).find? (fun i => !x.tiles.any (fun t => t.slot = i))

/-- Bytes that the tiles spilled from a core's queues take: one slot size each. -/
def Core.queueSpillUsed (k : Core) : Nat := (k.eps.map (fun x => x.2.spill.length * (64 * x.2.slotUnits))).sum

/-- R136, R137: a tile put into the queue spill region, its credit returned; QUEUE_SPILL_FULL where it does not fit. The spec does not
say how a tile stands in that region of tower DRAM: the region is a list of tiles and none of its bytes is an address's (DESIGN CHOICE,
log 108). -/
def State.spillTile (s : State) (c e : Nat) (seq : BitVec 32) (step : BitVec 16) (visible : Bool) (bs : List Byte)
    (credit : Bool) : State :=
  let k := s.core c
  let x := k.ep e
  if k.queueSpillUsed + 64 * x.slotUnits > k.lists.queueSpill then s.coreFault c 0x0502 e 0
  else
    let s1 := s.setCore c ((k.setEp e { x with spill := x.spill ++ [{ seq := seq, step := step, visible := visible, bytes := bs }],
                                                spilled := true }).rptSet (fun r => { r with queueSpill := true }))
    if credit then s1.returnCredit c e seq else s1

/-- R128, R129: whether an arrival breaks the order of its edge: not above its predecessor in its step, or after its
step's marker. -/
def Endpoint.seqBad (x : Endpoint) (seq : BitVec 32) (step : BitVec 16) : Bool :=
  (match x.lastSeq with | some (st, q) => decide (st = step) && decide (seq ≤ q) | none => false) ||
    x.closed.contains step

/-- TILE_ARRIVE (R128, R136, R143): the next tile on its way to an input endpoint arrives. One that a reset or a load has left without
its queue is lost (log 99). -/
def tileArrive (c : CoreId) (e : EpId) (s : State) : State :=
  if s.coreStopped c.val then s else
  let k := s.core c.val
  match k.nextArrival (BitVec.ofNat 5 e.val) with
  | none => s
  | some (a, k0) =>
    if a.marker then s
    else
      let x := k.ep e.val
      if x.dir ≠ 1 then s.setCore c.val k0
      else if x.seqBad a.seq a.step then
        (s.setCore c.val k0).coreFault c.val 0x0501 e.val a.seq.toNat
      else
        let x1 : Endpoint := { x with lastSeq := some (a.step, a.seq) }
        let k1 := k0.setEp e.val x1
        let s1 := s.setCore c.val k1
        match x.spilled, x.freeSlot with
        | false, some i =>
          let t : QTile := { seq := a.seq, step := a.step, slot := i, len := a.bytes.length,
                             visible := decide (x.kind ≠ 2) }
          let k2 := k1.setEp e.val { x1 with tiles := x1.tiles ++ [t] }
          s1.setCore c.val (k2.writeStore (StoreId.ofCode x.store.toNat) (x.slotOff i) a.bytes)
        | _, _ => s1.spillTile c.val e.val a.seq a.step (decide (x.kind ≠ 2)) a.bytes true

/-- END_OF_STEP_MARKER (R129): the next item on its way to an input endpoint is a marker and arrives: held for a steering
node or behind tiles, else discarded; a second marker for one step is a SEQ_MISMATCH. -/
def endOfStepMarker (c : CoreId) (e : EpId) (s : State) : State :=
  if s.coreStopped c.val then s else
  let k := s.core c.val
  match k.nextArrival (BitVec.ofNat 5 e.val) with
  | none => s
  | some (a, k1) =>
    if !a.marker then s
    else
      let x := k.ep e.val
      if x.dir ≠ 1 then s.setCore c.val k1
      else if x.closed.contains a.step then (s.setCore c.val k1).coreFault c.val 0x0501 e.val a.seq.toNat
      else
        let keep := k.steered e.val || x.tiles.any (fun y => decide (y.step = a.step)) || x.spill.any (fun y => decide (y.step = a.step))
        s.setCore c.val (k1.setEp e.val { x with closed := x.closed ++ [a.step],
                                                 markers := if keep then x.markers ++ [a.step] else x.markers })

/-- R143: the first tile of a list that is not visible becomes visible. -/
def revealFirst : List QTile → Option (List QTile)
  | [] => none
  | t :: r => if t.visible then (revealFirst r).map (fun l => t :: l) else some ({ t with visible := true } :: r)

/-- R143: the first spilled tile that is not visible becomes visible. -/
def revealSpilled : List SpillTile → Option (List SpillTile)
  | [] => none
  | t :: r => if t.visible then (revealSpilled r).map (fun l => t :: l) else some ({ t with visible := true } :: r)

/-- R143: the oldest external tile of an endpoint that is not visible becomes visible. -/
def Endpoint.reveal (x : Endpoint) : Option Endpoint :=
  match revealFirst x.tiles with
  | some ts => some { x with tiles := ts }
  | none => (revealSpilled x.spill).map (fun l => { x with spill := l })

/-- R143: the number in its step of the oldest tile of an endpoint that is not visible. -/
def Endpoint.hiddenSeq (x : Endpoint) : Option (BitVec 32) :=
  match x.tiles.find? (fun t => !t.visible) with
  | some t => some t.seq
  | none => (x.spill.find? (fun t => !t.visible)).map (fun t => t.seq)

/-- R143: whether that tile, arrived in cycle `arrived` of the step, came after its release cycle RELEASE_BASE + i × RELEASE_PERIOD. The
index i of a tile of an edge is taken as its sequence number, though the numbers may have gaps (DESIGN CHOICE, log 108). -/
def Endpoint.late (x : Endpoint) (arrived : Nat) : Bool :=
  match x.hiddenSeq with
  | some i => decide (x.releaseBase + i.toNat * x.releasePeriod < arrived)
  | none => false

/-- R143, R161: an event that came after its release cycle is counted. -/
def Core.countLate (q : Core) (late : Bool) : Core :=
  if late then (q.modReport (fun z => { z with lateTiles := satAdd z.lateTiles 1 })).rptSet (fun z => { z with late := true }) else q

/-- R143, 08 R228: an acknowledgement, a rescale request or an update's gradients become visible at core `c`. Whether they came after
their release cycle no section of the image states: a free value (log 97). -/
def State.released (s : State) (c : Nat) : State :=
  let s1 : State := { s with freeCounter := s.freeCounter + 1 }
  s1.modCore c (fun q => q.countLate (Config.freeBit s.freeCounter))

/-- EXTERNAL_EVENT_RELEASE (R143): the oldest external tile of an endpoint not yet visible becomes visible, at the later of
its arrival and its planned release cycle; one that arrived after its release counts in RPT.LATE_TILES and sets LATE. The cycle
`arrived` is counted in the core's cycles from its start of the tile's step. -/
def externalEventRelease (c : CoreId) (e : EpId) (arrived : Nat) (s : State) : State :=
  if s.coreStopped c.val then s else
  let k := s.core c.val
  match (k.ep e.val).reveal with
  | none => s
  | some x1 =>
    let k1 := k.setEp e.val x1
    s.setCore c.val (k1.countLate ((k.ep e.val).late arrived))

/-- 01 R34, R130: the credit that comes next for an endpoint, as the number of its edge, and the core without it: one of the core's own,
else the entry that leaves its crossing next, where it is for the endpoint. -/
def Core.nextCredit (k : Core) (e : Nat) : Option (Nat × Core) :=
  match takeFirst (fun a : CreditIn => decide (a.ep = e)) k.ownCredits with
  | some (a, rest) => some (a.edge, { k with ownCredits := rest })
  | none =>
    match k.creditsIn with
    | [] => none
    | a :: rest =>
      if a.ep = e && k.arrivals.all (fun x => decide (a.ord < x.ord)) then some (a.edge, { k with creditsIn := rest }) else none

/-- An edge list with one credit more on edge `i`. -/
def addCredit : List Edge → Nat → List Edge
  | [], _ => []
  | d :: t, 0 => { d with credits := d.credits + 1 } :: t
  | d :: t, i + 1 => d :: addCredit t i

/-- CREDIT_RECEIVE (R127): the next credit on its way to an output endpoint arrives. -/
def creditReceive (c : CoreId) (e : EpId) (s : State) : State :=
  if s.coreStopped c.val then s else
  let k := s.core c.val
  match k.nextCredit e.val with
  | none => s
  | some (i, k1) =>
    let x := k.ep e.val
    s.setCore c.val (k1.setEp e.val { x with edges := addCredit x.edges i })

/-- R136 step 1: every tile of the store moved to the spill region, oldest first; a tile that does not fit stops the core,
and the tiles spilled before it are kept (R137). -/
def State.spillAll (s : State) (c e : Nat) : Nat → State
  | 0 => s
  | n + 1 =>
    let k := s.core c
    let x := k.ep e
    match x.tiles with
    | [] => s
    | t :: rest =>
      if k.queueSpillUsed + 64 * x.slotUnits > k.lists.queueSpill then s.coreFault c 0x0502 e 0
      else
        let bs := k.tileBytes c e t
        ((s.setCore c (k.setEp e { x with tiles := rest })).spillTile c e t.seq t.step t.visible bs t.credit).spillAll c e n

/-- R135: whether a queue meets the conditions that the state shows: full, and no tile of it spilled. -/
def Endpoint.full (x : Endpoint) : Bool :=
  decide (x.dir = 1) && decide (0 < x.depth.toNat) && decide (x.tiles.length = x.depth.toNat) && x.spill.isEmpty

/-- QUEUE_MOVE_BACK (R136 steps 3, 4): the oldest spilled tile moves into a free slot of the store; it holds no credit.
QEP.SPILLED clears with the last one. -/
def queueMoveBack (c : CoreId) (e : EpId) (s : State) : State :=
  if s.coreStopped c.val then s else
  let k := s.core c.val
  let x := k.ep e.val
  match x.spill, x.freeSlot with
  | t :: rest, some i =>
    let q : QTile := { seq := t.seq, step := t.step, slot := i, len := t.bytes.length, credit := false, visible := t.visible }
    let x1 : Endpoint := { x with spill := rest, tiles := x.tiles ++ [q], spilled := !rest.isEmpty }
    s.setCore c.val ((k.setEp e.val x1).writeStore (StoreId.ofCode x.store.toNat) (x.slotOff i) t.bytes)
  | _, _ => s

/-- STALL_SUSPECT (R138, 08 R231): a wait of STALL_LIMIT cycles that involves no full queue is recorded as an event. -/
def stallSuspect (c : CoreId) (engine : Fin 3) (operator : BitVec 24) (s : State) : State :=
  if s.stallWatchStopped c.tower then s else s.logError (s.coreReport c.val 0x0505 engine.val operator.toNat 0)

-- Steering ------------------------------------------------------------------------------------------------------------

/-- R131: the fields of a token: TOK.SEQ, TOK.SEL. -/
def tokenOf (bs : List Byte) : Nat × Nat := (bitsAt (ofBytes bs) 32 32, bitsAt (ofBytes bs) 0 2)

/-- A steering node. -/
def Core.node (k : Core) (n : Nat) : Steer := k.steer.get {} n
/-- The core with a steering node replaced. -/
def Core.setNode (k : Core) (n : Nat) (x : Steer) : Core := { k with steer := k.steer.set {} n x }

/-- R132: a node stops at a fault; the tiles it has not routed stay in their queues. -/
def State.steerFault (s : State) (c n seq : Nat) : State :=
  let k := s.core c
  (s.setCore c (k.setNode n { k.node n with stopped := true })).coreFault c 0x0501 n seq

/-- A node's count advances by one routed tile or discard. -/
def State.fired (s : State) (c n : Nat) : State :=
  let k := s.core c
  s.setCore c (k.setNode n { k.node n with fired := (k.node n).fired + 1 })

/-- R129: whether an endpoint holds the marker of the core's step and no tile of that step. -/
def Core.atMarker (k : Core) (e : Nat) : Bool :=
  let x := k.ep e
  x.markers.contains k.step16 && !x.tiles.any (fun t => decide (t.step = k.step16)) &&
    !x.spill.any (fun t => decide (t.step = k.step16))

/-- A held marker taken from an endpoint. -/
def State.dropMarker (s : State) (c e : Nat) : State :=
  let k := s.core c
  s.setCore c (k.setEp e { k.ep e with markers := (k.ep e).markers.filter (fun m => !decide (m = k.step16)) })

/-- SWITCH (R132, R129): the data tile that the oldest token names goes to output A, to B, or is freed; with its data
input at its marker, one marker to each output. -/
def steerSwitch (c : CoreId) (n : Fin 8) (s : State) : State :=
  if s.coreStopped c.val then s else
  let k := s.core c.val
  let x := k.node n.val
  if x.kind ≠ .switch || x.stopped then s
  else
    match k.present x.token.toNat, k.present x.inA.toNat with
    | some tk, some d =>
      let (seq, sel) := tokenOf (k.tileBytes c.val x.token.toNat tk)
      if sel = 3 || seq ≠ d.seq.toNat then s.steerFault c.val n.val d.seq.toNat
      else
        let bs := k.tileBytes c.val x.inA.toNat d
        let out := if sel = 0 then some x.outA.toNat else if sel = 1 then some x.outB.toNat else none
        match out with
        | none => ((s.freeTile c.val x.token.toNat).freeTile c.val x.inA.toNat).fired c.val n.val
        | some o =>
          if !k.canSend o then s
          else if s.edgeRefused c.val o then s.gateRefusal c.val
          else
            (((s.sendTile c.val o d.seq bs).freeTile c.val x.token.toNat).freeTile c.val x.inA.toNat).fired c.val n.val
    | _, _ =>
      if k.atMarker x.inA.toNat then
        ((s.sendMarker c.val x.outA.toNat).sendMarker c.val x.outB.toNat).dropMarker c.val x.inA.toNat
      else s

/-- SELECT (R132, R129): the oldest tile of the input that the oldest token names goes out as tile n; TOK.SEL = 2 leaves a
gap; with both data inputs at their markers, one marker. -/
def steerSelect (c : CoreId) (n : Fin 8) (s : State) : State :=
  if s.coreStopped c.val then s else
  let k := s.core c.val
  let x := k.node n.val
  if x.kind ≠ .select || x.stopped then s
  else
    match k.present x.token.toNat with
    | some tk =>
      let (seq, sel) := tokenOf (k.tileBytes c.val x.token.toNat tk)
      if sel = 3 then s.steerFault c.val n.val seq
      else if sel = 2 then (s.freeTile c.val x.token.toNat).fired c.val n.val
      else
        let e := if sel = 0 then x.inA.toNat else x.inB.toNat
        match k.present e with
        | none => s
        | some d =>
          if d.seq.toNat ≠ seq then s.steerFault c.val n.val seq
          else if !k.canSend x.outA.toNat then s
          else if s.edgeRefused c.val x.outA.toNat then s.gateRefusal c.val
          else
            (((s.sendTile c.val x.outA.toNat d.seq (k.tileBytes c.val e d)).freeTile c.val x.token.toNat).freeTile
              c.val e).fired c.val n.val
    | none =>
      if k.atMarker x.inA.toNat && k.atMarker x.inB.toNat then
        ((s.sendMarker c.val x.outA.toNat).dropMarker c.val x.inA.toNat).dropMarker c.val x.inB.toNat
      else s

/-- MERGE (R132): the older of the two inputs' oldest tiles, once the other input holds a tile or its marker; equal numbers
fault; with both at their markers, one marker. -/
def steerMerge (c : CoreId) (n : Fin 8) (s : State) : State :=
  if s.coreStopped c.val then s else
  let k := s.core c.val
  let x := k.node n.val
  let ea := x.inA.toNat
  let eb := x.inB.toNat
  let send (e : Nat) (d : QTile) : State :=
    if !k.canSend x.outA.toNat then s
    else if s.edgeRefused c.val x.outA.toNat then s.gateRefusal c.val
    else ((s.sendTile c.val x.outA.toNat d.seq (k.tileBytes c.val e d)).freeTile c.val e).fired c.val n.val
  if x.kind ≠ .merge || x.stopped then s
  else
    match k.present ea, k.present eb with
    | some a, some b =>
      if a.seq = b.seq then s.steerFault c.val n.val a.seq.toNat
      else if a.seq < b.seq then send ea a else send eb b
    | some a, none => if k.atMarker eb then send ea a else s
    | none, some b => if k.atMarker ea then send eb b else s
    | none, none =>
      if k.atMarker ea && k.atMarker eb then
        ((s.sendMarker c.val x.outA.toNat).dropMarker c.val ea).dropMarker c.val eb
      else s

/-- TILE_ARRIVE. -/
def execTileArrive (c : CoreId) (e : EpId) (s : State) : Host.Outcome State Fault Refusal := .next (tileArrive c e s)
/-- END_OF_STEP_MARKER. -/
def execEndOfStepMarker (c : CoreId) (e : EpId) (s : State) : Host.Outcome State Fault Refusal :=
  .next (endOfStepMarker c e s)
/-- EXTERNAL_EVENT_RELEASE. -/
def execExternalEventRelease (c : CoreId) (e : EpId) (arrived : Nat) (s : State) : Host.Outcome State Fault Refusal :=
  .next (externalEventRelease c e arrived s)
/-- CREDIT_RECEIVE. -/
def execCreditReceive (c : CoreId) (e : EpId) (s : State) : Host.Outcome State Fault Refusal := .next (creditReceive c e s)
/-- SWITCH. -/
def execSteerSwitch (c : CoreId) (n : Fin 8) (s : State) : Host.Outcome State Fault Refusal := .next (steerSwitch c n s)
/-- SELECT. -/
def execSteerSelect (c : CoreId) (n : Fin 8) (s : State) : Host.Outcome State Fault Refusal := .next (steerSelect c n s)
/-- MERGE. -/
def execSteerMerge (c : CoreId) (n : Fin 8) (s : State) : Host.Outcome State Fault Refusal := .next (steerMerge c n s)
/-- QUEUE_MOVE_BACK. -/
def execQueueMoveBack (c : CoreId) (e : EpId) (s : State) : Host.Outcome State Fault Refusal := .next (queueMoveBack c e s)
/-- STALL_SUSPECT. -/
def execStallSuspect (c : CoreId) (engine : Fin 3) (operator : BitVec 24) (s : State) : Host.Outcome State Fault Refusal :=
  .next (stallSuspect c engine operator s)

end Sys2Proof.Machine
end

