-- ==== Sys2Proof/Machine/TilingOps.lean ====
section
/-! DEFINITION. Tiles, passes and loops (04 R92 to R112), report counting (05 R142, R145, R146) and the flags of a core
(02 R64 to R66). -/

namespace Sys2Proof.Machine

/-- The arrays of a mask, in ascending order. -/
def Tiling.arrays (t : Tiling) : List Nat := (List.range 4).filter (fun a => t.arrayMask.getLsbD a)

/-- R93: number of M blocks of a length. -/
def Tiling.mBlocks (t : Tiling) (lm : Nat) : Nat := ceilDiv lm (64 * t.arrays.length)
/-- Number of N tiles of a length. -/
def nTiles (ln : Nat) : Nat := ceilDiv ln 64
/-- N blocks of `run` tiles each over `nt` tiles: first tile and number. TILE.RUN of 0 or above 8 no rule refuses: such a run is taken as
it stands, and 0 gives no block (DESIGN CHOICE, log 90). -/
def nBlocks (run nt : Nat) : List (Nat × Nat) :=
  (List.range (ceilDiv nt run)).map (fun j => (j * run, if nt - j * run < run then nt - j * run else run))

/-- R111: a run divided into parts of at most B tiles. -/
def splitRun (b : Nat) (blk : Nat × Nat) : List (Nat × Nat) := (nBlocks b blk.2).map (fun x => (blk.1 + x.1, x.2))

/-- R94, R105, R479: the passes of an instance with lengths `lm`, `ln`, `lk`, in the order they issue. In spill mode a run
is divided under R111. -/
def passesFor (o : OpEntry) (lm ln lk : Nat) (spill : Bool) : List Pass :=
  let t := o.tiling
  let ms := List.range (t.mBlocks lm)
  let blks := nBlocks t.run.toNat (nTiles ln)
  let ks := List.range (ceilDiv lk (tileK o.xFmt))
  let parts (b : Nat × Nat) : List (Nat × Nat) :=
    if spill && decide (t.slotBudget.toNat < b.2) then splitRun t.slotBudget.toNat b else [b]
  let one (m k : Nat) (b : Nat × Nat) : List Pass :=
    (parts b).map (fun x => { mb := m, kt := k, n0 := x.1, cnt := x.2 })
  match t.order.toNat with
  | 0 => ms.flatMap (fun m => blks.flatMap (fun b => ks.flatMap (fun k => one m k b)))
  | 1 => blks.flatMap (fun b => ms.flatMap (fun m => ks.flatMap (fun k => one m k b)))
  | 2 => ms.flatMap (fun m => ks.flatMap (fun k => blks.flatMap (fun b => one m k b)))
  | 3 => blks.flatMap (fun b => ks.flatMap (fun k => ms.flatMap (fun m => one m k b)))
  | 4 => ks.flatMap (fun k => ms.flatMap (fun m => blks.flatMap (fun b => one m k b)))
  | _ => ks.flatMap (fun k => blks.flatMap (fun b => ms.flatMap (fun m => one m k b)))

/-- R94, Table 04.1: the demand of lengths. -/
def demandOf (t : Tiling) (lm ln : Nat) : Nat :=
  let nt := nTiles ln
  let a := t.mBlocks lm
  let r := if t.run.toNat < nt then t.run.toNat else nt
  match t.order.toNat with
  | 0 => r
  | 1 => r
  | 2 => nt
  | 3 => r * a
  | _ => nt * a

/-- R96, R109: the length a loop counts with in the demand: its latched length where it is a bound-mode dynamic loop,
else its compiled maximum. -/
def LoopDesc.demandLen (l : LoopDesc) (latched : Nat) : Nat := if l.src ≠ 0 && l.mode then latched else l.max.toNat

/-- R96: the length a loop counts with at load: one tile where it is a bound-mode dynamic loop. -/
def LoopDesc.loadLen (l : LoopDesc) (tile : Nat) : Nat := if l.src ≠ 0 && l.mode then tile else l.max.toNat

/-- R111: the live group of a tile (M block, N tile). -/
def groupOf (t : Tiling) (mb nt : Nat) : Nat × Nat :=
  match t.order.toNat with
  | 0 => (mb + 1, nt / t.run.toNat + 1)
  | 1 => (mb + 1, nt / t.run.toNat + 1)
  | 2 => (mb + 1, 0)
  | 3 => (0, nt / t.run.toNat + 1)
  | _ => (0, 0)

/-- R111: the rank of a tile in its group, in the order in which the loop nest first names it. -/
def rankOf (t : Tiling) (lm ln mb nt : Nat) : Nat :=
  let r := t.run.toNat
  let total := nTiles ln
  let blk := nt / r
  let cnt := if total - blk * r < r then total - blk * r else r
  match t.order.toNat with
  | 0 => nt - blk * r
  | 1 => nt - blk * r
  | 2 => nt
  | 3 => mb * cnt + (nt - blk * r)
  | 4 => mb * total + nt
  | _ => blk * r * t.mBlocks lm + mb * cnt + (nt - blk * r)

/-- R95, R111: the home slot of a tile of array `a`: slot 8a + TILE.SLOT_BASE + (rank mod budget). -/
def homeSlot (t : Tiling) (lm ln a mb nt : Nat) : Nat :=
  8 * a + t.slotBase.toNat + rankOf t lm ln mb nt % t.slotBudget.toNat

/-- R112: spill positions per array for demand D and budget B. -/
def spillPositions (d b : Nat) : Nat := if d < 2 * (d - b) then d else 2 * (d - b)

/-- R112: whether the tile of rank i owns a position: its home class holds at least two tiles. -/
def ownsPosition (d b i : Nat) : Bool := decide (2 ≤ ceilDiv (d - i % b) b)

/-- R112: the position of the tile of rank i in the array of rank r among the mask's arrays. -/
def spillPos (t : Tiling) (d a i : Nat) : Nat :=
  let b := t.slotBudget.toNat
  let p := ((List.range i).filter (fun j => ownsPosition d b j)).length
  placeIn t.arrays a * spillPositions d b + p

/-- The tiles that a pass names: array, M block, N tile. -/
def Pass.tiles (p : Pass) (t : Tiling) : List (Nat × Nat × Nat) :=
  t.arrays.flatMap (fun a => (List.range p.cnt).map (fun j => (a, p.mb, p.n0 + j)))

/-- R105: whether an array's M tile of an M block lies at least partly within the M length. -/
def Instance.covers (i : Instance) (a mb : Nat) : Bool :=
  decide ((mb * i.op.tiling.arrays.length + placeIn i.op.tiling.arrays a) * 64 < i.lenM)

/-- The first column of an array's M tile. -/
def Instance.col0 (i : Instance) (a mb : Nat) : Nat :=
  (mb * i.op.tiling.arrays.length + placeIn i.op.tiling.arrays a) * 64

/-- R47: the output tiles of an instance in the order in which its passes first open them. -/
def Instance.openOrder (i : Instance) : List (Nat × Nat × Nat) :=
  (passesFor i.op i.lenM i.lenN i.lenK i.spilling).foldl (fun l p =>
    (p.tiles i.op.tiling).foldl (fun l x => if l.contains x || !i.covers x.1 x.2.1 then l else l ++ [x]) l) []

/-- R95, R111: the home slot of a tile of an instance: in spill mode that of R111; else the slot of its array that the tile's drain
descriptor names (R479), and R111's where none does (DESIGN CHOICE, log 90). -/
def Instance.home (i : Instance) (a mb nt : Nat) : Nat :=
  let h := homeSlot i.op.tiling i.lenM i.lenN a mb nt
  if i.spilling then h
  else
    match i.op.drains.find? (fun d => decide (d.array.toNat = a) && decide (d.mb = mb) && decide (d.nt = nt)) with
    | some d => if d.desc.slot.toNat / 8 = a then d.desc.slot.toNat else h
    | none => h

-- Flags ---------------------------------------------------------------------------------------------------------------

/-- R65: sticky flags set. -/
def ArithStatus.or (a b : ArithStatus) : ArithStatus :=
  { nan := a.nan || b.nan, inf := a.inf || b.inf, sat := a.sat || b.sat, wuf := a.wuf || b.wuf, miss := a.miss || b.miss,
    nonfinite := a.nonfinite || b.nonfinite }

/-- What a conversion's flags set in CORE.ARITH_STATUS (Table 02.5). -/
def ConvFlags.arith (f : ConvFlags) : ArithStatus :=
  { nan := f.nan, inf := f.inf, sat := f.sat, miss := f.miss, nonfinite := f.nonfinite }

/-- R65, R66: flags of core `c` set; NAN_SEEN rising from 0 to 1 sends one notice, an event record. -/
def State.setArith (s : State) (c : Nat) (f : ArithStatus) : State :=
  let k := s.core c
  let s1 := s.setCore c { k with arith := k.arith.or f }
  if f.nan && !k.arith.nan then s1.logError (s.coreReport c 0x0201 0 0 0) else s1

-- Report counting -----------------------------------------------------------------------------------------------------

/-- RPT.STATUS bits [9:1], ORed into OFF_REPORT (Table 05.12). -/
def RptStatus.off (r : RptStatus) : Bool :=
  r.error || r.queueSpill || r.accSpill || r.streamFault || r.late || r.snapshot || r.resend || r.clock || r.debug

/-- RPT.STATUS[11:0]. -/
def RptStatus.bits (r : RptStatus) : BitVec 12 :=
  BitVec.ofNat 12 (bitOf r.off + 2 * bitOf r.error + 4 * bitOf r.queueSpill + 8 * bitOf r.accSpill +
    16 * bitOf r.streamFault + 32 * bitOf r.late + 64 * bitOf r.snapshot + 128 * bitOf r.resend + 256 * bitOf r.clock +
    512 * bitOf r.debug + 1024 * bitOf r.unpredicted + 2048 * bitOf r.unverified)

/-- R146: a counter log record enters the ring, or is discarded where the ring is full of unread records. -/
def Core.writeLog (k : Core) (e : LogRec) : Core :=
  let r := k.report
  if !r.logEn then k
  else
    let size := 2 ^ (8 + r.logSize.toNat)
    if (r.logWr - r.logRd).toNat ≥ size then
      { k with report := { r with logDropped := r.logDropped + 1, status := { r.status with unverified := true } } }
    else { k with report := { r with logWr := r.logWr + 1, logOut := r.logOut ++ [(r.logWr.toNat % size, e)] } }

/-- R145: the records that a core has written lie in the ring in its tower's DRAM, 32 bytes each from RPT.LOG_BASE. -/
def State.commitLog (s : State) (c : Nat) : State :=
  let r := (s.core c).report
  if r.logOut.isEmpty then s
  else
    s.accessBy (s.partOfCore c) (.port c) [] [] (r.logOut.map (fun x => (r.logBase.toNat + 32 * x.1, 32))) fun s =>
      r.logOut.foldl (fun a x => a.jobWrite (c / 16) (r.logBase.toNat + 32 * x.1) (bytesOf x.2.toNat 32))
        (s.modCore c (fun k => k.modReport (fun y => { y with logOut := [] })))

/-- An engine's counts (0 arrays, 1 drain port, 2 vector unit). -/
def Core.engine (k : Core) (e : Nat) : EngineCount := k.report.engines.get {} e
/-- The core with an engine's counts replaced. -/
def Core.setEngine (k : Core) (e : Nat) (x : EngineCount) : Core :=
  k.modReport (fun r => { r with engines := r.engines.set {} e x })

/-- R145: the record of an engine's closed counts. -/
def Core.engineRecord (k : Core) (e : Nat) (x : EngineCount) : LogRec :=
  { idle := x.idle, waitOut := x.waitOut, waitIn := x.waitIn, fire := x.fire, instances := x.instances,
    step := k.report.step.setWidth 32, operator := x.op.getD (BitVec.allOnes 24), engine := BitVec.ofNat 2 e,
    status := k.report.status.bits }

/-- R145: the head of an engine's list stands at a report operator; where it moves to another, the record of the one
before is written. -/
def Core.engineHead (k : Core) (e : Nat) (op : BitVec 24) : Core :=
  let x := k.engine e
  match x.op with
  | none => k.setEngine e { x with op := some op }
  | some o =>
    if o = op then k
    else (k.writeLog (k.engineRecord e x)).setEngine e { op := some op }

/-- R142, Table 05.9: cycles and instances charged to an engine's head, in its counts and in RPT.TOTAL. -/
def Core.charge (k : Core) (e fire waitIn waitOut idle inst : Nat) : Core :=
  let x := k.engine e
  let k1 := k.setEngine e { x with
    fire := satAdd x.fire fire, waitIn := satAdd x.waitIn waitIn, waitOut := satAdd x.waitOut waitOut,
    idle := satAdd x.idle idle, instances := satAdd x.instances inst }
  let add (m : FMap (BitVec 64)) (i n : Nat) : FMap (BitVec 64) := m.set 0 (4 * e + i) (m.get 0 (4 * e + i) + BitVec.ofNat 64 n)
  k1.modReport (fun r => { r with totals := add (add (add (add r.totals 0 fire) 1 waitIn) 2 waitOut) 3 idle })

/-- R145: where the head of the array list stands when the instances of a list have been latched: at the first that has passes left. One of
an empty contraction (04 R104) has none: the head passes it, and it is counted. Behind the last stands the next operator of the list. -/
def Core.headFrom : List Instance → Core → Core
  | [], k =>
    let k1 := k.modLists (fun l => { l with insts := [] })
    (match k.lists.ops with
     | o :: _ => k1.engineHead 0 o.reportOp
     | [] => k1)
  | i :: rest, k =>
    let k1 := k.engineHead 0 i.op.reportOp
    if i.passes.isEmpty then Core.headFrom rest (k1.charge 0 0 0 0 0 1) else k1.modLists (fun l => { l with insts := i :: rest })

/-- R145: the head of the array list moves on as far as it may. -/
def Core.arrayHead (k : Core) : Core := Core.headFrom k.lists.insts k

/-- R142, R145: the head of the drain list: its first entry, or, with none latched, the next operator that has drains. -/
def Core.drainHead (k : Core) : Core :=
  match k.lists.drains with
  | d :: _ => k.engineHead 1 d.op.reportOp
  | [] =>
    match k.lists.ops.find? (fun o => !o.drains.isEmpty) with
    | some o => k.engineHead 1 o.reportOp
    | none => k

/-- R145: the head of the vector list. -/
def Core.vecHead (k : Core) : Core :=
  match k.lists.vecs with
  | e :: _ => k.engineHead 2 e.reportOp
  | [] => k

/-- Table 03.4: whether a pass or a reload may open a slot: it is FREE, or OPEN or SPILLED with a tile of an instance that has been dropped
with its lists (log 96). -/
def Core.openable (k : Core) (j : Nat) : Bool :=
  match (k.slot j).state with
  | .free => true
  | .held => false
  | _ => decide ((k.slot j).tile.inst < k.lists.floor)

/-- R111: whether a spilled tile of another group or instance with this home slot waits for its drain, before which no later tile takes
the slot. -/
def Core.earlierWaits (k : Core) (home inst : Nat) (group : Nat × Nat) : Bool :=
  k.lists.drains.any (fun d => d.spilling && decide (d.home = home) && k.spilled.contains (d.array, d.tile) &&
    !(decide (d.tile.inst = inst) && decide (d.group = group)))

/-- Whether a core issues from its lists (R71, R90). A change of CORE.CTRL that waits for the pass boundary stops nothing (R73). -/
def Core.issues (k : Core) : Bool :=
  k.ctrl.enable && !k.ctrl.haltReq && !k.faultStop && !k.passFault && k.report.inStep

/-- Whether a core's drain port issues: with its lists, and after a faulted instance has stopped the pass list (04 R110), for the drains
of earlier instances, which alone are listed then. -/
def Core.issuesDrains (k : Core) : Bool :=
  k.issues || (k.passFault && !k.ctrl.haltReq && !k.faultStop && k.report.inStep)

/-- Whether a core's clock runs and it issues from its lists (R33, R73). -/
def State.coreIssues (s : State) (c : Nat) : Bool := (s.core c).issues && !s.coreStopped c

/-- R82: SRAM errors that were corrected in a core are counted. -/
def Core.countCe (k : Core) (n : BitVec 32) : Core := { k with sramCe := satAdd k.sramCe n.toNat }

/-- R128, R142: whether the bytes at a range of a store are there for an engine: each has been written since the reset, and where the
range touches the slots of an input queue, it lies within the slot of that queue's oldest tile, which is present. -/
def Core.rangeReady (k : Core) (i : StoreId) (off n : Nat) : Bool :=
  k.stores.present i off n && k.eps.all (fun x =>
    let q := x.2
    let lo := q.bufOff
    let size := 64 * q.slotUnits
    let hi := lo + size * q.depth.toNat
    decide (q.dir ≠ 1) || decide (q.store.toNat ≠ i.code) || decide (hi ≤ off) || decide (off + n ≤ lo) ||
      (match k.present x.1 with
       | some t => decide (lo + size * t.slot ≤ off) && decide (off + n ≤ lo + size * (t.slot + 1))
       | none => false))

/-- Bytes of an input context's region that one list entry reads as the last (06 R154). -/
abbrev Moves := List (Fin 6 × BitVec 16)

/-- Ranges without their first `n` bytes, and how many of these they do not hold. -/
def takeRanges : List (BitVec 2 × Nat × Nat) → Nat → List (BitVec 2 × Nat × Nat) × Nat
  | [], n => ([], n)
  | (st, off, len) :: t, n => if n < len then ((st, off + n, len - n) :: t, 0) else takeRanges t (n - len)

/-- R154: how many of the next bytes of a region, from a position on, lie in ranges that have been written. -/
def Desc.runIn (d : Desc) (rs : List (BitVec 2 × Nat × Nat)) : Nat → Nat → Nat
  | 0, _ => 0
  | n + 1, pos =>
    let o := d.bufOffset + pos % d.bufSize
    if rs.any (fun r => decide (r.1 = d.store) && decide (r.2.1 ≤ o) && decide (o < r.2.1 + r.2.2)) then d.runIn rs n (pos + 1) + 1 else 0

/-- R154, R173: the source bytes of an output descriptor, in the order of its region: those that follow the ones taken before and have been
written. -/
def Ctx.advance (x : Ctx) : Ctx :=
  if x.desc.kind.isOut && decide (x.active ≠ 0) && decide (0 < x.desc.bufSize) then
    let n := x.desc.runIn x.wrote (min (x.wrote.map (fun r => r.2.2)).sum (x.deliverPos + x.desc.bufSize - x.moved)) x.moved
    { x with moved := x.moved + n, wrote := cutRanges x.wrote (x.desc.ranges x.moved n) }
  else x

/-- R154: what a core's units have written in its stores, as an output context takes it. -/
def Ctx.sourced (x : Ctx) (rs : List (BitVec 2 × Nat × Nat)) : Ctx := { x with wrote := rs ++ cutRanges x.wrote rs }.advance

/-- R154: what has been written and no output descriptor has sent: for the next one. -/
def Ctx.unsent (x : Ctx) : List (BitVec 2 × Nat × Nat) :=
  x.wrote ++ (if x.desc.kind.isOut then x.desc.ranges x.emitPos (x.moved - x.emitPos) else [])

/-- R154, Table 06.1: what has been written in a core's stores reaches its two output contexts, S4 and S5. -/
def State.noteWritten (s : State) (c : Nat) (rs : List (BitVec 2 × Nat × Nat)) : State :=
  [4, 5].foldl (fun a i => a.modCtx (6 * c + i) (fun x => x.sourced rs)) s

/-- R154: bytes of an input context's region freed by a consumer, those of earlier descriptors first; no more than have been delivered. -/
def Ctx.take (x : Ctx) (n : Nat) : Ctx :=
  let (l, left) := takeRanges x.olds n
  { x with olds := l, moved := if x.desc.kind.isIn then min (x.moved + left) (max x.moved x.deliverPos) else x.moved }

/-- R72, R118: whether nothing in a place of a core store is still to be read by a pass, a list entry or a stream, as the regions of the
core's contexts and its queues show it, and no drain in flight has reserved it. Which entry is the last to read a byte outside them the
image's lists do not say (DESIGN CHOICE, log 106). -/
def State.placeFree (s : State) (c : Nat) (i : StoreId) (off n : Nat) : Bool :=
  let a : BitVec 2 × Nat × Nat := (BitVec.ofNat 2 i.code, off, n)
  (List.range 6).all (fun j => (s.ctx (6 * c + j)).toRead.all (apart a)) &&
    (s.core c).eps.all (fun x =>
      decide (x.2.dir ≠ 1) || x.2.tiles.all (fun t => apart a (x.2.store, x.2.bufOff + 64 * x.2.slotUnits * t.slot, 64 * x.2.slotUnits))) &&
    (match (s.core c).drain.bind (fun r => r.place) with | some b => apart a b | none => true)

/-- R154: the ranges that `n` freed bytes of an input context's region are: those of earlier descriptors first. -/
def Ctx.freed (x : Ctx) (n : Nat) : List (BitVec 2 × Nat × Nat) :=
  let olds := x.olds.foldl (fun (a : List (BitVec 2 × Nat × Nat) × Nat) r =>
    let m := min r.2.2 a.2
    (if m = 0 then a.1 else a.1 ++ [(r.1, r.2.1, m)], a.2 - m)) ([], n)
  olds.1 ++ (if x.desc.kind.isIn then x.desc.ranges x.moved (min olds.2 (x.deliverPos - x.moved)) else [])

/-- R71, R154: bytes of a region that their last reader has freed are present no more. -/
def Core.dropRanges (k : Core) (l : List (BitVec 2 × Nat × Nat)) : Core :=
  { k with stores := l.foldl (fun q r => q.drop (StoreId.ofCode r.1.toNat) r.2.1 r.2.2) k.stores }

/-- R154: region bytes of a core's input contexts freed. -/
def State.moveRegions (s : State) (c : Nat) (m : Moves) : State :=
  m.foldl (fun a x =>
    let y := a.ctx (6 * c + x.1.val)
    (a.setCtx (6 * c + x.1.val) (y.take x.2.toNat)).modCore c (fun k => k.dropRanges (y.freed x.2.toNat))) s

end Sys2Proof.Machine
end

