-- ==== Sys2Proof/Machine/StreamOps.lean ====
section
/-! DEFINITION. Shared operations of the stream contexts (06): descriptors, the issue of requests, their completion,
halts and save areas. -/

namespace Sys2Proof.Machine

/-- A field of a little-endian byte string read as one number. -/
def fieldOf (h lo n : Nat) : Nat := bitsAt h lo n

/-- R160, Table 06.5: the descriptor in 192 bytes. -/
def parseDesc (bs : List Byte) : Desc :=
  let h := ofBytes (bs.drop 128)
  { words := (List.range 16).map (fun i => BitVec.ofNat 32 (ofBytes ((bs.drop (4 * i)).take 4)))
    areg := (List.range 8).map (fun i => BitVec.ofNat 64 (ofBytes ((bs.drop (64 + 8 * i)).take 8)))
    saveArea := BitVec.ofNat 48 (fieldOf h 464 48)
    bufOffset := fieldOf h 432 32
    bufSize := fieldOf h 400 32
    teeOffset := fieldOf h 368 32
    relBase := fieldOf h 336 32
    relPeriod := fieldOf h 304 32
    operator := BitVec.ofNat 24 (fieldOf h 280 24)
    timeout := BitVec.ofNat 8 (fieldOf h 272 8)
    mergeHold := fieldOf h 267 5
    plLead := h.testBit 266
    tee := h.testBit 265
    release := h.testBit 264
    store := BitVec.ofNat 2 (fieldOf h 262 2)
    kind := match fieldOf h 258 4 with | 0 => .inLoad | 1 => .outStore | 2 => .ringRecv | _ => .copy }

/-- 07 R180: the data-order index of the first micro-batch of a step, S × MB_COUNT: of its core's step for a core context, else of the
next step of the partition. -/
def State.dataIndex (s : State) (k : Nat) : Nat :=
  let j := (s.part (s.ctxPart k)).job
  match ctxCore k with
  | some c => (s.core c).report.step.toNat * j.body.mbCount
  | none => j.cursor.toNat

/-- A logical tower on the quadrants of a partition (05 R120). -/
def physTowerOf (quads : List Nat) (t : Nat) : Nat := physTower (quads.getD (t / 8) 0) (t / 4 % 2) (t % 4)

/-- A physical context on a partition's quadrants. -/
def physCtx (quads : List Nat) (c : Nat) : Nat :=
  if c < 3072 then 6 * physCore quads (c / 6) + c % 6 else 4096 + 16 * physTowerOf quads ((c - 4096) / 16) + (c - 4096) % 16

/-- 07 R180: the address registers of a descriptor as arming loads them: a stream that reads training data gets its first micro-batch's
address from the data-order index (log 94). -/
def State.dataRegs (s : State) (k : Nat) (addr : BitVec 64) (areg : List (BitVec 64)) : List (BitVec 64) :=
  let j := (s.part (s.ctxPart k)).job
  let base := 2 ^ 21 * j.body.imagePage.toNat + j.latched.imageMpa.toNat % 2 ^ 21
  match j.body'.streams.find? (fun x => decide (physCtx j.quads x.ctx = k) && decide (base + x.off = addr.toNat % 2 ^ 48)) with
  | some x =>
    match x.data with
    | some (r, n) => listSet areg r.val (areg.getD r.val 0 + BitVec.ofNat 64 (s.dataIndex k * n))
    | none => areg
  | none => areg

/-- The unit and context number that a stream record names (15 Table 15.3): a core, or a bulk mover. -/
def ctxUnit (k : Nat) : Nat × Nat × Nat :=
  if k < 3072 then (1, k / 6, k % 6) else (5, (k - 4096) / 4, (k - 4096) % 4)

/-- Table 06.11: whether a fault can be resumed. -/
def resumable (code : Nat) : Bool := decide (code ≠ 0x0602) && decide (code ≠ 0x0606) && decide (code ≠ 0x0607)

/-- R167, R170: a read of a context's own descriptor or save area faults: the context, whose state cannot be saved, is HALTED for good,
and the fault acts by its class (log 17). -/
def State.deadCtx (s : State) (k code addr : Nat) : State :=
  let s1 := s.modCtx k (fun x => { x with
    state := .halted, faultCode := BitVec.ofNat 16 code, faultAddr := BitVec.ofNat 64 addr, lastResult := 3, saveTrusted := false,
    issued := [], merge := none })
  let s2 := match ctxCore k with
    | some c => s1.modCore c (fun q => q.rptSet (fun r => { r with streamFault := true }))
    | none => s1
  let u := ctxUnit k
  let r : Report1 := { code := code, kind := u.1, unit := u.2.1, detail := u.2.2, info := addr, part := some (s.ctxPart k) }
  if code = 0x0607 then s2.hwError r (s.inPlan (s.ctxPart k) (addr / 2 ^ 21) || s.ownerPage (s.ctxPart k) (addr / 2 ^ 21)) else s2.programFault r

/-- R155, R164: the descriptor at an address becomes active: A0 to A7 loaded, everything else zero. Bytes of the descriptor before that
nothing has read keep their places, and bytes that producers have written ahead of an output descriptor are there for it (R154). -/
def State.activateNow (s : State) (k : Nat) (addr : BitVec 64) : State :=
  let d := parseDesc (s.jobBytes (ctxTower k) (addr.toNat % 2 ^ 48) 192)
  s.modCtx k (fun x => { x with
    active := addr, desc := d, gen := { areg := s.dataRegs k addr d.areg }, state := .running, merge := none, issued := [], emitPos := 0,
    deliverPos := 0, moved := 0, olds := x.olds ++ x.unread, stepIndex := 0, wrote := x.unsent
    settled := false, covers := [], placed := [] } |>.advance)

/-- R28, R167: what a context's read of its descriptor meets. -/
def State.descFault (s : State) (k : Nat) (addr : BitVec 64) : Option (Nat × Nat) :=
  let a := addr.toNat % 2 ^ 48
  match s.readFault (s.ctxPart k) a 192 with
  | some e => some e
  | none => if s.rangesRefused (s.ctxPart k) (ctxTower k) [(a, 192)] then some (0x0603, a) else none

/-- R164, R167: a context activates the descriptor at an address; a read of it that faults leaves the context HALTED for good (log 17). -/
def State.activate (s : State) (k : Nat) (addr : BitVec 64) : State :=
  match s.descFault k addr with
  | some e => s.deadCtx k e.1 e.2
  | none => s.activateNow k addr

/-- Whether a context executes instructions: active, running, or draining under a disable request (R166). -/
def Ctx.runs (x : Ctx) : Bool :=
  decide (x.active ≠ 0) && !x.gen.ended &&
    (decide (x.state = .running) || decide (x.state = .serialWait) || (decide (x.state = .disabling) && !x.abandoned))

/-- The word at the program counter. -/
def Ctx.word (x : Ctx) : Nat := (x.desc.words.getD x.gen.pc 0).toNat

/-- Whether the context runs and its next word has the opcode. -/
def Ctx.at (x : Ctx) (opcode : Nat) : Bool := x.runs && decide (x.gen.pc < 16) && decide (x.word / 2 ^ 28 = opcode)

/-- R158: the generator at word `pc`; past word I15 the program ends. -/
def Gen.goto (g : Gen) (pc : Nat) : Gen := if pc < 16 then { g with pc := pc } else { g with pc := 16, ended := true }

/-- A dimension counter: index and limit. -/
def Gen.dim (g : Gen) (d : Nat) : BitVec 32 × BitVec 32 := g.dims.getD d (0, 0)
/-- An address register. -/
def Gen.reg (g : Gen) (a : Nat) : BitVec 64 := g.areg.getD a 0
/-- The generator with an address register set. -/
def Gen.setReg (g : Gen) (a : Nat) (v : BitVec 64) : Gen := { g with areg := listSet g.areg a v }

/-- R166, R164: a context whose program has ended and whose last request has retired: the descriptor completes; under a
drain the context becomes DISABLED. -/
def Ctx.complete (x : Ctx) : Ctx :=
  if x.gen.ended && x.issued.isEmpty && x.merge.isNone && decide (x.active ≠ 0) then
    match x.state with
    | .running | .serialWait => { x with active := 0, lastResult := 1, state := .idle }
    | .disabling =>
      if x.abandoned then x
      else { x with active := 0, lastResult := 1, state := .disabled, enable := false, disableReq := false }
    | _ => x
  else x

/-- R153, R261: the code a request's address faults with before any translation, by its space's reserved bits. -/
def addrBad (a len : Nat) : Bool :=
  match a / 2 ^ 60 with
  | 0 => decide (bitsAt a 48 12 ≠ 0)
  | 1 => decide (bitsAt a 48 12 ≠ 0) || decide (bitsAt a 43 5 ≠ 0)
  | 2 => decide (bitsAt a 48 8 ≠ 0)
  | 3 => decide (bitsAt a 57 3 ≠ 0) || decide (bitsAt a 23 22 ≠ 0) || decide (bitsAt a 45 3 > 1)
  | _ => decide (len = len)

/-- The far-tier table entry of a far page (R261, Table 09.9), read from partition memory at JCP.FAR_TABLE. -/
structure Ftt where
  dpaPage : Nat := 0
  present : Bool := false
  fill : Nat := 0
  window : Nat := 0
  write : Bool := false
  dirty : Bool := false
  srcPage : Nat := 0
  deriving DecidableEq, Repr

/-- Table 09.9 from its 64 bits. -/
def Ftt.ofNat (n : Nat) : Ftt :=
  { dpaPage := bitsAt n 43 21, present := n.testBit 42, fill := bitsAt n 40 2, window := bitsAt n 36 4,
    write := n.testBit 35, dirty := n.testBit 34, srcPage := bitsAt n 7 27 }

/-- Table 09.9's 64 bits. -/
def Ftt.toNat (f : Ftt) : Nat :=
  f.dpaPage * 2 ^ 43 + bitOf f.present * 2 ^ 42 + f.fill % 4 * 2 ^ 40 + f.window % 16 * 2 ^ 36 + bitOf f.write * 2 ^ 35 +
    bitOf f.dirty * 2 ^ 34 + f.srcPage % 2 ^ 27 * 2 ^ 7

/-- The job address of the entry of a far page. -/
def State.fttAddr (s : State) (p port page : Nat) : Nat :=
  (s.part p).job.latched.farTable.toNat % 2 ^ 48 + 8 * (2 ^ 21 * port + page)

/-- The entry of a far page of a partition. -/
def State.ftt (s : State) (p port page : Nat) : Ftt :=
  Ftt.ofNat (ofBytes (s.jobBytes (s.someTower p) (s.fttAddr p port page) 8))

/-- The entry of a far page written; one in a COW_PENDING frame is held there (09 R247). -/
def State.setFtt (s : State) (p port page : Nat) (f : Ftt) : State :=
  s.jobPost p (s.fttAddr p port page) (bytesOf f.toNat 8)

/-- 09 R240, R245, R255: what a command of the module controller or of the hub meets as it reads and updates the table entry of a far
page. -/
def State.whenFtt (s : State) (p port page : Nat) (f : State → State) : State := s.whenWritable p [(s.fttAddr p port page, 8)] f

/-- A store window. -/
def State.window (s : State) (w : Nat) : StoreWindow := s.windows.get {} w
/-- The state with a store window replaced. -/
def State.setWindow (s : State) (w : Nat) (x : StoreWindow) : State := { s with windows := s.windows.set {} w x }

/-- R314: whether a window takes a request of `len` bytes at an offset from a partition. -/
def StoreWindow.takes (w : StoreWindow) (p off len : Nat) : Bool :=
  decide (w.state = .enabled) && decide (w.part.toNat = p) && decide (off + len ≤ 2 ^ 21 * w.size.toNat)

/-- R154: the bytes of a request that travel as its first part: those before a 2 MiB page boundary, in space 0, 1 or 2. -/
def partCut (a len : Nat) : Nat := if a / 2 ^ 60 < 3 then min len ((a / 2 ^ 21 + 1) * 2 ^ 21 - a) else len

/-- The parts of a request: the address and length of each. -/
def partsOf (a len : Nat) : List (Nat × Nat) :=
  let cut := partCut a len
  if cut < len then [(a, cut), (a + cut, len - cut)] else [(a, len)]

/-- What a request meets at its agent, at the injecting router or as the hub accepts it, with the first faulting byte: reserved bits
(R153), a COPY in space 3 (R175, log 94), translation (R240), closed gates (R28), the store window (R314). -/
def State.issueFault (s : State) (k : Nat) (a len : Nat) (copy : Bool) : Option (Nat × Nat) :=
  let t := ctxTower k
  if addrBad a len || (copy && decide (a / 2 ^ 60 = 3)) then some (0x0602, a)
  else
    (partsOf a len).findSome? (fun b =>
      match b.1 / 2 ^ 60 with
      | 0 =>
        match s.translate t b.1 with
        | none => some (0x0602, b.1)
        | some pl => if s.gateRefuses t pl.tower then some (0x0603, b.1) else none
      | 2 => if (s.window (bitsAt b.1 56 4)).takes (s.ctxPart k) (bitsAt a 0 48) len then none else some (0x0605, b.1)
      | 3 => if s.gateRefuses t (physCore (s.part (s.ctxPart k)).job.quads (bitsAt a 48 9) / 16) then some (0x0603, a) else none
      | _ => none)

/-- What a part of a request in space 1 meets at the hub: the far-tier table (R261, R262). -/
def State.farFault (s : State) (p a : Nat) (write : Bool) : Option Nat :=
  match farDecode (a % 2 ^ 60) with
  | none => some 0x0602
  | some (port, page, _) =>
    match s.readFault p (s.fttAddr p port page) 8 with
    | some e => some e.1
    | none =>
    let f := s.ftt p port page
    if !f.present then some 0x0601 else if write && !f.write then some 0x0602 else none

/-- R167: the first fault response stops a context. A context that drains is abandoned instead (15 R421). -/
def State.haltCtx (s : State) (k : Nat) (code addr : Nat) : State :=
  let x := s.ctx k
  let s1 := match ctxCore k with
    | some c => s.modCore c (fun q => q.rptSet (fun r => { r with streamFault := true }))
    | none => s
  match x.state with
  | .running | .serialWait =>
    s1.setCtx k { x with state := .halting, faultCode := BitVec.ofNat 16 code, faultAddr := BitVec.ofNat 64 addr,
                         merge := none, settled := false }
  | .disabling => s1.setCtx k x.abandon
  | _ => s

/-- R174: the positions of the halves of a region that a request of a RING_RECV lies in: where they begin, and how many bytes they are. -/
def Ctx.halvesOf (x : Ctx) (r : StrReq) : Nat × Nat :=
  let h := max 1 (x.desc.bufSize / 2)
  let a := r.pos / h
  let b := (r.pos + r.len - 1) / h
  (a * h, (b + 1 - a) * h)

/-- R154, R174: whether the region lets a request of a context issue: free space for an input, bytes written for an output, and for a
RING_RECV the whole of the halves free that it extends credit for. -/
def Ctx.regionReady (x : Ctx) (r : StrReq) : Bool :=
  match x.desc.kind with
  | .copy => true
  | .outStore => decide (r.pos + r.len ≤ x.moved)
  | .ringRecv =>
    let (p, n) := x.halvesOf r
    decide (p + n ≤ x.moved + x.desc.bufSize) && (x.desc.ranges p n).all (fun a => x.olds.all (apart a))
  | .inLoad => decide (r.pos + r.len ≤ x.moved + x.desc.bufSize) && (x.desc.ranges r.pos r.len).all (fun a => x.olds.all (apart a))

/-- R174: whether the tee slots into which a RING_RECV's request would be copied have been sent: no output context of the core has bytes of
them to read. -/
def State.teeFree (s : State) (k : Nat) (r : StrReq) : Bool :=
  let x := s.ctx k
  match ctxCore k, x.desc.kind with
  | some c, .ringRecv =>
    let (p, n) := x.halvesOf r
    !x.desc.tee || (({ x.desc with store := 0, bufOffset := x.desc.teeOffset } : Desc).ranges p n).all (fun a =>
      (List.range 6).all (fun i => !(s.ctx (6 * c + i)).desc.kind.isOut || (s.ctx (6 * c + i)).toRead.all (apart a)))
  | _, _ => true

/-- R154, R174: whether a context may issue a request now: fewer than 32 outstanding, and its region and tee slots ready. -/
def State.mayIssue (s : State) (k : Nat) (r : StrReq) : Bool :=
  decide ((s.ctx k).issued.length < 32) && (s.ctx k).regionReady r && s.teeFree k r

/-- R169 step 4: whether a regenerated request lies within one that the save area gives as done. -/
def Ctx.covered (x : Ctx) (r : StrReq) : Bool :=
  x.covers.any (fun c => c.done && decide (c.start ≤ r.pos) && decide (r.pos + r.len ≤ c.stop))

/-- R169 step 4: the bytes in place at a request's delivery positions. -/
def Ctx.inPlace (x : Ctx) (r : StrReq) : FMap (Option Byte) :=
  (List.range r.len).filterMap (fun i => match x.placed.get none (r.pos + i) with | some b => some (i, some b) | none => none)

/-- A request of a context issues (R154): it joins the outstanding ones. What it meets on its way comes back as a fault response
(R167). R161 numbers "the requests that the descriptor issues in that step", and does not say whether the reads of PLFETCH and BFETCH are among
them: they take no number (DESIGN CHOICE, log 94). Nor does it say what a request that issues again after a resume is: the remainder and the
regenerated requests take the next numbers of the step in which they issue again (DESIGN CHOICE, log 94). -/
def State.issueReq (s : State) (k : Nat) (r : StrReq) : State :=
  let x := s.ctx k
  if x.covered r then s.setCtx k { x with issued := x.issued ++ [{ r with already := true, data := x.inPlace r }] }
  else
    let copy := x.desc.kind.isCopy
    let f := match s.issueFault k r.addr.toNat r.len (copy && !r.serial) with
      | some e => some (e, false)
      | none => if copy && !r.serial then (s.issueFault k r.dst.toNat r.len true).map (fun e => (e, true)) else none
    let r1 : StrReq := { r with index := x.stepIndex
                                refused := f.map (fun e => (BitVec.ofNat 16 e.1.1, BitVec.ofNat 64 e.1.2, e.2)) }
    s.setCtx k { x with issued := x.issued ++ [r1], stepIndex := if r.serial then x.stepIndex else x.stepIndex + 1 }

/-- R162: the merge buffer issues as one request, where its context may issue. -/
def State.flushMerge (s : State) (k : Nat) : State :=
  let x := s.ctx k
  match x.merge with
  | none => s
  | some m =>
    if s.mayIssue k m then (s.setCtx k { x with merge := none }).issueReq k m else s

/-- Bytes written into a context's circular region from a delivery position (R154), and into its tee (R173). -/
def Core.deliver (q : Core) (d : Desc) (pos : Nat) (bs : List Byte) : Core :=
  let put (st : StoreId) (base : Nat) (q : Core) : Core :=
    (List.range bs.length).foldl (fun a i =>
      a.writeStore st (base + (pos + i) % (if d.bufSize = 0 then 1 else d.bufSize)) [bs.getD i 0]) q
  let q1 := put (StoreId.ofCode d.store.toNat) d.bufOffset q
  if d.tee then put .input d.teeOffset q1 else q1

/-- The data of a request as bytes; a byte that has not arrived reads 0. -/
def StrReq.bytes (r : StrReq) : List Byte := (List.range r.len).map (fun i => (r.data.get none i).getD 0)

/-- R154: the bytes of an output request's region, from its delivery position. -/
def Core.regionBytes (q : Core) (c : Nat) (d : Desc) (pos n : Nat) : List Byte :=
  (List.range n).map (fun i =>
    q.stores.byte c (StoreId.ofCode d.store.toNat) (d.bufOffset + (pos + i) % (if d.bufSize = 0 then 1 else d.bufSize)))

/-- R174: bytes of a ring member's send or incoming chunk have retired. -/
def Core.ringCount (q : Core) (kind : StrKind) (r : StrReq) : Core :=
  match kind with
  | .ringRecv => { q with ring := { q.ring with got := q.ring.got + r.len } }
  | .outStore => if r.addr.toNat / 2 ^ 60 = 3 then { q with ring := { q.ring with sent := q.ring.sent + r.len } } else q
  | _ => q

/-- The ranges of the stores that delivered bytes take: the region's, and the tee copy's (R154, R173). -/
def Desc.written (d : Desc) (pos n : Nat) : List (BitVec 2 × Nat × Nat) :=
  d.ranges pos n ++ (if d.tee then ({ d with store := 0, bufOffset := d.teeOffset } : Desc).ranges pos n else [])

/-- R154, R173: bytes reach a core's stores by one of its contexts: the region, the tee copy, and the output regions they lie in. -/
def State.deliverTo (s : State) (c : Nat) (d : Desc) (pos : Nat) (bs : List Byte) : State :=
  (s.modCore c (fun q => q.deliver d pos bs)).noteWritten c (d.written pos bs.length)

/-- One request retires: an input's bytes enter the region, the delivery position moves on (R154). -/
def State.retireOne (s : State) (k : Nat) (r : StrReq) (rest : List StrReq) : State :=
  let x := s.ctx k
  let s1 := s.setCtx k ({ x with issued := rest, deliverPos := r.pos + r.len } : Ctx).advance
  match ctxCore k with
  | some c =>
    (if x.desc.kind.isIn then s1.deliverTo c x.desc r.pos r.bytes else s1).modCore c (fun q => q.ringCount x.desc.kind r)
  | none => s1

-- Responses -------------------------------------------------------------------------------------------------------------

/-- The address of a request's source, or of the destination of a COPY. -/
def StrReq.side (r : StrReq) (dst : Bool) : Nat := if dst then r.dst.toNat else r.addr.toNat

/-- R154, R175: whether a context's requests read, and whether they write. -/
def Ctx.sends (x : Ctx) (r : StrReq) (write : Bool) : Bool :=
  if r.serial then !write
  else match x.desc.kind with
    | .inLoad => !write
    | .outStore => write
    | .copy => true
    | .ringRecv => false

/-- Whether a side of a context's requests is their destination. -/
def Ctx.onDst (x : Ctx) (r : StrReq) (write : Bool) : Bool := write && x.desc.kind.isCopy && !r.serial

/-- Whether the part that holds an offset is refused or has faulted. -/
def StrReq.dead (r : StrReq) (dst : Bool) (off : Nat) : Bool :=
  let a := r.side dst
  let cut := partCut a r.len
  let hit (d : Bool) (adr : Nat) : Bool := (d == dst) && (decide (off < cut) == decide (adr < a + cut))
  (match r.refused with | some e => hit e.2.2 e.2.1.toNat | none => false) ||
    (r.fault.isSome && hit r.faultDst r.faultAddr.toNat)

/-- The outstanding request of a context at a delivery position. -/
def Ctx.reqAt (x : Ctx) (pos : Nat) : Option (Nat × StrReq) :=
  match x.issued.findIdx? (fun r => decide (r.pos = pos) && !r.already) with
  | none => none
  | some i => match x.issued[i]? with | some r => some (i, r) | none => none

/-- A request of a context marked as faulted, and the context halted (R167). -/
def State.faultReq (s : State) (k i code addr : Nat) (dst : Bool := false) : State :=
  let x := s.ctx k
  match x.issued[i]? with
  | none => s
  | some r =>
    if r.fault.isSome || r.completed x.desc.kind then s
    else
      let r1 : StrReq := { r with fault := some (BitVec.ofNat 16 code), faultAddr := BitVec.ofNat 64 addr, faultDst := dst,
                                  refused := none }
      (s.setCtx k { x with issued := listSet x.issued i r1 }).haltCtx k code addr

/-- R178, R167: the first byte of a request that has had no response in time: that of its first part that is not complete. -/
def StrReq.lateSide (r : StrReq) (kind : StrKind) : Nat × Bool :=
  let cut := partCut r.addr.toNat r.len
  let read := (List.range cut).all (fun i => (r.data.get none i).isSome)
  match kind with
  | .inLoad => (r.addr.toNat + (if read && decide (cut < r.len) then cut else 0), false)
  | .outStore =>
    let acks := decide (((r.acked.filter (fun a => decide (a.1 < cut))).map Prod.snd).sum = cut)
    (r.addr.toNat + (if acks && decide (cut < r.len) then cut else 0), false)
  | .ringRecv => (r.addr.toNat, false)
  | .copy =>
    if r.data.length = r.len then
      let dcut := partCut r.dst.toNat r.len
      let acks := decide (((r.acked.filter (fun a => decide (a.1 < dcut))).map Prod.snd).sum = dcut)
      (r.dst.toNat + (if acks && decide (dcut < r.len) then dcut else 0), true)
    else (r.addr.toNat + (if read && decide (cut < r.len) then cut else 0), false)

/-- R178: a request of a context has had no response in time: TIMEOUT. -/
def State.timeoutReq (s : State) (k i : Nat) : State :=
  let x := s.ctx k
  match x.issued[i]? with
  | some r => let e := r.lateSide x.desc.kind; s.faultReq k i 0x0604 e.1 e.2
  | none => s

/-- A response reaches the request of a context. -/
def State.takeAnswer (s : State) (k : Nat) (p : Response) : State :=
  let x := s.ctx k
  match x.reqAt p.pos with
  | none => s
  | some (i, r) =>
    match p.answer with
    | .data bs =>
      let d := (List.range bs.length).foldl (fun m n => FMap.set none m (p.off + n) (some (bs.getD n 0))) r.data
      s.setCtx k ({ x with issued := listSet x.issued i { r with data := d } } : Ctx).settleDisable
    | .ack n =>
      if r.acked.any (fun e => decide (e.1 = p.off)) then s
      else s.setCtx k ({ x with issued := listSet x.issued i { r with acked := r.acked ++ [(p.off, n)] } } : Ctx).settleDisable
    | .refused code addr dst => s.faultReq k i code.toNat addr.toNat dst

/-- A response to a context: while the clock of its island is stopped it waits at the crossing (R35, R172). -/
def State.respond (s : State) (k : Nat) (p : Response) : State :=
  if s.ctxStopped k then s.modCtx k (fun x => { x with waiting := x.waiting ++ [p] }) else s.takeAnswer k p

/-- Responses that have waited at the crossing reach a context whose clock runs again (R35). -/
def State.wake (s : State) (k : Nat) : State :=
  let w := (s.ctx k).waiting
  if s.ctxStopped k || w.isEmpty then s
  else w.foldl (fun a p => a.takeAnswer k p) (s.modCtx k (fun x => { x with waiting := [] }))

-- Save areas ------------------------------------------------------------------------------------------------------------

/-- R167, R168: how many bytes of a faulted request are delivered: its first part, where the fault lies in the second
and the first is complete. -/
def StrReq.delivered (r : StrReq) (kind : StrKind) : Nat :=
  let a := r.side r.faultDst
  let cut := partCut a r.len
  if r.faultAddr.toNat < a + cut || r.len ≤ cut then 0
  else
    let reads := (List.range cut).all (fun i => (r.data.get none i).isSome)
    let acks := decide (((r.acked.filter (fun a => decide (a.1 < cut))).map Prod.snd).sum = cut)
    match kind with
    | .inLoad => if reads then cut else 0
    | .ringRecv => if reads then cut else 0
    | .outStore => if acks then cut else 0
    | .copy => if reads && acks then cut else 0

/-- The bits of a save area (Table 06.13). -/
structure SaveArea where
  desc : Nat
  shadow : Nat
  faultAddr : Nat
  mergeAddr : Nat
  pc : Nat
  mergeValid : Bool
  plLast : Bool
  plValid : Bool
  pastEnd : Bool
  mergeLen : Nat
  faultCode : Nat
  doneMask : Nat
  deliverPos : Nat
  len : Nat
  plen : Nat
  step : Nat
  areg : List Nat
  dims : List (Nat × Nat)
  issuedLen : List Nat
  deriving DecidableEq, Repr

/-- Table 06.13: the 2,048 bits of a save area. -/
def SaveArea.toNat (v : SaveArea) : Nat :=
  v.desc % 2 ^ 64 + v.shadow % 2 ^ 64 * 2 ^ 64 + v.faultAddr % 2 ^ 64 * 2 ^ 128 + v.mergeAddr % 2 ^ 64 * 2 ^ 192 +
  v.pc % 16 * 2 ^ 256 + bitOf v.mergeValid * 2 ^ 260 + bitOf v.plLast * 2 ^ 261 + bitOf v.plValid * 2 ^ 262 +
  bitOf v.pastEnd * 2 ^ 263 + v.mergeLen % 2 ^ 13 * 2 ^ 264 + v.faultCode % 2 ^ 16 * 2 ^ 288 +
  v.doneMask % 2 ^ 31 * 2 ^ 320 + v.deliverPos % 2 ^ 32 * 2 ^ 352 + v.len % 2 ^ 32 * 2 ^ 384 + v.plen % 2 ^ 32 * 2 ^ 416 +
  v.step % 2 ^ 64 * 2 ^ 448 + placeFields 512 64 v.areg +
  placeFields 1024 64 (v.dims.map (fun d => d.1 % 2 ^ 32 + d.2 % 2 ^ 32 * 2 ^ 32)) + placeFields 1408 13 v.issuedLen

/-- The fields of a save area. -/
def SaveArea.ofNat (n : Nat) : SaveArea :=
  { desc := bitsAt n 0 64, shadow := bitsAt n 64 64, faultAddr := bitsAt n 128 64, mergeAddr := bitsAt n 192 64,
    pc := bitsAt n 256 4, mergeValid := n.testBit 260, plLast := n.testBit 261, plValid := n.testBit 262,
    pastEnd := n.testBit 263, mergeLen := bitsAt n 264 13, faultCode := bitsAt n 288 16, doneMask := bitsAt n 320 31,
    deliverPos := bitsAt n 352 32, len := bitsAt n 384 32, plen := bitsAt n 416 32, step := bitsAt n 448 64,
    areg := (List.range 8).map (fun i => bitsAt n (512 + 64 * i) 64),
    dims := (List.range 6).map (fun i => (bitsAt n (1024 + 64 * i) 32, bitsAt n (1056 + 64 * i) 32)),
    issuedLen := (List.range 31).map (fun i => bitsAt n (1408 + 13 * i) 13) }

/-- SAVE.DONE_MASK of the requests after the faulted one. -/
def doneMaskOf (kind : StrKind) : List StrReq → Nat
  | [] => 0
  | r :: t => bitOf (r.completed kind && r.fault.isNone) + 2 * doneMaskOf kind t

/-- R168: the save area of a settled context, whose oldest request (if any) is the faulted one. SAVE.FAULT_ADDR and SAVE.FAULT_CODE are
those of the fault response that halted the context, which may be one of a later request (log 94). -/
def Ctx.saveArea (x : Ctx) (step : Nat) : SaveArea :=
  let base (g : Gen) : SaveArea :=
    { desc := x.active.toNat, shadow := x.shadow.toNat, faultAddr := x.faultAddr.toNat, mergeAddr := 0, pc := g.pc,
      mergeValid := false, plLast := g.plLast, plValid := g.plValid, pastEnd := false, mergeLen := 0,
      faultCode := x.faultCode.toNat, doneMask := 0,
      deliverPos := x.deliverPos % (if x.desc.bufSize = 0 then 2 ^ 32 else x.desc.bufSize),
      len := g.len.toNat, plen := g.plen.toNat, step := step, areg := g.areg.map BitVec.toNat,
      dims := g.dims.map (fun d => (d.1.toNat, d.2.toNat)), issuedLen := [] }
  match x.issued with
  | [] => base x.gen
  | r :: rest =>
    if r.serial then base x.gen else
    let d := r.delivered x.desc.kind
    { base r.after with
      pc := if r.after.pc < 16 then r.after.pc else 0
      pastEnd := decide (16 ≤ r.after.pc)
      mergeValid := true
      mergeAddr := r.addr.toNat + d
      mergeLen := r.len - d
      doneMask := doneMaskOf x.desc.kind rest
      issuedLen := rest.map StrReq.len }

/-- Covers from SAVE.ISSUED_LEN and SAVE.DONE_MASK, from a delivery position on (R168). -/
def coversOf (pos mask : Nat) : List Nat → List Cover
  | [] => []
  | l :: t => { start := pos, stop := pos + l, done := decide (mask % 2 = 1) } :: coversOf (pos + l) (mask / 2) t

/-- Whether an address lies in host window `w` (R153). -/
def inWindow (a : BitVec 64) (w : Nat) : Bool := decide (a.toNat / 2 ^ 60 = 2) && decide (bitsAt a.toNat 56 4 = w)

/-- Whether the host still owes a request of a context what it asks of window `w` (R314): bytes to read, or the acknowledgement of a
write. -/
def StrReq.waitsWindow (r : StrReq) (kind : StrKind) (w : Nat) : Bool :=
  let acked := decide ((r.acked.map Prod.snd).sum = r.len)
  let read := decide (r.data.length = r.len)
  !r.already && r.fault.isNone && r.refused.isNone &&
    (match kind with
     | .copy => (inWindow r.addr w && !read) || (inWindow r.dst w && !acked)
     | .outStore => inWindow r.addr w && (if r.serial then !read else !acked)
     | _ => inWindow r.addr w && !read)

/-- R315: the requests of all contexts to window `w` that satisfy a test and are not completed. -/
def State.windowReqs (s : State) (w : Nat) (f : StrReq → Bool) : Nat :=
  (s.ctxs.map (fun x => (x.2.issued.filter (fun r => r.waitsWindow x.2.desc.kind w && f r)).length)).sum

/-- SW.INFLIGHT (Table 11.10): requests to window `w` sent to the host and not completed. -/
def State.windowInflight (s : State) (w : Nat) : Nat := s.windowReqs w (fun r => r.sent)

/-- R315: a window in DISABLING that no accepted request waits for becomes DISABLED. -/
def State.settleWindows (s : State) : State :=
  (List.range 16).foldl (fun a w =>
    let x := a.window w
    if x.state = .disabling && a.windowReqs w (fun _ => true) = 0 then a.setWindow w { x with state := .disabled } else a) s

/-- R315: the hub has sent a request of a context to the host. -/
def State.hostSend (s : State) (k i : Nat) : State :=
  s.modCtx k (fun x => match x.issued[i]? with
    | some r => { x with issued := listSet x.issued i { r with sent := true } }
    | none => x)

end Sys2Proof.Machine
end

