-- ==== Sys2Proof/Machine/Tiling.lean ====
section
/-! DEFINITION. The commands of tiling: latching loop lengths, spilling and reloading slots (04 R103 to R115). -/

namespace Sys2Proof.Machine

/-- R103: the length of a loop as its source gives it; none where the source is not ready. What a bound-word read meets that faults the
spec does not say: the latch waits (DESIGN CHOICE, log 92). -/
def latchLen (s : State) (c : Nat) (k : Core) (l : LoopDesc) (e : Option PlEntry) : Option Nat :=
  match l.src.toNat with
  | 0 => some l.max.toNat
  | 1 => e.map (fun x => x.length.toNat)
  | 2 => if k.bndValid.getLsbD l.breg.toNat then some (k.bnd.get 0 l.breg.toNat).toNat else none
  | _ =>
    match s.jobRead (c / 16) l.wordAddr.toNat 4 with
    | .ok bs => if (s.poisonedIn (s.partOfCore c) [(l.wordAddr.toNat, 4)]).isEmpty then some (ofBytes bs) else none
    | .error _ => none

/-- R103: the valid bit of a loop's bound register cleared by the latch. -/
def clearBnd (v : BitVec 8) (l : LoopDesc) : BitVec 8 :=
  if l.src = 2 then v &&& ~~~(BitVec.ofNat 8 (2 ^ l.breg.toNat)) else v

/-- R105: whether an output tile lies at least partly within the lengths. -/
def tileWithin (i : Instance) (d : OpDrain) : Bool :=
  decide (d.mb < i.op.tiling.mBlocks i.lenM) && decide (d.nt < nTiles i.lenN) && i.covers d.array.toNat d.mb

/-- R112: the address of a tile's own spill position: 64 KiB times the position from TILE.SPILL_BASE. -/
def Instance.place (i : Instance) (a mb nt : Nat) : Nat :=
  i.op.tiling.spillBase.toNat * 2 ^ 16 + 65536 * spillPos i.op.tiling i.demand a (rankOf i.op.tiling i.lenM i.lenN mb nt)

/-- R129: whether a drain is marked as the last write of an endpoint in the step. -/
def OpDrain.marks (d : OpDrain) : Bool := d.desc.eos && decide (d.desc.destKind = 3)

/-- R129, R105: what stands in the drain list for a marked drain whose tile is never opened: it writes nothing and sends only the
marker. -/
def OpDrain.markerItem (d : OpDrain) (o : OpEntry) : DrainItem :=
  { op := o, array := d.array.toNat, tile := { inst := 0, mb := d.mb, nt := d.nt }, markerOnly := true, desc := d.desc }

/-- R129: the marker items of an operator whose entry does no work; only the last entry of a pointer list ends its endpoints' step
(DEDUCED, log 90). -/
def markerItems (o : OpEntry) (last : Bool) : List DrainItem :=
  if last then (o.drains.filter OpDrain.marks).map (fun d => d.markerItem o) else []

/-- R479: the drain-list entries of an instance: the operator's set, of which a tile that is never opened leaves at most its endpoint's
marker (R129). The set is repeated for each entry of a pointer list, and the marker goes with the last. -/
def drainItems (i : Instance) (last : Bool) : List DrainItem :=
  i.op.drains.filterMap (fun d =>
    if tileWithin i d then
      some { op := i.op, array := d.array.toNat, tile := { inst := i.serial, mb := d.mb, nt := d.nt },
             home := i.home d.array.toNat d.mb d.nt, emptyK := decide (i.lenK = 0), spilling := i.spilling,
             place := i.place d.array.toNat d.mb d.nt, group := groupOf i.op.tiling d.mb d.nt, outBase := i.outBase,
             desc := { d.desc with eos := d.desc.eos && last } : DrainItem }
    else if d.marks && last then some (d.markerItem i.op) else none)

/-- R103: whether the next operator, or the next entry of its pointer list, may be latched: ahead of the passes of earlier ones, so that the
anchor unit may compute ahead (R47), but for a bound word, which is fetched as an operand of the instance's first pass. -/
def CoreLists.mayLatch (l : CoreLists) (t : Tiling) : Bool :=
  l.insts.isEmpty || (decide (t.m.src ≠ 3) && decide (t.n.src ≠ 3) && decide (t.k.src ≠ 3))

/-- R100, R102, R104, R110: an instance that faults does so once the passes of the entries before it have all issued. -/
def CoreLists.headFree (l : CoreLists) : Bool := l.insts.isEmpty

/-- R103: whether the tokens that an operator's first pass waits on are present, where a bound word is fetched as an operand of it. -/
def Core.tokensReady (k : Core) (o : OpEntry) : Bool := o.waits.all (fun e => (k.present e.val).isSome)

/-- The lists after the head operator, or the head entry of its pointer list, has been latched. -/
def CoreLists.advance (l : CoreLists) (last : Bool) : CoreLists :=
  if last then { l with ops := l.ops.tail, plPending := none, plIndex := 0 }
  else { l with plPending := none, plIndex := l.plIndex + 1 }

/-- R151: whether the partition's report predicts the lengths of a core's step. -/
def State.predicted (s : State) (c : Nat) : Bool :=
  let j := (s.part (s.partOfCore c)).job
  let st := (s.core c).report.step
  j.report.any (fun r => decide (r.step = st) && decide (r.variant = j.variant) && r.predicted)

/-- Whether a drain of an operator's set goes to a queue endpoint, whose sequence base need not be aligned (Table 04.4). Where only some of
an operator's drains do, PL.OUTPUT_BASE is not checked for alignment either (DESIGN CHOICE, log 107). -/
def OpEntry.toQueue (o : OpEntry) : Bool := o.drains.any (fun d => d.desc.destKind = 3)

/-- R98: the axes of the loops whose length the pointer entry gives: at most one, in an image that keeps the rule. -/
def OpEntry.plAxes (o : OpEntry) : List (BitVec 2) :=
  (if o.tiling.m.src = 1 then [0] else []) ++ (if o.tiling.n.src = 1 then [1] else []) ++ (if o.tiling.k.src = 1 then [2] else [])

/-- R98, R100, R102: the program fault of entry number `i` of an operator's pointer list, if any. Where an entry breaks several of the
rules the spec does not say which fault it gives: an overrun comes first, then a misaligned base, then the axis (DESIGN CHOICE, log 107). -/
def plFault (o : OpEntry) (i : Nat) (e : PlEntry) : Option Nat :=
  if i + 1 = o.tiling.plMax.toNat && !e.last then some 0x0403
  else if !e.valid then none
  else if e.inputBase.toNat % 64 ≠ 0 || e.weightBase.toNat % 64 ≠ 0 ||
      (!o.toQueue && e.outputBase.toNat % 64 ≠ 0) then some 0x0405
  else if o.plAxes.all (fun ax => decide (ax = e.lenAxis)) then none else some 0x0406

/-- LOOP_LENGTH_LATCH (R98, R100, R102, R103, R104, R109, R110, R112): the sequencer latches the lengths of the next instance, checks them,
tests for overcommit, and lists its passes and drains. Of several lengths above LOOP.MAX the fault names the first of M, N and K, since the
spec gives no order (DESIGN CHOICE, log 107). -/
def loopLengthLatch (c : CoreId) (s : State) : State :=
  let k := s.core c.val
  if !s.coreIssues c.val then s
  else
    match k.lists.ops with
    | [] => s
    | o :: _ =>
      let t := o.tiling
      let hasList := decide (t.plMax ≠ 0)
      let word := decide (t.m.src = 3) || decide (t.n.src = 3) || decide (t.k.src = 3)
      let words := (if t.m.src = 3 then [(t.m.wordAddr.toNat, 4)] else []) ++ (if t.n.src = 3 then [(t.n.wordAddr.toNat, 4)] else []) ++
        (if t.k.src = 3 then [(t.k.wordAddr.toNat, 4)] else [])
      if !k.lists.mayLatch t || (hasList && k.lists.plPending.isNone) || (word && !k.tokensReady o) then s
      else if s.rangesRefused (s.partOfCore c.val) c.tower words then s.gateRefusal c.val
      else
        let e := k.lists.plPending
        let last := match e with | some x => x.last | none => true
        -- an entry that does no work: the heads move on, and the markers of its endpoints go out (R129)
        let idle (q : Core) : Core :=
          (q.modLists (fun l => { l.advance last with drains := l.drains ++ markerItems o last })).arrayHead.drainHead
        match e.bind (plFault o k.lists.plIndex) with
        | some code => if k.lists.headFree then s.instFault c.val code k.lists.plIndex o.reportOp.toNat else s
        | none =>
        if (match e with | some x => !x.valid | none => false) then s.setCore c.val (idle k)
        else
          match latchLen s c.val k t.m e, latchLen s c.val k t.n e, latchLen s c.val k t.k e with
          | some lm, some ln, some lk =>
            let bnd := clearBnd (clearBnd (clearBnd k.bndValid t.m) t.n) t.k
            let opn := o.reportOp.toNat
            let tooLong (l : LoopDesc) (n : Nat) : Bool := decide (l.src ≠ 0) && decide (l.max.toNat < n)
            let dyn := decide (t.m.src ≠ 0) || decide (t.n.src ≠ 0) || decide (t.k.src ≠ 0)
            let job := (s.part (s.partOfCore c.val)).job
            let k0 : Core := { k with bndValid := bnd }
            let k1 := if dyn && job.reportLoaded && !s.predicted c.val then k0.rptSet (fun r => { r with unpredicted := true }) else k0
            let s1 := s.setCore c.val k1
            let bad := tooLong t.m lm || tooLong t.n ln || tooLong t.k lk
            if bad && !k.lists.headFree then s
            else if tooLong t.m lm then s1.instFault c.val 0x0404 lm opn
            else if tooLong t.n ln then s1.instFault c.val 0x0404 ln opn
            else if tooLong t.k lk then s1.instFault c.val 0x0404 lk opn
            else if lm = 0 || ln = 0 then s.setCore c.val (idle k1)
            else
              let d := demandOf t (t.m.demandLen lm) (t.n.demandLen ln)
              let b := t.slotBudget.toNat
              let overcommit := decide (b < d)
              let need := spillPositions d b * t.arrays.length
              if overcommit && (!k.lists.overcommitSpill || decide (t.spillSlots.toNat < need)) && !k.lists.headFree then s
              else if overcommit && !k.lists.overcommitSpill then s1.instFault c.val 0x0401 d opn
              else if overcommit && decide (t.spillSlots.toNat < need) then s1.instFault c.val 0x0402 need opn
              else
                let i : Instance :=
                  { op := o, serial := k.lists.nextSerial, lenM := lm, lenN := ln, lenK := lk, demand := d,
                    spilling := overcommit, outBase := match e with | some x => x.outputBase.toNat | none => 0,
                    passes := passesFor o lm ln lk overcommit }
                s.setCore c.val (k1.modLists (fun l => { l.advance last with
                  insts := l.insts ++ [i], nextSerial := l.nextSerial + 1, drains := l.drains ++ drainItems i last })).arrayHead.drainHead
          | _, _, _ => s

/-- Whether passes that have been latched still name the item's tile (R72: the last pass of its tile has issued), or, in spill mode, any
tile of its live group: the drains of a group follow its last pass, so that the sequence of spills is fixed (R113, Table 04.6). -/
def Core.passesLeft (k : Core) (d : DrainItem) : Bool :=
  k.lists.insts.any (fun i =>
    decide (i.serial = d.tile.inst) &&
      i.passes.any (fun p => if d.spilling then decide (groupOf i.op.tiling p.mb p.n0 = d.group)
        else decide (p.mb = d.tile.mb) && decide (p.n0 ≤ d.tile.nt) && decide (d.tile.nt < p.n0 + p.cnt)))

/-- A tile that the core's next pass or next drain needs (R111): its array, its home slot, the address of its own spill position, its live
group, the product pair's input format, and whether its instance runs in spill mode. -/
structure Needed where
  array : Nat
  tile : TileRef
  home : Nat
  place : Nat
  group : Nat × Nat
  op : OpEntry
  spilling : Bool
  deriving DecidableEq, Repr

/-- R111: the tile of the core's next drain once no pass of its group is left, and then the tiles that the next pass names. -/
def Core.needed (k : Core) : List Needed :=
  let fromPass : List Needed := match k.lists.inst with
    | some i =>
      match i.passes with
      | p :: _ => (p.tiles i.op.tiling).filterMap (fun x =>
          if i.covers x.1 x.2.1 then
            some { array := x.1, tile := { inst := i.serial, mb := x.2.1, nt := x.2.2 }, home := i.home x.1 x.2.1 x.2.2,
                   place := i.place x.1 x.2.1 x.2.2, group := groupOf i.op.tiling x.2.1 x.2.2, op := i.op, spilling := i.spilling }
          else none)
      | [] => []
    | none => []
  let fromDrain : List Needed := match k.lists.drains with
    | d :: _ =>
      if k.passesLeft d then []
      else [{ array := d.array, tile := d.tile, home := d.home, place := d.place, group := d.group, op := d.op, spilling := d.spilling }]
    | [] => []
  fromDrain ++ fromPass

/-- A tile that a slot holds, as its instance's passes or drains describe it. -/
def Core.resident (k : Core) (j : Nat) : Option Needed :=
  let t := (k.slot j).tile
  let fromPass := match k.lists.insts.find? (fun i => decide (i.serial = t.inst)) with
    | some i => some { array := j / 8, tile := t, home := j, place := i.place (j / 8) t.mb t.nt, group := groupOf i.op.tiling t.mb t.nt,
                       op := i.op, spilling := i.spilling : Needed }
    | none => none
  match k.lists.drains.find? (fun d => decide (d.tile = t) && decide (d.array = j / 8)) with
  | some d => some { array := d.array, tile := t, home := j, place := d.place, group := d.group, op := d.op, spilling := d.spilling }
  | none => fromPass

/-- R46: the wide form of a slot: its 4,096 entries of 16 bytes, entry 64m + n at 16(64m + n) (DESIGN CHOICE, log 18). -/
def Slot.wideForm (x : Slot) : List Byte := (List.range 4096).flatMap (fun i => bytesOf (x.entries.get x.empty i).toNat 16)

/-- R46: a slot from a wide form. -/
def Slot.ofWide (o : OpEntry) (t : TileRef) (bs : List Byte) : Slot :=
  let e (i : Nat) : Entry := Entry.ofNat (ofBytes ((bs.drop (16 * i)).take 16))
  let first := e 0
  { state := .opened, tile := t, bf16 := decide (o.xFmt = .bf16), int8 := decide (o.xFmt = .int8), empty := first,
    entries := (List.range 4096).filterMap (fun i => if e i = first then none else some (i, e i)) }

/-- A wide form written to a spill region. The spill region is one of the core's own tower; a frame under it that is COW_PENDING holds
the write (09 R247). -/
def State.writeWide (s : State) (c place : Nat) (x : Slot) : State := s.jobWrite (c / 16) place x.wideForm

/-- SLOT_SPILL (R111, R112): the wide form of a resident tile is written to its own position in tower DRAM, because its home slot is
needed by another tile of its group; the slot becomes SPILLED and the step is off-report. -/
def slotSpill (c : CoreId) (j : Fin 32) (s : State) : State :=
  let k := s.core c.val
  let x := k.slot j.val
  match k.resident j.val with
  | none => s
  | some r =>
    let wanted := k.needed.any (fun n => n.spilling && decide (n.home = j.val) && decide (n.tile ≠ x.tile) &&
      decide (n.tile.inst = x.tile.inst) && decide (n.group = r.group))
    if decide (x.state = .opened) && wanted && k.drain.isNone && !s.coreStopped c.val then
      s.accessBy (s.partOfCore c.val) (.port c.val) [] [] [(r.place, 65536)] (fun a =>
        let k1 : Core := { k with spilled := k.spilled ++ [(r.array, x.tile)] }
        let k2 := (k1.setSlot j.val { state := .spilled, tile := x.tile }).rptSet (fun y => { y with accSpill := true })
        (a.writeWide c.val r.place x).setCore c.val (k2.drainHead.charge 1 64 0 0 0 0))
    else s

/-- The anchor computed for a tile, if it waits. -/
def Core.anchorFor (k : Core) (a : Nat) (t : TileRef) : Option Anchored :=
  k.anchors.find? (fun x => decide (x.array = a) && decide (x.tile = t))

/-- R46, R47: a slot opened for a tile: every entry empty, with the tile's anchor, or marked NaN where all scales are. -/
def openSlot (o : OpEntry) (t : TileRef) (a : Option Anchored) : Slot :=
  { state := .opened, tile := t, bf16 := decide (o.xFmt = .bf16), int8 := decide (o.xFmt = .int8),
    empty := match a with | some x => { anchor := x.anchor, nan := x.allNan } | none => {}, entries := [] }

/-- SLOT_RELOAD (R111): a needed tile enters its home slot: its wide form from its own position in tower DRAM, or, never opened, the
empty wide form, which takes no drain-port cycle (R112); the slot becomes OPEN. -/
def slotReload (c : CoreId) (j : Fin 32) (s : State) : State :=
  let k := s.core c.val
  let x := k.slot j.val
  if !(decide (x.state = .spilled) || k.openable j.val) || s.coreStopped c.val then s
  else
    match k.needed.find? (fun n => n.spilling && decide (n.home = j.val)) with
    | none => s
    | some n =>
      if k.earlierWaits j.val n.tile.inst n.group then s
      else if k.spilled.contains (n.array, n.tile) then
        if k.drain.isSome then s
        else s.whenReadable (s.partOfCore c.val) [(n.place, 65536)] fun s =>
          let w := Slot.ofWide n.op n.tile (s.jobBytes (c.val / 16) n.place 65536)
          let k1 : Core := { k with spilled := k.spilled.filter (fun y => !decide (y = (n.array, n.tile))) }
          s.setCore c.val ((k1.setSlot j.val w).drainHead.charge 1 64 0 0 0 0)
      else if x.state ≠ .spilled then s
      else if (k.anchorFor n.array n.tile).isSome || decide (n.op.xFmt = .bf16) then
        let k1 := k.setSlot j.val (openSlot n.op n.tile (k.anchorFor n.array n.tile))
        s.setCore c.val { k1 with anchors := k.anchors.filter (fun y => !(decide (y.array = n.array) && decide (y.tile = n.tile))) }
      else s

/-- Every entry of a slot set to ACC.NAN (R50, R82, R115). -/
def Slot.allNan (x : Slot) : Slot :=
  let z : Entry := { x.empty with nan := true }
  { x with empty := z, entries := (x.entries.map (fun e => (e.1, { e.2 with nan := true }))).filter (fun e => !decide (e.2 = z)) }

/-- The slot with entry `i` replaced. -/
def Slot.setEntry (x : Slot) (i : Nat) (e : Entry) : Slot := { x with entries := x.entries.set x.empty i e }
/-- Entry 64m + n of a slot. -/
def Slot.entry (x : Slot) (i : Nat) : Entry := x.entries.get x.empty i

/-- R115 step 1: where a partial wide form of a K split lies in the receiving core's spill region: its first position in which no tile's
wide form waits for its reload (DESIGN CHOICE, log 107). -/
def Core.partialPlace (k : Core) (r : Needed) : Option Nat :=
  let t := r.op.tiling
  let used := (k.lists.drains.filter (fun d => k.spilled.contains (d.array, d.tile))).map (fun d => d.place)
  ((List.range t.spillSlots.toNat).map (fun i => t.spillBase.toNat * 2 ^ 16 + 65536 * i)).find? (fun a => !used.contains a)

/-- ADD_MODE_RELOAD (R115): a core writes its tile's wide form by a spill-form transfer into the receiving core's spill region, and the
receiving core adds it into the OPEN slot of the same tile entry by entry; anchors that differ set every entry to ACC.NAN and report an
anchor violation. The source slot keeps its entries (R79). A transfer whose route crosses a closed gate is refused and reported (01 R28), and
one for which the spill region has no free position waits. Whether partial sums of a BF16 operator can be combined the spec does not say,
since R115 adds CARRY and WINDOW alone: the reload of a BF16 tile does nothing (DESIGN CHOICE, log 107). -/
def addModeReload (c : CoreId) (j : Fin 32) (src : CoreId) (sj : Fin 32) (s : State) : State :=
  let k := s.core c.val
  let q := s.core src.val
  let x := k.slot j.val
  let y := q.slot sj.val
  match k.resident j.val, q.resident sj.val with
  | some r, some r' =>
    let same := decide (x.tile.mb = y.tile.mb) && decide (x.tile.nt = y.tile.nt) && decide (r.op.reportOp = r'.op.reportOp) &&
      decide (j.val / 8 = sj.val / 8)
    if decide (x.state = .opened) && decide (y.state = .opened) && same && k.drain.isNone && q.drain.isNone && !x.bf16 && !y.bf16 &&
        !s.coreStopped c.val && !s.coreStopped src.val then
      match k.partialPlace r with
      | none => s
      | some place =>
      if s.gateRefuses (src.val / 16) (c.val / 16) then s.gateRefusal src.val
      else s.accessBy (s.partOfCore c.val) (.port c.val) [] [] [(place, 65536)] (fun a =>
        let s1 := (a.writeWide c.val place y).setCore src.val (q.drainHead.charge 1 64 0 0 0 0)
        let k1 := s1.core c.val
        let w := Slot.ofWide r.op x.tile (s1.jobBytes (c.val / 16) place 65536)
        if (x.entry 0).anchor ≠ (w.entry 0).anchor then
          let s2 := s1.setCore c.val ((k1.setSlot j.val x.allNan).drainHead.charge 1 64 0 0 0 0)
          s2.hwError (s.coreReport c.val 0x0302 j.val r.op.reportOp.toNat 0)
        else
          let x1 := (List.range 4096).foldl (fun b i => b.setEntry i ((b.entry i).addWide (w.entry i))) x
          s1.setCore c.val ((k1.setSlot j.val x1).drainHead.charge 1 64 0 0 0 0))
    else s
  | _, _ => s

/-- LOOP_LENGTH_LATCH. -/
def execLoopLengthLatch (c : CoreId) (s : State) : Host.Outcome State Fault Refusal := .next ((loopLengthLatch c s).commitLog c.val)
/-- SLOT_SPILL. -/
def execSlotSpill (c : CoreId) (j : Fin 32) (s : State) : Host.Outcome State Fault Refusal := .next ((slotSpill c j s).commitLog c.val)
/-- SLOT_RELOAD. -/
def execSlotReload (c : CoreId) (j : Fin 32) (s : State) : Host.Outcome State Fault Refusal := .next ((slotReload c j s).commitLog c.val)
/-- ADD_MODE_RELOAD. -/
def execAddModeReload (c : CoreId) (j : Fin 32) (src : CoreId) (sj : Fin 32) (s : State) :
    Host.Outcome State Fault Refusal := .next (((addModeReload c j src sj s).commitLog c.val).commitLog src.val)

end Sys2Proof.Machine
end

