-- ==== Sys2Proof/Machine/Pass.lean ====
section
/-! DEFINITION. The commands of the arrays: loading the stationary input, computing anchors, issuing passes (02 R45 to
R54, 03 R67 to R77). -/

namespace Sys2Proof.Machine

/-- K blocks of 32 in a K tile of `n` elements. -/
def kBlocks (n : Nat) : Nat := ceilDiv n 32

/-- Elements of K tile `kt` that lie within the K length (04 R107). -/
def Instance.kCount (i : Instance) (kt : Nat) : Nat :=
  let t := tileK i.op.xFmt
  if i.lenK - kt * t < t then i.lenK - kt * t else t

/-- Operand vector `v` of a store: its elements at `off`, `tk` to a vector, and its scale bytes in the plane behind the
`count` vectors; those within K are kept. The spec does not lay operand tiles out in the stores: the layout is the model's (log 89). R42
gives 0x7F to an INT8 tensor without a scale plane alone; an FP8 or FP4 operand that the image says has none reads 0x7F in every block too
(DESIGN CHOICE, log 106). -/
def readOpVec (x : Stores) (c : Nat) (st : StoreId) (f : Fmt) (plane : Bool) (off count tk kc v : Nat) : OpVec :=
  let w := f.bytesFor tk
  let bs := x.bytes c st (off + v * w) w
  { elems := (List.range kc).map (elemOf f bs)
    scales := if f = .bf16 then []
      else if plane then (x.bytes c st (off + count * w + v * (tk / 32)) (kBlocks kc)).map BitVec.toNat
      else List.replicate (kBlocks kc) 0x7F }

/-- Bytes of `count` operand vectors with their scale bytes. -/
def opBytes (f : Fmt) (plane : Bool) (count tk : Nat) : Nat :=
  count * f.bytesFor tk + (if f = .bf16 || !plane then 0 else count * (tk / 32))

/-- R83: the bytes of one block of 64 × 64 elements, and how many of them a half of Twill holds. -/
def twillBlock (f : Fmt) : Nat := 64 * f.bytesFor 64
/-- R83: blocks to a half of 64 KiB. -/
def twillHalf (f : Fmt) : Nat := 65536 / twillBlock f

/-- R83: where a block's elements lie in Twill. -/
def TwillMove.src (m : TwillMove) (f : Fmt) : Nat := 65536 * m.half.val + twillBlock f * m.block
/-- R84: where a block's 128 scale bytes lie: Twill carries them beside its 128 KiB of elements (log 89). -/
def TwillMove.scales (m : TwillMove) : Nat := 131072 + 4096 * m.half.val + 128 * m.block
/-- R42, R84: whether a block has scale bytes. -/
def twillScaled (f : Fmt) (plane : Bool) : Bool := decide (f ≠ .bf16) && plane

/-- R83, R84: one block leaves Twill: element (i, j) becomes element (j, i), scale byte (i-block, j) becomes scale byte
(j, i-block). -/
def Core.twillMove (k : Core) (c : Nat) (f : Fmt) (plane : Bool) (dst : StoreId) (m : TwillMove) : Core :=
  let row := f.bytesFor 64
  let bs := k.stores.bytes c .twill (m.src f) (64 * row)
  let sc := k.stores.bytes c .twill m.scales 128
  let stride := f.bytesFor (tileK f)
  let out := (List.range 64).foldl (fun q j =>
    let q1 := q.writeStore dst (m.dst + j * stride)
      (packElems f ((List.range 64).map (fun i => elemOf f ((bs.drop (i * row)).take row) j)))
    if twillScaled f plane then q1.writeStore dst (m.scaleDst + j * (tileK f / 32)) [sc.getD j 0, sc.getD (64 + j) 0] else q1) k
  { out with stores := (out.stores.drop .twill (m.src f) (64 * row)).drop .twill m.scales 128 }

/-- R83: whether a block of Twill is one of its half's, and has fully entered. -/
def Core.twillReady (k : Core) (f : Fmt) (plane : Bool) (m : TwillMove) : Bool :=
  decide (m.block < twillHalf f) && k.rangeReady .twill (m.src f) (twillBlock f) &&
    (!twillScaled f plane || k.stores.present .twill m.scales 128)

/-- Several blocks leave Twill. -/
def Core.twillMoves (k : Core) (c : Nat) (f : Fmt) (plane : Bool) (dst : StoreId) (ms : List TwillMove) : Core :=
  ms.foldl (fun q m => q.twillMove c f plane dst m) k

/-- Whether an array's tile is the stationary input of a pass. -/
def InTile.isFor (t : InTile) (i : Instance) (p : Pass) : Bool :=
  decide (t.inst = i.serial) && decide (t.mb = p.mb) && decide (t.kt = p.kt)

/-- The input tile an array holds and shadows. -/
def Core.activeTile (k : Core) (a : Nat) : InTile := k.active.get {} a
/-- The tile in an array's shadow registers. -/
def Core.shadowTile (k : Core) (a : Nat) : InTile := k.shadow.get {} a

/-- Columns of an array's M tile that lie within the M length (04 R107). -/
def Instance.mCount (i : Instance) (a mb : Nat) : Nat :=
  let c := i.lenM - i.col0 a mb
  if c < 64 then c else 64

/-- SHADOW_LOAD (R74, 04 R107): array `a` loads into its shadow registers the input tile of its next pass whose tile it
does not hold, from the input buffer at `off`: 64 columns of a K tile, then their scale bytes; `tw` are the blocks that
leave Twill for it first (R83, 07 R189). -/
def shadowLoad (c : CoreId) (a : Fin 4) (off : Nat) (tw : List TwillMove) (s : State) : State :=
  let k := s.core c.val
  match k.lists.inst with
  | none => s
  | some i =>
    match i.passes.find? (fun p => !(k.activeTile a.val).isFor i p) with
    | none => s
    | some p =>
      let f := i.op.xFmt
      let tk := tileK f
      let k1 := k.twillMoves c.val f i.op.xPlane .input tw
      if s.coreIssues c.val && i.op.tiling.arrays.contains a.val && i.covers a.val p.mb && tw.all (k.twillReady f i.op.xPlane) &&
          k1.rangeReady .input off (opBytes f i.op.xPlane 64 tk) then
        let read := readOpVec k1.stores c.val .input f i.op.xPlane off 64 tk (i.kCount p.kt)
        let t : InTile := { inst := i.serial, mb := p.mb, kt := p.kt, cols := (List.range (i.mCount a.val p.mb)).map read }
        s.setCore c.val { k1 with shadow := k1.shadow.set {} a.val t }
      else s

/-- R47: the first latched instance, in pass-list order, that has a tile whose anchor is not computed: its place and that tile. BF16
operators have no anchors. -/
def CoreLists.nextAnchor (l : CoreLists) : Option (Nat × Nat × Nat × Nat) :=
  (List.range l.insts.length).findSome? (fun n =>
    match l.insts[n]? with
    | some i => if i.op.xFmt = .bf16 then none else (i.openOrder[i.anchored]?).map (fun t => (n, t))
    | none => none)

/-- ANCHOR_COMPUTE (R47, 04 R108): the anchor of the next output tile in the order in which the pass list opens them, from the
summaries of the whole contraction at the offsets given: one byte for each K block. An INT8 operand without a scale plane has stored
summary bytes too (R43 does not say), and a K split whose K length is latched takes the full length that the image fixes, whatever was
latched (DESIGN CHOICES, logs 106 and 107). -/
def anchorCompute (c : CoreId) (xOff wOff : Nat) (s : State) : State :=
  let k := s.core c.val
  match k.lists.nextAnchor with
  | none => s
  | some (at', a, mb, nt) =>
    match k.lists.insts[at']? with
    | none => s
    | some i =>
      let n := kBlocks (i.op.fullK.getD i.lenK)
      if !s.coreIssues c.val || decide (32 ≤ k.anchors.length) || !k.rangeReady .input xOff n || !k.rangeReady .weights wOff n then s
      else
        let xs := (k.stores.bytes c.val .input xOff n).map BitVec.toNat
        let ws := (k.stores.bytes c.val .weights wOff n).map BitVec.toNat
        let r := anchorOf (List.zip xs ws)
        let t : Anchored := { tile := { inst := i.serial, mb := mb, nt := nt }, array := a,
                              anchor := anchorField (r.getD 0), allNan := r.isNone }
        s.setCore c.val { k with anchors := k.anchors ++ [t],
                                 lists := { k.lists with insts := listSet k.lists.insts at' { i with anchored := i.anchored + 1 } } }

/-- The K blocks of a column and a weight vector: elements of both operands and their two scale bytes. -/
def zipBlocks (x w : OpVec) : List (List Nat × List Nat × Nat × Nat) :=
  (List.range x.scales.length).map (fun b =>
    ((x.elems.drop (32 * b)).take 32, (w.elems.drop (32 * b)).take 32, x.scales.getD b 0x7F, w.scales.getD b 0x7F))

/-- What a pass found besides its sums: NaN, pairs below the threshold, an anchor violation. -/
structure PassNote where
  nan : Bool := false
  wuf : Nat := 0
  violation : Bool := false
  deriving DecidableEq, Repr

/-- Two notes together. -/
def PassNote.or (a b : PassNote) : PassNote :=
  { nan := a.nan || b.nan, wuf := a.wuf + b.wuf, violation := a.violation || b.violation }

/-- Whether an FP32 pattern is a NaN. -/
def f32IsNan (x : BitVec 32) : Bool := decide (F32.val x = .nan)

/-- R49 to R53: one weight vector against one column, added into an entry. -/
def Entry.addVec (e : Entry) (o : OpEntry) (x w : OpVec) : Entry × PassNote :=
  if o.xFmt = .bf16 then
    let pad (l : List Nat) : List Nat := l ++ List.replicate (64 - l.length) 0
    let r := ({ e with nan := false } : Entry).addBf16Row (pad x.elems) (pad w.elems)
    ({ r with nan := e.nan || r.nan },
     { nan := r.nan || (f32IsNan (r.acc.setWidth 32) && !f32IsNan (e.acc.setWidth 32)) })
  else
    let (r, n) := ({ e with nan := false } : Entry).addBlocks o.xFmt o.wFmt (zipBlocks x w)
    ({ r with nan := e.nan || r.nan }, { nan := r.nan, wuf := n.wuf, violation := n.violation })

/-- One weight vector added into entries (m, n) of a slot, for every column m of a tile (R67). -/
def Slot.addVec (x : Slot) (o : OpEntry) (cols : List OpVec) (w : OpVec) (n : Nat) : Slot × PassNote :=
  (List.range cols.length).foldl (fun a m =>
    let (e, q) := (a.1.entry (64 * m + n)).addVec o (cols.getD m {}) w
    (a.1.setEntry (64 * m + n) e, a.2.or q)) (x, {})

/-- The run of vectors of one output tile added into its slot; vectors beyond N add nothing (04 R107). -/
def Slot.addRun (x : Slot) (o : OpEntry) (cols : List OpVec) (ws : List OpVec) : Slot × PassNote :=
  (List.range ws.length).foldl (fun a n =>
    let (y, q) := a.1.addVec o cols (ws.getD n {}) n
    (y, a.2.or q)) (x, {})

/-- R75: cells of one column that are not gated in a vector cycle; in FP4 a cell forms two products. -/
def liveCells (f : Fmt) (wf : Fmt) : List Nat → List Nat → Nat
  | a :: a' :: x, b :: b' :: y =>
    let p := !isZeroCode f a && !isZeroCode wf b
    let p' := !isZeroCode f a' && !isZeroCode wf b'
    (if f = .fp4 then bitOf (p || p') else bitOf p + bitOf p') + liveCells f wf x y
  | [a], b :: _ => bitOf (!isZeroCode f a && !isZeroCode wf b)
  | a :: _, [b] => bitOf (!isZeroCode f a && !isZeroCode wf b)
  | _, _ => 0

/-- R75, R77: gated cell-cycles of an array in a run of `w` vector cycles, of which `ws` lie within N. -/
def gatedCycles (o : OpEntry) (cols ws : List OpVec) (w : Nat) : Nat :=
  let live := (ws.map (fun v => (cols.map (fun x => liveCells o.xFmt o.wFmt x.elems v.elems)).sum)).sum
  (4096 * w - live) * (if o.xFmt = .bf16 then 4 else 1)

/-- An output tile of a pass: its array, its reference, its slot. -/
def Pass.named (p : Pass) (i : Instance) : List (Nat × TileRef × Nat) :=
  (p.tiles i.op.tiling).filterMap (fun x =>
    if i.covers x.1 x.2.1 then some (x.1, { inst := i.serial, mb := x.2.1, nt := x.2.2 }, i.home x.1 x.2.1 x.2.2)
    else none)

/-- Table 03.2, Output space and Anchor ready: the slot is OPEN with the pass's tile, or to be opened with its anchor computed and no wide
form waiting in the spill region, of the tile or of one of an earlier group with that home slot (04 R111). -/
def Core.tileReady (k : Core) (i : Instance) (n : Nat × TileRef × Nat) : Bool :=
  let x := k.slot n.2.2
  if k.openable n.2.2 then
    (decide (i.op.xFmt = .bf16) || (k.anchorFor n.1 n.2.1).isSome) &&
      !k.spilled.contains (n.1, n.2.1) && !k.earlierWaits n.2.2 n.2.1.inst (groupOf i.op.tiling n.2.1.mb n.2.1.nt)
  else decide (x.state = .opened) && decide (x.tile = n.2.1)

/-- Table 03.2, Input present: every array that takes part holds the pass's tile, or its shadow does. -/
def Core.inputReady (k : Core) (i : Instance) (p : Pass) : Bool :=
  i.op.tiling.arrays.all (fun a => !i.covers a p.mb || (k.activeTile a).isFor i p || (k.shadowTile a).isFor i p)

/-- The swap of the stationary inputs at a pass: a tile in the shadow registers becomes the array's tile; an array that
takes no part holds a zero tile (R68). -/
def Core.swap (k : Core) (i : Instance) (p : Pass) : Core :=
  (List.range 4).foldl (fun q a =>
    if i.op.tiling.arrays.contains a && i.covers a p.mb then
      if (q.activeTile a).isFor i p then q
      else { q with active := q.active.set {} a (q.shadowTile a), shadow := q.shadow.set {} a {} }
    else { q with active := q.active.set {} a {} }) k

/-- One named tile of a pass: its slot opened where FREE (R46), and its run added. Pairs of columns beyond M and of vectors beyond N are
not counted in CORE.WUF_COUNT: whether they are the spec does not say (DESIGN CHOICE, log 91). -/
def Core.passTile (k : Core) (i : Instance) (n0 : Nat) (ws : List OpVec) (n : Nat × TileRef × Nat) : Core × PassNote :=
  let x := k.slot n.2.2
  let x1 := if k.openable n.2.2 then openSlot i.op n.2.1 (k.anchorFor n.1 n.2.1) else x
  let (x2, q) := x1.addRun i.op (k.activeTile n.1).cols ((ws.drop (64 * (n.2.1.nt - n0))).take 64)
  -- R50: a violation marks every entry of the tile
  let x3 := if q.violation then x2.allNan else x2
  ({ k.setSlot n.2.2 x3 with
      anchors := k.anchors.filter (fun y => !(decide (y.array = n.1) && decide (y.tile = n.2.1))) }, q)

/-- The weight vectors of a pass that lie within N, of the run of 64 × cnt vectors in weight staging at `off`. -/
def passVectors (x : Stores) (c : Nat) (i : Instance) (p : Pass) (off : Nat) : List OpVec :=
  let w := 64 * p.cnt
  let live := if i.lenN - 64 * p.n0 < w then i.lenN - 64 * p.n0 else w
  (List.range live).map (readOpVec x c .weights i.op.wFmt i.op.wPlane off w (tileK i.op.xFmt) (i.kCount p.kt))

/-- The state of a core after a pass, with what the pass found and the slots whose tile had an anchor violation. An instance is counted
(R145) with its first pass. An anchor violation sets
no flag of CORE.ARITH_STATUS (DESIGN CHOICE, log 91). -/
def Core.runPass (k : Core) (c : Nat) (i : Instance) (p : Pass) (rest : List Pass) (io : PassIo) :
    Core × PassNote × List Nat :=
  let w := 64 * p.cnt
  let k1 := (k.twillMoves c i.op.wFmt i.op.wPlane .weights io.twill).swap i p
  let ws := passVectors k1.stores c i p io.off
  let named := p.named i
  let (k2, q, bad) := named.foldl (fun (a : Core × PassNote × List Nat) n =>
    let (y, m) := a.1.passTile i p.n0 ws n
    (y, a.2.1.or m, if m.violation then a.2.2 ++ [n.2.2] else a.2.2)) (k1, {}, [])
  let gated := (List.range 4).foldl (fun (g : FMap (BitVec 64)) a =>
    g.set 0 a (satAdd (g.get 0 a) (gatedCycles i.op (k2.activeTile a).cols ws w))) k2.gated
  let k3 : Core := { k2 with
    gated := gated, passCount := k2.passCount + 1, wufCount := satAdd k2.wufCount q.wuf,
    arith := { k2.arith with wuf := k2.arith.wuf || decide (0 < q.wuf) },
    pass := some { slots := named.map (fun n => n.2.2) },
    lists := k2.lists.setInst { i with passes := rest, fresh := false } }
  let k4 := ((k3.countCe io.sramCe).engineHead 0 i.op.reportOp).charge 0 (if i.op.xFmt = .bf16 then 4 * w else w) io.waitIn.toNat
    io.waitOut.toNat 0 (bitOf i.fresh)
  (k4.arrayHead, q, bad)

/-- Table 03.2, Weights present: the whole run and its scale bytes are in weight staging, the blocks it takes from Twill
having left it (07 R189). -/
def Core.weightsReady (k : Core) (c : Nat) (i : Instance) (p : Pass) (io : PassIo) : Bool :=
  io.twill.all (k.twillReady i.op.wFmt i.op.wPlane) &&
    (k.twillMoves c i.op.wFmt i.op.wPlane .weights io.twill).rangeReady .weights io.off
      (opBytes i.op.wFmt i.op.wPlane (64 * p.cnt) (tileK i.op.xFmt))

/-- PASS_ISSUE (R71, Table 03.2): the head pass issues once every condition holds, and runs to its end. While a change of CORE.CTRL
waits for the pass boundary, no further pass issues (R73). One command is a whole pass, so the vectors of the previous pass have all
entered when it acts (log 2). -/
def passIssue (c : CoreId) (io : PassIo) (s : State) : State :=
  let k := s.core c.val
  match k.lists.inst with
  | none => s
  | some i =>
    match i.passes with
    | [] => s
    | p :: rest =>
      if s.coreIssues c.val && k.pendCtrl.isNone && k.inputReady i p && k.weightsReady c.val i p io &&
          (p.named i).all (k.tileReady i) && (!i.fresh || k.tokensReady i.op) then
        let (k1, q, bad) := k.runPass c.val i p rest io
        let s1 := (s.setCore c.val k1).setArith c.val { nan := q.nan }
        let s2 := (s1.freeTiles c.val io.frees).moveRegions c.val io.moves
        bad.foldl (fun a j => a.hwError (a.coreReport c.val 0x0302 j i.op.reportOp.toNat 0)) s2
      else s

/-- PASS_ISSUE. -/
def execPassIssue (c : CoreId) (io : PassIo) (s : State) : Host.Outcome State Fault Refusal := .next ((passIssue c io s).commitLog c.val)
/-- ANCHOR_COMPUTE. -/
def execAnchorCompute (c : CoreId) (xOff wOff : Nat) (s : State) : Host.Outcome State Fault Refusal :=
  .next (anchorCompute c xOff wOff s)
/-- SHADOW_LOAD. -/
def execShadowLoad (c : CoreId) (a : Fin 4) (off : Nat) (tw : List TwillMove) (s : State) :
    Host.Outcome State Fault Refusal := .next (shadowLoad c a off tw s)

end Sys2Proof.Machine
end

