-- ==== Sys2Proof/Machine/RedOps.lean ====
section
/-! DEFINITION. The reduction path's tables in partition memory (08 Tables 08.1 to 08.7) and the packets it sends. -/

namespace Sys2Proof.Machine


/-- A signed number of 64 bits. -/
def toI64 (n : Nat) : Int := signedOf 64 n
/-- A signed number as 64 bits. -/
def ofI64 (z : Int) : Nat := patOfInt 64 z

-- Contributor records ---------------------------------------------------------------------------------------------------

/-- Table 08.4. -/
structure Cr where
  tile : Nat := 0
  group : Nat := 0
  owner : Nat := 0
  termScale : Nat := 0
  sendScale : Nat := 0
  state : Nat := 0
  round : Nat := 0
  deriving DecidableEq, Repr

/-- Table 08.4 from its 128 bits. -/
def Cr.ofNat (n : Nat) : Cr :=
  { tile := bitsAt n 96 32, group := bitsAt n 88 8, owner := bitsAt n 76 12, termScale := bitsAt n 68 8,
    sendScale := bitsAt n 60 8, state := bitsAt n 57 3, round := bitsAt n 49 8 }

/-- Table 08.4's 128 bits. -/
def Cr.toNat (r : Cr) : Nat :=
  r.tile % 2 ^ 32 * 2 ^ 96 + r.group % 2 ^ 8 * 2 ^ 88 + r.owner % 2 ^ 12 * 2 ^ 76 + r.termScale % 2 ^ 8 * 2 ^ 68 +
    r.sendScale % 2 ^ 8 * 2 ^ 60 + r.state % 8 * 2 ^ 57 + r.round % 2 ^ 8 * 2 ^ 49

/-- The job address of a contributor record (R218). -/
def State.crAddr (s : State) (p i : Nat) : Nat := (s.body p).crBase.toNat + 16 * i
/-- A contributor record. -/
def State.cr (s : State) (p i : Nat) : Cr := Cr.ofNat (s.jobNat p (s.crAddr p i) 16)
/-- The state with a contributor record written. -/
def State.setCr (s : State) (p i : Nat) (r : Cr) : State := s.setJobNat p (s.crAddr p i) 16 r.toNat

/-- The state with a contributor record posted. -/
def State.postCr (s : State) (p i : Nat) (r : Cr) : State := s.postJobNat p (s.crAddr p i) 16 r.toNat

/-- The contributor record of a group tile. -/
def State.crOf (s : State) (p g t : Nat) : Option Nat :=
  (List.range (s.body p).crs.length).find? (fun i => decide ((s.cr p i).group = g) && decide ((s.cr p i).tile = t))

/-- R44: an INT24 element of a report: the code 0x80_0000 is read as -(2^23 - 1). -/
def int24Of (n : Nat) : Int := match decodeElem .int24 n with | .fin neg m _ => if neg then -(m : Int) else m | _ => 0

-- Groups ----------------------------------------------------------------------------------------------------------------

/-- The descriptor of a group (R209). -/
def State.groupOf (s : State) (p g : Nat) : Option GroupDesc := (s.body p).groups.find? (fun x => x.id.toNat = g)

/-- The job address of element i of a tile's combine tile. -/
def GroupDesc.combineAddr (d : GroupDesc) (t i : Nat) : Nat := d.combineBase.toNat + 32768 * t + 8 * i
/-- The job address of a tile's combine header. -/
def GroupDesc.headerAddr (d : GroupDesc) (t : Nat) : Nat := d.headerBase.toNat + 64 * t
/-- Whether a tile is one that this member owns. -/
def GroupDesc.owns (d : GroupDesc) (t : Nat) : Bool :=
  decide (d.ownFirst.toNat ≤ t) && decide (t < d.ownFirst.toNat + d.ownCount.toNat)
/-- The job address of element i of an owned tile's sum. -/
def GroupDesc.sumAddr (d : GroupDesc) (t i : Nat) : Nat := d.sumBase.toNat + 32768 * (t - d.ownFirst.toNat) + 8 * i
/-- The job address of an owned tile's record. -/
def GroupDesc.orAddr (d : GroupDesc) (t : Nat) : Nat := d.orBase.toNat + 32 * (t - d.ownFirst.toNat)

/-- The logical core of the run that a tile falls into (R210, R217). -/
def runCore (runs : List (Nat × Nat)) (t : Nat) : Nat :=
  runs.foldl (fun c r => if r.1 ≤ t then r.2 else c) 0

/-- The physical home core of a tile (R216). -/
def State.homeCore (s : State) (p : Nat) (d : GroupDesc) (t : Nat) : Nat := physCore (s.part p).job.quads (runCore d.homeRuns t)
/-- The physical owner core of a tile (R210). -/
def State.ownerCore (s : State) (p : Nat) (d : GroupDesc) (t : Nat) : Nat := physCore (s.part p).job.quads (runCore d.ownerRuns t)

/-- Table 08.3. -/
structure Ch where
  widened : Nat := 0
  nonfinite : Nat := 0
  count : Nat := 0
  deriving DecidableEq, Repr

/-- The combine header of a tile. -/
def State.ch (s : State) (p : Nat) (d : GroupDesc) (t : Nat) : Ch :=
  let n := s.jobNat p (d.headerAddr t) 12
  { widened := bitsAt n 64 32, nonfinite := bitsAt n 32 32, count := bitsAt n 0 32 }
/-- The state with the combine header of a tile written. -/
def State.setCh (s : State) (p : Nat) (d : GroupDesc) (t : Nat) (h : Ch) : State :=
  s.setJobNat p (d.headerAddr t) 12 (h.count % 2 ^ 32 + h.nonfinite % 2 ^ 32 * 2 ^ 32 + h.widened % 2 ^ 32 * 2 ^ 64)

/-- R257: an INT64 add into a number of partition memory. -/
def State.addI64 (s : State) (p addr : Nat) (z : Int) : State :=
  s.setJobNat p addr 8 (ofI64 (toI64 (s.jobNat p addr 8) + z))

/-- Zeros written over a range of partition memory. -/
def State.jobZero (s : State) (p addr n : Nat) : State := s.jobWrite (s.someTower p) addr (List.replicate n 0)

/-- Zeros posted over a range of partition memory. -/
def State.postZero (s : State) (p addr n : Nat) : State := s.jobPost p addr (List.replicate n 0)

/-- The combine tile and header of a contributor record's tile. -/
def State.combineRange (s : State) (p i : Nat) : (Nat × Nat) × (Nat × Nat) :=
  match s.groupOf p (s.cr p i).group with
  | some d => ((d.combineAddr (s.cr p i).tile 0, 32768), (d.headerAddr (s.cr p i).tile, 64))
  | none => ((s.crAddr p i, 16), (s.crAddr p i, 16))

/-- Table 08.6. -/
structure Or where
  seg : List Nat := [0, 0, 0, 0]
  step : Nat := 0
  complete : Nat := 0
  notices : Nat := 0
  scale : Nat := 0
  need : Nat := 0
  maxb : Nat := 0
  state : Nat := 0
  round : Nat := 0
  nonfinite : Bool := false
  deriving DecidableEq, Repr

/-- Table 08.6 from its 256 bits. -/
def Or.ofNat (n : Nat) : Or :=
  { seg := (List.range 4).map (fun k => bitsAt n (128 + 32 * k) 32), step := bitsAt n 96 32, complete := bitsAt n 83 13,
    notices := bitsAt n 70 13, scale := bitsAt n 62 8, need := bitsAt n 54 8, maxb := bitsAt n 48 6,
    state := bitsAt n 45 3, round := bitsAt n 37 8, nonfinite := n.testBit 36 }

/-- Table 08.6's 256 bits. -/
def Or.toNat (r : Or) : Nat :=
  placeFields 128 32 r.seg + r.step % 2 ^ 32 * 2 ^ 96 + r.complete % 2 ^ 13 * 2 ^ 83 + r.notices % 2 ^ 13 * 2 ^ 70 +
    r.scale % 2 ^ 8 * 2 ^ 62 + r.need % 2 ^ 8 * 2 ^ 54 + r.maxb % 64 * 2 ^ 48 + r.state % 8 * 2 ^ 45 +
    r.round % 2 ^ 8 * 2 ^ 37 + bitOf r.nonfinite * 2 ^ 36

/-- The owner record of a tile. -/
def State.orec (s : State) (p : Nat) (d : GroupDesc) (t : Nat) : Or := Or.ofNat (s.jobNat p (d.orAddr t) 32)
/-- The state with the owner record of a tile written. -/
def State.setOrec (s : State) (p : Nat) (d : GroupDesc) (t : Nat) (r : Or) : State := s.setJobNat p (d.orAddr t) 32 r.toNat

/-- The state with the owner record of a tile posted. -/
def State.postOrec (s : State) (p : Nat) (d : GroupDesc) (t : Nat) (r : Or) : State := s.postJobNat p (d.orAddr t) 32 r.toNat

/-- Table 08.7. -/
structure Gs where
  discarded : Nat := 0
  rescales : Nat := 0
  step : Nat := 0
  live : Nat := 0
  deriving DecidableEq, Repr

/-- The status block of a group. -/
def State.gs (s : State) (p : Nat) (d : GroupDesc) : Gs :=
  let n := s.jobNat p d.statusAddr.toNat 16
  { discarded := bitsAt n 96 32, rescales := bitsAt n 64 32, step := bitsAt n 32 32, live := bitsAt n 19 13 }
/-- The state with the status block of a group written. -/
def State.setGs (s : State) (p : Nat) (d : GroupDesc) (g : Gs) : State :=
  s.setJobNat p d.statusAddr.toNat 16 (g.discarded % 2 ^ 32 * 2 ^ 96 + g.rescales % 2 ^ 32 * 2 ^ 64 +
    g.step % 2 ^ 32 * 2 ^ 32 + g.live % 2 ^ 13 * 2 ^ 19)

-- Backward copies ---------------------------------------------------------------------------------------------------------

/-- 07 R188: the backward copy of a tile of E4M3 working parameters formed by RECAST: the forward copy, whose elements and scales lie at
`e` and `x`, widened exactly and converted with blocks along the output features: its elements, its scale bytes, its flags. -/
def State.recastOf (s : State) (p e x : Nat) : List Byte × List Byte × ConvFlags :=
  let val (row col : Nat) : Val := widen .e4m3 (s.jobNat p (e + 64 * row + col) 1) (s.jobNat p (x + 2 * row + col / 32) 1)
  let blocks := (List.range 128).map (fun q =>
    convertBlock .e4m3 0 ((List.range 32).map (fun n => val (32 * (q / 64) + n) (q % 64))) (List.replicate 32 .rne))
  let elem (n : Nat) : Nat := ((blocks.getD (64 * (n / 64 / 32) + n % 64) (0, [])).2.getD (n / 64 % 32) (0, {})).1
  (packElems .e4m3 ((List.range 4096).map elem), blocks.map (fun b => BitVec.ofNat 8 b.1),
    ((blocks.flatMap Prod.snd).map Prod.snd).foldl ConvFlags.or {})

/-- 07 R188: a tile's backward copy written, its elements at `be` and its scales at `bx`. -/
def State.recastTile (s : State) (p e x be bx : Nat) : State :=
  let r := s.recastOf p e x
  (s.jobWrite (s.someTower p) be r.1).jobWrite (s.someTower p) bx r.2.1

/-- 07 R188, R197: the backward copies of frozen regions with WT_BWD = 1, recast once, at job start. -/
def State.recastFrozen (s : State) (p : Nat) : State :=
  (s.body p).frozen.foldl (fun a r =>
    if r.workFmt = 2 && r.wtBwd = 1 then
      (List.range (ceilDiv r.count 4096)).foldl (fun b t =>
        b.recastTile p (r.fwd + 4096 * t) (r.fwdScales + 128 * t) (r.bwd + 4096 * t) (r.bwdScales + 128 * t)) a
    else a) s

-- Members ---------------------------------------------------------------------------------------------------------------

/-- A function applied to every link die of a partition (R281: their copies are identical). -/
def State.modLinkDies (s : State) (p : Nat) (f : LinkDie → LinkDie) : State :=
  (s.quadsOf p).foldl (fun a d => a.setLinkDie d (f (a.linkDie d))) s
/-- The route entry of (group, member) that a partition's link dies hold. -/
def State.route (s : State) (p g m : Nat) : Route := (s.linkDie ((s.quadsOf p).headD 0)).routes.get {} (4096 * g + m)

/-- 10 R281: whether member i of group g is the module that is member m of group h: the route memory leads to both by one way
(log 110). -/
def State.sameModule (s : State) (p g i h m : Nat) : Bool :=
  let a := s.route p g i
  let b := s.route p h m
  a.valid && b.valid && (if a.self || b.self then a.self && b.self
    else decide (a.hops = b.hops) && decide (a.first = b.first) && decide (a.route = b.route))

/-- The members of a group that are live in its current step (R286). -/
def State.liveMembers (s : State) (p : Nat) (d : GroupDesc) : List Nat :=
  (List.range d.members.toNat).filter (fun m => (s.route p d.id.toNat m).live)

/-- A reduce-contribute packet of core `c` put at its source (R222). -/
def State.sendRc (s : State) (c dst : Nat) (r : Rc) (elems : List Byte) : State :=
  { s with txq := s.txq ++ [{ quad := BitVec.ofNat 2 (c / 128), cls := 2, group := r.group,
                              dst := BitVec.ofNat 12 dst, payload := r.bytes ++ elems }] }

/-- RPT.RESEND of a core (R233). -/
def State.markResend (s : State) (c : Nat) : State := s.modCore c (fun k => k.rptSet (fun r => { r with resend := true }))

/-- R279: whether two delivered packets keep their order: one partition, class, sender, group and flow. -/
def Delivered.sameFlow (a b : Delivered) : Bool :=
  decide (a.part = b.part) && decide (a.pkt.cls = b.pkt.cls) && decide (a.pkt.src = b.pkt.src) &&
    decide (a.pkt.group = b.pkt.group) && decide (a.pkt.flow = b.pkt.flow)

/-- The delivered packet `i` of partition p, of a class, that none of its flow precedes (10 R282: a flow keeps its order). -/
def State.rxAt (s : State) (p i cls : Nat) : Option Packet :=
  match s.rx[i]? with
  | none => none
  | some d =>
    if decide (d.part.toNat = p) && decide (d.pkt.cls.toNat = cls) && !(s.rx.take i).any (fun a => a.sameFlow d) then some d.pkt
    else none

/-- R278: the link die that received the delivered packet `i`. -/
def State.rxDie (s : State) (i : Nat) : Nat := match s.rx[i]? with | some d => d.die.toNat | none => 0

/-- 10 R278, R281: the core that a run table of a link die gives for a tile of a group. -/
def State.runAt (s : State) (p : Nat) (runs : FMap (List (Nat × Nat))) (g t : Nat) : Nat :=
  physCore (s.part p).job.quads (runCore (runs.get [] g) t)

/-- The state without the delivered packet `i`. -/
def State.dropRx (s : State) (i : Nat) : State := { s with rx := s.rx.eraseIdx i }

/-- R191, 09 R245, R247, R258: what posts memory-side operations into the scaling record of a tensor, where it is managed, waits while
the record may not be written; core `c` posts them, and 01 R28 holds. -/
def State.whenScaling (s : State) (p c : Nat) (tensor : BitVec 32) (posts : Bool) (f : State → State) : State :=
  match (s.body p).managed.find? (fun m => m.tensor = tensor) with
  | none => f s
  | some m => if posts then s.whenUnit p c [] [(m.addr.toNat, 256)] [] f else f s

/-- R191: the two memory-side operations of a drain or conversion into a managed tensor: the saturated-element count added
into TSC.SAT[S mod 16], the largest finite magnitude into TSC.AMAX[S mod 16] by a signed maximum. -/
def State.postScaling (s : State) (p : Nat) (tensor : BitVec 32) (step sat : Nat) (amax : BitVec 32) : State :=
  match (s.body p).managed.find? (fun m => m.tensor = tensor) with
  | none => s
  | some m =>
    let a := m.addr.toNat + 128 + 4 * (step % 16)
    let b := m.addr.toNat + 64 + 4 * (step % 16)
    let s1 := s.setJobNat p a 4 ((s.jobNat p a 4 + sat) % 2 ^ 32)
    let old := s1.jobNat p b 4
    if signedOf 32 old < amax.toInt then s1.setJobNat p b 4 amax.toNat else s1

end Sys2Proof.Machine
end

