-- ==== Sys2Proof/Machine/Streams.lean ====
section
/-! DEFINITION. The commands of the stream contexts (06). -/

namespace Sys2Proof.Machine

/-- R164, R165: a write of a descriptor address to STR.ARM. While the context's clock is stopped it runs no cycle in which it could
activate a descriptor (01 R33): the address waits in the shadow slot (DEDUCED, log 94). -/
def armWrite (k : CtxKey) (addr : BitVec 64) (s : State) : State :=
  let x := s.ctx k.val
  if x.state = .idle && x.enable && x.active = 0 && s.ctxStopped k.val then
    s.setCtx k.val (if x.shadow = 0 then { x with shadow := addr } else { x with rearmRefused := true })
  else if x.state = .idle && x.enable && x.active = 0 then
    if x.shadow = 0 then s.activate k.val addr
    else (s.activate k.val x.shadow).modCtx k.val (fun y => { y with shadow := addr })
  else if x.active ≠ 0 && x.shadow = 0 && x.state ≠ .disabling && x.state ≠ .disabled then
    s.setCtx k.val { x with shadow := addr }
  else s.setCtx k.val { x with rearmRefused := true }

/-- R164: whether a context takes a descriptor of the sequencer, which writes one only into an empty slot and otherwise waits. -/
def Ctx.takesArm (x : Ctx) : Bool :=
  decide (x.shadow = 0) && (if x.active = 0 then decide (x.state = .idle) && x.enable
    else decide (x.state ≠ .disabling) && decide (x.state ≠ .disabled))

/-- R152: the core's sequencer arms the context that the next entry of its arm list names, in list order (log 94). -/
def armNext (k : CtxKey) (s : State) : State :=
  match ctxCore k.val with
  | none => s
  | some c =>
    match (s.core c).lists.arms with
    | [] => s
    | (i, addr) :: rest =>
      if decide (6 * c + i.val = k.val) && s.coreIssues c && (s.ctx k.val).takesArm then
        armWrite k addr (s.modCore c (fun q => q.modLists (fun l => { l with arms := rest })))
      else s

/-- STR_ARM (R152, R164, R165): a write of a descriptor address to STR.ARM, or, with none, the sequencer's next arm. -/
def strArm (k : CtxKey) (addr : Option (BitVec 64)) (s : State) : State :=
  match addr with
  | some a => armWrite k a s
  | none => armNext k s

/-- DESCRIPTOR_ACTIVATE (R164): the shadow descriptor becomes active once the active one's last request has retired. -/
def descriptorActivate (k : CtxKey) (s : State) : State :=
  let x := s.ctx k.val
  if x.state = .idle && x.enable && x.active = 0 && x.shadow ≠ 0 && !s.ctxStopped k.val then
    (s.activate k.val x.shadow).modCtx k.val (fun y => { y with shadow := 0 })
  else s

/-- STR_ENABLE (R164, Table 06.7): a write of 1 to STR.ENABLE; refused while DISABLING (15 R421). -/
def strEnable (k : CtxKey) (s : State) : State :=
  let x := s.ctx k.val
  match x.state with
  | .disabling => s
  | .disabled => s.setCtx k.val { x with enable := true, state := .idle }
  | _ => s.setCtx k.val { x with enable := true }

/-- R166: a disable request in drain mode. -/
def Ctx.drainReq (x : Ctx) : Ctx :=
  let y : Ctx := { x with disableReq := true, abandoned := false, shadow := 0,
                          lastResult := if x.shadow = 0 then x.lastResult else 2 }
  match x.state with
  | .idle => ({ y with state := .disabling } : Ctx).settleDisable
  | .halted => ({ y with state := .disabling, abandoned := true, lastResult := 2, issued := [] } : Ctx).settleDisable
  | .running => { y with state := .disabling }
  | .serialWait => { y with state := .disabling }
  | .halting => { x with disableReq := true }
  | .disabling => x
  | .disabled => x

/-- STR_DISABLE_REQ (R166, 15 R421): a write of 1 to STR.DISABLE_REQ with STR.DISABLE_MODE. -/
def strDisableReq (k : CtxKey) (abandon : Bool) (s : State) : State :=
  let x : Ctx := { s.ctx k.val with disableMode := abandon }
  (s.setCtx k.val (if abandon then x.abandon else x.drainReq)).settleWindows

/-- R169: the generator that a save area restores. -/
def SaveArea.gen (v : SaveArea) : Gen :=
  { pc := if v.pastEnd then 16 else v.pc, ended := v.pastEnd,
    dims := v.dims.map (fun d => (BitVec.ofNat 32 d.1, BitVec.ofNat 32 d.2)),
    areg := v.areg.map (BitVec.ofNat 64), len := BitVec.ofNat 32 v.len, plen := BitVec.ofNat 32 v.plen,
    plLast := v.plLast, plValid := v.plValid }

/-- R169: a context goes on from what its save area holds; the merged remainder issues first. -/
def State.resumeFrom (s : State) (k : Nat) (v : SaveArea) : State :=
  let x := s.ctx k
  let g := v.gen
  let after := x.deliverPos + (if v.mergeValid then v.mergeLen else 0)
  let s1 := s.setCtx k { x with
    state := .running, gen := g, issued := [], merge := none, settled := false,
    emitPos := after, covers := coversOf after v.doneMask v.issuedLen }
  if v.mergeValid then
    s1.issueReq k { addr := BitVec.ofNat 64 v.mergeAddr, dst := x.copyDst, len := v.mergeLen, pos := x.deliverPos, after := g }
  else s1

/-- STR_RESUME (R169): a write of 1 to STR.RESUME reloads the save area of a context HALTED on a resumable fault; the
remainder issues first. A read of the save area that faults leaves the context HALTED for good (R170, log 17). -/
def strResume (k : CtxKey) (s : State) : State :=
  let x := s.ctx k.val
  if x.state = .halted && resumable x.faultCode.toNat && x.saveTrusted && !s.ctxStopped k.val then
    match s.readFault (s.ctxPart k.val) x.desc.saveArea.toNat 256 with
    | some e => s.deadCtx k.val e.1 e.2
    | none => s.resumeFrom k.val (SaveArea.ofNat (ofBytes (s.jobBytes (ctxTower k.val) x.desc.saveArea.toNat 256)))
  else s

/-- R157: what a serialising instruction needs: nothing outstanding and an empty merge buffer. -/
def Ctx.drained (x : Ctx) : Bool := x.issued.isEmpty && x.merge.isNone

/-- R157, R162: a serialising instruction that has to wait: the merge buffer issues, the context waits. -/
def State.serialWait (s : State) (k : Nat) : State :=
  let s1 := s.flushMerge k
  let x := s1.ctx k
  if x.state = .running then s1.setCtx k { x with state := .serialWait } else s1

/-- A context back from a serialising instruction with its generator moved on. -/
def Ctx.stepTo (x : Ctx) (g : Gen) : Ctx :=
  ({ x with gen := g, state := if x.state = .serialWait then .running else x.state } : Ctx).complete

/-- The words of a context's island take place while its clock runs (R33, R172); responses that waited at the crossing are there first. -/
def State.inCtx (s : State) (k : Nat) (f : State → State) : State := if s.ctxStopped k then s else f (s.wake k)

/-- R158: a program that has moved past word I15 has ended as though by END: the merge buffer issues, and the descriptor completes when
every request has retired. -/
def State.pastEnd (s : State) (k : Nat) : State :=
  let x := s.ctx k
  if !x.gen.ended || x.drained then (s.modCtx k Ctx.complete).settleWindows else s.serialWait k

/-- The generator of a context moved on. -/
def State.genTo (s : State) (k : Nat) (g : Gen) : State := (s.modCtx k (fun x => { x with gen := g })).pastEnd k

/-- END (R156): the program ends; the descriptor completes when every request has retired. -/
def endProgram (k : CtxKey) (s : State) : State :=
  s.inCtx k.val fun s =>
  let x := s.ctx k.val
  if !x.at 0 then s
  else if !x.drained then s.serialWait k.val
  else (s.setCtx k.val (x.stepTo { x.gen with ended := true })).settleWindows

/-- LOOPB's and SKIP's length: ⌈L ÷ 2^sh⌉. -/
def lenShift (l : BitVec 32) (sh : Nat) : Nat := ceilDiv l.toNat (2 ^ sh)

/-- The first word after `pc` that is a LOOPE of counter d. -/
def Ctx.loopeAfter (x : Ctx) (pc d : Nat) : Option Nat :=
  (List.range 16).find? (fun i => decide (pc < i) &&
    (let w := (x.desc.words.getD i 0).toNat
     decide (w / 2 ^ 28 = 2) && decide (bitsAt w 25 3 = d)))

/-- LOOPB (R156, Table 06.3): the counter set, and an empty loop left at once. -/
def Ctx.genLoopb (x : Ctx) : Gen :=
  let w := x.word
  let d := bitsAt w 25 3
  let sh := bitsAt w 19 4
  let lim := match bitsAt w 23 2 with
    | 0 => bitsAt w 0 19
    | 1 => lenShift x.gen.len sh
    | _ => lenShift x.gen.plen sh
  let g : Gen := { x.gen with dims := listSet x.gen.dims d (0, BitVec.ofNat 32 lim) }
  if lim = 0 then
    match x.loopeAfter x.gen.pc d with
    | some i => g.goto (i + 1)
    | none => g.goto 16
  else g.goto (x.gen.pc + 1)

/-- LOOPE (R156, Table 06.3): the counter stepped, and the loop taken again or left. -/
def Ctx.genLoope (x : Ctx) : Gen :=
  let w := x.word
  let d := bitsAt w 25 3
  let (i, l) := x.gen.dim d
  let i1 := i + 1
  let g : Gen := { x.gen with dims := listSet x.gen.dims d (i1, l) }
  if i1 < l && !(w.testBit 24 && x.gen.plLast) then g.goto (bitsAt w 0 4) else g.goto (x.gen.pc + 1)

/-- STRIDE (R156): Aa ← Aa + imm × 2^sh. -/
def Ctx.genStride (x : Ctx) : Gen :=
  let w := x.word
  let a := bitsAt w 25 3
  let v := x.gen.reg a + (BitVec.ofInt 64 (signedOf 21 w) <<< bitsAt w 21 4)
  (x.gen.setReg a v).goto (x.gen.pc + 1)

/-- ADD (R156): by mode Ab + Ac, Ab - Ac, Ab + Ac × Dd.index, Ab. -/
def Ctx.genAdd (x : Ctx) : Gen :=
  let w := x.word
  let b := x.gen.reg (bitsAt w 22 3)
  let c := x.gen.reg (bitsAt w 19 3)
  let v := match bitsAt w 17 2 with
    | 0 => b + c
    | 1 => b - c
    | 2 => b + c * ((x.gen.dim (bitsAt w 14 3)).1.setWidth 64)
    | _ => b
  (x.gen.setReg (bitsAt w 25 3) v).goto (x.gen.pc + 1)

/-- SKIP (R156): if Dd.index × 2^sh ≥ L, the next k words are skipped. -/
def Ctx.genSkip (x : Ctx) : Gen :=
  let w := x.word
  let l := if bitsAt w 23 2 = 1 then x.gen.len else x.gen.plen
  let past := decide ((x.gen.dim (bitsAt w 25 3)).1.toNat * 2 ^ bitsAt w 19 4 ≥ l.toNat)
  x.gen.goto (x.gen.pc + 1 + (if past then bitsAt w 0 4 else 0))

/-- EMIT (R156): the generator past the word, its addresses advanced where the word says so. -/
def Ctx.genEmit (x : Ctx) : Gen :=
  let w := x.word
  let a := bitsAt w 25 3
  let n64 : BitVec 64 := BitVec.ofNat 64 (bitsAt w 0 12 + 1)
  let g0 := if w.testBit 24 then
      (let g1 := x.gen.setReg a (x.gen.reg a + n64)
       if x.desc.kind.isCopy then g1.setReg (a + 1) (x.gen.reg (a + 1) + n64) else g1)
    else x.gen
  g0.goto (x.gen.pc + 1)

/-- The address to which the EMIT at the program counter writes, for an output or a COPY. -/
def Ctx.emitTo (x : Ctx) : Nat :=
  let a := bitsAt x.word 25 3
  (if x.desc.kind.isCopy then x.gen.reg (a + 1) else x.gen.reg a).toNat

/-- LOOPB (R156). -/
def loopb (k : CtxKey) (s : State) : State :=
  s.inCtx k.val fun s => if !(s.ctx k.val).at 1 then s else s.genTo k.val (s.ctx k.val).genLoopb

/-- LOOPE (R156). -/
def loope (k : CtxKey) (s : State) : State :=
  s.inCtx k.val fun s => if !(s.ctx k.val).at 2 then s else s.genTo k.val (s.ctx k.val).genLoope

/-- STRIDE (R156). -/
def strStride (k : CtxKey) (s : State) : State :=
  s.inCtx k.val fun s => if !(s.ctx k.val).at 3 then s else s.genTo k.val (s.ctx k.val).genStride

/-- ADD (R156). -/
def strAdd (k : CtxKey) (s : State) : State :=
  s.inCtx k.val fun s => if !(s.ctx k.val).at 4 then s else s.genTo k.val (s.ctx k.val).genAdd

/-- R162: whether a small request joins the merge buffer. -/
def joins (m : StrReq) (r : StrReq) : Bool :=
  decide (r.addr.toNat = m.addr.toNat + m.len) && decide (r.addr.toNat / 4096 = m.addr.toNat / 4096)

/-- EMIT (R154, R156, R162): one request of 1 to 4,096 bytes, which issues, joins or enters the merge buffer, or waits. -/
def emit (k : CtxKey) (s : State) : State :=
  s.inCtx k.val fun s =>
  let x := s.ctx k.val
  if !x.at 5 then s
  else
    let w := x.word
    let a := bitsAt w 25 3
    let len := bitsAt w 0 12 + 1
    let adr := x.gen.reg a
    let dst := if x.desc.kind.isCopy then x.gen.reg (a + 1) else 0
    let g := x.genEmit
    let r : StrReq := { addr := adr, dst := dst, len := len, pos := x.emitPos, after := g }
    let small := decide (len < 256) && decide (0 < x.desc.mergeHold) && (ctxCore k.val).isSome &&
      x.covers.all (fun c => decide (c.stop ≤ x.emitPos))
    let moved (y : Ctx) : Ctx := { y with gen := g, emitPos := x.emitPos + len }
    let s1 := match small, x.merge with
      | true, none => s.setCtx k.val (moved { x with merge := some r })
      | true, some m =>
        if joins m r then
          let s1 := s.setCtx k.val (moved { x with merge := some { m with len := m.len + len, after := g } })
          match ctxCore k.val with
          | some c => s1.modCore c (fun q => { q with mergeCount := q.mergeCount + 1 })
          | none => s1
        else if s.mayIssue k.val m then
          -- the buffer issues, and the request starts a new one
          (s.flushMerge k.val).modCtx k.val (fun y => moved { y with merge := some r })
        else s
      | false, some m =>
        if s.mayIssue k.val m then
          let s1 := s.flushMerge k.val
          let y := s1.ctx k.val
          if s1.mayIssue k.val r then (s1.setCtx k.val (moved y)).issueReq k.val r else s1
        else s
      | false, none => if s.mayIssue k.val r then (s.setCtx k.val (moved x)).issueReq k.val r else s
    if (s1.ctx k.val).gen.ended then s1.pastEnd k.val else s1

/-- SKIP (R156). -/
def strSkip (k : CtxKey) (s : State) : State :=
  s.inCtx k.val fun s => if !(s.ctx k.val).at 6 then s else s.genTo k.val (s.ctx k.val).genSkip

/-- R168: a serialising instruction faults: the context halts at the instruction's own word. -/
def State.serialFaultAt (s : State) (k : Nat) (code addr : Nat) : State := s.haltCtx k code addr

/-- R157: the read of a PLFETCH or a BFETCH issues once the context has drained; until its data has come the program does not go on. -/
def State.fetch (s : State) (k : Nat) (adr : BitVec 64) (n : Nat) : State :=
  let x := s.ctx k
  match x.issued, x.merge with
  | [], none =>
    let s1 := s.issueReq k { addr := adr, len := n, pos := x.emitPos, serial := true, after := x.gen }
    if x.state = .running then s1.modCtx k (fun y => { y with state := .serialWait }) else s1
  | _, _ => s.serialWait k

/-- R157: the bytes that a serialising read has brought, once they are all there. -/
def Ctx.fetched (x : Ctx) : Option (List Byte) :=
  match x.issued with
  | [r] => if r.serial && r.fault.isNone && decide (r.data.length = r.len) then some r.bytes else none
  | _ => none

/-- Table 04.4: a pointer-list entry from its 32 bytes. -/
def PlEntry.ofBytes (bs : List Byte) : PlEntry :=
  let n := Machine.ofBytes bs
  { inputBase := BitVec.ofNat 64 (bitsAt n 0 64), weightBase := BitVec.ofNat 64 (bitsAt n 64 64),
    outputBase := BitVec.ofNat 64 (bitsAt n 128 64), length := BitVec.ofNat 32 (bitsAt n 192 32),
    lenAxis := BitVec.ofNat 2 (bitsAt n 252 2), valid := n.testBit 254, last := n.testBit 255 }

/-- PLFETCH (R156, R157, R159): reads the entry at Aa, loads the bases, PLEN and the flags; the lead context passes the entry to the
sequencer once the operator that DESC.OPERATOR names is at the head of the pass list and the entry before it has been taken. -/
def plfetch (k : CtxKey) (s : State) : State :=
  s.inCtx k.val fun s =>
  let x := s.ctx k.val
  if !x.at 7 then s
  else
    let w := x.word
    let a := bitsAt w 25 3
    let b := bitsAt w 22 3
    let adr := x.gen.reg a
    match x.fetched with
    | none => s.fetch k.val adr 32
    | some bs =>
      let e := PlEntry.ofBytes bs
      let g1 := (((x.gen.setReg a (adr + 32)).setReg b e.inputBase).setReg (b + 1) e.weightBase).setReg (b + 2) e.outputBase
      let g2 : Gen := { g1 with plen := e.length, plLast := e.last, plValid := e.valid }
      let g := g2.goto (x.gen.pc + 1 + (if e.valid then 0 else bitsAt w 0 4))
      let y : Ctx := { x with issued := [] }
      let s1 := (s.setCtx k.val (y.stepTo g)).settleWindows
      match ctxCore k.val, x.desc.plLead with
      | some c, true =>
        let l := (s.core c).lists
        if l.plPending.isNone && (match l.ops with | o :: _ => decide (o.reportOp = x.desc.operator) | [] => false) then
          s1.modCore c (fun z => z.modLists (fun l => { l with plPending := some e }))
        else s
      | _, _ => s1

/-- BFETCH (R103, R156, R157): reads the 32-bit word at Aa into LEN, a bound register with its valid bit, or both. -/
def bfetch (k : CtxKey) (s : State) : State :=
  s.inCtx k.val fun s =>
  let x := s.ctx k.val
  if !x.at 8 then s
  else
    let w := x.word
    let adr := x.gen.reg (bitsAt w 25 3)
    let dst := bitsAt w 23 2
    let n := bitsAt w 20 3
    match x.fetched with
    | none => s.fetch k.val adr 4
    | some bs =>
      let v : BitVec 32 := BitVec.ofNat 32 (ofBytes bs)
      let g : Gen := if dst = 1 then x.gen else { x.gen with len := v }
      let y : Ctx := { x with issued := [] }
      let s1 := (s.setCtx k.val (y.stepTo (g.goto (x.gen.pc + 1)))).settleWindows
      match ctxCore k.val with
      | some c =>
        if dst = 0 then s1
        else s1.modCore c (fun q => { q with bnd := q.bnd.set 0 n v, bndValid := q.bndValid ||| BitVec.ofNat 8 (2 ^ n) })
      | none => s1

/-- TWAIT (R156): waits for the oldest token of an endpoint and consumes it; TOK.SEL = 1 acts as END, 2 and 3 fault. -/
def twait (k : CtxKey) (s : State) : State :=
  s.inCtx k.val fun s =>
  let x := s.ctx k.val
  if !x.at 9 then s
  else if !x.drained then s.serialWait k.val
  else
    match ctxCore k.val with
    | none => s.serialWait k.val
    | some c =>
      let e := bitsAt x.word 23 5
      match (s.core c).present e with
      | none => s.serialWait k.val
      | some t =>
        let (_, sel) := tokenOf ((s.core c).tileBytes c e t)
        if sel ≥ 2 then (s.freeTile c e).serialFaultAt k.val 0x0606 0
        else
          let g := if sel = 1 then { x.gen with ended := true } else x.gen.goto (x.gen.pc + 1)
          ((s.freeTile c e).modCtx k.val (fun y => y.stepTo g)).settleWindows

/-- MERGE_HOLD_EXPIRE (R162): DESC.MERGE_HOLD cycles without a join: the buffer issues. -/
def mergeHoldExpire (k : CtxKey) (s : State) : State :=
  s.inCtx k.val fun s => if (s.ctx k.val).runs || (s.ctx k.val).gen.ended then s.flushMerge k.val else s

/-- The key of a far-tier byte in the device memory of its port. -/
def farKey (port dpaPage off : Nat) : Nat := port * 2 ^ 42 + 2 ^ 21 * dpaPage + off

/-- The device key of a far-tier address of partition p. -/
def State.farByteKey (s : State) (p a : Nat) : Nat :=
  match farDecode (a % 2 ^ 60) with
  | some (port, page, off) => farKey port (s.ftt p port page).dpaPage off
  | none => 0

/-- The bytes an external read brings: from the far tier's device memory, or those the host answers with. -/
def State.extRead (s : State) (p a n : Nat) (host : List Byte) : List Byte :=
  if a / 2 ^ 60 = 1 then (List.range n).map (fun i => FMap.get (0 : Byte) s.far (s.farByteKey p (a + i)))
  else host.take n

/-- R261: an external write: far-tier bytes enter device memory and set FTT.DIRTY; host bytes leave (R177). -/
def State.extWrite (s : State) (p a : Nat) (bs : List Byte) : State :=
  if a / 2 ^ 60 = 1 then
    (List.range bs.length).foldl (fun q i =>
      let q1 : State := { q with far := FMap.set 0 q.far (q.farByteKey p (a + i)) (bs.getD i 0) }
      match farDecode ((a + i) % 2 ^ 60) with
      | some (port, page, _) =>
        let f := q1.ftt p port page
        if f.dirty then q1 else q1.setFtt p port page { f with dirty := true }
      | none => q1) s
  else { s with out := s.out ++ [.hostWrite (bitsAt a 56 4) (bitsAt a 0 48) bs] }

/-- R173: the first delivery position for which a RING_RECV context has issued a request and no byte has come. -/
def Ctx.firstMissing (x : Ctx) : Option Nat :=
  x.issued.findSome? (fun r => ((List.range r.len).find? (fun i => (r.data.get none i).isNone)).map (r.pos + ·))

/-- Whether issued requests hold all of `n` positions from `p` up. -/
def Ctx.holds (x : Ctx) (p n : Nat) : Bool :=
  (List.range n).all (fun i => x.issued.any (fun r => decide (r.pos ≤ p + i) && decide (p + i < r.pos + r.len)))

/-- Bytes that come for delivery positions from `p` up, whatever requests they belong to. -/
def Ctx.fill (x : Ctx) (p : Nat) (bs : List Byte) : Ctx :=
  { x with issued := x.issued.map (fun r => { r with data := (List.range r.len).foldl (fun m i =>
      if p ≤ r.pos + i && r.pos + i < p + bs.length then FMap.set none m i (some (bs.getD (r.pos + i - p) 0)) else m) r.data }) }

/-- R173, R174: the context of a core that receives bytes for an offset of a store: an active RING_RECV whose next byte belongs there and
which has extended credit for all of them, having issued requests for their places. What address an EMIT of a RING_RECV carries the spec
does not say: it is checked as any other is, and the request stands only for credit for the predecessor's bytes (DESIGN CHOICE, log 108). -/
def State.ringReceiver (s : State) (c : Nat) (st : BitVec 2) (off n : Nat) : Option (Nat × Nat) :=
  (List.range 4).findSome? (fun i =>
    let x := s.ctx (6 * c + i)
    match x.firstMissing with
    | some p =>
      if decide (x.desc.kind = .ringRecv) && decide (x.active ≠ 0) && decide (x.desc.store = st) && decide (0 < x.desc.bufSize) &&
          decide (x.desc.bufOffset + p % x.desc.bufSize = off) && x.holds p n then some (6 * c + i, p) else none
    | none => none)

/-- Whether two address the same end: the hub, or the core store of one logical core. -/
def sameEnd (a b : Nat) : Bool :=
  decide (a / 2 ^ 60 = b / 2 ^ 60) && (decide (a / 2 ^ 60 ≠ 3) || decide (bitsAt a 48 9 = bitsAt b 48 9))

/-- R22: whether the writes that a context sent before the part at an offset, to the same end outside partition memory, have all arrived
there; what is refused never gets there. -/
def Ctx.externalTurn (x : Ctx) (i off : Nat) (dst : Bool) : Bool :=
  match x.issued[i]? with
  | none => false
  | some r =>
    let open_ (q : StrReq) (lim : Nat) : Bool :=
      (partsOf (q.side dst) q.len).any (fun b =>
        let o := b.1 - q.side dst
        decide (o < lim) && sameEnd b.1 (r.side dst) && !q.already && q.fault.isNone && !q.dead dst o &&
          !q.acked.any (fun e => decide (e.1 = o)))
    !((List.range i).any (fun j => match x.issued[j]? with | some q => open_ q q.len | none => false)) && !open_ r off

/-- R173, R175 to R177: a part of a request outside partition memory is served at its end: the far tier, a host window (`host` are the bytes
it answers a read with), or the next core of a ring. `f` is what the device finds of far-tier bytes that it reads: poison is UNCORRECTABLE
(09 Table 09.8). In space 3 a core's store takes bytes alone: what a read there (IN_LOAD, PLFETCH, BFETCH) meets the spec does not say, and it is
neither answered nor faulted (DESIGN CHOICE, log 94). -/
def State.external (s : State) (k : CtxKey) (i : Nat) (second write : Bool) (host : List Byte) (f : LineFound) : State :=
  let x := s.ctx k.val
  match x.issued[i]? with
  | none => s
  | some r =>
    let dst := x.onDst r write
    let a := r.side dst
    let cut := partCut a r.len
    let off := if second then cut else 0
    let n := if second then r.len - cut else cut
    let b := a + off
    let p := s.ctxPart k.val
    let here := (List.range n).all (fun j => (r.data.get none (off + j)).isSome)
    let fresh := if write then !r.acked.any (fun q => decide (q.1 = off)) && (!x.desc.kind.isCopy || here) &&
        x.externalTurn i off dst
      else (r.data.get none off).isNone
    if decide (n = 0) || decide (b / 2 ^ 60 = 0) || decide (4 ≤ b / 2 ^ 60) || r.already || 
        r.dead dst off || !x.sends r write || !fresh then s
    else
      let bytes := if x.desc.kind.isCopy then (r.bytes.drop off).take n
        else match ctxCore k.val with
          | some c => (s.core c).regionBytes c x.desc (r.pos + off) n
          | none => []
      if b / 2 ^ 60 = 3 then
        if !write then s
        else
          let c := physCore (s.part p).job.quads (bitsAt b 48 9)
          match s.ringReceiver c (BitVec.ofNat 2 (bitsAt b 45 3)) (bitsAt b 0 23) n with
          | some (q, at') => (s.modCtx q (fun y => (y.fill at' bytes).settleDisable)).respond k.val { pos := r.pos, off := off, answer := .ack n }
          | none => s
      else if b / 2 ^ 60 = 1 && (s.farFault p b write).isSome then
        s.respond k.val { pos := r.pos, off := off, answer := .refused (BitVec.ofNat 16 ((s.farFault p b write).getD 0)) (BitVec.ofNat 64 b) dst }
      else if b / 2 ^ 60 = 1 && !write && decide (f = .bad) then
        s.respond k.val { pos := r.pos, off := off, answer := .refused 0x0607 (BitVec.ofNat 64 b) dst }
      else
        let s1 := if b / 2 ^ 60 = 2 then s.hostSend k.val i else s
        if write then ((s1.extWrite p b bytes).respond k.val { pos := r.pos, off := off, answer := .ack n }).settleWindows
        else if b / 2 ^ 60 = 2 && host.length ≠ n then s
        else (s1.respond k.val { pos := r.pos, off := off, answer := .data (s.extRead p b n host) }).settleWindows

/-- R177: whether a request writes to a host window. -/
def Ctx.writesHost (x : Ctx) (r : StrReq) : Bool :=
  match x.desc.kind with
  | .outStore => decide (r.addr.toNat / 2 ^ 60 = 2)
  | .copy => decide (r.dst.toNat / 2 ^ 60 = 2)
  | _ => false

/-- R177: the hub has read back from the window behind a request's last write, all its writes being posted. -/
def State.readBack (s : State) (k : CtxKey) (i : Nat) : State :=
  let x := s.ctx k.val
  match x.issued[i]? with
  | some r =>
    if x.writesHost r && (r.already || decide ((r.acked.map Prod.snd).sum = r.len)) then
      s.setCtx k.val { x with issued := listSet x.issued i { r with backed := true } }
    else s
  | none => s

/-- R177: whether a program that runs on, as its words have it, comes to a request that writes to a host window before it ends or waits
for data (PLFETCH, BFETCH, TWAIT), within so many words. -/
def Ctx.hostAhead : Nat → Ctx → Bool
  | 0, _ => false
  | n + 1, x =>
    if x.gen.ended || decide (16 ≤ x.gen.pc) then false
    else match x.word / 2 ^ 28 with
      | 1 => Ctx.hostAhead n { x with gen := x.genLoopb }
      | 2 => Ctx.hostAhead n { x with gen := x.genLoope }
      | 3 => Ctx.hostAhead n { x with gen := x.genStride }
      | 4 => Ctx.hostAhead n { x with gen := x.genAdd }
      | 5 => !x.desc.kind.isIn && decide (x.emitTo / 2 ^ 60 = 2) || Ctx.hostAhead n { x with gen := x.genEmit }
      | 6 => Ctx.hostAhead n { x with gen := x.genSkip }
      | _ => false

/-- R177: whether the request behind which `later` are outstanding may be the descriptor's last that writes to a host window: none of these
does, and its program is not certain to make another. The hub then reads back, be it once more than the rule asks for (log 109). -/
def Ctx.maybeLast (x : Ctx) (later : List StrReq) : Bool :=
  !later.any x.writesHost && !x.merge.any x.writesHost && !x.hostAhead 4096

/-- R177: whether a request waits for the hub's read behind it. -/
def Ctx.needsBack (x : Ctx) (r : StrReq) (later : List StrReq) : Bool := x.writesHost r && !r.backed && x.maybeLast later

/-- R154, R166, R177: whether the oldest request of a context may retire; under an abandon none does. -/
def Ctx.mayRetire (x : Ctx) (r : StrReq) : Bool :=
  r.fault.isNone && !r.serial && r.completed x.desc.kind && !x.needsBack r (x.issued.drop 1) && !(decide (x.state = .disabling) && x.abandoned)

/-- R161: a retired request of a core context counted where it came late. A bulk mover has no counters of late bytes. -/
def State.countLate (s : State) (k : Nat) (late : Bool) : State :=
  match ctxCore k with
  | some c => if (s.ctx k).desc.release && late then s.modCore c (fun q => q.countLate true) else s
  | none => s

/-- R161: the release cycle of a request, counted from the core's start of the step in which it was issued. -/
def Ctx.releaseOf (x : Ctx) (r : StrReq) : Nat := x.desc.relBase + r.index * x.desc.relPeriod

/-- R161, R175: whether a request of a context waits for its release cycle in cycle `now` of its step: a cycle of its core, or of the
mesh island of a bulk mover. -/
def Ctx.beforeRelease (x : Ctx) (r : StrReq) (now : Nat) : Bool :=
  x.desc.release && decide (now < x.releaseOf r)

/-- REQUEST_RETIRE (R154, R161, R177): the oldest request retires once its bytes have arrived or its writes are acknowledged, in
cycle `now` and no earlier than its release; bytes whose last came in cycle `arrived`, after the release, are counted. A merge
buffer that has waited for the request issues (R158). Both cycles are counted from the core's start of the request's step. -/
def requestRetire (k : CtxKey) (now arrived : Nat) (s : State) : State :=
  s.inCtx k.val fun s =>
  let x := s.ctx k.val
  match x.issued with
  | [] => s
  | r :: rest =>
    if !x.mayRetire r || x.beforeRelease r now || (x.state ≠ .running && x.state ≠ .serialWait && x.state ≠ .disabling) then s
    else
      let s1 := (s.retireOne k.val r rest).countLate k.val (decide (x.releaseOf r < arrived))
      let s2 := if x.gen.ended then s1.flushMerge k.val else s1
      (s2.modCtx k.val Ctx.complete).settleWindows

/-- REQUEST_TIMEOUT (R178): a far-tier or host request of a context has had no response in time: TIMEOUT. -/
def requestTimeout (k : CtxKey) (i : Fin 32) (s : State) : State :=
  s.inCtx k.val fun s =>
  let x := s.ctx k.val
  match x.issued[i.val]? with
  | none => s
  | some r =>
    let sp := r.addr.toNat / 2 ^ 60
    let dp := r.dst.toNat / 2 ^ 60
    if sp = 1 || sp = 2 || (x.desc.kind.isCopy && (dp = 1 || dp = 2)) then (s.timeoutReq k.val i.val).settleWindows else s

/-- STREAM_FAULT (R167): a fault response to an outstanding request arrives: that of the refusal it met on its way, else one of the code
given. -/
def streamFault (k : CtxKey) (i : Fin 32) (code : Fin 8) (addr : BitVec 64) (s : State) : State :=
  s.inCtx k.val fun s =>
  match ((s.ctx k.val).issued[i.val]?).bind (fun r => r.refused) with
  | some e => (s.faultReq k.val i.val e.1.toNat e.2.1.toNat e.2.2).settleWindows
  | none => if code.val = 0 then s else (s.faultReq k.val i.val (0x0600 + code.val) addr.toNat).settleWindows

/-- The requests before the oldest faulted one retire (R167, Retire), each with the cycle in which its bytes came (R161). -/
def State.retirePrefix (s : State) (k : Nat) : List Nat → State
  | [] => s
  | arrived :: t =>
    let x := s.ctx k
    match x.issued with
    | [] => s
    | r :: rest => if r.fault.isSome || r.serial then s else ((s.retireOne k r rest).countLate k (decide (x.releaseOf r < arrived))).retirePrefix k t

/-- R161, R167: the requests of a halting context that retire: those before the oldest faulted one. -/
def Ctx.settling (x : Ctx) : List StrReq := x.issued.takeWhile (fun r => r.fault.isNone && !r.serial)

/-- R161, R167: whether the delivered part of the faulted request that stops a halting context's retirement waits for its release. -/
def Ctx.partEarly (x : Ctx) (now : Nat) : Bool :=
  match x.issued.drop x.settling.length with
  | r :: _ => decide (0 < r.delivered x.desc.kind) && x.beforeRelease r now
  | [] => false

/-- R177: whether one of the first `n` requests of a halting context waits for the hub's read behind it. -/
def Ctx.settleBack (x : Ctx) (n : Nat) : Bool :=
  (List.range n).any (fun i => match x.issued[i]? with | some r => x.needsBack r (x.issued.drop (i + 1)) | none => false)

/-- HALT_SETTLE_DONE (R167, R168): every outstanding request has completed or faulted: the retire generator passes the
completed ones up to the oldest faulted, in cycle `now` and no earlier than their releases (R161); the delivered part of the faulted one
retires too, no earlier than its release, and the save area is handed over. The hub's read behind a last write to a host window comes before
that (R177). -/
def haltSettleDone (k : CtxKey) (now : Nat) (arrived : List Nat) (s : State) : State :=
  s.inCtx k.val fun s =>
  let x := s.ctx k.val
  if x.state = .halting && !x.settled && x.issued.all (fun r => r.fault.isSome || r.completed x.desc.kind) &&
      !x.settling.any (fun r => x.beforeRelease r now) && !x.partEarly now && !x.settleBack x.settling.length then
    let s1 := s.retirePrefix k.val ((List.range x.issued.length).map (fun i => arrived.getD i 0))
    let y := s1.ctx k.val
    let s2 := match y.issued with
      | r :: _ =>
        let d := r.delivered y.desc.kind
        let s2 := match ctxCore k.val with
          | some c => if y.desc.kind.isIn && !r.serial then s1.deliverTo c y.desc r.pos (r.bytes.take d) else s1
          | none => s1
        (s2.countLate k.val (decide (0 < d) && decide (y.releaseOf r < arrived.getD x.settling.length 0))).modCtx k.val
          (fun z => { z with deliverPos := r.pos + d, copyDst := r.dst + BitVec.ofNat 64 d })
      | [] => s1
    s2.modCtx k.val (fun z => { z with settled := true })
  else s

/-- SETTLE_TIMEOUT (R167): the settle phase has lasted 2^DESC.TIMEOUT cycles: what is outstanding counts as TIMEOUT. -/
def settleTimeout (k : CtxKey) (s : State) : State :=
  s.inCtx k.val fun s =>
  let x := s.ctx k.val
  if x.state = .halting && !x.settled then
    s.setCtx k.val { x with issued := x.issued.map (fun r =>
      if r.fault.isSome || r.completed x.desc.kind then r
      else
        let e := r.lateSide x.desc.kind
        { r with fault := some 0x0604, faultAddr := BitVec.ofNat 64 e.1, faultDst := e.2, refused := none }) }
  else s

/-- R169 step 4: the bytes of a settled context's requests behind the faulted one that had come: they are in place. -/
def Ctx.placedBytes (x : Ctx) : FMap (Option Byte) :=
  if x.desc.kind.isIn then
    (x.issued.drop 1).flatMap (fun r => if r.fault.isNone && r.completed x.desc.kind then
      r.data.map (fun e => (r.pos + e.1, e.2)) else [])
  else []

/-- SAVE_AREA_WRITTEN (R167, R170, R166): the save area's write is acknowledged, or has failed (`ok` false, or refused by its frame):
the context becomes HALTED and its fault record reaches the die controller; a fault that cannot be resumed acts by its class. While the
frame is COW_PENDING the write is held (R247). -/
def saveAreaWritten (k : CtxKey) (ok : Bool) (s : State) : State :=
  s.inCtx k.val fun s =>
  let x := s.ctx k.val
  if x.state = .halting && x.settled then
    let p := s.ctxPart k.val
    let t := ctxTower k.val
    let area := x.desc.saveArea.toNat
    let meets := match s.translate t area with
      | some pl => (s.frame pl.tower pl.g).access (BitVec.ofNat 2 p) (BitVec.ofNat 27 (area / 2 ^ 21)) true
      | none => .protection
    let ok' := ok && decide (meets = .served)
    if ok && decide (meets = .held) then (s.cowPlaces p [(area, 256)]).foldl State.touch s
    else
    let step := match ctxCore k.val with | some c => (s.core c).report.step.toNat | none => ((s.part p).jcp.step + 1).toNat
    let s1 := if ok' then
        ((s.poisonedIn p [(area, 256)]).foldl (fun a b => a.writeOver [(area, 256)] b) s).jobWrite t area (bytesOf (x.saveArea step).toNat 256)
      else s
    let code := x.faultCode.toNat
    let lost := !ok' || !resumable code
    let y : Ctx := { x with state := .halted, saveTrusted := ok', issued := [], placed := x.placedBytes,
                            lastResult := if lost then 3 else x.lastResult }
    let s2 := (s1.setCtx k.val (if x.disableReq then y.abandon else y)).settleWindows
    let (kind, unit, i) := ctxUnit k.val
    let r : Report1 := { code := code, kind := kind, unit := unit, detail := i, info := x.faultAddr.toNat, part := some p }
    if code = 0x0607 then s2.hwError r (s.inPlan p (x.faultAddr.toNat / 2 ^ 21) || s.ownerPage p (x.faultAddr.toNat / 2 ^ 21))
    else if lost then s2.programFault r
    else s2.logError r
  else s

/-- R174: whether the pass list has passed the last pass of the period that is marked as reading a half: the first marked pass to come,
if any, reads the other. -/
def CoreLists.halfPassed (l : CoreLists) (h : Bool) : Bool :=
  match ((l.insts.filter (fun i => !i.passes.isEmpty)).map (fun i => i.op) ++ l.ops).findSome? (fun o => o.half) with
  | some x => x != h
  | none => true

/-- RING_PERIOD_END (R174): a ring member's passes, send and incoming chunk are done: RING.HALF and the tee slots swap and
RING.PERIODS advances. `done` is what the core finds of passes without a mark of a half. -/
def ringPeriodEnd (c : CoreId) (done : Bool) (s : State) : State :=
  let k := s.core c.val
  let g := k.ring
  if s.coreStopped c.val then s
  else if g.en && decide (2 ≤ g.size.toNat) && done && k.lists.halfPassed g.half && decide (g.chunk ≤ g.sent) && decide (g.chunk ≤ g.got) then
    s.setCore c.val { k with ring := { g with half := !g.half, periods := g.periods + 1, sent := g.sent - g.chunk, got := g.got - g.chunk } }
  else s

/-- STR_ARM. -/
def execStrArm (k : CtxKey) (addr : Option (BitVec 64)) (s : State) : Host.Outcome State Fault Refusal := .next (strArm k addr s)
/-- DESCRIPTOR_ACTIVATE. -/
def execDescriptorActivate (k : CtxKey) (s : State) : Host.Outcome State Fault Refusal := .next (descriptorActivate k s)
/-- STR_ENABLE. -/
def execStrEnable (k : CtxKey) (s : State) : Host.Outcome State Fault Refusal := .next (strEnable k s)
/-- STR_DISABLE_REQ. -/
def execStrDisableReq (k : CtxKey) (abandon : Bool) (s : State) : Host.Outcome State Fault Refusal :=
  .next (strDisableReq k abandon s)
/-- STR_RESUME. -/
def execStrResume (k : CtxKey) (s : State) : Host.Outcome State Fault Refusal := .next (strResume k s)
/-- END. -/
def execEndProgram (k : CtxKey) (s : State) : Host.Outcome State Fault Refusal := .next (endProgram k s)
/-- LOOPB. -/
def execLoopb (k : CtxKey) (s : State) : Host.Outcome State Fault Refusal := .next (loopb k s)
/-- LOOPE. -/
def execLoope (k : CtxKey) (s : State) : Host.Outcome State Fault Refusal := .next (loope k s)
/-- STRIDE. -/
def execStrStride (k : CtxKey) (s : State) : Host.Outcome State Fault Refusal := .next (strStride k s)
/-- ADD. -/
def execStrAdd (k : CtxKey) (s : State) : Host.Outcome State Fault Refusal := .next (strAdd k s)
/-- EMIT. -/
def execEmit (k : CtxKey) (s : State) : Host.Outcome State Fault Refusal := .next (emit k s)
/-- SKIP. -/
def execStrSkip (k : CtxKey) (s : State) : Host.Outcome State Fault Refusal := .next (strSkip k s)
/-- PLFETCH. -/
def execPlfetch (k : CtxKey) (s : State) : Host.Outcome State Fault Refusal := .next (plfetch k s)
/-- BFETCH. -/
def execBfetch (k : CtxKey) (s : State) : Host.Outcome State Fault Refusal := .next (bfetch k s)
/-- TWAIT. -/
def execTwait (k : CtxKey) (s : State) : Host.Outcome State Fault Refusal := .next (twait k s)
/-- MERGE_HOLD_EXPIRE. -/
def execMergeHoldExpire (k : CtxKey) (s : State) : Host.Outcome State Fault Refusal := .next (mergeHoldExpire k s)
/-- REQUEST_RETIRE. -/
def execRequestRetire (k : CtxKey) (now arrived : Nat) (s : State) : Host.Outcome State Fault Refusal :=
  .next (requestRetire k now arrived s)
/-- REQUEST_TIMEOUT. -/
def execRequestTimeout (k : CtxKey) (i : Fin 32) (s : State) : Host.Outcome State Fault Refusal := .next (requestTimeout k i s)
/-- STREAM_FAULT. -/
def execStreamFault (k : CtxKey) (i : Fin 32) (code : Fin 8) (addr : BitVec 64) (s : State) :
    Host.Outcome State Fault Refusal := .next (streamFault k i code addr s)
/-- HALT_SETTLE_DONE. -/
def execHaltSettleDone (x : HaltSettle) (s : State) : Host.Outcome State Fault Refusal := .next (haltSettleDone x.ctx x.now x.arrived s)
/-- SETTLE_TIMEOUT. -/
def execSettleTimeout (k : CtxKey) (s : State) : Host.Outcome State Fault Refusal := .next (settleTimeout k s)
/-- SAVE_AREA_WRITTEN. -/
def execSaveAreaWritten (k : CtxKey) (ok : Bool) (s : State) : Host.Outcome State Fault Refusal := .next (saveAreaWritten k ok s)
/-- RING_PERIOD_END. -/
def execRingPeriodEnd (c : CoreId) (done : Bool) (s : State) : Host.Outcome State Fault Refusal := .next (ringPeriodEnd c done s)

end Sys2Proof.Machine
end

