-- ==== Sys2Proof/Machine/Thermal.lean ====
section
/-! DEFINITION. The operating point of an island, and the steps of a tower's throttle (16.3 to 16.5). -/

namespace Sys2Proof.Machine

-- User calibration --------------------------------------------------------------------------------------------------------

/-- Table 16.9: an entry's kind, unit and value. -/
def ueKind (e : BitVec 64) : Nat := bitsAt e.toNat 56 8
/-- UE.UNIT. -/
def ueUnit (e : BitVec 64) : Nat := bitsAt e.toNat 44 12
/-- UE.VALUE. -/
def ueValue (e : BitVec 64) : Nat := bitsAt e.toNat 0 44

/-- The largest of some values of the user calibration's entries of a kind and unit; 0 without one. -/
def Power.userMax (x : Power) (kind unit : Nat) (f : Nat → Nat) : Nat :=
  match x.cal with
  | none => 0
  | some c => c.entries.foldl (fun a e => if ueKind e = kind ∧ ueUnit e = unit ∧ a < f (ueValue e) then f (ueValue e) else a) 0

/-- R437: the highest core point that a tower's derate allows. -/
def Power.coreCap (x : Power) (t : Nat) : Nat := x.userMax 1 t (fun v => if v ≤ 4 then v else 4)
/-- R437: whether a tower's mesh is held at OP1. -/
def Power.meshCap (x : Power) (t : Nat) : Bool := decide (x.userMax 1 (32 + t) id ≠ 0)
/-- R437: by how much the user calibration lowers a tower's logic limits, and its DRAM limits. -/
def Power.logicCut (x : Power) (t : Nat) : Nat := x.userMax 2 t (fun v => bitsAt v 8 8)
/-- The cut of the DRAM limits. -/
def Power.dramCut (x : Power) (t : Nat) : Nat := x.userMax 2 t (fun v => bitsAt v 0 8)

/-- R436, R437: the equalisation start of lane l of port P: the last preset of the user calibration, which replaces the factory seed. -/
def Power.startCoef (x : Power) (port lane : Nat) : BitVec 44 :=
  let presets := (x.cal.map UserCal.entries).getD [] |>.filter (fun e => decide (ueKind e = 3) && decide (ueUnit e = 8 * port + lane))
  match presets.getLast? with
  | some e => BitVec.ofNat 44 (ueValue e)
  | none => x.fac.seeds.get 0 (8 * port + lane)

-- Operating points --------------------------------------------------------------------------------------------------------

/-- The number of an island of the module in the fuses and the factory block (log 8): an island of the hub as one of die 36. -/
def ClockIsland.number : ClockIsland → Nat
  | .die i => i.number
  | .hub h => 4096 * 36 + (match h with
    | .mesh => 16 | .moduleControl => 17 | .security => 18 | .management => 19 | .host => 20 | .cxl i => 21 + i.val)

/-- The number of a core's island, and of a compute die's mesh. -/
def coreNumber (c : Nat) : Nat := 4096 * (c / 16) + c % 16
/-- The number of a mesh island. -/
def meshNumber (t : Nat) : Nat := 4096 * t + 16

/-- R429, Table 16.5: the core points in use that are valid in every core of a tower, and whether its mesh has OP1. -/
def Power.corePoints (x : Power) (t : Nat) : List Nat :=
  (List.range 5).filter (fun k => (List.range 16).all (fun c => x.vf.valid (coreNumber (16 * t + c)) k))
/-- Whether a tower's mesh may run at OP1. -/
def Power.meshPoint (x : Power) (t : Nat) : Bool := x.vf.valid (meshNumber t) 1

/-- R429: the point at which an island runs. -/
def Power.pointOf (x : Power) : ClockIsland → Nat
  | .die (.core c) => (x.towers.get {} (c.val / 16)).op.toNat
  | .die (.mesh t) => bitOf (x.towers.get {} t.val).meshHalf
  | _ => 0

/-- R429: the voltage in mV that an island's regulator sets, and its frequency in MHz: its point's entry. -/
def Power.millivolts (x : Power) (i : ClockIsland) : Nat := x.vf.millivolts i.number (x.pointOf i)
/-- The frequency of an island. -/
def Power.megahertz (x : Power) (i : ClockIsland) : Nat := x.vf.megahertz i.number (x.pointOf i)

-- Throttling --------------------------------------------------------------------------------------------------------------

/-- R433: the steps that a tower may take, in order: core points 0 to 4 from its derate on, the mesh at OP1 as 5, throttle stops 6 to 8,
the trip 9. -/
def Power.levels (x : Power) (t : Nat) : List Nat :=
  (x.corePoints t).filter (fun k => decide (x.coreCap t ≤ k)) ++ (if x.meshPoint t && !x.meshCap t then [5] else []) ++ [6, 7, 8, 9]

/-- R437: the step of a tower that nothing throttles. -/
def Power.topLevel (x : Power) (t : Nat) : Nat := (x.levels t).headD 0

/-- R433: the step at which a tower runs. -/
def TowerThermal.level (x : TowerThermal) (meshCap : Bool) : Nat :=
  if x.trip then 9 else if x.stop ≠ 0 then 5 + x.stop.toNat else if x.meshHalf && !meshCap then 5 else x.op.toNat

/-- R433: a tower at a step; a tripped tower resumes at a 3/4 stop. `low` is its lowest core point. -/
def TowerThermal.atLevel (x : TowerThermal) (n low : Nat) (meshCap : Bool) : TowerThermal :=
  { x with op := BitVec.ofNat 3 (if 4 < n then low else n), meshHalf := meshCap || decide (5 ≤ n),
           stop := BitVec.ofNat 2 (if n < 6 then 0 else if 8 < n then 3 else n - 5), trip := decide (9 ≤ n) }

/-- R433: the lowest core point of a tower. -/
def Power.lowPoint (x : Power) (t : Nat) : Nat := (x.corePoints t).getLastD 0

/-- R433: the next step down, and up. -/
def Power.stepDown (x : Power) (t n : Nat) : Nat := ((x.levels t).find? (fun k => decide (n < k))).getD n
/-- The next step up. -/
def Power.stepUp (x : Power) (t n : Nat) : Nat := ((x.levels t).reverse.find? (fun k => decide (k < n))).getD n

/-- R430, R434: VF.PWR_RATIO of a step: the core point's, times the mesh's, of the tower's first core (log 112). -/
def Power.ratio (x : Power) (t n : Nat) : Nat :=
  x.vf.ratio (coreNumber (16 * t)) (if n < 5 then n else x.lowPoint t) *
    x.vf.ratio (meshNumber t) (if x.meshPoint t && (x.meshCap t || decide (5 ≤ n)) then 1 else 0)

/-- R431, R437: the towers at the points that the user calibration leaves them. -/
def Power.derated (x : Power) : Power :=
  { x with towers := (List.range 32).foldl (fun m t =>
      FMap.mod {} m t (fun y => { y with op := BitVec.ofNat 3 (if x.topLevel t < 5 then x.topLevel t else x.lowPoint t)
                                         meshHalf := x.meshCap t })) x.towers }

/-- R432, R436: the logic reading of a tower: the highest of its 18 sensors, each with its offset. -/
def Power.logicReading (x : Power) (t : Nat) (sensors : List (BitVec 8)) : BitVec 8 :=
  (List.range 18).foldl (fun a n =>
    let v := sensors.getD n 0 + x.fac.offsets.get 0 (18 * t + n)
    if a < v then v else a) 0

end Sys2Proof.Machine
end

