-- ==== Sys2Proof/Machine/Memory.lean ====
section
/-! DEFINITION. Tower memory: what a channel controller does with a request (09 R239, R245 to R259), refresh and patrol
scrub (09 R250, R251). -/

namespace Sys2Proof.Machine

/-- R258: whether an act is a write of Table 09.4. -/
def MemAct.isWrite : MemAct → Bool
  | .read _ => false
  | _ => true

/-- Table 09.5: a corrected line is counted; its write back leaves the data as it is (R249). -/
def State.countCe (s : State) (k : Nat) (f : LineFound) : State :=
  match f with
  | .corrected => s.setChan k { s.chan k with ceCount := satAdd (s.chan k).ceCount 1 }
  | _ => s

-- Memory-side operations ------------------------------------------------------------------------------------------------

/-- Table 09.7: bytes of a lane; 0 for a reserved code. -/
def laneBytes (code : Nat) : Nat :=
  match code with
  | 1 | 3 | 5 | 6 => 4
  | 2 | 4 => 8
  | 7 => 2
  | _ => 0

/-- Table 09.7: BF16_ADD's sum: exact, rounded once into BF16; NaN is 0x7FC0. -/
def bf16Add (a b : Nat) : Nat :=
  match decodeElem .bf16 a, decodeElem .bf16 b with
  | .nan, _ => 0x7FC0
  | _, .nan => 0x7FC0
  | .inf x, .inf y => if x = y then (if x then 0xFF80 else 0x7F80) else 0x7FC0
  | .inf x, _ => if x then 0xFF80 else 0x7F80
  | _, .inf y => if y then 0xFF80 else 0x7F80
  | .fin na ma ea, .fin nb mb eb =>
    let e0 := if ea < eb then ea else eb
    let z := alignTo na ma ea e0 + alignTo nb mb eb e0
    if z = 0 then (if na && nb && decide (ma = 0) && decide (mb = 0) then 0x8000 else 0)
    else (convert .bf16 .rne (.fin (decide (z < 0)) z.natAbs e0) 1).1

/-- Table 09.7: one lane of an operation. -/
def laneOp (code a b : Nat) : Nat :=
  match code with
  | 1 => (a + b) % 2 ^ 32
  | 2 => (a + b) % 2 ^ 64
  | 3 => if signedOf 32 a < signedOf 32 b then b else a
  | 4 => if signedOf 64 a < signedOf 64 b then b else a
  | 5 => (f32Max (BitVec.ofNat 32 a) (BitVec.ofNat 32 b)).toNat
  | 6 => (f32Add (BitVec.ofNat 32 a) (BitVec.ofNat 32 b)).toNat
  | _ => bf16Add a b

/-- R257: whether an operation is one the controllers apply: a code of Table 09.7 and a mask of whole lanes. -/
def memsideOk (code : BitVec 4) (mask : BitVec 64) : Bool :=
  let n := laneBytes code.toNat
  decide (n ≠ 0) && (List.range (64 / n)).all (fun l =>
    let m := bitsAt mask.toNat (n * l) n
    decide (m = 0) || decide (m = 2 ^ n - 1))

/-- R257: the line after an operation. -/
def memsideLine (code : BitVec 4) (mask : BitVec 64) (line operand : List Byte) : List Byte :=
  let n := laneBytes code.toNat
  (List.range (64 / n)).flatMap (fun l =>
    let old := (line.drop (n * l)).take n
    if bitsAt mask.toNat (n * l) n = 0 then old
    else bytesOf (laneOp code.toNat (ofBytes old) (ofBytes ((operand.drop (n * l)).take n))) n)

-- Serving -----------------------------------------------------------------------------------------------------------------

/-- 11 R300: a BAR2 access that is not served: a read returns all ones, and MOD.BAR2_REFUSED advances. -/
def State.bar2Refuse (s : State) (act : MemAct) : State :=
  let s1 : State := { s with mod := { s.mod with bar2Refused := satAdd s.mod.bar2Refused 1 } }
  match act with
  | .read n => { s1 with out := s1.out ++ [.hostRead (List.replicate n 0xFF)] }
  | _ => s1

/-- The job address of a request at channel k (R242). -/
def MemReq.jobAddr (r : MemReq) (k : Nat) : Nat := 2 ^ 21 * r.page.toNat + lineMpa k r.addr % 2 ^ 21

/-- A fault response to a request's source: a context halts (06 R167); of a core's port PROTECTION stops the job (15 R408), NOT_PRESENT is
recorded, and an uncorrectable line has been recorded by its channel. -/
def State.respondFault (s : State) (k : Nat) (r : MemReq) (code : Nat) : State :=
  match r.src with
  | .stream k pos off write =>
    match (s.ctx k).reqAt pos with
    | some (_, r) =>
      let dst := (s.ctx k).onDst r write
      s.respond k { pos := pos, off := off, answer := .refused (BitVec.ofNat 16 code) (BitVec.ofNat 64 (r.side dst + off)) dst }
    | none => s
  | .port c =>
    if code = 0x0602 then s.programFault (s.coreReport c code 0 (r.jobAddr k) 4)
    else if code = 0x0601 then s.logError (s.coreReport c code 0 (r.jobAddr k) 0) else s
  | _ => s

/-- Bytes read return to the request of a context. -/
def State.respondData (s : State) (src : ReqSrc) (bs : List Byte) : State :=
  match src with
  | .stream k pos off _ => s.respond k { pos := pos, off := off, answer := .data bs }
  | .host => { s with out := s.out ++ [.hostRead bs] }
  | _ => s

/-- A write's acknowledgement returns to the request of a context. -/
def State.respondAck (s : State) (src : ReqSrc) (n : Nat) : State :=
  match src with
  | .stream k pos off _ => s.respond k { pos := pos, off := off, answer := .ack n }
  | _ => s

/-- R239, R254, R255, R257: a request that its frame lets through is served by its line. -/
def State.serve (s : State) (k : Nat) (r : MemReq) (f : LineFound) : State :=
  let line := r.addr / 64 * 64
  let poisoned := (s.chan k).poisoned.contains line
  let key := dramKey k r.addr
  let page := some (r.part.toNat, r.page.toNat)
  match r.act with
  | .read n =>
    if poisoned && decide (r.src = .host) then (s.poisonSeen k r.addr).bar2Refuse r.act
    else if poisoned || decide (f = .bad) then
      let s1 := s.dramUe k r.addr page
      if r.src = .host then s1.bar2Refuse r.act else s1.respondFault k r 0x0607
    else (s.countCe k f).respondData r.src (s.dramBytes key n)
  | .write bs =>
    if decide (bs.length = 64) && decide (r.addr % 64 = 0) then
      let c := s.chan k
      ((s.setDramBytes key bs).setChan k { c with poisoned := c.poisoned.filter (fun a => decide (a ≠ line)) }).respondAck
        r.src 64
    else if poisoned then (s.poisonSeen k r.addr).respondAck r.src bs.length
    else if f = .bad then (s.dramUe k r.addr page).respondAck r.src bs.length
    else ((s.countCe k f).setDramBytes key bs).respondAck r.src bs.length
  | .memside code mask operand =>
    if poisoned then (s.poisonSeen k r.addr).respondAck r.src 64
    else if f = .bad then (s.dramUe k r.addr page).respondAck r.src 64
    else
      let base := dramKey k line
      ((s.countCe k f).setDramBytes base (memsideLine code mask (s.dramBytes base 64) operand)).respondAck r.src 64

/-- Table 09.4, R257: the outcome of a request. -/
def State.outcome (s : State) (t : Nat) (r : MemReq) : Access :=
  let bad := match r.act with | .memside c m _ => !memsideOk c m | _ => false
  let f := s.frame t r.frame
  -- 11 R300: the host reaches a frame that is not present, and no page number is compared
  let a := if r.src = .host then f.access r.part f.jobPage r.act.isWrite else f.access r.part r.page r.act.isWrite
  if r.src = .host ∧ f.present = false then (if bad then .protection else .served) else match a with
  | .served =>
    if bad then .protection
    else if f.prot = .cowPending && decide (r.src ≠ .copier) && s.frameHeld t r.frame then .held else .served
  | .held => if bad then .protection else .held
  | x => x

/-- R245, R247, R248: a request that its source may send is checked and served, faulted, held, or, where it would be held by
a full buffer, given back. -/
def State.admitLine (s : State) (k : Nat) (r : MemReq) (f : LineFound) : State × Bool :=
  let t := chanTower k
  match s.outcome t r with
  | .protection => (if r.src = .host then s.bar2Refuse r.act else s.respondFault k r 0x0602, true)
  | .notPresent => (s.respondFault k r 0x0601, true)
  | .served => (s.serve k r f, true)
  | .held =>
    let s1 := if r.act.isWrite then s.firstTouch t r.frame else s
    if (s1.chan k).hold.length < 64 then
      (s1.setChan k { s1.chan k with hold := (s1.chan k).hold ++ [{ r with retry := false, found := f }] }, true)
    else (s1, false)

/-- R248: whether a BAR2 access has been refused with RETRY and not been accepted since. -/
def State.hostRefused (s : State) : Bool := s.channels.any (fun c => c.2.refused.any (fun r => decide (r.src = .host)))

/-- R297: whether an access of the host waits in the hub behind a refused one. -/
def State.hostBlocked (s : State) : Bool := s.hostRefused || !s.hostWait.isEmpty

/-- R297: an access of the host waits in the hub behind those before it. -/
def State.hostWaits (s : State) (a : Instr) : State := { s with hostWait := s.hostWait ++ [a] }

/-- R297: an access of the host acts in its turn. -/
def State.inTurn (s : State) (a : Instr) (f : State → State) : State := if s.hostBlocked then s.hostWaits a else f s

/-- R248: whether a source holds a request back: it has refused requests at the channel that it has yet to resend, of which the first has
been accepted. -/
def State.holdsBack (s : State) (k : Nat) (r : MemReq) : Bool :=
  let mine := (s.chan k).refused.filter (fun x => decide (x.src.source = r.src.source))
  !mine.isEmpty && !mine.any (fun x => x.retry)

/-- A request reaches channel k (R245, R248). While its source has refused requests that it has not resent, a later request
is refused with them, or, once the first is accepted, is not yet sent. -/
def State.arrive (s : State) (k : Nat) (r : MemReq) (f : LineFound) : State :=
  if s.holdsBack k r then s
  else if s.refusedAt k r.src then s.refuse k { r with retry := false }
  else
    match s.admitLine k r f with
    | (s1, true) => s1
    | (s1, false) => s1.refuse k { r with retry := true }

/-- The request that a unit's access to a job address makes, or none where no map entry covers it (R240). -/
def State.reqFor (s : State) (t : Nat) (p : Nat) (addr : Nat) (src : ReqSrc) (act : MemAct) : Option (Nat × MemReq) :=
  match s.translate t addr with
  | none => none
  | some pl =>
    some (pl.channel, { src := src, part := BitVec.ofNat 2 p, page := BitVec.ofNat 27 (addr / 2 ^ 21), frame := pl.g,
                        addr := pl.chanAddr, act := act })

/-- R154: the pieces of a request that travel to channels, by offset and length: what lies in each line of one side of it. -/
def StrReq.lines (r : StrReq) (dst : Bool) : List (Nat × Nat) :=
  let a := r.side dst
  (List.range (ceilDiv (a % 64 + r.len) 64)).map (fun i =>
    let off := if i = 0 then 0 else 64 * i - a % 64
    (off, min (64 - (a + off) % 64) (r.len - off)))

/-- Whether a request has pieces before an offset that have not reached a channel and will. -/
def State.linesBefore (s : State) (k : Nat) (r : StrReq) (write : Bool) (lim chan : Nat) : Bool :=
  let x := s.ctx k
  let dst := x.onDst r write
  x.sends r write && !r.already && (r.lines dst).any (fun e =>
    decide (e.1 < lim) && !(if write then r.told else r.asked).contains e.1 && !r.dead dst e.1 &&
      decide (r.side dst / 2 ^ 60 = 0) && ((s.translate (ctxTower k) (r.side dst + e.1)).map Place.channel == some chan))

/-- R22: whether every piece that a context sent to a channel before this one has reached it. -/
def State.pieceTurn (s : State) (k i off : Nat) (write : Bool) (chan : Nat) : Bool :=
  let x := s.ctx k
  !((List.range i).any (fun j => match x.issued[j]? with | some q => s.linesBefore k q write q.len chan | none => false)) &&
    (match x.issued[i]? with | some r => !s.linesBefore k r write off chan | none => false)

/-- R154: the piece of a context's outstanding request at an offset, which no channel has yet. While the clock of the channel or of the
context is stopped the piece stays with its sender (01 R33 to R35, 16 R425, log 99). -/
def State.pieceOf (s : State) (k i off : Nat) (write : Bool) : Option (Nat × MemReq) :=
  let x := s.ctx k
  match x.issued[i]? with
  | none => none
  | some r =>
    let dst := x.onDst r write
    match (r.lines dst).find? (fun e => decide (e.1 = off)) with
    | none => none
    | some (_, n) =>
      let a := r.side dst + off
      let here := (List.range n).all (fun j => (r.data.get none (off + j)).isSome)
      let fits := decide (a / 2 ^ 60 = 0) && !r.already && !r.dead dst off && x.sends r write &&
        !(if write then r.told else r.asked).contains off && (!dst || here)
      if !fits then none
      else
        let bytes : List Byte :=
          if dst then (r.bytes.drop off).take n
          else match ctxCore k with
            | some c => (s.core c).regionBytes c x.desc (r.pos + off) n
            | none => []
        match s.reqFor (ctxTower k) (s.ctxPart k) a (.stream k r.pos off write) (if write then .write bytes else .read n) with
        | some q =>
          if s.pieceTurn k i off write q.1 && !s.holdsBack q.1 q.2 && !s.chanStopped q.1 && !s.ctxStopped k then some q else none
        | none => none

/-- A piece of a context's request has reached its channel. -/
def Ctx.reached (x : Ctx) (i off : Nat) (write : Bool) : Ctx :=
  match x.issued[i]? with
  | some r =>
    let r1 : StrReq := if write then { r with told := r.told ++ [off] } else { r with asked := r.asked ++ [off] }
    { x with issued := listSet x.issued i r1 }
  | none => x

/-- A request of a core's port reaches its channel: while the clock of either is stopped it stays with its sender (01 R33 to R35, 16 R425,
log 99); one whose route crosses a closed gate is refused where it is injected (01 R28, log 88). -/
def State.portRequest (s : State) (c : CoreId) (k : Nat) (r : MemReq) (f : LineFound) : State :=
  if s.chanStopped k || s.coreStopped c.val then s
  else if s.gateRefuses c.tower (chanTower k) then s.gateRefusal c.val else s.arrive k r f

/-- 16 R425: whether a context whose clock is stopped keeps a request that it has not sent. -/
def State.ctxHolds (s : State) (k i : Nat) : Bool :=
  s.ctxStopped k && !(match (s.ctx k).issued[i]? with | some r => r.sent | none => false)

/-- CHANNEL_REQUEST (R245, 06 R154, R173, R176, R177): a request reaches a channel controller, `f` being what the channel code finds in
its line; or a part of a context's request reaches its end outside partition memory. A request of a core's port at an address that no
entry covers never enters the mesh and faults there (R240). -/
def channelRequest (a : ChanArrival) (f : LineFound) (s : State) : State :=
  match a with
  | .stream k i off w =>
    match s.pieceOf k.val i.val off w with
    | some (c, r) => (s.modCtx k.val (fun x => x.reached i.val off w)).arrive c r f
    | none => s
  | .port c addr act =>
    match s.reqFor c.tower (s.partOfCore c.val) addr.toNat (.port c.val) act with
    | some (k, r) => s.portRequest c k r f
    | none => s.programFault (s.coreReport c.val 0x0602 0 addr.toNat 4)
  | .external k i second w host => if s.ctxHolds k.val i.val then s else s.external k i.val second w host f
  | .readBack k i => if s.ctxStopped k.val then s else s.readBack k i.val
  | .hostSend k i => s.hostSend k.val i.val

/-- MEMSIDE_OP (R257 to R259): a core's memory-side operation reaches the channel of its line. Outside space 0, and where no map entry
covers it (R240), it faults with PROTECTION (R258), which stops the job (15 R408). -/
def memsideOp (c : CoreId) (addr : BitVec 64) (code : BitVec 4) (mask : BitVec 64) (operand : BitVec 512) (f : LineFound)
    (s : State) : State :=
  if addr.toNat / 2 ^ 48 ≠ 0 then s.programFault (s.coreReport c.val 0x0602 0 addr.toNat 4)
  else
    match s.reqFor c.tower (s.partOfCore c.val) (addr.toNat / 64 * 64) (.port c.val)
        (.memside code mask (bytesOf operand.toNat 64)) with
    | some (k, r) => s.portRequest c k r f
    | none => s.programFault (s.coreReport c.val 0x0602 0 addr.toNat 4)

/-- R248: the oldest refused request of a source at a channel is resent with a retry mark. -/
def retryResend (k : ChannelId) (src : Fin 1026) (f : LineFound) (s : State) : State :=
  let c := s.chan k.val
  if s.chanStopped k.val then s else
  match c.refused.findIdx? (fun x => decide (x.src.source = src.val)) with
  | none => s
  | some i =>
    match c.refused[i]? with
    | none => s
    | some r =>
      match s.admitLine k.val r f with
      | (s1, true) => s1.setChan k.val { s1.chan k.val with refused := (s1.chan k.val).refused.eraseIdx i }
      | (s1, false) =>
        let c1 := s1.chan k.val
        let s2 := s1.setChan k.val { c1 with retryCount := c1.retryCount + 1, refused := listSet c1.refused i { r with retry := true } }
        s2.markRefused r.src

-- Frame tables ------------------------------------------------------------------------------------------------------------

/-- R247 step 4: the held requests of a frame that has become RW are applied in arrival order at each channel of its pair. -/
def State.applyHeld (s : State) (t g : Nat) : State :=
  [0, 1].foldl (fun a b =>
    let k := 32 * t + 2 * (g / 3072) + b
    let c := a.chan k
    let mine := c.hold.filter (fun r => decide (r.frame = g))
    mine.foldl (fun x r => x.serve k r r.found) (a.setChan k { c with hold := c.hold.filter (fun r => decide (r.frame ≠ g)) })) s

/-- A frame table entry written; held requests are applied where it has become RW. -/
def State.writeFrame (s : State) (t g : Nat) (f : Frame) : State :=
  let s1 := s.setFrame t g f
  if f.prot = .rw && f.present then s1.applyHeld t g else s1

/-- Table 09.3: FT.PROT of its code. -/
def Prot.ofCode (n : Nat) : Prot := match n with | 0 => .ro | 1 => .rw | 2 => .cowPending | _ => .reserved

/-- FRAME_TABLE_WRITE (R244, R246): firmware writes the entry of frame g of a tower; FT.TOUCHED is W1C. -/
def frameTableWrite (t : TowerId) (g : Fin 49152) (v : BitVec 64) (s : State) : State :=
  let n := v.toNat
  let old := s.frame t.val g.val
  s.writeFrame t.val g.val
    { jobPage := BitVec.ofNat 27 (bitsAt n 37 27), prot := Prot.ofCode (bitsAt n 35 2), present := n.testBit 34,
      touched := old.touched && !n.testBit 33, part := BitVec.ofNat 2 (bitsAt n 31 2) }

-- Refresh and scrub -------------------------------------------------------------------------------------------------------

/-- R253: whether refresh and scrub run in a tower. -/
def State.dramRuns (s : State) (t : Nat) : Bool :=
  !s.mod.inReset.getLsbD (quadOfTower t) &&
    (match (s.part (s.partOfTower t)).power.state with | .run => true | .doze => true | .park => true | _ => false)

/-- REFRESH_SLOT (R250): a channel refreshes its next rows; `temp` is its DRAM die's sensor. Above 85 °C the period halves, and
below 80 °C it returns, both lowered by the user calibration's cut (16 R432, log 112); either change, and a period that stays halved (16
R431), mark the step of the partition's cores. -/
def refreshSlot (k : ChannelId) (temp : BitVec 8) (s : State) : State :=
  let c := s.chan k.val
  let t := chanTower k.val
  if !s.dramRuns t || s.chanStopped k.val then s
  else
    let limit := s.pwr.fac.limits.refresh
    let seen := temp.toNat + s.pwr.dramCut t
    let two := if limit < seen then true else if seen + 5 < limit then false else c.ref2x
    let s1 := s.setChan k.val { c with temp := temp, ref2x := two, refreshSlot := (c.refreshSlot + 1) % 8192 }
    if !two && !c.ref2x then s1
    else s1.modCoresOf (s.partOfTower t) (fun q => q.rptSet (fun x => { x with clock := true }))

/-- The partition and job page of a frame that a job uses. -/
def State.frameOwner (s : State) (t g : Nat) : Option (Nat × Nat) :=
  let f := s.frame t g
  if f.present then some (f.part.toNat, f.jobPage.toNat) else none

/-- One line of a scrub slot (Table 09.5). -/
def State.scrubLine (s : State) (k addr : Nat) (corrected bad : Bool) : State :=
  let c := s.chan k
  if bad || c.poisoned.contains addr then
    s.dramUe k addr (s.frameOwner (chanTower k) (3072 * (k % 32 / 2) + addr / 2 ^ 20))
  else if corrected then s.setChan k { c with ceCount := satAdd c.ceCount 1 }
  else s

/-- SCRUB_SLOT (R251, R254): a patrol scrub slot reads the next row's 32 lines; the masks say which lines the code corrects
and finds uncorrectable, `odecc` is the die's count of corrections. -/
def scrubSlot (k : ChannelId) (corrected bad : BitVec 32) (odecc : Nat) (s : State) : State :=
  if !s.dramRuns (chanTower k.val) || s.chanStopped k.val then s
  else
    let row := (s.chan k.val).scrubRow
    let s1 := (List.range 32).foldl (fun a i => a.scrubLine k.val (2048 * row + 64 * i) (corrected.getLsbD i) (bad.getLsbD i)) s
    let c := s1.chan k.val
    let wrap := decide (row + 1 = 1572864)
    s1.setChan k.val { c with odeccCount := satAdd c.odeccCount odecc, scrubRow := if wrap then 0 else row + 1,
                              scrubPasses := if wrap then c.scrubPasses + 1 else c.scrubPasses }

/-- CHANNEL_REQUEST. -/
def execChannelRequest (a : ChanArrival) (f : LineFound) (s : State) : Host.Outcome State Fault Refusal :=
  .next (channelRequest a f s)
/-- MEMSIDE_OP. -/
def execMemsideOp (c : CoreId) (addr : BitVec 64) (code : BitVec 4) (mask : BitVec 64) (operand : BitVec 512)
    (f : LineFound) (s : State) : Host.Outcome State Fault Refusal := .next (memsideOp c addr code mask operand f s)
/-- FRAME_TABLE_WRITE. -/
def execFrameTableWrite (t : TowerId) (g : Fin 49152) (v : BitVec 64) (s : State) : Host.Outcome State Fault Refusal :=
  .next (frameTableWrite t g v s)
/-- REFRESH_SLOT. -/
def execRefreshSlot (k : ChannelId) (temp : BitVec 8) (s : State) : Host.Outcome State Fault Refusal :=
  .next (refreshSlot k temp s)
/-- SCRUB_SLOT. -/
def execScrubSlot (k : ChannelId) (corrected bad : BitVec 32) (odecc : Nat) (s : State) :
    Host.Outcome State Fault Refusal := .next (scrubSlot k corrected bad odecc s)

end Sys2Proof.Machine
end

