-- ==== Sys2Proof/Machine/FarTier.lean ====
section
/-! DEFINITION. The far tier (09 R260 to R265, 11 R319): resolution of absent pages, eviction, and the CXL links. -/

namespace Sys2Proof.Machine

/-- A CXL root port. -/
def State.cxlPort (s : State) (i : Nat) : CxlPort := s.cxl.get {} i
/-- The state with a CXL root port replaced. -/
def State.setCxlPort (s : State) (i : Nat) (x : CxlPort) : State := { s with cxl := s.cxl.set {} i x }

/-- R319: the quota of a partition on a port. -/
def Jcp.quota (j : Jcp) (port : Nat) : Nat := if port = 0 then j.farQuota0.toNat else j.farQuota1.toNat

/-- The device pages of a port that a partition uses. -/
def CxlPort.usedBy (x : CxlPort) (p : Nat) : Nat := (x.used.filter (fun u => decide (u.part = p))).length

/-- The lowest device page of a port that is in use by no page: the head of its free list (log 30). -/
def CxlPort.freePage (x : CxlPort) : Option Nat :=
  (List.range x.pages).find? (fun d => !x.used.any (fun u => decide (u.dpa = d)))

/-- R263 step 4, R319: a device page that a partition may take from a port. -/
def State.takePage (s : State) (p port : Nat) : Option Nat :=
  let x := s.cxlPort port
  if x.linkUp && decide (x.usedBy p < (s.part p).jcp.quota port) then x.freePage else none

/-- Far page of a fault address in space 1. -/
def farPageOf (a : Nat) : Option (Nat × Nat) :=
  if a / 2 ^ 60 = 1 then (farDecode (a % 2 ^ 60)).map (fun x => (x.1, x.2.1)) else none

/-- A context's number as its key. -/
def ctxKey (k : Nat) : CtxKey := ⟨k % 4608, Nat.mod_lt _ (by decide)⟩

/-- R263 step 7: STR.RESUME for every context of a partition halted on a far page. -/
def State.resumeFar (s : State) (p port page : Nat) : State :=
  s.ctxs.foldl (fun a x =>
    if decide (s.ctxPart x.1 = p) && decide (x.2.state = .halted) && decide (farPageOf x.2.faultAddr.toNat = some (port, page)) then
      strResume (ctxKey x.1) a
    else a) s

/-- R263 step 4: a resolution takes a device page, or waits. -/
def State.startFill (s : State) (p : Nat) (r : FarRes) : State :=
  match s.takePage p r.port with
  | some d =>
    let x := s.cxlPort r.port
    (s.setCxlPort r.port { x with used := x.used ++ [{ part := p, page := r.page, dpa := d }] }).modPart p (fun k =>
      { k with far := k.far ++ [{ r with dpa := some d }] })
  | none => s.modPart p (fun k => { k with far := k.far ++ [{ r with dpa := none }] })

/-- R263 step 4: resolutions that wait try again once pages have been returned. -/
def State.retryFar (s : State) (p : Nat) : State :=
  let waiting := (s.part p).far.filter (fun r => r.dpa.isNone)
  let s1 := s.modPart p (fun k => { k with far := k.far.filter (fun r => r.dpa.isSome) })
  waiting.foldl (fun a r => a.startFill p r) s1

/-- Every partition's waiting resolutions try again. -/
def State.retryAllFar (s : State) : State := (List.range 4).foldl (fun a p => a.retryFar p) s

/-- R263: a far-tier fault that cannot be resolved stops the job with FAR_UNMAPPED. -/
def State.farUnmapped (s : State) (p addr : Nat) : State :=
  s.programFault { code := 0x0902, kind := 0, info := addr, part := some p } 0x24

/-- FAR_FAULT_RESOLVE (R263): the module controller resolves the NOT_PRESENT fault of a context halted on a far page: it joins
a resolution in progress, finds the page present, stops the job, or takes a device page and starts its fill. A page being
evicted is resolved once the eviction has completed (R264). -/
def farFaultResolve (k : CtxKey) (s : State) : State :=
  let x := s.ctx k.val
  let p := s.ctxPart k.val
  if !(x.state = .halted && x.faultCode = 0x0601) then s
  else
    match farPageOf x.faultAddr.toNat with
    | none => s
    | some (port, page) =>
      s.whenFtt p port page fun s =>
      let f := s.ftt p port page
      if (s.part p).far.any (fun r => decide (r.port = port) && decide (r.page = page)) then s
      else if (s.part p).evict = some (port, page) then s
      else if f.present then s.resumeFar p port page
      else if f.fill = 0 || f.fill = 3 || !(s.cxlPort port).linkUp then s.farUnmapped p (x.faultAddr.toNat % 2 ^ 60)
      else
        let s1 := s.startFill p { port := port, page := page }
        if (s.takePage p port).isSome then s1
        else (s1.logError { code := 0x0903, kind := 10, unit := port, detail := port, part := some p }).jobEvent p 5

/-- Bytes of a device page. -/
def farPageBytes (m : List Host.Cell) (key : Nat) : List Byte := (List.range (2 ^ 21)).map (fun i => FMap.get (0 : Byte) m (key + i))

/-- FAR_FILL_COMPLETE (R263): a bulk mover ends the fill of a device page, with zeros or with the bytes that the host window
gives; the entry is marked present and halted contexts resume. A fill from a window that takes no request of the partition
does not complete. -/
def farFillComplete (p : PartId) (port : Fin 2) (page : Fin 2097152) (host : List Byte) (s : State) : State :=
  match (s.part p.val).far.find? (fun r => decide (r.port = port.val) && decide (r.page = page.val) && r.dpa.isSome) with
  | none => s
  | some r =>
    s.whenFtt p.val port.val page.val fun s =>
    let f := s.ftt p.val port.val page.val
    let off := 2 ^ 21 * f.srcPage
    if f.fill = 2 && !((s.window f.window).takes p.val off (2 ^ 21) && decide (host.length = 2 ^ 21)) then s
    else
      let d := r.dpa.getD 0
      let bs := if f.fill = 2 then host else List.replicate (2 ^ 21) 0
      let s1 : State := { s with far := dramWrite s.far (farKey port.val d 0) bs }
      let s2 := s1.setFtt p.val port.val page.val { f with present := true, dirty := false, dpaPage := d }
      let s3 := s2.modPart p.val (fun k => { k with far := k.far.filter (fun q =>
        !(decide (q.port = port.val) && decide (q.page = page.val))) })
      s3.resumeFar p.val port.val page.val

/-- R319: an eviction is refused: JCP.EVICT_STATUS reads refused. -/
def State.refuseEvict (s : State) (p : Nat) : State :=
  ((s.modPart p (fun k => { k with evict := none })).modJcp p (fun x => { x with evictStatus := 3 })).jobEvent p 6

/-- R319: an eviction is under way: JCP.EVICT_STATUS reads busy. -/
def State.evicting (s : State) (p port page : Nat) : State :=
  (s.modPart p (fun k => { k with evict := some (port, page) })).modJcp p (fun x => { x with evictStatus := 1 })

/-- R264 step 1: the eviction of a page begins where its entry, as it is read, names a resident page that may leave. -/
def State.beginEvict (s : State) (p port page : Nat) : State :=
  let f := s.ftt p port page
  if !f.present || (f.dirty && decide (f.fill ≠ 2)) then s.refuseEvict p
  else (s.setFtt p port page { f with present := false }).evicting p port page

/-- Whether the module controller's read of a far page's entry waits behind requests that are held (09 R247 step 3). -/
def State.fttHeld (s : State) (p port page : Nat) : Bool :=
  (s.cowPlaces p [(s.fttAddr p port page, 8)]).any (fun pl => s.frameHeld pl.tower pl.g)

/-- FAR_EVICT (R319, R264): a write to JCP.FAR_EVICT starts the eviction of a resident page; JCP.EVICT_STATUS reads busy, or
refused. While it reads busy the write is ignored. A page whose entry cannot be read is not resident; while the read waits the status
reads busy, and EVICT_COMPLETE begins the eviction (log 30). -/
def farEvict (p : PartId) (addr : BitVec 64) (s : State) : State :=
  if (s.part p.val).jcp.evictStatus = 1 then s
  else
    match farPageOf addr.toNat with
    | none => s.refuseEvict p.val
    | some (port, page) =>
      match s.readFault p.val (s.fttAddr p.val port page) 8 with
      | some e => if e.1 = 0x0607 then (s.whenFtt p.val port page id).refuseEvict p.val else s.refuseEvict p.val
      | none => if s.fttHeld p.val port page then s.evicting p.val port page else s.beginEvict p.val port page

/-- R264 step 2: whether a request to a far page of a partition is outstanding. -/
def State.farBusy (s : State) (p port page : Nat) : Bool :=
  s.ctxs.any (fun x => decide (s.ctxPart x.1 = p) && x.2.issued.any (fun r => r.fault.isNone && r.refused.isNone && !r.already &&
    (decide (farPageOf r.addr.toNat = some (port, page)) || (x.2.desc.kind.isCopy && decide (farPageOf r.dst.toNat = some (port, page))))))

/-- A device page returned to its port's free list. -/
def State.returnPage (s : State) (p port page : Nat) : State :=
  let x := s.cxlPort port
  s.setCxlPort port { x with used := x.used.filter (fun u => !(decide (u.part = p) && decide (u.page = page))) }

/-- Whether a device page of a port is in use by a far page that is not being filled. -/
def State.farHeld (s : State) (p port page : Nat) : Bool :=
  (s.cxlPort port).used.any (fun u => decide (u.part = p) && decide (u.page = page)) &&
    !(s.part p).far.any (fun r => decide (r.port = port) && decide (r.page = page))

/-- EVICT_COMPLETE (R264): with no request to the page outstanding, a dirty page is copied back to its host window, its device
page returns to the free list, and JCP.EVICT_STATUS reads done. An eviction whose entry could not be read as it was asked begins here;
one whose window takes no request of the partition does not complete (11 R314), and one whose page is no longer resident is refused
(log 30). -/
def evictComplete (p : PartId) (s : State) : State :=
  match (s.part p.val).evict with
  | none => s
  | some (port, page) =>
    if s.farBusy p.val port page then s
    else if !s.farHeld p.val port page then s.refuseEvict p.val
    else s.whenFtt p.val port page fun s =>
      let f := s.ftt p.val port page
      let back := f.dirty && decide (f.fill = 2)
      if f.present then s.beginEvict p.val port page
      else if back && !(s.window f.window).takes p.val (2 ^ 21 * f.srcPage) (2 ^ 21) then s
      else
      let s1 : State := if back then
          { s with out := s.out ++ [.hostWrite f.window (2 ^ 21 * f.srcPage) (farPageBytes s.far (farKey port f.dpaPage 0))] }
        else s
      let s2 := (s1.setFtt p.val port page { f with present := false, dirty := false }).returnPage p.val port page
      let s3 := (s2.modPart p.val (fun k => { k with evict := none })).modJcp p.val (fun x => { x with evictStatus := 2 })
      (s3.jobEvent p.val 6).retryAllFar

/-- Whether a request uses a CXL port. -/
def StrReq.usesPort (r : StrReq) (copy : Bool) (port : Nat) : Bool :=
  let on (a : BitVec 64) : Bool := match farPageOf a.toNat with | some x => decide (x.1 = port) | none => false
  r.fault.isNone && r.refused.isNone && !r.already && (on r.addr || (copy && on r.dst))

/-- R265: the outstanding requests of every context to a port fault with TIMEOUT. -/
def State.timeoutPort (s : State) (port : Nat) : State :=
  s.ctxs.foldl (fun a x => (List.range x.2.issued.length).foldl (fun b i =>
    if (match x.2.issued[i]? with | some r => r.usesPort x.2.desc.kind.isCopy port | none => false) then b.timeoutReq x.1 i else b) a) s

/-- CXL_LINK_DOWN (R265): a port's link goes down: its outstanding requests time out, every page of the port is marked not
present and returned, and resolutions on the port end. -/
def cxlLinkDown (port : Fin 2) (s : State) : State :=
  let x := s.cxlPort port.val
  if !x.linkUp then s
  else
    let s1 := s.timeoutPort port.val
    let s2 := x.used.foldl (fun a u =>
      let f := a.ftt u.part port.val u.page
      if f.present then a.setFtt u.part port.val u.page { f with present := false, dirty := false } else a) s1
    let s3 := s2.setCxlPort port.val { x with linkUp := false, used := [] }
    let s4 := (List.range 4).foldl (fun a p => a.modPart p (fun k => { k with
      far := k.far.filter (fun r => decide (r.port ≠ port.val)) })) s3
    s4.logError { code := 0x0904, kind := 10, unit := port.val, detail := port.val, info := x.used.length }

/-- CXL_LINK_RETRAIN (R265, Table 11.4): a port's link trains, with its device's pages; later faults on its pages refill. -/
def cxlLinkRetrain (port : Fin 2) (pages : Fin 2097153) (s : State) : State :=
  let x := s.cxlPort port.val
  if x.linkUp then s else (s.setCxlPort port.val { x with linkUp := true, pages := pages.val }).retryAllFar

/-- FAR_FAULT_RESOLVE. -/
def execFarFaultResolve (k : CtxKey) (s : State) : Host.Outcome State Fault Refusal := .next (farFaultResolve k s)
/-- FAR_FILL_COMPLETE. -/
def execFarFillComplete (p : PartId) (port : Fin 2) (page : Fin 2097152) (host : List Byte) (s : State) :
    Host.Outcome State Fault Refusal := .next (farFillComplete p port page host s)
/-- FAR_EVICT. -/
def execFarEvict (p : PartId) (addr : BitVec 64) (s : State) : Host.Outcome State Fault Refusal :=
  .next (s.inTurn (.farEvict p addr) (farEvict p addr))
/-- EVICT_COMPLETE. -/
def execEvictComplete (p : PartId) (s : State) : Host.Outcome State Fault Refusal := .next (evictComplete p s)
/-- CXL_LINK_DOWN. -/
def execCxlLinkDown (port : Fin 2) (s : State) : Host.Outcome State Fault Refusal := .next (cxlLinkDown port s)
/-- CXL_LINK_RETRAIN. -/
def execCxlLinkRetrain (port : Fin 2) (pages : Fin 2097153) (s : State) : Host.Outcome State Fault Refusal :=
  .next (cxlLinkRetrain port pages s)

end Sys2Proof.Machine
end

