-- ==== Sys2Proof/Machine/Records.lean ====
section
/-! DEFINITION. The records of a snapshot: manifests, commit records and intent records, slots of the partner region and of the
flash, the catalogue page (12 R336 to R343, 13 R373). -/

namespace Sys2Proof.Machine

/-- R336: bytes of a slot's header area. -/
def headerArea : Nat := 2 ^ 25
/-- R336: where the manifest starts in a slot. -/
def manifestOff : Nat := 4096

-- Records -----------------------------------------------------------------------------------------------------------------

/-- R277: 512 bits with bits [31:0] replaced by the CRC over bits [511:32]. -/
def withCrc (n : Nat) : Nat := n / 2 ^ 32 * 2 ^ 32 + (crc32 (bytesOf (n / 2 ^ 32) 60)).toNat
/-- Whether a record's CRC and magic are right. -/
def recordOk (magic n : Nat) : Bool :=
  decide (bitsAt n 480 32 = magic) && decide (bitsAt n 0 32 = (crc32 (bytesOf (n / 2 ^ 32) 60)).toNat)

/-- Table 12.8: a commit record's fields. -/
structure Cm where
  id : BitVec 64 := 0
  step : BitVec 64 := 0
  digest : BitVec 256 := 0
  pages : BitVec 32 := 0
  seq : BitVec 16 := 0
  tier : BitVec 4 := 0
  slot : BitVec 4 := 0
  ride : Bool := false
  signed : Bool := false
  deriving DecidableEq, Repr

/-- Table 12.8's 512 bits. -/
def Cm.toNat (c : Cm) : Nat :=
  withCrc (bitOf c.signed * 2 ^ 32 + bitOf c.ride * 2 ^ 33 + c.slot.toNat * 2 ^ 40 + c.tier.toNat * 2 ^ 44 + c.seq.toNat * 2 ^ 48 +
    c.pages.toNat * 2 ^ 64 + c.digest.toNat * 2 ^ 96 + c.step.toNat * 2 ^ 352 + c.id.toNat * 2 ^ 416 + 0x534E4150 * 2 ^ 480)

/-- R339: the commit record in 512 bits, if a snapshot exists there. -/
def Cm.ofNat (n : Nat) : Option Cm :=
  if recordOk 0x534E4150 n then
    some { id := BitVec.ofNat 64 (bitsAt n 416 64), step := BitVec.ofNat 64 (bitsAt n 352 64),
           digest := BitVec.ofNat 256 (bitsAt n 96 256), pages := BitVec.ofNat 32 (bitsAt n 64 32),
           seq := BitVec.ofNat 16 (bitsAt n 48 16), tier := BitVec.ofNat 4 (bitsAt n 44 4), slot := BitVec.ofNat 4 (bitsAt n 40 4),
           ride := n.testBit 33, signed := n.testBit 32 }
  else none

/-- 13 Table 13.7: an intent record. -/
def intentRecord (id step : BitVec 64) (slot part : Nat) : Nat :=
  withCrc (part % 4 * 2 ^ 346 + slot % 16 * 2 ^ 348 + step.toNat * 2 ^ 352 + id.toNat * 2 ^ 416 + 0x494E5445 * 2 ^ 480)

/-- Table 12.7: an entry of a manifest. -/
structure Me where
  digest : BitVec 256 := 0
  page : Nat := 0
  frozen : Bool := false
  ride : Bool := false
  jobState : Bool := false
  deriving DecidableEq, Repr

/-- Table 12.7's 384 bits. -/
def Me.toNat (e : Me) : Nat :=
  bitOf e.jobState * 2 ^ 98 + bitOf e.ride * 2 ^ 99 + bitOf e.frozen * 2 ^ 100 + e.page % 2 ^ 27 * 2 ^ 101 + e.digest.toNat * 2 ^ 128

/-- Table 12.7 read from 384 bits. -/
def Me.ofNat (n : Nat) : Me :=
  { digest := BitVec.ofNat 256 (bitsAt n 128 256), page := bitsAt n 101 27, frozen := n.testBit 100, ride := n.testBit 99,
    jobState := n.testBit 98 }

/-- Table 12.7: a manifest header. -/
structure Mf where
  id : BitVec 64 := 0
  step : BitVec 64 := 0
  imageId : BitVec 64 := 0
  epoch : BitVec 32 := 0
  pages : BitVec 32 := 0
  member : BitVec 12 := 0
  share : BitVec 16 := 0
  variant : BitVec 4 := 0
  sigLen : BitVec 16 := 0
  deriving DecidableEq, Repr

/-- Table 12.7's 1,024 bits. -/
def Mf.toNat (m : Mf) : Nat :=
  m.sigLen.toNat * 2 ^ 688 + m.variant.toNat * 2 ^ 704 + m.share.toNat * 2 ^ 708 + m.member.toNat * 2 ^ 724 + m.pages.toNat * 2 ^ 736 +
    m.epoch.toNat * 2 ^ 768 + m.imageId.toNat * 2 ^ 800 + m.step.toNat * 2 ^ 864 + m.id.toNat * 2 ^ 928 + 0x4D414E46 * 2 ^ 992

/-- The header of a manifest; none without its magic. -/
def Mf.ofBytes (bs : List Byte) : Option Mf :=
  let n := Machine.ofBytes (bs.take 128)
  if bitsAt n 992 32 = 0x4D414E46 then
    some { id := BitVec.ofNat 64 (bitsAt n 928 64), step := BitVec.ofNat 64 (bitsAt n 864 64),
           imageId := BitVec.ofNat 64 (bitsAt n 800 64), epoch := BitVec.ofNat 32 (bitsAt n 768 32),
           pages := BitVec.ofNat 32 (bitsAt n 736 32), member := BitVec.ofNat 12 (bitsAt n 724 12),
           share := BitVec.ofNat 16 (bitsAt n 708 16), variant := BitVec.ofNat 4 (bitsAt n 704 4),
           sigLen := BitVec.ofNat 16 (bitsAt n 688 16) }
  else none

/-- Entry i of a manifest. -/
def manifestEntry (bs : List Byte) (i : Nat) : Me := Me.ofNat (Machine.ofBytes ((bs.drop (128 + 48 * i)).take 48))
/-- The number of pages of a manifest. -/
def manifestPages (bs : List Byte) : Nat := match Mf.ofBytes bs with | some m => m.pages.toNat | none => 0
/-- R337: the bytes of a manifest with its signature block. -/
def Mf.size (m : Mf) : Nat := 128 + 48 * m.pages.toNat + m.sigLen.toNat

/-- R338: what the signature of a manifest is made over: SHAKE256 of its header and entries. -/
def manifestDigest (bs : List Byte) : BitVec 256 := digestOf (bs.take (128 + 48 * manifestPages bs))

/-- R338, 14 R384: the signature block that stands behind the entries of a manifest, with the message that its signature was made over. Its
certificate is this module's own, which a class 3 key has issued, or none that such a key has (14 Table 14.2). -/
def Firmware.manifestBlock (f : Firmware) (h : HeaderArea) : SigBlock :=
  let b := SigBlock.ofBytes (h.manifest.drop (128 + 48 * manifestPages h.manifest)) none h.sigMsg
  { b with issuerMsg := if b.certificate = (padTo 3392 f.identityCert).take 3392 then f.identityIssued else none }

/-- R339, R350, 14 R387, 18 X15: a header area's snapshot, where its commit record, its manifest digest and, where it is signed, every check of
its signature are right for a tier. -/
def HeaderArea.good (h : HeaderArea) (f : Firmware) (id : BitVec 64) (tier : Nat) : Option Mf :=
  match Cm.ofNat h.commit.toNat, Mf.ofBytes h.manifest with
  | some c, some m =>
    if decide (c.id = id) && decide (c.tier.toNat = tier) && decide (digestOf (h.manifest.take m.size) = c.digest) &&
        (decide (m.sigLen = 0) || (decide (m.sigLen = 8192) &&
          (f.sigCheck .manifest (manifestDigest h.manifest) [7] (f.manifestBlock h)).isNone)) then some m
    else none
  | _, _ => none

-- Slots -------------------------------------------------------------------------------------------------------------------

/-- R326, R336: the job address of slot k of a partner region. -/
def SnapPlan.slotBase (x : SnapPlan) (k : Nat) : Nat := x.partnerBase.toNat + k * ((16 + x.partnerPages.toNat) * 2 ^ 21)

/-- R340, 13 Table 13.7: a byte of flash slot n, 0 to 7: area a holds slots 2a and 2a + 1. -/
def flashKey (slot off : Nat) : Nat := slot * 2 ^ 40 + off
/-- Bytes of a flash slot. -/
def State.flashBytes (s : State) (slot off n : Nat) : List Byte :=
  (List.range n).map (fun i => FMap.get (0 : Byte) s.flash (flashKey slot (off + i)))
/-- Bytes written to a flash slot. -/
def State.setFlash (s : State) (slot off : Nat) (bs : List Byte) : State := { s with flash := dramWrite s.flash (flashKey slot off) bs }
/-- The commit record of a flash slot. -/
def State.flashCm (s : State) (slot : Nat) : Option Cm := Cm.ofNat (ofBytes (s.flashBytes slot 0 64))
/-- R340: the flash slots of a partition. -/
def State.flashSlots (s : State) (p : Nat) : List Nat := (s.quadsOf p).flatMap (fun q => [2 * q, 2 * q + 1])

/-- 15 R415: whether a flash area of a partition's quadrants is fenced, so that its flash and Serge snapshots are skipped. -/
def State.flashFenced (s : State) (p : Nat) : Bool := (s.quadsOf p).any (fun q => s.gh.fenced 12 q)

/-- R340: the slot that the next flash snapshot goes into: one without a snapshot, else the oldest, of those that no Serge
snapshot pins; none where all are pinned. -/
def State.freeFlash (s : State) (p : Nat) : Option Nat :=
  let l := (s.flashSlots p).filter (fun n => !(s.part p).job.serge.any (fun r => decide (r.slot = n)))
  let age (n : Nat) : Nat := match s.flashCm n with | some c => (s.flashSeq - c.seq).toNat | none => 2 ^ 16
  l.foldl (fun b n => match b with | some m => if age m < age n then some n else b | none => some n) none

/-- Table 12.9: the catalogue page as a job starts: no job-complete snapshot, and the flash slots that hold one. -/
def State.openCatalogue (s : State) (p : Nat) : State :=
  match s.plan p with
  | none => s
  | some x =>
    let a := x.catalogue.toNat
    let s1 := (s.postQuiet p a (bytesOf (2 ^ 64 - 1) 8)).postQuiet p (a + 8) (bytesOf 0 8)
    let s2 := (List.range 16).foldl (fun b i => b.postQuiet p (a + 0x40 + 32 * i) (bytesOf 0 32)) s1
    (s.flashSlots p).foldl (fun b n => match s.flashCm n with
      | some c => b.setCatEntry p (2 + n) c.id c.step 2 n 2
      | none => b) s2

end Sys2Proof.Machine
end

