-- ==== Sys2Proof/Machine/FwOps.lean ====
section
/-! DEFINITION. Checks of firmware images, slots, selectors and tokens (14 R387 to R400). -/

namespace Sys2Proof.Machine

/-- How many of the low `n` bits of a number are set. -/
def popCount (n v : Nat) : Nat := ((List.range n).filter (fun i => v.testBit i)).length

/-- 14 R387: AUTH_FAIL, written for an object that the security core refuses: the failing check, the signer's hash. -/
def State.authFail (s : State) (check : Nat) (b : SigBlock) : State :=
  s.logError { code := 0x0E01, kind := 6, unit := 76, detail := check, info := b.signerHash.toNat % 2 ^ 64, action := 6 }

/-- AUTH_FAIL where a check of R387 failed. -/
def State.authFailIf (s : State) (check : Option Nat) (b : SigBlock) : State :=
  match check with | some n => s.authFail n b | none => s

-- Images ------------------------------------------------------------------------------------------------------------------

/-- Table 14.9: FWH.PARTS. -/
def FwImage.partCount (i : FwImage) : Nat := bitsAt i.bits 136 8
/-- Table 14.10: PART.TARGET of part k. -/
def FwImage.partTarget (i : FwImage) (k : Nat) : Nat := bitsAt i.bits (1024 + 384 * k) 8
/-- Table 14.10: PART.DIGEST of part k. -/
def FwImage.partDigest (i : FwImage) (k : Nat) : BitVec 256 := BitVec.ofNat 256 (bitsAt i.bits (1152 + 384 * k) 256)

/-- R389: whether a part lies in the region of its target; a reserved target has none. -/
def FwImage.partPlaced (i : FwImage) (k : Nat) : Bool :=
  let off := bitsAt i.bits (1088 + 384 * k) 32
  let stop := off + bitsAt i.bits (1120 + 384 * k) 32
  match i.partTarget k with
  | 0 | 1 => decide (0x10000 ≤ off) && decide (stop ≤ 0x10000 + 8 * 2 ^ 20)
  | 2 | 3 | 4 => decide (0x810000 ≤ off) && decide (stop ≤ 0x810000 + 18 * 2 ^ 20)
  | _ => false

/-- R389: whether the header lists a part of targets 0, 2 and 3, each part in its region. -/
def FwImage.partsOk (i : FwImage) : Bool :=
  let ks := List.range i.partCount
  [0, 2, 3].all (fun t => ks.any (fun k => decide (i.partTarget k = t))) && ks.all i.partPlaced

/-- Whether the bytes of every part of some targets hash to PART.DIGEST. -/
def FwImage.digestsOk (i : FwImage) (targets : List Nat) : Bool :=
  (List.range i.partCount).all (fun k => !targets.contains (i.partTarget k) || decide (i.digests.getD k 0 = i.partDigest k))

/-- R383, Table 14.4: the classes whose keys sign firmware headers. -/
def Firmware.headerClasses (f : Firmware) : List Nat := if f.production then [2] else [2, 4]

/-- R392 step 3: why a header is refused: the BOOT_FAIL code, and the check of R387 that failed, if one did. -/
def Firmware.headerCheck (f : Firmware) (minSvn : Nat) (i : FwImage) (commit : BitVec 256) : Option (Nat × Option Nat) :=
  match f.sigCheck .firmware i.digest f.headerClasses i.sig with
  | some 3 => some (3, some 3)
  | some n => some (2, some n)
  | none =>
    if i.svn < minSvn then some (3, none)
    else if !i.bits.testBit (if f.production then 111 else 110) then some (2, none)
    else if i.digest ≠ commit then some (4, none)
    else none

/-- R392 step 4: the hub region. A header without FWH.MAGIC lists no parts (log 103). -/
def FwImage.hubCheck (i : FwImage) : Option Nat :=
  if i.readError then some 5 else if decide (i.magic ≠ 0x4657494D) || !i.partsOk || !i.digestsOk [0, 1] then some 4 else none
/-- R392 step 6: the control region. -/
def FwImage.ctlCheck (i : FwImage) : Option Nat := if i.ctlError then some 5 else if !i.digestsOk [2, 3, 4] then some 4 else none

/-- R382: the lowest security version that module firmware may have. -/
def Firmware.minSvn (f : Firmware) : Nat := popCount 64 f.loaded.fwSvn.value.toNat

-- The records of NOR ------------------------------------------------------------------------------------------------------

/-- R388, Table 14.8: the areas of the NOR flash. -/
inductive NorArea where
  | selector (copy : Fin 2) | rootKey | owner | identity | mgmtSlot (b : Bool) | factory | userCal | moduleSlot (b : Bool)
  deriving DecidableEq, Repr

/-- Table 14.8: the offset and the size of an area, in units of 64 KiB. -/
def NorArea.span : NorArea → Nat × Nat
  | .selector c => (c.val, 1) | .rootKey => (2, 1) | .owner => (3, 2) | .identity => (5, 1)
  | .mgmtSlot b => (if b then 0x50 else 0x10, 64) | .factory => (0x100, 64) | .userCal => (0x140, 32)
  | .moduleSlot b => (if b then 0x400 else 0x200, 512)

/-- Table 14.11: FC.HEADER_DIGEST of a record. -/
def fcDigest (w : BitVec 512) : BitVec 256 := BitVec.ofNat 256 (bitsAt w.toNat 224 256)

/-- Table 14.11: the magic of a commit record, and of an intent record. -/
def fcCommit : Nat := 0x4657434D
/-- Table 14.11: the magic of an intent record. -/
def fcIntent : Nat := 0x4657494E

/-- Table 14.11's 512 bits. -/
def FwRec.word (r : FwRec) (magic : Nat) : BitVec 512 :=
  BitVec.ofNat 512 (withCrc (r.seq.toNat * 2 ^ 176 + r.version.toNat * 2 ^ 192 + r.digest.toNat * 2 ^ 224 + magic * 2 ^ 480))

/-- R390, Table 14.11: the record that a word is; none without its magic or with a wrong FC.CRC. -/
def FwRec.ofWord (magic : Nat) (w : BitVec 512) : Option FwRec :=
  if recordOk magic w.toNat then
    some { digest := fcDigest w, version := BitVec.ofNat 32 (bitsAt w.toNat 192 32), seq := BitVec.ofNat 16 (bitsAt w.toNat 176 16) }
  else none

/-- R389: the valid commit record of a slot. -/
def FwSlot.committed (x : FwSlot) : Option FwRec := FwRec.ofWord fcCommit x.commit

/-- Table 14.12's 512 bits. -/
def Selector.word (x : Selector) : BitVec 512 :=
  BitVec.ofNat 512 (withCrc (bitOf x.slot * 2 ^ 32 + bitOf x.mgmtSlot * 2 ^ 36 + bitOf x.trial * 2 ^ 37 + x.trialLeft.toNat * 2 ^ 38 +
    x.seq.toNat * 2 ^ 64 + 0x4653454C * 2 ^ 96))

/-- R391, Table 14.12: the selector that a word is; none without its magic or with a wrong FSEL.CRC. -/
def Selector.ofWord (w : BitVec 512) : Option Selector :=
  let n := w.toNat
  if decide (bitsAt n 96 32 = 0x4653454C) && decide (withCrc n = n) then
    some { seq := BitVec.ofNat 32 (bitsAt n 64 32), trialLeft := BitVec.ofNat 2 (bitsAt n 38 2), trial := n.testBit 37,
           mgmtSlot := n.testBit 36, slot := n.testBit 32 }
  else none

/-- R392 steps 3 to 6 on an image that is received whole, as a slot is laid out (R389). -/
def Firmware.supplyCheck (f : Firmware) (x : FwSupply) : Option (Nat × Option Nat) :=
  if x.readError then some (5, none)
  else match f.headerCheck f.minSvn x.image (fcDigest x.commit) with
    | some r => some r
    | none => match x.image.hubCheck with
      | some n => some (n, none)
      | none => x.image.ctlCheck.map (fun n => (n, none))

/-- R392 steps 2 to 5 on a slot. -/
def Firmware.slotCheck (f : Firmware) (x : FwSlot) : Option (Nat × Option Nat) :=
  match x.committed with
  | none => some (1, none)
  | some c =>
    match f.headerCheck f.minSvn x.image c.digest with
    | some r => some r
    | none => x.image.hubCheck.map (fun n => (n, none))

-- The selector ------------------------------------------------------------------------------------------------------------

/-- R391: the selector in force: the valid copy with the higher FSEL.SEQ. -/
def Firmware.selector (f : Firmware) : Selector :=
  match Selector.ofWord f.sel0, Selector.ofWord f.sel1 with
  | some a, some b => if a.seq < b.seq then b else a
  | some a, none => a
  | none, some b => b
  | none, none => {}

/-- R391: a new selector goes into the copy that is not in force, FSEL.SEQ one higher. -/
def Firmware.writeSelector (f : Firmware) (x : Selector) : Firmware :=
  let y : Selector := { x with seq := f.selector.seq + 1 }
  match Selector.ofWord f.sel0, Selector.ofWord f.sel1 with
  | some a, some b => if a.seq < b.seq then { f with sel0 := y.word } else { f with sel1 := y.word }
  | some _, none => { f with sel1 := y.word }
  | none, _ => { f with sel0 := y.word }

/-- The key of a slot. -/
def slotKey (b : Bool) : Nat := if b then 1 else 0

-- The management image -----------------------------------------------------------------------------------------------------

/-- R398: why a management image is refused: as a module header, against FUSE.MGMT_SVN, then every part. -/
def Firmware.mgmtCheck (f : Firmware) (i : FwImage) (commit : BitVec 256) : Option (Nat × Option Nat) :=
  if i.readError then some (5, none)
  else match f.headerCheck (popCount 32 f.loaded.mgmtSvn.value.toNat) i commit with
    | some r => some r
    | none => if (List.range i.partCount).all (fun k => decide (i.digests.getD k 0 = i.partDigest k)) then none else some (4, none)

/-- R398: the management image that the controller's ROM runs: that of the slot which the selector names, else that of the other
slot, else none; before an option loading the ROM reads the fuses themselves. -/
def Firmware.mgmtImage (f : Firmware) : FwImage :=
  let g : Firmware := { f with loaded := f.fuses }
  let ok (b : Bool) : Option FwImage :=
    let x := g.mgmt.get {} (slotKey b)
    match x.committed with
    | some c => if (g.mgmtCheck x.image c.digest).isNone then some x.image else none
    | none => none
  match ok f.selector.mgmtSlot with
  | some i => i
  | none => (ok (!f.selector.mgmtSlot)).getD {}

-- Writing a slot ----------------------------------------------------------------------------------------------------------

/-- R390: a slot written with an image, in the order of the rule; a cut ends it. -/
def FwSlot.write (x : FwSlot) (i : FwImage) (cut : Option SlotCut) : FwSlot :=
  let seq := x.seq + 1
  let intent : FwRec := { digest := 0, version := i.version, seq := seq }
  let done : FwRec := { digest := i.digest, version := i.version, seq := seq }
  match cut with
  | some .zeroed => { x with commit := 0 }
  | some .intent => { x with commit := 0, intent := intent.word fcIntent }
  | some .content => { commit := 0, intent := intent.word fcIntent, image := i, seq := x.seq }
  | none => { commit := done.word fcCommit, intent := intent.word fcIntent, image := i, seq := seq }

/-- 13 R374: a slot whose update a reset has interrupted: its commit record has been zeroed, or is not valid while its intent record is. -/
def FwSlot.interrupted (x : FwSlot) : Bool := decide (x.commit = 0) || (x.committed.isNone && (FwRec.ofWord fcIntent x.intent).isSome)

-- Tokens ------------------------------------------------------------------------------------------------------------------

/-- R400: the bits of a token's header. -/
def Token.head (t : Token) : Nat := Machine.ofBytes (t.bytes.take 64)
/-- AUTH.SUBJECT_HASH. -/
def Token.subjectHash (t : Token) : BitVec 256 := BitVec.ofNat 256 (bitsAt t.head 256 256)
/-- AUTH.MODULE_ID. -/
def Token.moduleId (t : Token) : BitVec 64 := BitVec.ofNat 64 (bitsAt t.head 192 64)
/-- AUTH.SEQ. -/
def Token.seq (t : Token) : BitVec 32 := BitVec.ofNat 32 (bitsAt t.head 160 32)
/-- AUTH.ARG. -/
def Token.arg (t : Token) : BitVec 32 := BitVec.ofNat 32 (bitsAt t.head 128 32)
/-- AUTH.OP. -/
def Token.op (t : Token) : BitVec 8 := BitVec.ofNat 8 (bitsAt t.head 120 8)
/-- AUTH.CHALLENGE. -/
def Token.challenge (t : Token) : BitVec 64 := BitVec.ofNat 64 (bitsAt t.head 56 64)
/-- R400: the key area, bytes 64 to 1,919. -/
def Token.keyArea (t : Token) : List Byte := (t.bytes.drop 64).take 1856
/-- R400, R380: the public key of 1,793 bytes in the key area. -/
def Token.key (t : Token) : List Byte := t.keyArea.take 1793
/-- R400: the bytes of the signature block. -/
def Token.block (t : Token) : List Byte := (t.bytes.drop 1920).take 8192
/-- R400: the signature block. -/
def Token.sig (t : Token) : SigBlock := SigBlock.ofBytes t.block t.issuerMsg t.objectMsg
/-- Table 14.7: what the signature of a token is made over. -/
def Token.digest (t : Token) : BitVec 256 := digestOf (t.bytes.take 1920)

/-- Whether every byte of a list is zero. -/
def allZero (bs : List Byte) : Bool := bs.all (fun b => decide (b = 0))

/-- R400: whether a token's own fields admit an operation: its length, its number, its module, the hash of its key; without a key the area is
zero. -/
def Firmware.tokenFields (f : Firmware) (t : Token) (op : Nat) (hasKey : Bool) : Bool :=
  decide (t.bytes.length = 10112) && decide (t.op.toNat = op) && decide (t.moduleId = f.loaded.moduleId) &&
    (if hasKey then decide (t.subjectHash = digestOf t.key) else decide (t.subjectHash = 0) && allZero t.keyArea)

/-- R400, R399: whether a token's own fields and its signature admit an operation: the check of R387 that fails is reported. -/
def Firmware.tokenCheck (f : Firmware) (t : Token) (op : Nat) (cls : Nat) (hasKey : Bool) : Bool × Option Nat :=
  let sig := f.sigCheck .token t.digest [cls] t.sig
  (f.tokenFields t op hasKey && sig.isNone, sig)

end Sys2Proof.Machine
end

