-- ==== Sys2Proof/Machine/Drain.lean ====
section
/-! DEFINITION. Drains (02 R55 to R62, 03 R72, R78 to R80, 08 R212). -/

namespace Sys2Proof.Machine

/-- The formats of a drain or conversion that have block scales of 32 (R56, 07 R205). -/
def Fmt.blockScaled : Fmt → Bool
  | .e4m3 | .e5m2 | .fp4 | .ue5m3 => true
  | _ => false

/-- The formats that offer stochastic rounding (R60). -/
def Fmt.stochastic : Fmt → Bool
  | .bf16 | .e4m3 | .e5m2 | .fp4 | .ue5m3 => true
  | _ => false

/-- The largest finite magnitude of a list of values, as an FP32 pattern (07 R191). -/
def amaxBits (vs : List Val) : BitVec 32 :=
  let mag (v : Val) : Val := match v with | .fin _ m e => .fin false m e | _ => .fin false 0 0
  f32Of (vs.foldl (fun a v => if valLt a (mag v) then mag v else a) (.fin false 0 0))

/-- What a conversion of a set of values gives: bytes of elements, of scales and of the summary, the rows of an INT24
result, its flags, its saturated elements and its largest finite magnitude. -/
structure ConvOut where
  elems : List Nat := []
  scales : List Nat := []
  summary : List Nat := []
  rows : List RedRow := []
  flags : ConvFlags := {}
  sat : Nat := 0
  amax : BitVec 32 := 0
  deriving DecidableEq, Repr

/-- R58: one INT24 row at scale byte `s`. The spec does not say what a drain with the NaN scale byte 0xFF of R41 writes: it is taken as
S = 128 (DESIGN CHOICE, log 106). -/
def int24Row (s : Nat) (vs : List Val) : RedRow × ConvFlags :=
  let rs := vs.map (fun v => convert .int24 .rne (v.scale (23 - ((s : Int) - 127))) 1)
  let fl := (rs.map Prod.snd).foldl ConvFlags.or {}
  ({ elems := rs.map (fun r => signedOf 24 r.1), miss := fl.miss, nonfinite := fl.nonfinite }, fl)

/-- How a drain or conversion rounds: stochastically with the words of a job, step and tensor, or to nearest even. -/
structure Rounding where
  stochastic : Bool := false
  seed : Word64 := 0
  step : Word64 := 0
  tensor : Word32 := 0
  deriving DecidableEq, Repr

/-- The rounding mode of the element of a logical index (R60). -/
def Rounding.mode (r : Rounding) (index : Nat) : RMode :=
  if r.stochastic then .sr (stochasticWord r.seed r.step r.tensor index) else .rne

/-- The two-byte summary of a tile whose blocks, two to a line, are given by their scale bytes (R43). -/
def tileSummary (scales : List Nat) : List Nat :=
  [0, 1].map (fun b => summaryByte ((List.range 64).map (fun l => scales.getD (2 * l + b) 0)))

/-- Position 64m + n of the element at output row r, place e. -/
def tilePos (rowAxis : Bool) (r e : Nat) : Nat × Nat := if rowAxis then (e, r) else (r, e)

/-- R55 to R61: a 64 × 64 tile converted: `val` gives entry (m, n), `idx` its logical index. Elements stand in logical
rows; blocks of 32 run along M, or along N with `scaleAxis`, two to a line. -/
def convertTile (f : Fmt) (val : Nat → Nat → Val) (rowAxis scaleAxis : Bool) (shift : Int) (s24 : Nat) (rd : Rounding)
    (idx : Nat → Nat → Nat) : ConvOut :=
  let cells := (List.range 4096).map (fun i => tilePos rowAxis (i / 64) (i % 64))
  let vals := cells.map (fun p => val p.1 p.2)
  if f.blockScaled then
    let at' (l x : Nat) : Nat × Nat := if scaleAxis then (l, x) else (x, l)
    let blocks := (List.range 128).map (fun q =>
      let ps := (List.range 32).map (fun x => at' (q / 2) (32 * (q % 2) + x))
      convertBlock f shift (ps.map (fun p => val p.1 p.2)) (ps.map (fun p => rd.mode (idx p.1 p.2))))
    let all := blocks.flatMap Prod.snd
    let elem (p : Nat × Nat) : Nat :=
      let (l, x) := if scaleAxis then (p.1, p.2) else (p.2, p.1)
      ((blocks.getD (2 * l + x / 32) (0, [])).2.getD (x % 32) (0, {})).1
    { elems := cells.map elem, scales := blocks.map Prod.fst, summary := tileSummary (blocks.map Prod.fst),
      flags := (all.map Prod.snd).foldl ConvFlags.or {}, sat := (all.filter (fun r => r.2.sat)).length,
      amax := amaxBits vals }
  else if f = .int24 then
    let rs := (List.range 64).map (fun r => int24Row s24 ((vals.drop (64 * r)).take 64))
    { elems := rs.flatMap (fun r => r.1.elems.map (patOfInt 24)), scales := List.replicate 64 s24, rows := rs.map Prod.fst,
      flags := (rs.map Prod.snd).foldl ConvFlags.or {} }
  else
    let rs := cells.map (fun p => convert f (rd.mode (idx p.1 p.2)) (val p.1 p.2) 1)
    { elems := rs.map Prod.fst, flags := (rs.map Prod.snd).foldl ConvFlags.or {},
      sat := (rs.filter (fun r => r.2.sat)).length }

/-- The bytes of a conversion's result: elements, scale bytes, summary. -/
def ConvOut.bytes (x : ConvOut) (f : Fmt) : List Byte := packElems f x.elems ++ (x.scales ++ x.summary).map (BitVec.ofNat 8)

/-- How a core's job rounds into a tensor (R60). -/
def State.rounding (s : State) (c : Nat) (stochastic : Bool) (tensor : BitVec 32) : Rounding :=
  { stochastic := stochastic, seed := (s.part (s.partOfCore c)).job.latched.seed, step := (s.core c).report.step,
    tensor := tensor }

/-- R55: a drain of a slot by a descriptor, with the tensor shift in force and the scale byte of an INT24 drain. A DRAIN.VALUE_SHIFT of
0x80, outside R55's -127 to 127, shifts by -128 (DESIGN CHOICE, log 106). -/
def drainTile (x : Slot) (d : DrainDesc) (f : Fmt) (shift : Int) (s24 : Nat) (rd : Rounding) : ConvOut :=
  convertTile f (fun m n => (x.entry (64 * m + n)).value x.bf16 (sint8 d.valueShift)) d.rowAxis d.scaleAxis shift s24 rd
    (fun m n => if d.rowAxis then d.indexBase.toNat + n * d.rowLen.toNat + m else d.indexBase.toNat + m * d.rowLen.toNat + n)

/-- The slot that a drain item drains: DRAIN.SLOT, or the tile's home slot in spill mode (04 R479). -/
def DrainItem.slot (d : DrainItem) : Nat := if d.spilling then d.home else d.desc.slot.toNat

/-- Whether an item's slot may be drained by it (Table 03.4); a tile of an empty contraction opens its FREE slot. -/
def Core.drainable (k : Core) (d : DrainItem) (f : Fmt) : Bool :=
  let x := k.slot d.slot
  match x.state with
  | .opened => decide (x.tile = d.tile) || (d.emptyK && k.openable d.slot)
  | .held => decide (x.tile = d.tile) && decide (f = .int24)
  | .free => d.emptyK
  | .spilled => d.emptyK && k.openable d.slot

/-- The cycles of a drain (R79, R62). -/
def drainCycles (d : DrainDesc) (f : Fmt) : Nat := if d.round && f.stochastic then 1536 else 64

/-- R72: the bytes of a drained tile: its elements, the scale bytes of R56 or R58, and the scale summary of R43. -/
def drainBytes (f : Fmt) : Nat := f.bytesFor 4096 + (if f.blockScaled then 130 else if f = .int24 then 64 else 0)

/-- Where a drain's bytes go in a core store (Table 03.5). -/
def destStore (k : Nat) : StoreId := match k with | 0 => .scratch | 1 => .input | _ => .weights

/-- 08 R226: whether a record is still OPEN from an earlier step: a term of that step waits at the reduction port, or its close has not been
reported. -/
def Core.openBefore (k : Core) (record : Nat) (step : BitVec 32) : Bool :=
  k.red.any (fun t => decide (bitsAt t.word.toNat 0 30 = record) && decide (t.step ≠ step)) ||
    k.closes.any (fun x => decide (x.1 = record) && decide (x.2 ≠ step))

/-- 08 R212, R226: whether a term for a record may be drained: the record is EMPTY, or OPEN in the step. -/
def State.takesTerm (s : State) (c record : Nat) : Bool :=
  decide ((s.cr (s.partOfCore c) record).state < 2) && !(s.core c).openBefore record ((s.core c).report.step.setWidth 32)

/-- The rows of an INT24 drain that are marked SCALE_MISS (R58). -/
def missRows (l : List RedRow) : List Nat := (List.range l.length).filter (fun i => (l.getD i {}).miss)

/-- The rows of an INT24 drain that are marked NONFINITE (R57, Table 02.5). -/
def nonfiniteRows (l : List RedRow) : List Nat := (List.range l.length).filter (fun i => (l.getD i {}).nonfinite)

/-- The slot that a drain reads: its tile's, or, where the tile's contraction is empty, one opened for it (04 R104). -/
def Core.drainSlot (k : Core) (d : DrainItem) : Slot :=
  if d.emptyK && k.openable d.slot then openSlot d.op d.tile none else k.slot d.slot

/-- Where a drain goes: DRAIN.DEST_OFFSET, relative to PL.OUTPUT_BASE (04 R479). -/
def DrainItem.at' (d : DrainItem) : Nat := d.desc.destOffset.toNat + d.outBase

/-- The term that a drain into the reduction path leaves at the port, with its reduction word (08 R212). -/
def redTermOf (d : DrainItem) (x : Slot) (scale : Nat) (step : BitVec 64) (o : ConvOut) : RedTerm :=
  { slot := some d.slot, tile := d.tile, rowAxis := d.desc.rowAxis, valueShift := d.desc.valueShift, bf16 := x.bf16,
    word := BitVec.ofNat 32 d.at', scale := scale, step := step.setWidth 32, rows := o.rows }

/-- DRAIN_ISSUE (R72, 04 R479): the head drain issues once its tile's last pass has issued and its space is reserved, and
each entry is rounded once. One that is refused at a closed gate (01 R28) stays at the head and is tried again (DESIGN CHOICE, log 88). One
whose tile is never opened sends only its endpoint's marker (05 R129), and takes no port cycle. -/
def drainIssue (c : CoreId) (io : IssueIo) (s : State) : State :=
  let k := s.core c.val
  match k.lists.drains with
  | [] => s
  | d :: rest =>
    let pop (q : Core) : Core := q.modLists (fun l => { l with drains := rest })
    if d.markerOnly then
      if !k.issuesDrains || s.coreStopped c.val || k.drain.isSome then s
      else if s.edgeRefused c.val d.desc.destQueue.toNat then s.gateRefusal c.val
      else (s.setCore c.val (pop (k.countCe io.sramCe)).drainHead).sendMarker c.val d.desc.destQueue.toNat
    else
    match Fmt.ofCode d.desc.format.toNat with
    | none => s
    | some f =>
      let p := s.partOfCore c.val
      let x := k.drainSlot d
      let kind := d.desc.destKind.toNat
      let e := d.desc.destQueue.toNat
      let record := bitsAt d.at' 0 30
      let cr := s.cr p record
      let at' := d.at'
      let space := if kind = 3 then k.canSend e else if kind = 4 then s.takesTerm c.val record && decide (f = .int24)
        else decide (kind < 3) && decide (at' + drainBytes f ≤ (destStore kind).size) &&
          s.placeFree c.val (destStore kind) at' (drainBytes f)
      if !k.issuesDrains || s.coreStopped c.val || k.drain.isSome || !k.drainable d f || k.passesLeft d || !space then s
      else if kind = 3 && s.edgeRefused c.val e then s.gateRefusal c.val
      else
        let shift := sint8 d.desc.tensorShift + (k.lists.shifts.get 0 d.desc.tensorId.toNat : Nat)
        let s24 := if kind = 4 then cr.termScale else d.desc.int24Scale.toNat
        let o := drainTile x d.desc f shift s24 (s.rounding c.val (d.desc.round && f.stochastic) d.desc.tensorId)
        let post := if f.blockScaled then some (o.sat, o.amax) else none
        let k1 := { k.setSlot d.slot x with
          drain := some { slot := d.slot, item := d, post := post, moves := io.moves
                          place := if kind < 3 then some (BitVec.ofNat 2 (destStore kind).code, at', drainBytes f) else none }
          scaleMiss := if f = Fmt.int24 then missRows o.rows else k.scaleMiss
          nonfinite := if f = Fmt.int24 then nonfiniteRows o.rows else k.nonfinite }
        let kh := (k1.countCe io.sramCe).engineHead 1 d.op.reportOp
        let fresh := decide ((kh.engine 1).lastInst ≠ d.tile.inst)
        let k2 := (kh.setEngine 1 { kh.engine 1 with lastInst := d.tile.inst }).charge 1 (drainCycles d.desc f)
          io.waitIn.toNat io.waitOut.toNat 0 (bitOf fresh)
        -- R145: the head of the list moves to the next entry
        let k2h := (pop k2).drainHead
        let k3 := if kind < 3 then k2h.writeStore (destStore kind) at' (o.bytes f)
          else if kind = 4 then { k2h with red := k2h.red ++ [redTermOf d x s24 k.report.step o] } else k2h
        let s1 := (s.setCore c.val k3).setArith c.val o.flags.arith
        if kind = 3 then s1.sendTile c.val e (BitVec.ofNat 32 at') (o.bytes f) else s1

/-- DRAIN_COMPLETE (R78, 05 R129, 07 R191): the drain in flight completes: its slot becomes OPEN with DRAIN.KEEP, HELD for the
reduction path, else FREE; a drain into a managed tensor posts to its scaling record, and the drain waits while a frame under the record
is COW_PENDING (09 R247); its bytes are there for an output stream and those it has read last are free (06 R154); DRAIN.EOS sends the endpoint's end-of-step marker. -/
def drainComplete (c : CoreId) (s : State) : State :=
  let k := s.core c.val
  match k.drain with
  | none => s
  | some r =>
    let p := s.partOfCore c.val
    if s.coreStopped c.val then s else s.whenScaling p c.val r.item.desc.tensorId (r.post.isSome) (fun s =>
    let d := r.item.desc
    let x := k.slot r.slot
    let st : SlotState := if d.keep then .opened else if d.destKind = 4 then .held else .free
    let x1 : Slot := if st = .free then {} else { x with state := st }
    let k1 : Core := { k.setSlot r.slot x1 with drain := none, drainCount := k.drainCount + 1 }
    let s1 := s.setCore c.val k1
    let s2 := match r.post with
      | some (sat, amax) => s1.postScaling p d.tensorId k.report.step.toNat sat amax
      | none => s1
    let s3 := if d.eos && d.destKind = 3 then s2.sendMarker c.val d.destQueue.toNat else s2
    (s3.noteWritten c.val r.place.toList).moveRegions c.val r.moves)

/-- DRAIN_ISSUE. -/
def execDrainIssue (c : CoreId) (io : IssueIo) (s : State) : Host.Outcome State Fault Refusal := .next ((drainIssue c io s).commitLog c.val)
/-- DRAIN_COMPLETE. -/
def execDrainComplete (c : CoreId) (s : State) : Host.Outcome State Fault Refusal := .next (drainComplete c s)

end Sys2Proof.Machine
end

