-- ==== Sys2Proof/Machine/Vector.lean ====
section
/-! DEFINITION. The vector unit (02 R63, 03 R86, R87, 05 R118, R131, 07 R188, R194 to R196). -/

namespace Sys2Proof.Machine

/-- The words of an operand in vector scratch. -/
def Stores.words (x : Stores) (c off n : Nat) : List (BitVec 32) :=
  (List.range n).map (fun i => BitVec.ofNat 32 (ofBytes (x.bytes c .scratch (off + 4 * i) 4)))

/-- 07 R194 step 2: the lanes of a row, each combining its elements in ascending order; an element is absent where its
mask word says so. -/
def rowLanes (first : BitVec 32 → BitVec 32 → F32) (next : F32 → BitVec 32 → BitVec 32 → F32)
    (xs : List (BitVec 32 × BitVec 32 × Bool)) : List (Option F32) :=
  (List.range 256).map (fun l =>
    (List.range (ceilDiv xs.length 256)).foldl (fun a j =>
      match xs[256 * j + l]? with
      | some (x, y, true) => (match a with | none => some (first x y) | some v => some (next v x y))
      | _ => a) none)

/-- 07 R194 step 3: one level of the tree over lanes, where an empty child passes the other on. -/
def laneUp (f : F32 → F32 → F32) : List (Option F32) → List (Option F32)
  | a :: b :: t =>
    (match a, b with
     | some x, some y => some (f x y)
     | some x, none => some x
     | none, y => y) :: laneUp f t
  | t => t

/-- The tree over `n` levels. -/
def laneTree (f : F32 → F32 → F32) : Nat → List (Option F32) → List (Option F32)
  | 0, l => l
  | n + 1, l => laneTree f n (laneUp f l)

/-- 07 R194: a row reduction, with the result of a row that has no element. A row with one element passes it on as R194 says, also a NaN
of another pattern than R63's 0x7FC0_0000: which of the two rules holds there the spec does not say (DESIGN CHOICE, log 106). -/
def rowReduce (f : F32 → F32 → F32) (empty : F32) (lanes : List (Option F32)) : F32 :=
  match laneTree f 8 lanes with
  | some v :: _ => v
  | _ => empty

/-- The elements of a row with their masks. -/
def maskedRow (xs ys : List (BitVec 32)) (mask : Option (List (BitVec 32))) : List (BitVec 32 × BitVec 32 × Bool) :=
  (List.range xs.length).map (fun i =>
    (xs.getD i 0, ys.getD i 0,
     match mask with | some m => !decide (m.getD i 0 = Config.compareWord false) | none => true))

/-- The number of operand words of each of a, b and c that an operation reads. -/
def VecOp.arity : VecOp → Nat
  | .add | .sub | .mul | .min | .max | .cmpLt | .cmpLe | .cmpEq | .iadd | .isub | .ishl | .ishr | .iushr | .iand | .ior
  | .ixor | .rowDot _ => 2
  | .fma | .select => 3
  | .widen _ _ | .adamw _ _ | .termSum _ _ => 0
  | .token _ (some _) => 0
  | _ => 1

/-- Table 03.7: whether an element-wise operation reads FP32 operands, whose NaNs set the core's flag: select consumes the one that it
takes alone, and passes it on (DESIGN CHOICE, log 106). -/
def VecOp.floatsIn : VecOp → Bool
  | .add | .sub | .mul | .fma | .min | .max | .cmpLt | .cmpLe | .cmpEq | .fn _ => true
  | _ => false

/-- Table 03.7: whether an element-wise operation has FP32 results, whose NaNs and infinities set the core's flags; the mask word of a
compare is none. -/
def VecOp.floatsOut : VecOp → Bool
  | .add | .sub | .mul | .fma | .min | .max | .select | .fn _ => true
  | _ => false

/-- Table 03.7: an element-wise operation on words. -/
def VecOp.word (o : VecOp) (a b c : BitVec 32) : BitVec 32 :=
  let nan := f32IsNan a || f32IsNan b
  match o with
  | .add => f32Add a b
  | .sub => f32Sub a b
  | .mul => f32Mul a b
  | .fma => f32Fma a b c
  | .min => f32Min a b
  | .max => f32Max a b
  | .cmpLt => Config.compareWord (f32Lt a b)
  | .cmpLe => Config.compareWord (!nan && !f32Lt b a)
  | .cmpEq => Config.compareWord (!nan && !f32Lt a b && !f32Lt b a)
  -- a mask word that is not the word of a true compare takes b, and a shift by 32 or more shifts every bit out (DESIGN CHOICE, log 20)
  | .select =>
    let r := if c = Config.compareWord true then a else b
    if f32IsNan r then f32NaN else r
  | .iadd => a + b
  | .isub => a - b
  | .ishl => a <<< b.toNat
  | .ishr => BitVec.sshiftRight a b.toNat
  | .iushr => a >>> b.toNat
  | .iand => a &&& b
  | .ior => a ||| b
  | .ixor => a ^^^ b
  | .toInt => BitVec.ofNat 32 (Machine.convert .int32 .rne (F32.val a) 1).1
  | .ofInt => f32OfInt a.toInt
  | .fn f => f.apply a
  | _ => a

/-- A list in groups of `n`. -/
def groupsOf {α : Type} (n : Nat) (l : List α) : List (List α) :=
  (List.range (ceilDiv l.length n)).map (fun i => (l.drop (n * i)).take n)

/-- R63, 07 R188, R205: FP32 words converted into a format: blocks of 32 consecutive elements where the format has block
scales, rows of 64 in INT24. -/
def convertWords (f : Fmt) (shift : Int) (s24 : Nat) (rd : Rounding) (base : Nat) (ws : List (BitVec 32)) : ConvOut :=
  let vs := ws.map F32.val
  let ixs := List.range ws.length
  if f.blockScaled then
    let blocks := (groupsOf 32 (List.zip vs ixs)).map (fun g =>
      convertBlock f shift (g.map Prod.fst) (g.map (fun x => rd.mode (base + x.2))))
    let all := blocks.flatMap Prod.snd
    { elems := all.map Prod.fst, scales := blocks.map Prod.fst, flags := (all.map Prod.snd).foldl ConvFlags.or {},
      sat := (all.filter (fun r => r.2.sat)).length, amax := amaxBits vs }
  else if f = .int24 then
    let rs := (groupsOf 64 vs).map (int24Row s24)
    { elems := rs.flatMap (fun r => r.1.elems.map (patOfInt 24)), scales := rs.map (fun _ => s24), rows := rs.map Prod.fst,
      flags := (rs.map Prod.snd).foldl ConvFlags.or {} }
  else
    let rs := (List.zip vs ixs).map (fun x => convert f (rd.mode (base + x.2)) x.1 1)
    { elems := rs.map Prod.fst, flags := (rs.map Prod.snd).foldl ConvFlags.or {}, sat := (rs.filter (fun r => r.2.sat)).length }

/-- The result of a vector-list entry: its bytes, its flags, what it posts to a scaling record. -/
structure VecOut where
  bytes : List Byte := []
  flags : ArithStatus := {}
  post : Option (BitVec 32 × Nat × BitVec 32) := none
  /-- the rows of a partial sum (07 R196) -/
  rows : List RedRow := []
  deriving DecidableEq, Repr

/-- Words as bytes. -/
def wordBytes (ws : List (BitVec 32)) : List Byte := ws.flatMap (fun w => bytesOf w.toNat 4)

/-- 07 R194: the words of a row that are not masked. -/
def unmasked (xs : List (BitVec 32)) (mask : Option (List (BitVec 32))) : List (BitVec 32) :=
  ((maskedRow xs xs mask).filter (fun x => x.2.2)).map (fun x => x.1)

/-- 07 R195: whether element `i` of an entry is masked. -/
def VecEntry.masked (e : VecEntry) (x : Stores) (c i : Nat) : Bool :=
  match e.mask with
  | none => false
  | some (off, n) =>
    let absent (w : BitVec 32) : Bool := decide (w = Config.compareWord false)
    if n = e.count then ((x.words c (off + 4 * i) 1).all absent) else (x.words c off n).all absent

/-- R64, Table 02.6: the flags of FP32 operands and results. -/
def floatFlags (ins outs : List (BitVec 32)) : ArithStatus :=
  { nan := (ins ++ outs).any f32IsNan, inf := outs.any (fun w => match F32.val w with | .inf _ => true | _ => false) }

/-- 02 R41, R44, 07 R188: an element with its scale byte as an FP32 word; a scale byte of 0xFF makes every element of its block NaN. -/
def widenAt (f : Fmt) (x scale : Nat) : BitVec 32 :=
  if f = .int24 then
    match e8m0 scale with
    | some z => f32Of ((decodeElem f x).scale (z - 23))
    | none => f32NaN
  else f32Of (widen f x (if f.blockScaled || decide (f = .int8) then scale else 0x7F))

/-- 07 R196: the rows of FP32 terms at operand a, each `count` elements long, converted into INT24 at the term scale in force of a
contributor record, to nearest even, and summed in INT32 lanes: at most 256 rows to a sum. An element that is not finite, or that the scale
misses, marks its block of 64. -/
def State.termRows (s : State) (c : Nat) (w : BitVec 32) (e : VecEntry) (rows : Nat) : List RedRow × ConvFlags :=
  let scale := (s.cr (s.partOfCore c) (bitsAt w.toNat 0 30)).termScale
  let n := if rows < 256 then rows else 256
  (List.range n).foldl (fun (a : List RedRow × ConvFlags) r =>
    let vs := ((s.core c).stores.words c (e.a + 4 * e.count * r) e.count).map F32.val
    let ts := (groupsOf 64 vs).map (int24Row scale)
    let add (x y : RedRow) : RedRow :=
      { elems := (List.range y.elems.length).map (fun i => (BitVec.ofInt 32 (x.elems.getD i 0 + y.elems.getD i 0)).toInt),
        miss := x.miss || y.miss, nonfinite := x.nonfinite || y.nonfinite }
    ((List.range ts.length).map (fun i => add (a.1.getD i {}) ((ts.getD i ({}, {})).1)),
      (ts.map Prod.snd).foldl ConvFlags.or a.2)) ([], {})

/-- What the head entry computes. -/
def vecResult (s : State) (c : Nat) (e : VecEntry) : VecOut :=
  let k := s.core c
  let ws (off : Nat) : List (BitVec 32) := k.stores.words c off e.count
  let a := ws e.a
  let b := if 2 ≤ e.op.arity then ws e.b else []
  let d := if 3 ≤ e.op.arity then ws e.c else []
  -- 07 R195: a row of which no element takes part sets no flag
  let row (v : F32) (ins : List (BitVec 32)) : VecOut := { bytes := wordBytes [v], flags := if ins.isEmpty then {} else floatFlags ins [v] }
  match e.op with
  | .rowSum m => row (rowReduce f32Add 0 (rowLanes (fun x _ => x) (fun v x _ => f32Add v x) (maskedRow a a (m.map ws)))) (unmasked a (m.map ws))
  | .rowDot m => row (rowReduce f32Add 0 (rowLanes (fun x y => f32Mul x y) (fun v x y => f32Fma x y v) (maskedRow a b (m.map ws)))) (unmasked a (m.map ws) ++ unmasked b (m.map ws))
  | .rowMax m => row (rowReduce f32Max Config.emptyMax (rowLanes (fun x _ => x) (fun v x _ => f32Max v x) (maskedRow a a (m.map ws)))) (unmasked a (m.map ws))
  | .convert f sr sh t ix s24 =>
    let shift := sint8 sh + (k.lists.shifts.get 0 t.toNat : Nat)
    let o := convertWords f shift s24.toNat (s.rounding c (sr && f.stochastic) t) ix.toNat a
    { bytes := o.bytes f, flags := o.flags.arith, post := if f.blockScaled && decide (f ≠ .ue5m3) then some (t, o.sat, o.amax) else none }
  | .termSum rows word =>
    -- 08 R216: partial sums for another core go to its queue; a block's marks stay with this core's flags (DESIGN CHOICE, log 106)
    let (ts, fl) := s.termRows c (match e.dest with | .reduction w => w | _ => word) e rows
    { bytes := wordBytes (ts.flatMap (fun r => r.elems.map (BitVec.ofInt 32))), flags := fl.arith, rows := ts }
  | .widen f sc =>
    let bs := k.stores.bytes c .scratch e.a (f.bytesFor e.count)
    let byteAt (i : Nat) : Nat := match sc with | some o => (k.stores.byte c .scratch (o + i)).toNat | none => 0x7F
    let outs := (List.range e.count).map (fun i => widenAt f (elemOf f bs i) (byteAt (i / (if f = .int24 then 64 else 32))))
    { bytes := wordBytes outs, flags := floatFlags [] outs }
  | .token q sel =>
    let v := match sel with | some x => x.toNat | none => (a.headD 0).toNat % 4
    { bytes := bytesOf (q.toNat * 2 ^ 32 + k.step16.toNat * 2 ^ 16 + v) 8 }
  | o =>
    -- 07 R195: a masked element gives +0 and sets no flag
    let live := (List.range e.count).filter (fun i => !e.masked k.stores c i)
    let of (l : List (BitVec 32)) : List (BitVec 32) := live.map (fun i => l.getD i 0)
    let outs := (List.range e.count).map (fun i =>
      if e.masked k.stores c i then 0 else o.word (a.getD i 0) (b.getD i 0) (d.getD i 0))
    let conv : ArithStatus :=
      if o = .toInt then (((of a).map (fun w => (Machine.convert .int32 .rne (F32.val w) 1).2)).foldl ConvFlags.or {}).arith else {}
    { bytes := wordBytes outs
      flags := (floatFlags (if o.floatsIn then of a ++ of b ++ of d else []) (if o.floatsOut then of outs else [])).or conv }

/-- Words of bytes. -/
def byteWords (bs : List Byte) : List (BitVec 32) := (groupsOf 4 bs).map (fun g => BitVec.ofNat 32 (ofBytes g))

/-- R118: the bytes of an entry's result: the space that is reserved for it. -/
def VecEntry.outBytes (e : VecEntry) : Nat :=
  match e.op with
  | .rowSum _ | .rowDot _ | .rowMax _ => 4
  | .token _ _ => 8
  | .convert f _ _ _ _ _ =>
    f.bytesFor e.count + (if f.blockScaled then ceilDiv e.count 32 else if f = .int24 then ceilDiv e.count 64 else 0)
  | _ => 4 * e.count

/-- The tensor that a conversion names (R60, 07 R191). -/
def VecOp.tensor : VecOp → BitVec 32
  | .convert _ _ _ t _ _ => t
  | _ => 0

/-- 07 R191: whether an operation posts to the scaling record of its tensor. -/
def VecOp.posts : VecOp → Bool
  | .convert f _ _ _ _ _ => f.blockScaled && decide (f ≠ .ue5m3)
  | _ => false

/-- Table 03.7, 02 R62, 07 R195: the core cycles that an entry occupies the lanes. -/
def vecCycles (e : VecEntry) (bytes : Nat) : Nat :=
  let n := e.count
  let base := match e.op with
    | .fn _ => ceilDiv n 64
    | .convert f sr _ _ _ _ => if sr && f.stochastic then 24 * ceilDiv n 64 else ceilDiv n 64
    | .rowSum _ => ceilDiv n 256 + 8
    | .rowDot _ => ceilDiv n 256 + 8
    | .rowMax _ => ceilDiv n 256 + 8
    | .termSum rows _ => rows * (ceilDiv n 64 + ceilDiv n 256)
    | .token _ _ => 1
    | _ => ceilDiv n 256
  match e.dest with
  | .scratch _ => base
  | _ => base + ceilDiv bytes 256

/-- Whether an entry's operands are in vector scratch and the tiles it reads are present (R118, 05 R128). -/
def Core.vecReady (k : Core) (e : VecEntry) : Bool :=
  let n := e.op.arity
  let ok (off len : Nat) : Bool := k.rangeReady .scratch off len
  e.reads.all (fun q => (k.present q.val).isSome) && (match e.mask with | some (m, w) => ok m (4 * w) | none => true) && (n < 1 || ok e.a (4 * e.count)) && (n < 2 || ok e.b (4 * e.count)) &&
    (n < 3 || ok e.c (4 * e.count)) &&
    (match e.op with
     | .widen f sc => ok e.a (f.bytesFor e.count) &&
         (match sc with | some o => ok o (ceilDiv e.count (if f = .int24 then 64 else 32)) | none => true)
     | .termSum rows _ => ok e.a (4 * e.count * rows)
     | .rowSum (some m) => ok m (4 * e.count)
     | .rowDot (some m) => ok m (4 * e.count)
     | .rowMax (some m) => ok m (4 * e.count)
     | .adamw _ _ => false
     | _ => true)

/-- 07 R196: INT32 partial sums as the rows of a term. -/
def partialRows (ws : List (BitVec 32)) : List RedRow :=
  (groupsOf 64 ws).map (fun g => { elems := g.map BitVec.toInt })

/-- 06 R154: the range of the core's stores that an entry's result takes. -/
def VecEntry.written (e : VecEntry) (n : Nat) : List (BitVec 2 × Nat × Nat) :=
  match e.dest with
  | .scratch off => [(BitVec.ofNat 2 StoreId.scratch.code, off, n)]
  | .input off => [(BitVec.ofNat 2 StoreId.input.code, off, n)]
  | .weights off => [(BitVec.ofNat 2 StoreId.weights.code, off, n)]
  | _ => []

/-- VECTOR_ISSUE (05 R118): the head entry of the vector list issues once its operands are present and the space of its result is reserved. An
entry that only marks its endpoint's end of step sends the marker (05 R129). One that is refused at a closed gate (01 R28) stays at the head
and is tried again (DESIGN CHOICE, log 88). -/
def vectorIssue (c : CoreId) (io : IssueIo) (s : State) : State :=
  let k := s.core c.val
  match k.lists.vecs with
  | [] => s
  | e :: rest =>
    let p := s.partOfCore c.val
    let marker (t : State) : State := match e.dest with
      | .queue q _ => if e.eos || e.markerOnly then t.sendMarker c.val q.val else t
      | _ => t
    let pop (q : Core) : Core := { q with lists := { q.lists with vecs := rest } }
    let space := match e.dest with
      | .queue q _ => k.canSend q.val
      | .reduction w => s.takesTerm c.val (bitsAt w.toNat 0 30)
      | _ => true
    let room := match e.dest with
      | .scratch off => decide (off + e.outBytes ≤ StoreId.scratch.size) && s.placeFree c.val .scratch off e.outBytes
      | .input off => decide (off + e.outBytes ≤ StoreId.input.size) && s.placeFree c.val .input off e.outBytes
      | .weights off => decide (off + e.outBytes ≤ StoreId.weights.size) && s.placeFree c.val .weights off e.outBytes
      | _ => true
    if !s.coreIssues c.val then s
    else if e.markerOnly then
      -- R142: the entry takes the cycle in which it issues
      marker (s.setCore c.val (pop (((k.countCe io.sramCe).engineHead 2 e.reportOp).charge 2 1 io.waitIn.toNat io.waitOut.toNat 0 1)).vecHead)
    else if !k.vecReady e || !space || !room then s
    else if (match e.dest with | .queue q _ => s.edgeRefused c.val q.val | _ => false) then
      s.gateRefusal c.val
    else s.whenScaling p c.val e.op.tensor e.op.posts (fun s =>
      let o := vecResult s c.val e
      let k1 := (pop (((k.countCe io.sramCe).engineHead 2 e.reportOp).charge 2 (vecCycles e o.bytes.length) io.waitIn.toNat
        io.waitOut.toNat 0 1)).vecHead
      let k2 := match e.dest with
        | .scratch off => k1.writeStore .scratch off o.bytes
        | .input off => k1.writeStore .input off o.bytes
        | .weights off => k1.writeStore .weights off o.bytes
        | .queue _ _ => k1
        | .reduction w =>
          { k1 with red := k1.red ++ [{ word := w, scale := (s.cr p (bitsAt w.toNat 0 30)).termScale,
                                        step := k.report.step.setWidth 32,
                                        rows := if o.rows.isEmpty then partialRows (byteWords o.bytes) else o.rows }] }
      let s1 := (s.setCore c.val k2).setArith c.val o.flags
      let s2 := match e.dest with
        | .queue q n => s1.sendTile c.val q.val n o.bytes
        | _ => s1
      let s3 := match o.post with
        | some (t, sat, amax) => s2.postScaling p t k.report.step.toNat sat amax
        | none => s2
      ((marker (s3.freeTiles c.val e.frees)).noteWritten c.val (e.written o.bytes.length)).moveRegions c.val io.moves)

/-- VECTOR_ISSUE. -/
def execVectorIssue (c : CoreId) (io : IssueIo) (s : State) : Host.Outcome State Fault Refusal := .next ((vectorIssue c io s).commitLog c.val)

end Sys2Proof.Machine
end

