-- ==== Sys2Proof/Machine/Steps.lean ====
section
/-! DEFINITION. A core's control (03 R73, R82, R90), its steps and its records (05 R141 to R151). -/

namespace Sys2Proof.Machine

/-- R90: a change of CORE.CTRL takes effect. A halt that falls within a step marks it (Table 05.12). -/
def Core.applyCtrl (k : Core) (q : CoreCtrl) : Core :=
  let k1 : Core := { k with ctrl := q, pendCtrl := none }
  if q.haltReq && k.report.inStep then k1.rptSet (fun r => { r with debug := true }) else k1

/-- R73, R90: a write of CORE.CTRL: with no pass running it takes effect at once in a partition in Run, else at the next pass boundary; a
drain in flight finishes. -/
def State.writeCtrl (s : State) (c : Nat) (q : CoreCtrl) : State :=
  let k := s.core c
  let awake := decide ((s.part (s.partOfCore c)).power.state = .run)
  if k.pass.isNone && awake then s.setCore c (k.applyCtrl q) else s.setCore c { k with pendCtrl := some q }

/-- The control bits that the latest write left. -/
def Core.wantCtrl (k : Core) : CoreCtrl := k.pendCtrl.getD k.ctrl

/-- CORE_ENABLE (R90): a write of CORE.ENABLE. While a disable waits for work in flight, an enable is refused (15 R421). -/
def coreEnable (c : CoreId) (on : Bool) (s : State) : State :=
  let k := s.core c.val
  let disabling := !k.wantCtrl.enable && (k.pass.isSome || k.drain.isSome)
  if on && disabling then s else s.writeCtrl c.val { k.wantCtrl with enable := on }

/-- 18 X20, 14 R383, R401: debug halts are open in development, or under a debug unlock. -/
def State.debugOpen (s : State) : Bool := !s.fw.production || s.fw.unlocked

/-- CORE_HALT_REQ (R90, 18 R459): a write of CORE.HALT_REQ. A halt is refused on a production module before a debug unlock;
in a partition that is not in Run it wakes the partition first; the last release lets the power target be evaluated. -/
def coreHaltReq (c : CoreId) (on : Bool) (s : State) : State :=
  let k := s.core c.val
  if on && !s.debugOpen then s
  else (s.writeCtrl c.val { k.wantCtrl with haltReq := on }).retarget (s.partOfCore c.val)

/-- PASS_BOUNDARY_STOP (R73, R90): the pass ends; a change of CORE.CTRL that waits takes effect. CORE.HALTED then reads 1
once nothing is in flight. -/
def passBoundaryStop (c : CoreId) (s : State) : State :=
  let k := s.core c.val
  let k1 : Core := { k with pass := none }
  if s.coreStopped c.val then s else match k.pendCtrl with
  | some q => if (s.part (s.partOfCore c.val)).power.state = .run then s.setCore c.val (k1.applyCtrl q) else s.setCore c.val k1
  | none => s.setCore c.val k1

/-- SRAM_UE (R82): at an uncorrectable error the core stops issuing at once, the slots of the interrupted pass are marked, the error is
reported; corrected errors are counted. Stores are numbered as DESC.STORE, with 4 for the accumulator memory. -/
def sramUe (c : CoreId) (store : Fin 5) (bank : BitVec 8) (hit : SramHit) (s : State) : State :=
  let k := s.core c.val
  if s.coreStopped c.val then s else match hit with
  | .corrected n => s.setCore c.val (k.countCe n)
  | .uncorrectable off =>
  let slots := match k.pass with | some r => r.slots | none => []
  let k1 := slots.foldl (fun q j => q.setSlot j (q.slot j).allNan) { k with faultStop := true }
  (s.setCore c.val k1).hwError (s.coreReport c.val 0x0301 (store.val + 256 * bank.toNat) off.toNat 0)

-- Steps -----------------------------------------------------------------------------------------------------------------

/-- The physical cores that run a partition's job. -/
def State.jobCores (s : State) (p : Nat) : List Nat :=
  let j := (s.part p).job
  j.body'.running.map (fun x => physCore j.quads x.core.toNat)

/-- The step that a core begins next: the first step of the job, or the one after its latest. -/
def Report.next (r : Report) : BitVec 64 := if r.ended then r.step + 1 else r.step

/-- The scaling record's step (07 Table 07.2). -/
def State.tscStep (s : State) (p : Nat) (m : Managed) : Nat := s.jobNat p (m.addr.toNat + 56) 8
/-- TSC.SHIFT. -/
def State.tscShift (s : State) (p : Nat) (m : Managed) : Nat := s.jobNat p m.addr.toNat 1 % 4

/-- The tensors that a core's drains and conversions name (07 R191). -/
def CoreLists.tensors (l : CoreLists) : List (BitVec 32) :=
  (l.passList.flatMap (fun o => o.drains)).map (fun d => d.desc.tensorId) ++ (l.vectorList.filter (fun e => e.op.posts)).map (fun e => e.op.tensor)

/-- 07 R192: whether the shifts of a core's managed tensors are those of a step or later. -/
def State.shiftsReady (s : State) (c step : Nat) : Bool :=
  let p := s.partOfCore c
  (s.body p).managed.all (fun m => decide (step ≤ s.tscStep p m) || !(s.core c).lists.tensors.contains m.tensor)

/-- R141: whether a tile of a step has arrived at the gate endpoint, if any: in its queue or in the spill region. -/
def Core.gateReady (k : Core) (step : BitVec 64) : Bool :=
  match k.lists.gateEp with
  | none => true
  | some e => (k.ep e.toNat).tiles.any (fun t => decide (t.step = step.setWidth 16)) ||
      (k.ep e.toNat).spill.any (fun t => decide (t.step = step.setWidth 16))

/-- 12 Table 12.1: the fields of JCP.SNAP_A and JCP.SNAP_B; a COPY_BUDGET above 100 reads as 100 (R321). -/
def JcpLatched.interval (l : JcpLatched) : Nat := bitsAt l.snapA.toNat 0 16
/-- FLASH_EVERY. -/
def JcpLatched.flashEvery (l : JcpLatched) : Nat := bitsAt l.snapA.toNat 16 16
/-- SERGE_EVERY. -/
def JcpLatched.sergeEvery (l : JcpLatched) : Nat := bitsAt l.snapB.toNat 0 16
/-- COPY_BUDGET. -/
def JcpLatched.budget (l : JcpLatched) : Nat := min 100 (bitsAt l.snapB.toNat 16 8)
/-- SERGE_WINDOW. -/
def JcpLatched.sergeWindow (l : JcpLatched) : Nat := bitsAt l.snapB.toNat 24 4

/-- R320: whether a Muslin snapshot is taken for a step. -/
def Job.snapStep (j : Job) (step : BitVec 64) : Bool :=
  j.body.plan.isSome && decide (j.latched.interval ≠ 0) && decide ((step.toNat + 1) % j.latched.interval = 0)

/-- R328: whether a core that has ended a step may begin the next: the snapshot point of a snapshot step has been passed. -/
def Part.snapLets (k : Part) (r : Report) : Bool :=
  !(r.ended && k.job.snapStep r.step) || (k.job.snapDue.isNone && !(decide (k.jcp.step = BitVec.allOnes 64)) &&
    decide (r.step ≤ k.jcp.step))

/-- 11 R307: whether the job lets a step begin: it runs, and the step lies within its stop step and JCP.END_STEP. -/
def Part.lets (k : Part) (step : BitVec 64) : Bool :=
  (match k.jcp.state with | .running | .pausing | .stopping => true | _ => false) &&
    decide (step ≤ k.jcp.endStep) && (match k.job.stopStep with | some h => decide (step ≤ h) | none => true) &&
    (match k.job.withdrawn with | some j => decide (j ≤ step) | none => true)

/-- The tiles that a core owns in a group (08 R210). -/
def State.ownedBy (s : State) (p c : Nat) (d : GroupDesc) : List Nat :=
  ((List.range d.ownCount.toNat).map (fun i => d.ownFirst.toNat + i)).filter (fun t => decide (s.ownerCore p d t = c))

/-- 08 R223: an owner record at the start of a step, with the tile's sum at zero; what of them lies in a COW_PENDING
frame is held there (09 R247). -/
def State.openOwned (s : State) (p step : Nat) (d : GroupDesc) (t : Nat) : State :=
  let scale := match s.crOf p d.id.toNat t with | some i => (s.cr p i).termScale | none => 0
  (s.postOrec p d t { step := step % 2 ^ 32, scale := scale }).postZero p (d.sumAddr t 0) 32768

/-- 12 R346 step 3: members whose rejoin step has come are live in every group. -/
def State.applyRejoins (s : State) (p : Nat) (step : BitVec 64) : State :=
  let j := (s.part p).job
  let due := j.rejoins.filter (fun r => decide (r.2 ≤ step))
  let s1 := s.modJob p (fun x => { x with rejoins := x.rejoins.filter (fun r => !decide (r.2 ≤ step)) })
  due.foldl (fun a r => a.modLinkDies p (fun l => { l with routes := l.routes.map (fun e =>
    (e.1, if s.sameModule p (e.1 / 4096) (e.1 % 4096) 0 r.1.toNat then { e.2 with live := true } else e.2)) })) s1

/-- 08 R232: the status block of a group at the start of a step. -/
def State.openGroup (s : State) (p step : Nat) (d : GroupDesc) : State :=
  s.setGs p d { step := step % 2 ^ 32, live := (s.liveMembers p d).length }

/-- 08 R232: the status blocks of a partition's groups, as the first of its cores begins a step. -/
def State.openGroups (s : State) (p : Nat) (step : BitVec 64) : State :=
  if (s.part p).job.opened = some step then s
  else ((s.body p).groups.foldl (fun a d => a.openGroup p step.toNat d) s).modJob p (fun j => { j with opened := some step })

/-- STEER.FIRED of the eight nodes. -/
def Core.firedCounts (k : Core) : List (BitVec 64) := (List.range 8).map (fun n => (k.node n).fired)

/-- What a core's reports and lists become when it begins a step (R141, R147). -/
def Core.beginStep (k : Core) (step : BitVec 64) (wait : Nat) (shifts : FMap Nat) : Core :=
  let gw := k.report.gateWait + BitVec.ofNat 64 wait
  let q : Core := { k with
    report := { k.report with
      step := step, inStep := true, ended := false, gateWait := gw, gateNow := gw.setWidth 32, status := {}, lateTiles := 0,
      totals := [], engines := [], passBase := k.passCount, firedBase := k.firedCounts, sent := [] }
    lists := { k.lists with ops := k.lists.passList, vecs := k.lists.vectorList, insts := [], plPending := none, plIndex := 0,
                            shifts := shifts, arms := k.lists.armList }
    -- R130: the next tile of an output endpoint is the step's first; R129: markers of steps past are forgotten
    eps := k.eps.map (fun x => (x.1, { x.2 with
      lastFreed := none, nextSeq := if x.2.dir = 2 then 0 else x.2.nextSeq
      closed := x.2.closed.filter (fun m => decide ((m - (step.setWidth 16 - 1)).toNat < 2 ^ 15)) })) }
  -- R145: the heads of the three lists stand at their first entries
  q.arrayHead.drainHead.vecHead

/-- 16 R431: whether an island of a partition runs off OP0, is stopped by a throttle stop, or refreshes at the doubled rate (09 R250). -/
def State.offOp0 (s : State) (p : Nat) : Bool :=
  s.pwr.towers.any (fun x => decide (s.partOfTower x.1 = p) && (decide (x.2.op ≠ 0) || decide (x.2.stop ≠ 0) || x.2.meshHalf || x.2.trip)) ||
    s.channels.any (fun x => decide (s.partOfTower (x.1 / 32) = p) && x.2.ref2x)

/-- STEP_START (R141, 07 R192, 08 R223, R232): a core begins its next step once the one before has ended and its gate tile
and tensor shifts are present; `wait` cycles have passed between the steps. A shift that the record no longer holds is the one that the
core has read before. -/
def stepStart (c : CoreId) (wait : BitVec 32) (s : State) : State :=
  let k := s.core c.val
  let p := s.partOfCore c.val
  let step := k.report.next
  let ready := k.ctrl.enable && !k.ctrl.haltReq && !k.faultStop && !k.passFault && k.pendCtrl.isNone && !k.report.inStep &&
    !s.coreStopped c.val &&
    (s.part p).lets step && (s.part p).snapLets k.report && k.gateReady step && s.shiftsReady c.val step.toNat
  if !ready then s
  else
    let shifts : FMap Nat := (s.body p).managed.foldl (fun m x => m.set 0 x.tensor.toNat
      (if s.tscStep p x ≤ step.toNat then s.tscShift p x else k.lists.shifts.get 0 x.tensor.toNat)) []
    let s1 := s.setCore c.val (k.beginStep step wait.toNat shifts)
    let s2 := (List.range 6).foldl (fun a i => a.modCtx (6 * c.val + i) (fun x => { x with stepIndex := 0 })) s1
    let job := (s.part p).job
    let s2' := if job.rideStep = some step then s2.modCore c.val (fun q => q.rptSet (fun r => { r with snapshot := true })) else s2
    let s2c := if s.offOp0 p then s2'.modCore c.val (fun q => q.rptSet (fun r => { r with clock := true })) else s2'
    let s2'' := match job.withdrawn with
      | some j => if j ≤ step then s2c.modJob p (fun x => { x with withdrawn := none }) else s2c
      | none => s2c
    let s3 := s2''.applyRejoins p step
    let s4 := s3.openGroups p step
    (s.body p).groups.foldl (fun a d => (s.ownedBy p c.val d).foldl (fun b t => b.openOwned p step.toNat d t) a) s4

/-- R141: whether a core's three engines have completed their last entry of the step. -/
def Core.stepDone (k : Core) : Bool :=
  k.report.inStep && k.lists.ops.isEmpty && k.lists.insts.isEmpty && k.pass.isNone && k.lists.drains.isEmpty && k.drain.isNone && k.lists.vecs.isEmpty

/-- R149, R150: what a core has counted in its step. -/
def Core.stepCounts (k : Core) : StepCounts :=
  { step := k.report.step, passes := k.passCount - k.report.passBase
    fired := (List.range 8).map (fun n => (k.node n).fired - k.report.firedBase.getD n 0)
    streams := k.report.sent.map (fun x => (x.1, x.2.1, x.2.2)) }

/-- R145: the step-end record; its counts other than LOG.IDLE are 0 (log 18). -/
def Core.stepEndRecord (k : Core) : LogRec :=
  { idle := k.report.gateNow, step := k.report.step.setWidth 32, operator := BitVec.allOnes 24, engine := 3,
    status := k.report.status.bits }

/-- R145, R147: an engine's record at the end of a step, after its idle cycles. -/
def Core.closeEngine (k : Core) (e : Nat) (idle : Nat) : Core :=
  let k1 := k.charge e 0 0 0 idle 0
  k1.writeLog (k1.engineRecord e (k1.engine e))

/-- R148, 11 Tables 11.4, 11.5, 11.8: every core of the partition has ended a step: JCP.STEP, MOD.STEP_RESULT, the events,
the summary records (15 R405), the data-order cursor (07 R180) and the end of the job at JCP.END_STEP (11 R307). -/
def State.partStepEnd (s : State) (p : Nat) (step : BitVec 64) : State :=
  let j := (s.part p).job
  let status := j.stepStatus.get 0 step.toNat
  let res : BitVec 64 := BitVec.ofNat 64 (step.toNat % 2 ^ 32 * 2 ^ 32 + status.toNat)
  let s1 : State := { s with mod := { s.mod with stepResult := s.mod.stepResult.set 0 p res } }
  let s2 := s1.modPart p (fun k => { k with
    jcp := { k.jcp with step := step }
    job := { k.job with updateBegun := false, cursor := (step + 1) * BitVec.ofNat 64 j.body.mbCount } })
  let s3 := if status.getLsbD 0 then s2.jobEvent p 2 else s2
  let n := (s.part p).jcp.stepIrqEvery
  let s4 := if n ≠ 0 && decide (n.toNat ≤ (step - j.stepIrqBase).toNat) then
      (s3.jobEvent p 1).modJob p (fun x => { x with stepIrqBase := step })
    else s3
  let s5' := s4.summaries (some p)
  let s5 := if j.snapStep step then s5'.modJob p (fun x => { x with snapDue := some step }) else s5'
  if step = (s.part p).jcp.endStep && decide ((s.part p).jcp.state = .running) then
    (s5.modJob p (fun x => { x with stopStep := some step })).setJobState p .stopping
  else s5

/-- STEP_END (R141, R145, R148): a core's step ends when its three engines are done; `idle` are their cycles without an
entry. The last core of the partition to end the step ends it for the partition. RPT.STATUS is taken into the step's result and cleared
here, so it reads 0 between steps; when before the next step it is cleared the spec does not say (DESIGN CHOICE, log 108). -/
def stepEnd (c : CoreId) (idle0 idle1 idle2 : BitVec 32) (s : State) : State :=
  let k := s.core c.val
  let p := s.partOfCore c.val
  if !k.stepDone || s.coreStopped c.val then s
  else
    let k1 := ((k.closeEngine 0 idle0.toNat).closeEngine 1 idle1.toNat).closeEngine 2 idle2.toNat
    let st := k1.report.status.bits
    let k2 := (k1.writeLog k1.stepEndRecord).modReport (fun r =>
      { r with status := {}, inStep := false, ended := true, ends := r.ends ++ [{ k.stepCounts with variant := (s.part p).job.variant }] })
    let s1 := (s.setCore c.val k2).commitLog c.val
    let s2 := s1.modJob p (fun x => { x with stepStatus := x.stepStatus.mod 0 k.report.step.toNat (fun y => y ||| st) })
    let step := k.report.step
    let done (q : Core) : Bool := (q.report.ended && decide (step ≤ q.report.step)) || decide (step < q.report.step)
    if (s2.jobCores p).all (fun n => done (s2.core n)) then s2.partStepEnd p step else s2

-- Comparison with the report ----------------------------------------------------------------------------------------------

/-- R145: the unread records of a core, read from the ring in its tower's DRAM. -/
def State.logUnread (s : State) (c : Nat) : List LogRec :=
  let r := (s.core c).report
  let size := 2 ^ (8 + r.logSize.toNat)
  (List.range (r.logWr - r.logRd).toNat).map (fun i =>
    LogRec.ofNat (ofBytes (s.jobBytes (c / 16) (r.logBase.toNat + 32 * ((r.logRd.toNat + i) % size)) 32)))

/-- R145: whether a count of a record differs from the report's; a saturated one does not match. -/
def countDiffers (a b : BitVec 32) : Bool := decide (a ≠ b) || decide (a = BitVec.allOnes 32)

/-- The first field of Table 05.10, counted from its top row, in which a record differs from the report's. -/
def LogRec.differ (a b : LogRec) : Option Nat :=
  if countDiffers a.idle b.idle then some 0 else if countDiffers a.waitOut b.waitOut then some 1
  else if countDiffers a.waitIn b.waitIn then some 2 else if countDiffers a.fire b.fire then some 3
  else if countDiffers a.instances b.instances then some 4 else if a.step ≠ b.step then some 5
  else if a.operator ≠ b.operator then some 6 else if a.engine ≠ b.engine then some 8
  else if a.status ≠ b.status then some 10 else none

/-- The first field of R150 in which a record differs from the report's. -/
def LogRec.differ150 (a b : LogRec) : Option Nat :=
  if countDiffers a.fire b.fire then some 3 else if countDiffers a.instances b.instances then some 4 else if a.operator ≠ b.operator then some 6
  else none

/-- The first difference of two record sequences: engine, operator, field. A missing record differs in its operator. -/
def firstDiffer (f : LogRec → LogRec → Option Nat) : List LogRec → List LogRec → Option (Nat × Nat × Nat)
  | [], [] => none
  | a :: _, [] => some (a.engine.toNat, a.operator.toNat, 6)
  | [], b :: _ => some (b.engine.toNat, b.operator.toNat, 6)
  | a :: x, b :: y =>
    match f a b with
    | some i => some (b.engine.toNat, b.operator.toNat, i)
    | none => firstDiffer f x y

/-- R149, R150: what a core's records and counts of a step show against the report's: none where they agree. The step is on-report where no
core of the partition ended it off-report (R148); `sent` are the packets of the step by port (R140). A STEER.FIRED increment or a transfer
count that differs is named with engine 3 (DESIGN CHOICE, log 93). -/
def divergence (off : Bool) (n : StepCounts) (sent : Nat → Nat) (e : ReportStep) (recs : List LogRec) : Option (Nat × Nat × Nat) :=
  let of (n : Nat) (l : List LogRec) : List LogRec := l.filter (fun r => r.engine.toNat = n)
  if n.passes ≠ e.passes then some (0, 0xFFFFFF, 3)
  else if off || e.offReport then firstDiffer LogRec.differ150 (of 0 recs) (of 0 e.records)
  else
    match (List.range 4).findSome? (fun n => firstDiffer LogRec.differ (of n recs) (of n e.records)) with
    | some x => some x
    | none =>
      if (List.range 8).any (fun i => decide (n.fired.getD i 0 ≠ e.fired.getD i 0)) then some (3, 0xFFFFFF, 11)
      else if n.streams ≠ e.streams || e.ports.any (fun x => decide (sent x.1 ≠ x.2)) then some (3, 0xFFFFFF, 12) else none

/-- R151, R420: a divergence of a core in a step: its record, which names that step, the event, a deferred test, and a hardware error at
GH.DIV_LIMIT consecutive ones, which brings the deferred tests of the core forward (R410). -/
def State.diverge (s : State) (c : Nat) (step : BitVec 64) (x : Nat × Nat × Nat) : State :=
  let p := s.partOfCore c
  let n := s.gh.diverged.get 0 c + 1
  let r : Report1 := { s.coreReport c 0x0506 (x.2.1 % 2 ^ 24 + x.1 * 2 ^ 24 + x.2.2 * 2 ^ 26) (logicalCore (s.part p).job.quads c) 1 with step := some step }
  let mine (t : Test) : Bool := decide (t.target = r.target) && t.deferred
  let now := decide (s.gh.divLimit.toNat ≤ n)
  let g : Gingham := { s.gh with
    diverged := s.gh.diverged.set 0 c n
    queue := if now then s.gh.queue.map (fun t => if mine t then { t with deferred := false } else t) else s.gh.queue }
  let s0 : State := { s with gh := g }
  if now then (s0.jobEvent p 3).hwError r
  else
    let idx := s.err.wr
    let s1 := (s0.logError r).jobEvent p 3
    s1.schedule { target := { kind := 1, index := BitVec.ofNat 28 c }, deferred := true, cause := idx, code := 0x0506,
                  part := some (BitVec.ofNat 2 p) }

/-- R151: one core's records of one ended step compared, where the step is predicted and verified. -/
def State.compareStep (s : State) (c : Nat) (recs : List LogRec) (n : StepCounts) : State :=
  let job := (s.part (s.partOfCore c)).job
  let lc := logicalCore job.quads c
  let mine := recs.filter (fun e => e.step = n.step.setWidth 32)
  match job.report.find? (fun e => decide (e.step = n.step) && decide (e.core.toNat = lc) && decide (e.variant = n.variant)) with
  | none => s
  | some e =>
    let unverified := mine.any (fun r => r.status.getLsbD 11) || !mine.any (fun r => decide (r.engine = 3))
    if !e.predicted || unverified then s
    else
      match divergence ((job.stepStatus.get 0 n.step.toNat).getLsbD 0) n
          (fun q => job.portSent.get 0 (2 ^ 16 * q + n.step.toNat % 2 ^ 16)) e mine with
      | some x => s.diverge c n.step x
      | none => { s with gh := { s.gh with diverged := s.gh.diverged.set 0 c 0 } }

/-- R146, R151: the die controller compares one core's records of the steps that every core of the partition has ended, and marks them
read. -/
def State.compareCore (s : State) (c : Nat) : State :=
  let k := s.core c
  let p := s.partOfCore c
  let last := (s.part p).jcp.step
  let ended := k.report.ends.filter (fun n => decide (n.step ≤ last) && !decide (last = BitVec.allOnes 64))
  if !(s.part p).job.reportLoaded || ended.isEmpty then s
  else
    let recs := s.logUnread c
    let read := (recs.filter (fun e => ended.any (fun n => e.step = n.step.setWidth 32))).length
    let s1 := s.modCore c (fun q => q.modReport (fun r => { r with
      logRd := r.logRd + BitVec.ofNat 32 read, ends := r.ends.filter (fun n => !ended.contains n) }))
    ended.foldl (fun a n => a.compareStep c recs n) s1

/-- REPORT_COMPARE (R151): the die controller of a tower compares its cores' records. -/
def reportCompare (t : TowerId) (s : State) : State :=
  (List.range 16).foldl (fun a n => a.compareCore (16 * t.val + n)) s

-- The stall watch ------------------------------------------------------------------------------------------------------------

/-- R135: whether the arrays wait for input on an operand other than queue e: to latch an instance, for another token of its first pass, or,
its tiles standing in the store of one operand of the head pass, for the other operand. The weights of a pass are seen as absent where no
queue brings them, which leaves it to the timer's expiry, or where one that does is empty (log 92). -/
def Core.arraysWait (k : Core) (e : Nat) : Bool :=
  let others (store : Nat) : Bool :=
    let l := k.eps.filter (fun x => decide (x.2.dir = 1) && decide (x.2.store.toNat = store) && decide (x.1 ≠ e) && !k.steered x.1)
    l.isEmpty || l.any (fun x => (k.present x.1).isNone)
  match k.lists.inst with
  | none => !k.lists.ops.isEmpty
  | some i =>
    match i.passes with
    | [] => false
    | p :: _ =>
      (i.fresh && i.op.waits.any (fun q => decide (q.val ≠ e) && (k.present q.val).isNone)) ||
        (if (k.ep e).store.toNat = 0 then others 1 else !k.inputReady i p && others 0)

/-- R135: whether the engine that consumes an endpoint waits for input on an operand other than its queue: a steering node for another of
its inputs, the vector unit, where an entry of its list reads the queue, for another operand of its head entry, else the arrays. -/
def Core.waitsElsewhere (k : Core) (e : Nat) : Bool :=
  if k.steered e then
    k.steer.any (fun x =>
      let n := x.2
      let ins := (if n.kind = .switch then [n.inA.toNat, n.token.toNat] else if n.kind = .select then [n.inA.toNat, n.inB.toNat, n.token.toNat]
        else [n.inA.toNat, n.inB.toNat])
      decide (n.kind ≠ .unused) && ins.contains e && ins.any (fun i => decide (i ≠ e) && (k.present i).isNone))
  else
    if k.lists.vectorList.any (fun v => v.reads.any (fun q => decide (q.val = e))) then
      match k.lists.vecs with
      | v :: _ => !k.vecReady { v with reads := v.reads.filter (fun q => decide (q.val ≠ e)) }
      | [] => false
    else k.arraysWait e

/-- R136, R137, Table 11.6a: one stuck queue is spilled, or, under JCP.STALL_MODE = 1, the core stops with QUEUE_STUCK. -/
def State.unstick (s : State) (c e : Nat) : State :=
  let k := s.core c
  let x := k.ep e
  if !x.full || !k.waitsElsewhere e then s
  else if bitAt (s.part (s.partOfCore c)).job.latched.modes 1 then s.coreFault c 0x0503 e 0
  else
    let s1 := s.setCore c (k.setEp e { x with stuckSeen := true })
    let s2 := s1.spillAll c e x.tiles.length
    s2.logError (s.coreReport c 0x0504 e x.tiles.length 0)

/-- STALL_TIMER_EXPIRE (R135 to R137): the timers of a core's queues expire at one time: those that are stuck are dealt with one after
another, the lowest endpoint first. -/
def stallTimerExpire (c : CoreId) (eps : BitVec 32) (s : State) : State :=
  if s.stallWatchStopped c.tower then s
  else (List.range 32).foldl (fun a e => if eps.getLsbD e then a.unstick c.val e else a) s

/-- STALL_TIMER_EXPIRE. -/
def execStallTimerExpire (c : CoreId) (eps : BitVec 32) (s : State) : Host.Outcome State Fault Refusal :=
  .next (stallTimerExpire c eps s)
/-- CORE_ENABLE. -/
def execCoreEnable (c : CoreId) (on : Bool) (s : State) : Host.Outcome State Fault Refusal := .next (coreEnable c on s)
/-- CORE_HALT_REQ. -/
def execCoreHaltReq (c : CoreId) (on : Bool) (s : State) : Host.Outcome State Fault Refusal := .next (coreHaltReq c on s)
/-- PASS_BOUNDARY_STOP. -/
def execPassBoundaryStop (c : CoreId) (s : State) : Host.Outcome State Fault Refusal := .next (passBoundaryStop c s)
/-- SRAM_UE. -/
def execSramUe (c : CoreId) (store : Fin 5) (bank : BitVec 8) (hit : SramHit) (s : State) :
    Host.Outcome State Fault Refusal := .next (sramUe c store bank hit s)
/-- STEP_START. -/
def execStepStart (c : CoreId) (wait : BitVec 32) (s : State) : Host.Outcome State Fault Refusal := .next (stepStart c wait s)
/-- STEP_END. -/
def execStepEnd (c : CoreId) (idle0 idle1 idle2 : BitVec 32) (s : State) : Host.Outcome State Fault Refusal :=
  .next (stepEnd c idle0 idle1 idle2 s)
/-- REPORT_COMPARE. -/
def execReportCompare (t : TowerId) (s : State) : Host.Outcome State Fault Refusal := .next (reportCompare t s)

end Sys2Proof.Machine
end

