-- ==== Sys2Proof/Machine/Reduction.lean ====
section
/-! DEFINITION. The gradient reduction path (08). -/

namespace Sys2Proof.Machine

-- The combine tile --------------------------------------------------------------------------------------------------------

/-- R212: RED.RECORD, RED.COUNT and RED.CLOSE of a reduction word. -/
def RedTerm.record (t : RedTerm) : Nat := bitsAt t.word.toNat 0 30
/-- RED.COUNT. -/
def RedTerm.count (t : RedTerm) : Bool := t.word.getLsbD 30
/-- RED.CLOSE. -/
def RedTerm.close (t : RedTerm) : Bool := t.word.getLsbD 31

/-- Whether every row of a term has been added or set non-finite. -/
def RedTerm.done (t : RedTerm) : Bool := t.applied && t.rows.all (fun r => r.done)

/-- R213, R214: one row's elements added into a combine tile, shifted left by the term's offset. -/
def State.addRow (s : State) (p addr offset : Nat) : List Int → State
  | [] => s
  | z :: t => (s.addI64 p addr (z * 2 ^ offset)).addRow p (addr + 8) offset t

/-- R214: the rows of a term that are outstanding and fit, added; row r starts at element 64r of the tile. -/
def State.addRows (s : State) (p addr offset : Nat) : List RedRow → State
  | [] => s
  | r :: t =>
    (if r.done || r.miss then s else s.addRow p addr offset r.elems).addRows p (addr + 512) offset t

/-- The place of the first element of a list that holds. -/
def firstWhere {α : Type} (f : α → Bool) (l : List α) : Option (Nat × α) :=
  match l.findIdx? f with
  | none => none
  | some i => match l[i]? with | some x => some (i, x) | none => none

/-- The core with one of its terms replaced; a term the vector unit wrote goes once it is done. The record of a closing
term that is done is noted (R216). -/
def Core.putTerm (k : Core) (i : Nat) (t : RedTerm) : Core :=
  { k with
    red := if t.done && t.slot.isNone then k.red.eraseIdx i else listSet k.red i t
    closes := if t.done && t.close then k.closes ++ [(t.record, t.step)] else k.closes }

/-- REDUCTION_ADD (R213): the port adds the oldest drained term of a core into its combine tile; the record opens. -/
def reductionAdd (c : CoreId) (s : State) : State :=
  let k := s.core c.val
  let p := s.partOfCore c.val
  match firstWhere (fun t => !t.applied) k.red with
  | none => s
  | some (i, t) =>
    let r := s.cr p t.record
    match s.groupOf p r.group with
    | none => s
    | some d =>
      if s.coreStopped c.val then s
      else s.whenUnit p c.val [(s.crAddr p t.record, 16)] [(d.combineAddr r.tile 0, 32768), (d.headerAddr r.tile, 64)] [] (fun s =>
        let s1 := s.addRows p (d.combineAddr r.tile 0) t.offset t.rows
        let h := s.ch p d r.tile
        let h1 : Ch :=
          { count := h.count + bitOf (t.count && !t.counted)
            nonfinite := if t.rows.any (fun x => x.nonfinite && !x.done) && decide (h.nonfinite = 0) then 1 else h.nonfinite
            widened := max h.widened t.offset }
        let s2 := s1.setCh p d r.tile h1
        let s3 := if r.state = 0 then s2.setCr p t.record { r with state := 1 } else s2
        let t1 : RedTerm := { t with applied := true, counted := true,
                                     rows := t.rows.map (fun x => { x with done := x.done || !x.miss }) }
        s3.modCore c.val (fun q => q.putTerm i t1))

/-- R214: the rows of a re-drain that are outstanding; the others stay as they were. -/
def mergeRows (old new : List RedRow) : List RedRow :=
  List.zipWith (fun a b => if a.done then a else b) old new

/-- REDRAIN (R214): the rows of the oldest added term that still saturate are drained again at a byte 8 higher, or, beyond
offset 24 or byte 254, set non-finite. The re-drain takes the drain port, which no drain uses meanwhile (R79); what INT24 conversion of
the slot met sets the core's flags again (02 R58). A term of the vector unit (07 R196) has no slot to drain again, and R214 speaks of drains
alone: a row of it that saturates is set non-finite at once (DESIGN CHOICE, log 108). -/
def redrain (c : CoreId) (s : State) : State :=
  let k := s.core c.val
  let p := s.partOfCore c.val
  match firstWhere (fun t => t.applied && !t.done) k.red with
  | none => s
  | some (i, t) =>
    if s.coreStopped c.val || k.drain.isSome then s else
    let r := s.cr p t.record
    let next := t.offset + 8
    match t.slot, decide (next ≤ 24) && decide (t.scale + next ≤ 254) with
    | some j, true =>
      let x := k.slot j
      let o := convertTile .int24 (fun m n => (x.entry (64 * m + n)).value t.bf16 (sint8 t.valueShift)) t.rowAxis false 0
        (t.scale + next) {} (fun _ _ => 0)
      let t1 : RedTerm := { t with offset := next, applied := false, rows := mergeRows t.rows o.rows }
      ((s.setCore c.val ((k.drainHead.charge 1 64 0 0 0 0).putTerm i t1)).setArith c.val o.flags.arith).markResend c.val
    | _, _ =>
      match s.groupOf p r.group with
      | none => s
      | some d =>
        let t1 : RedTerm := { t with rows := t.rows.map (fun x => { x with done := true }) }
        let h := s.ch p d r.tile
        s.whenUnit p c.val [] [(d.headerAddr r.tile, 64)] [] (fun s =>
          (s.setCh p d r.tile { h with nonfinite := max h.nonfinite 1 }).modCore c.val (fun q => q.putTerm i t1))

/-- SLOT_RELEASE (R78, R214): a HELD slot whose terms are done and added is released to FREE by the reduction port. -/
def slotRelease (c : CoreId) (j : Fin 32) (s : State) : State :=
  let k := s.core c.val
  let mine := k.red.filter (fun t => decide (t.slot = some j.val))
  if mine.isEmpty || mine.any (fun t => !t.done) || (k.slot j.val).state ≠ .held || s.coreStopped c.val then s
  else s.setCore c.val { k.setSlot j.val {} with red := k.red.filter (fun t => !decide (t.slot = some j.val)) }

-- Reports ---------------------------------------------------------------------------------------------------------------

/-- R221: RNE(P × 2^(s - s')). -/
def rneShift (z : Int) (k : Int) : Int :=
  if k ≤ 0 then z * (2 ^ (-k).toNat : Nat)
  else
    let q : Int := (rneDiv z.natAbs (2 ^ k.toNat) : Nat)
    if z < 0 then -q else q

/-- R221 step 2: whether a value fits an INT24 element. -/
def fits24 (z : Int) : Bool := decide (z.natAbs ≤ 2 ^ 23 - 1)

/-- R221: the elements of a report and its NONFINITE mark, or the needed byte of a NOTICE. -/
def reportOf (ps : List Int) (s s' : Nat) : Except Nat (List Int × Bool) :=
  let at' (x : Nat) : List Int := ps.map (fun z => rneShift z ((x : Int) - (s : Int)))
  if (at' s').all fits24 then .ok (at' s', false)
  else
    match ((List.range 255).filter (fun x => decide (s' < x))).find? (fun x => (at' x).all fits24) with
    | some x => .error x
    | none =>
      let lim : Int := 2 ^ 23 - 1
      .ok ((at' 0xFE).map (fun q => if q < -lim then -lim else if lim < q then lim else q), true)

/-- R221: a tile of group d reported by its home core from the retained P, for a step; its record becomes SENT or NOTICED. -/
def State.report (s : State) (p i : Nat) (step : BitVec 32) : State :=
  let r := s.cr p i
  match s.groupOf p r.group with
  | none => s
  | some d =>
    let c := s.homeCore p d r.tile
    let ps := (List.range 4096).map (fun n => toI64 (s.jobNat p (d.combineAddr r.tile n) 8))
    let h := s.ch p d r.tile
    let rc : Rc := { step := step, tile := BitVec.ofNat 32 r.tile, count := BitVec.ofNat 16 h.count, member := d.self,
                     group := d.id, scale := BitVec.ofNat 8 r.sendScale, nonfinite := decide (h.nonfinite ≠ 0),
                     round := BitVec.ofNat 8 r.round }
    match reportOf ps r.termScale r.sendScale with
    | .error need =>
      (s.sendRc c r.owner { rc with kind := 1, scale := BitVec.ofNat 8 need } []).setCr p i { r with state := 3 }
    | .ok (qs, over') =>
      let rc1 : Rc := if over' then { rc with scale := 0xFE, nonfinite := true } else rc
      let s1 := (List.range 4).foldl (fun a n =>
        a.sendRc c r.owner { rc1 with seg := BitVec.ofNat 2 n, last := decide (n = 3) }
          (packElems .int24 (((qs.drop (1024 * n)).take 1024).map (patOfInt 24)))) s
      s1.setCr p i { r with state := 2 }

/-- TILE_CLOSE_REPORT (R216, R221): the home core's port reports the tile whose closing term was added first, once no term
of it is outstanding. A member that has abandoned the step reports nothing (R234). -/
def tileCloseReport (c : CoreId) (s : State) : State :=
  let k := s.core c.val
  let p := s.partOfCore c.val
  match k.closes with
  | [] => s
  | (i, step) :: rest =>
    if k.red.any (fun t => decide (t.record = i) && !t.done) || s.coreStopped c.val then s
    else s.whenUnit p c.val [(s.crAddr p i, 16), (s.combineRange p i).1, (s.combineRange p i).2] [] [] (fun s =>
      let s1 := s.setCore c.val { k with closes := rest }
      if (s.part p).job.withdrawn.isSome || (s.part p).job.hold then s1 else s1.report p i step)

-- The owner -------------------------------------------------------------------------------------------------------------

/-- R228: the gradient of an element: one rounding of the exact quotient; none where the segment holds no micro-batch. -/
def gradientOf (sum : Int) (scale count : Nat) : Option F32 :=
  if count = 0 then none
  else if sum = 0 then some 0
  else
    some (BitVec.ofNat 32 (convert .fp32 .rne (.fin (decide (sum < 0)) sum.natAbs ((scale : Int) - 127 - 23)) count).1)

/-- R228: the offset in a core's vector scratch where the operand of a tile's update lies, which its vector list names. -/
def Core.gradPlace (k : Core) (g t : Nat) : Option Nat :=
  k.lists.vecs.findSome? (fun e => match e.op with
    | .adamw a b => if decide (a.toNat = g) && decide (b.toNat = t) then some e.a else none
    | _ => none)

/-- R228: the gradients of a COMPLETE tile, which its owner core's port writes into the core's vector scratch; a row that is not finite gets
NaNs. A core whose list holds no update of the tile gets none. -/
def State.formGrads (s : State) (p : Nat) (d : GroupDesc) (t : Nat) : State :=
  let o := s.orec p d t
  let vals : List (BitVec 32) := (List.range 4096).map (fun i =>
    if o.nonfinite then f32NaN
    else (gradientOf (toI64 (s.jobNat p (d.sumAddr t i) 8)) o.scale (o.seg.getD (i / 1024) 0)).getD f32NaN)
  s.modCore (s.ownerCore p d t) (fun k => match k.gradPlace d.id.toNat t with
    | some off =>
      let k1 := k.writeStore .scratch off (wordBytes vals)
      { k1 with grads := k1.grads ++ [{ group := d.id.toNat, tile := t, off := off }] }
    | none => k)

/-- R224: reopen: the sum and the record's round start again at a scale, and every live member gets a RESCALE. -/
def State.reopen (s : State) (p : Nat) (d : GroupDesc) (t scale : Nat) : State :=
  let o := s.orec p d t
  let c := s.ownerCore p d t
  let o1 : Or := { o with seg := [0, 0, 0, 0], complete := 0, notices := 0, maxb := 0, nonfinite := false, scale := scale,
                          round := (o.round + 1) % 256 }
  let s1 := (s.jobZero p (d.sumAddr t 0) 32768).setOrec p d t o1
  let rc : Rc := { step := BitVec.ofNat 32 o.step, tile := BitVec.ofNat 32 t, member := d.self, group := d.id,
                   scale := BitVec.ofNat 8 scale, kind := 2, round := BitVec.ofNat 8 o1.round }
  let s2 := (s.liveMembers p d).foldl (fun a m => a.sendRc c m rc []) s1
  let g := s2.gs p d
  (s2.setGs p d { g with rescales := g.rescales + 1 }).markResend c

/-- R224: decide. -/
def State.decideTile (s : State) (p : Nat) (d : GroupDesc) (t : Nat) : State :=
  let o := s.orec p d t
  if o.state ≠ 0 || o.complete + o.notices < (s.gs p d).live then s
  else if o.notices = 0 then (s.setOrec p d t { o with state := 1 }).formGrads p d t
  else s.reopen p d t (max o.scale o.need)

/-- R224, R236: a packet discarded and counted in the group status; the step is marked at a core (R233). R233 names discarded reports: that
a discarded parameter part marks the step as well is the model's choice (DESIGN CHOICE, log 108). -/
def State.discardRc (s : State) (p c : Nat) (d : GroupDesc) : State :=
  let g := s.gs p d
  (s.setGs p d { g with discarded := g.discarded + 1 }).markResend c

/-- R236: the delivered part at place `i` discarded by core `c`, where the status block may be written (09 R247). It sets RPT.RESEND of the
core too, though R233 names discarded reports only (DESIGN CHOICE, log 108). -/
def State.discardPart (s : State) (p i c : Nat) (d : GroupDesc) : State :=
  s.whenUnit p c [(d.statusAddr.toNat, 16)] [] [] (fun s => (s.dropRx i).discardRc p c d)

/-- R225: a protocol fault of a member's report. -/
def State.reduceProtocol (s : State) (c : Nat) (rc : Rc) : State :=
  s.programFault (s.coreReport c 0x0801 rc.member.toNat rc.tile.toNat 4) 0x25

/-- Whether a report is one of its tile's current step and round, still collecting (R224). -/
def Or.accepts (o : Or) (rc : Rc) : Bool :=
  decide (rc.round.toNat = o.round) && decide (rc.step.toNat = o.step) && decide (o.state = 0)

/-- The bit length of the largest magnitude of a list (Table 08.6). -/
def maxBits (zs : List Int) : Nat := zs.foldl (fun a z => max a (if z = 0 then 0 else Nat.log2 z.natAbs + 1)) 0

/-- R224: the ranges that a report of a tile writes. -/
def State.ownerRanges (d : GroupDesc) (t : Nat) : List (Nat × Nat) :=
  [(d.sumAddr t 0, 32768), (d.orAddr t, 32), (d.statusAddr.toNat, 16)]

/-- SEGMENT_RECEIVE (R224): the owner's port takes the delivered SEGMENT at place `i`. -/
def segmentReceive (p : PartId) (i : Nat) (s : State) : State :=
  match s.rxAt p.val i 2 with
  | none => s
  | some pkt =>
    let rc := Rc.ofBytes pkt.payload
    match s.groupOf p.val rc.group.toNat with
    | none => if rc.kind = 0 then s.dropRx i else s
    | some d =>
      let t := rc.tile.toNat
      let c := s.runAt p.val (s.linkDie (s.rxDie i)).ownerRuns rc.group.toNat t
      if rc.kind ≠ 0 then s
      else if s.coreStopped c then s
      else if !d.owns t then (s.dropRx i).reduceProtocol c rc
      else
        s.whenUnit p.val c (State.ownerRanges d t) [] [] (fun s =>
          let s0 := s.dropRx i
          let o := s.orec p.val d t
          if !o.accepts rc then s0.discardRc p.val c d
          else
            let zs := (List.range 1024).map (fun n => int24Of (elemOf .int24 (pkt.payload.drop 32) n))
            let k := rc.seg.toNat
            let s1 := s0.addRow p.val (d.sumAddr t (1024 * k)) 0 zs
            let o1 : Or := { o with seg := listSet o.seg k (o.seg.getD k 0 + rc.count.toNat), maxb := max o.maxb (maxBits zs),
                                    nonfinite := o.nonfinite || rc.nonfinite, complete := o.complete + bitOf rc.last }
            (s1.setOrec p.val d t o1).decideTile p.val d t)

/-- NOTICE_RECEIVE (R224, R225): the owner's port takes the delivered NOTICE at place `i`. R225 makes a segment for a tile outside the
owner's range a protocol fault; the model takes a NOTICE for such a tile as one too (DESIGN CHOICE, log 108). -/
def noticeReceive (p : PartId) (i : Nat) (s : State) : State :=
  match s.rxAt p.val i 2 with
  | none => s
  | some pkt =>
    let rc := Rc.ofBytes pkt.payload
    match s.groupOf p.val rc.group.toNat with
    | none => if rc.kind = 1 then s.dropRx i else s
    | some d =>
      let t := rc.tile.toNat
      let c := s.runAt p.val (s.linkDie (s.rxDie i)).ownerRuns rc.group.toNat t
      if rc.kind ≠ 1 || s.coreStopped c then s
      else if !d.owns t then (s.dropRx i).reduceProtocol c rc
      else
        s.whenUnit p.val c (State.ownerRanges d t) [] [] (fun s =>
          let s0 := s.dropRx i
          let o := s.orec p.val d t
          if !o.accepts rc then s0.discardRc p.val c d
          else if rc.scale.toNat ≤ o.scale then s0.reduceProtocol c rc
          else
            (s0.setOrec p.val d t { o with notices := o.notices + 1, need := max o.need rc.scale.toNat }).decideTile p.val d t)

/-- RESCALE_RECEIVE (R225): a member takes the delivered RESCALE at place `i`: it reports again from the retained sum, or
records the scale and round for its close. An EMPTY record of the step it runs is treated as OPEN (log 24). A member that has withdrawn
from the step reports none of its tiles (R234). R233 marks "the cores involved" in a reopen: the model takes these to be the owner core and the
home cores that report again; a home core whose record is OPEN or EMPTY has sent nothing and is not marked (DESIGN CHOICE, log 108). -/
def rescaleReceive (p : PartId) (i : Nat) (s : State) : State :=
  match s.rxAt p.val i 2 with
  | none => s
  | some pkt =>
    let rc := Rc.ofBytes pkt.payload
    if rc.kind ≠ 2 then s
    else
      match s.groupOf p.val rc.group.toNat, s.crOf p.val rc.group.toNat rc.tile.toNat with
      | some d, some j =>
        if s.coreStopped (s.homeCore p.val d rc.tile.toNat) then s else
        s.whenUnit p.val (s.homeCore p.val d rc.tile.toNat) [(s.crAddr p.val j, 16), (s.combineRange p.val j).1, (s.combineRange p.val j).2] [] [] (fun s =>
          let c := s.homeCore p.val d rc.tile.toNat
          let s0 := (s.dropRx i).released c
          let r := s.cr p.val j
          let r1 : Cr := { r with sendScale := rc.scale.toNat, round := rc.round.toNat }
          if (s.part p.val).job.withdrawn.isSome || (s.part p.val).job.hold then s0 else
          match r.state with
          | 0 => if (s.core c).report.step.setWidth 32 = rc.step then s0.setCr p.val j r1 else s0
          | 1 => s0.setCr p.val j r1
          | 2 | 3 => ((s0.setCr p.val j r1).report p.val j rc.step).markResend c
          | _ => s0)
      | _, _ => s.dropRx i

-- Members ---------------------------------------------------------------------------------------------------------------

/-- R286: RT.LIVE of (g, m) cleared in every link die of the partition. -/
def State.clearLive (s : State) (p g m : Nat) : State :=
  s.modLinkDies p (fun l => { l with routes := FMap.mod {} l.routes (4096 * g + m) (fun e => { e with live := false }) })

/-- R229 step 2, 3: an owned tile of a group after a removal. -/
def State.afterRemoval (s : State) (p : Nat) (d : GroupDesc) (t : Nat) : State :=
  let o := s.orec p d t
  let touched := decide (o.notices ≠ 0) || decide (o.complete ≠ 0) || o.seg.any (fun n => decide (n ≠ 0)) ||
    decide (o.maxb ≠ 0) || o.nonfinite
  let s1 := if o.state = 0 && touched then s.reopen p d t (max o.scale o.need) else s
  s1.decideTile p d t

/-- Whether a member owns a tile of a group that this member contributes to. -/
def State.ownsIn (s : State) (p g m : Nat) : Bool :=
  (List.range (s.body p).crs.length).any (fun i => decide ((s.cr p i).group = g) && decide ((s.cr p i).owner = m))

/-- 12 R344: whether a module, member m of group g, owns a tile in any of this module's groups. -/
def State.ownsAny (s : State) (p g m : Nat) : Bool :=
  s.ownsIn p g m || (s.body p).groups.any (fun d => (List.range d.members.toNat).any (fun i =>
    s.sameModule p d.id.toNat i g m && s.ownsIn p d.id.toNat i))

/-- R229, R286, 12 R344: a membership change of a group. The removal of an owner, or any removal under policy 1, is a
rollback hold. -/
def State.removeMember (s : State) (p g m : Nat) : State :=
  match s.groupOf p g with
  | none => s
  | some d =>
    if !(s.route p g m).live then s
    else
      let idx := s.err.wr.toNat
      let s1 := (s.logError { code := 0x0802, detail := m, info := g, part := some p }).jobEvent p 8
      if s.ownsAny p g m || decide (bitsAt (s.part p).job.latched.modes.toNat 2 2 = 1) then s1.rollbackHold p idx
      else
        let g0 := s1.gs p d
        let s2 := (s1.clearLive p g m).setGs p d { g0 with live := g0.live - 1 }
        ((List.range d.ownCount.toNat).map (fun i => d.ownFirst.toNat + i)).foldl (fun a t => a.afterRemoval p d t) s2

/-- MEMBER_REMOVAL (R229): the module controller applies a membership change of a reduction group. -/
def memberRemoval (p : PartId) (g : BitVec 8) (m : BitVec 12) (s : State) : State :=
  if (s.part p.val).jcp.state.inJob then s.removeMember p.val g.toNat m.toNat else s

/-- R234: the reduction state of a group abandoned: combine tiles and headers zero, owner records as the step began. -/
def State.clearGroup (s : State) (p : Nat) (d : GroupDesc) : State :=
  let s1 := (s.postZero p d.combineBase.toNat (32768 * d.tiles.toNat)).postZero p d.headerBase.toNat (64 * d.tiles.toNat)
  ((List.range d.ownCount.toNat).map (fun i => d.ownFirst.toNat + i)).foldl (fun a t =>
    a.openOwned p (a.orec p d t).step d t) s1

/-- R234: a partition abandons its step in the reduction path; its records become EMPTY, and the reduction port, whose terms are gone,
releases its HELD slots (03 R78, log 96). -/
def State.clearReduction (s : State) (p : Nat) : State :=
  let s1 := (List.range (s.body p).crs.length).foldl (fun a i =>
    a.postCr p i { a.cr p i with state := 0, round := 0, sendScale := (a.cr p i).termScale }) s
  let s2 := (s1.body p).groups.foldl (fun a d => a.clearGroup p d) s1
  s2.modCoresOf p (fun k => { k.releaseHeld with red := [], closes := [], grads := [] })

/-- WITHDRAW_STEP (R234): a member that has withdrawn from its step, or holds for a rollback, abandons it in the reduction
path. -/
def withdrawStep (p : PartId) (s : State) : State :=
  let j := (s.part p.val).job
  if j.withdrawn.isSome || j.hold then s.clearReduction p.val else s

-- Parameters ------------------------------------------------------------------------------------------------------------

/-- The region of a group that a tile lies in: its number, the region, and the tile's number in it (R208). -/
def regionOf : List Region → Nat → Nat → Option (Nat × Region × Nat)
  | [], _, _ => none
  | r :: rest, n, t => if t < r.tiles then some (n, r, t) else regionOf rest (n + 1) (t - r.tiles)

/-- 07 R201, R202, 12 R324: the job address ranges of the optimiser state that the owned tiles of an image hold. -/
def ImageBody.ownedRanges (b : ImageBody) : List (Nat × Nat) :=
  b.groups.flatMap (fun d => (List.range d.ownCount.toNat).flatMap (fun i =>
    match regionOf d.regions 0 (d.ownFirst.toNat + i) with
    | some (_, r, tl) => r.opt.ranges (4096 * tl) (r.opt.elems tl)
    | none => []))

/-- R235: parts of one copy of a tile. -/
def OptDesc.parts (o : OptDesc) : Nat := if o.workFmt = 1 then 4 else 2

/-- R181, R235: parts that a complete generation of a region has. -/
def Region.partsOfGen (r : Region) : Nat := r.tiles * r.opt.parts * (if r.opt.wtBwd = 2 then 2 else 1)

/-- R235: where a part of a tile is written: element and scale addresses in a generation. -/
def Region.place (r : Region) (gen t part : Nat) (copy : Bool) : Nat × Nat :=
  let e := (if copy then r.bwd else r.fwd).getD gen 0
  let x := (if copy then r.bwdScales else r.fwdScales).getD gen 0
  if r.opt.workFmt = 1 then (e + 8192 * t + 2048 * part, 0) else (e + 4096 * t + 2048 * part, x + 128 * t + 64 * part)

/-- R188: whether a part is the last of the forward copy of a region whose backward copy is formed by RECAST. -/
def Region.recasts (r : Region) (pb : Pb) : Bool :=
  decide (r.opt.wtBwd = 1) && decide (r.opt.workFmt = 2) && pb.last && !pb.copy

/-- R188: what the recast after a part writes. -/
def Region.recastRanges (r : Region) (gen t : Nat) (pb : Pb) : List (Nat × Nat) :=
  if r.recasts pb then [((r.place gen t 0 true).1, 4096), ((r.place gen t 0 true).2, 128)] else []

/-- R181, 05 R131: a generation token posted by core `from'` into a token queue of a logical core. Its TOK.SEQ is one above the endpoint's
latest of the step, from 0 (log 26). -/
def State.postToken (s : State) (p from' : Nat) (step : BitVec 16) (t : BitVec 9 × BitVec 5) : State :=
  let c := physCore (s.part p).job.quads t.1.toNat
  s.modCore c (fun k =>
    let onWay := ((k.arrivals ++ k.own).filter (fun a => decide (a.ep = t.2) && decide (a.step = step))).length
    let base := match (k.ep t.2.toNat).lastSeq with | some (st, q) => if st = step then q.toNat + 1 else 0 | none => 0
    let seq := base + onWay
    k.pushArrival (decide (from' = c))
      { ep := t.2, seq := BitVec.ofNat 32 seq, step := step, bytes := bytesOf (seq * 2 ^ 32 + step.toNat * 2 ^ 16) 8 })

/-- 01 R28: a token that core `c` posts to another core is refused where its route crosses a closed gate. -/
def State.sendToken (s : State) (p c : Nat) (step : BitVec 16) (t : BitVec 9 × BitVec 5) : State :=
  if s.gateRefuses (c / 16) (physCore (s.part p).job.quads t.1.toNat / 16) then s.gateRefusal c else s.postToken p c step t

/-- 07 R188: a tile's backward copy formed by RECAST, by the vector unit of core `c`, whose flags the conversion sets. -/
def State.recast (s : State) (p c : Nat) (r : Region) (gen t : Nat) : State :=
  let (e, x) := r.place gen t 0 false
  let (be, bx) := r.place gen t 0 true
  (s.recastTile p e x be bx).setArith c (s.recastOf p e x).2.2.arith

/-- R226: the acknowledgement of a tile: its combine tile and header zeroed, its record EMPTY at the new scale. -/
def State.ackTile (s : State) (p : Nat) (d : GroupDesc) (t next : Nat) : State :=
  match s.crOf p d.id.toNat t with
  | none => s
  | some i =>
    let s1 := (s.jobZero p (d.combineAddr t 0) 32768).jobZero p (d.headerAddr t) 64
    s1.setCr p i { s.cr p i with termScale := next, sendScale := next, state := 0, round := 0 }

/-- PARAM_PART_RECEIVE (R236, R226, 07 R181): a member writes the delivered parameter part at place `i` into the generation
of its step, acknowledges the tile on part 0 of the forward copy, and posts the region's tokens when its generation is
complete. Its next step is the one after the home core's, or, while the core has begun that step before its generation is complete, the
core's own (log 27); any other part is discarded. -/
def paramPartReceive (p : PartId) (i : Nat) (s : State) : State :=
  match s.rxAt p.val i 3 with
  | none => s
  | some pkt =>
    let pb := Pb.ofBytes pkt.payload
    match s.groupOf p.val pb.group.toNat with
    | none => s.dropRx i
    | some d =>
      let t := pb.tile.toNat
      let c := s.runAt p.val (s.linkDie (s.rxDie i)).homeRuns pb.group.toNat t
      let step := (s.core c).report.step.setWidth 32
      match regionOf d.regions 0 t with
      | none => s.dropRx i
      | some (n, r, tl) =>
        if s.coreStopped c then s
        else if pb.step ≠ step + 1 && (pb.step ≠ step || (s.part p.val).job.genParts.get 0 ((d.id.toNat * 2 ^ 16 + n) * 2 ^ 32 + step.toNat) = r.partsOfGen)
          then s.discardPart p.val i c d
        else
          let gen := pb.step.toNat % 2
          let (e, x) := r.place gen tl pb.part.toNat pb.copy
          let first := !pb.copy && decide (pb.part = 0)
          let cr := match s.crOf p.val d.id.toNat t with | some j => [(s.crAddr p.val j, 16)] | none => []
          let ack := if first && !cr.isEmpty then [(d.combineAddr t 0, 32768), (d.headerAddr t, 64)] else []
          s.whenUnit p.val c (if first then cr else []) []
              ([(e, 2048)] ++ (if r.opt.workFmt = 1 then [] else [(x, 64)]) ++ ack ++ r.recastRanges gen tl pb) (fun s =>
            let body := pkt.payload.drop 32
            let s0 := if first then (s.dropRx i).released c else s.dropRx i
            let s1 := s0.jobWrite (s.someTower p.val) e (body.take 2048)
            let s2 := if r.opt.workFmt = 1 then s1 else s1.jobWrite (s.someTower p.val) x ((body.drop 2048).take 64)
            let s3 := if first then s2.ackTile p.val d t pb.nextScale.toNat else s2
            let s4 := if r.recasts pb then s3.recast p.val c r gen tl else s3
            let key := (d.id.toNat * 2 ^ 16 + n) * 2 ^ 32 + pb.step.toNat
            let got := (s4.part p.val).job.genParts.get 0 key + 1
            if got < r.partsOfGen then s4.modJob p.val (fun j => { j with genParts := j.genParts.set 0 key got })
            else
              r.tokens.foldl (fun a k => a.sendToken p.val c (pb.step.setWidth 16) k)
                (s4.modJob p.val (fun j => { j with
                  genParts := FMap.set 0 (j.genParts.filter (fun e => decide (pb.step.toNat ≤ e.1 % 2 ^ 32 + 1))) key got })))

/-- REDUCTION_ADD. -/
def execReductionAdd (c : CoreId) (s : State) : Host.Outcome State Fault Refusal := .next (reductionAdd c s)
/-- REDRAIN. -/
def execRedrain (c : CoreId) (s : State) : Host.Outcome State Fault Refusal := .next (redrain c s)
/-- SLOT_RELEASE. -/
def execSlotRelease (c : CoreId) (slot : Fin 32) (s : State) : Host.Outcome State Fault Refusal := .next (slotRelease c slot s)
/-- TILE_CLOSE_REPORT. -/
def execTileCloseReport (c : CoreId) (s : State) : Host.Outcome State Fault Refusal := .next (tileCloseReport c s)
/-- SEGMENT_RECEIVE. -/
def execSegmentReceive (p : PartId) (i : Nat) (s : State) : Host.Outcome State Fault Refusal := .next (segmentReceive p i s)
/-- NOTICE_RECEIVE. -/
def execNoticeReceive (p : PartId) (i : Nat) (s : State) : Host.Outcome State Fault Refusal := .next (noticeReceive p i s)
/-- RESCALE_RECEIVE. -/
def execRescaleReceive (p : PartId) (i : Nat) (s : State) : Host.Outcome State Fault Refusal := .next (rescaleReceive p i s)
/-- MEMBER_REMOVAL. -/
def execMemberRemoval (p : PartId) (g : BitVec 8) (m : BitVec 12) (s : State) : Host.Outcome State Fault Refusal :=
  .next (memberRemoval p g m s)
/-- WITHDRAW_STEP. -/
def execWithdrawStep (p : PartId) (s : State) : Host.Outcome State Fault Refusal := .next (withdrawStep p s)
/-- PARAM_PART_RECEIVE. -/
def execParamPartReceive (p : PartId) (i : Nat) (s : State) : Host.Outcome State Fault Refusal :=
  .next (paramPartReceive p i s)

end Sys2Proof.Machine
end

