-- ==== Sys2Proof/Machine/LinkOps.lean ====
section
/-! DEFINITION. Ports, bonds, and the delivery of packets (10 R266, R278 to R286, R292). -/

namespace Sys2Proof.Machine

/-- A port. -/
def State.port (s : State) (i : Nat) : Port := s.ports.get {} i
/-- The state with a port replaced. -/
def State.setPort (s : State) (i : Nat) (x : Port) : State := { s with ports := s.ports.set {} i x }
/-- The state with `f` applied to a port. -/
def State.modPort (s : State) (i : Nat) (f : Port → Port) : State := s.setPort i (f (s.port i))
/-- R266: the partition of a port. -/
def State.partOfPort (s : State) (i : Nat) : Nat := s.partOfQuad (i / 6)

/-- R294: a counter of Table 10.13 advances. -/
def Port.count (x : Port) (i n : Nat) : Port := { x with counters := FMap.set 0 x.counters i (satAdd (x.counters.get 0 i) n) }
/-- A counter of a port advances by one. -/
def State.portCount (s : State) (port i : Nat) : State := s.modPort port (fun x => x.count i 1)

/-- R271: the credit units a packet needs. -/
def Packet.units (x : Packet) : Nat := ceilDiv (32 + 32 * x.len.toNat) 256

/-- R271: the units of a VC's buffer: 16 KiB for VC0, 256 KiB for the others. -/
def vcUnits (v : Nat) : Nat := if v = 0 then 64 else 1024

/-- R208, R281: this module's member index in a group of its partition's job. -/
def State.memberIn (s : State) (p g : Nat) : BitVec 12 :=
  if g = 0 then s.selfOf p else match s.groupOf p g with | some d => d.self | none => 0

/-- R283: whether a destination is this module's member index in a group; a group that it belongs to none of has no such index. -/
def State.isMember (s : State) (p g : Nat) (m : BitVec 12) : Bool :=
  decide (m = s.memberIn p g) && (decide (g = 0) || (s.groupOf p g).isSome)

/-- The members of a bond, in ascending rank (R284). -/
def bondPorts (mask : BitVec 24) : List Nat := (List.range 24).filter (fun i => mask.getLsbD i)

/-- R284: the port by which a flow leaves an output: a port, or a bond's member, or the next that is UP, at KLP 1.1 or above; none where the
port or every such member is not UP. -/
def State.outPort (s : State) (die out flow : Nat) : Option Nat :=
  if out < 24 then (if (s.port out).state = .up then some out else none)
  else
    let ms := bondPorts ((s.linkDie die).bonds.get 0 (out - 24))
    let n := ms.length
    if n = 0 then none
    else ((List.range n).map (fun i => ms.getD ((flow + i) % n) 0)).find? (fun q => decide ((s.port q).state = .up) && decide (1 ≤ (s.port q).ver.toNat))

/-- The ports of an output. -/
def State.outPorts (s : State) (die out : Nat) : List Nat :=
  if out < 24 then [out] else bondPorts ((s.linkDie die).bonds.get 0 (out - 24))

/-- A packet error of a partition's port (Table 10.9): class of the packet, KLP.PEER_ID. -/
def State.linkError (s : State) (port code cls : Nat) (action : Nat := 0) : State :=
  s.logError { code := code, kind := 7, unit := port, detail := cls, info := (s.port port).peerId.toNat, action := action,
               part := some (s.partOfPort port) }

/-- R278: a tensor packet delivered to its link-fed endpoint: the last part completes the tile, which arrives; a sequence
number of all ones is the end-of-step marker (05 R129). -/
def State.deliverTensor (s : State) (p : Nat) (x : Packet) : State :=
  let c := physCore (s.part p).job.quads x.dstCore.toNat
  let k := s.core c
  let e := k.ep x.dstEp.toNat
  let bs := e.parts ++ x.payload
  if !x.fin then s.setCore c (k.setEp x.dstEp.toNat { e with parts := bs })
  else
    let marker := decide (x.seq = BitVec.allOnes 32)
    let k1 := k.setEp x.dstEp.toNat { e with parts := [] }
    s.setCore c (k1.pushArrival false { ep := x.dstEp, seq := x.seq, step := x.step, marker := marker,
                                        bytes := if marker then [] else bs.take (64 * e.slotUnits) })

/-- Table 10.7, 12 Table 12.5: the control kinds that are assigned. -/
def ctlKnown (k : BitVec 8) : Bool := [0x01, 0x02, 0x10, 0x11, 0x12, 0x13, 0x14, 0x18, 0x19, 0x20, 0x21].contains k.toNat

/-- 12 R347: the partner is reachable again once a packet of it in group 0 arrives (log 110). -/
def State.partnerBack (s : State) (p : Nat) (x : Packet) : State :=
  if (s.part p).job.partnerLost && decide (x.group = 0) && decide (x.src = s.partnerOf p) then
    s.modJob p (fun j => { j with partnerLost := false })
  else s

/-- R277, R278: a packet delivered in partition p; a wrong KH.CRC or a reserved control kind discards it. `port` is the port it
arrived by, none for a packet of the module itself, `die` the link die that received it. -/
def State.deliver (s : State) (p die : Nat) (port : Option Nat) (x : Packet) : State :=
  let bad (i : Nat) (code : Option Nat) : State :=
    match port with
    | none => s
    | some q => let s1 := s.portCount q i; match code with | some c => s1.linkError q c x.cls.toNat | none => s1
  if x.crc ≠ x.crcOf then bad 8 (some 0x0A04)
  else if x.cls = 1 then (s.partnerBack p x).deliverTensor p x
  else if x.cls = 0 && !ctlKnown (Ctl.ofBytes x.payload).kind then bad 12 none
  else
    let s1 := s.partnerBack p x
    { s1 with rx := s1.rx ++ [{ part := BitVec.ofNat 2 p, die := BitVec.ofNat 2 die, pkt := x }] }

/-- R286: members of a partition whose routes leave by a port or bond that has gone DOWN. A partner slot that a FETCH of such a member of group 0
has pinned is released (13 R373). -/
def State.reportMembers (s : State) (port : Nat) : State :=
  let p := s.partOfPort port
  let die := port / 6
  let lost := (s.linkDie die).routes.filter (fun e => e.2.valid && !e.2.self &&
    (s.outPorts die e.2.first.toNat).contains port && (s.outPort die e.2.first.toNat 0).isNone)
  s.modPart p (fun k => { k with
    unreach := k.unreach ++ (lost.filter (fun e => e.2.live)).map (fun e => (e.1 / 4096, e.1 % 4096))
    partner := k.partner.map (fun y => (y.1, if lost.any (fun e => decide (e.1 = y.2.member.toNat)) then { y.2 with pinned := false } else y.2)) })

/-- R292: a port that is DOWN: its replay and VC buffers are empty, `n` packets lost. -/
def Port.down (x : Port) (n : Nat) : Port :=
  { (x.count 13 n) with
    state := .down, lanes := 0, peerId := 0, unacked := [], degraded := false, retraining := false, retrainReq := false, attempts := 0, phase := 0,
    replay := [], resend := [], received := [], partials := [], rest := [], returns := [], txCredits := [], nakPending := false,
    nakSent := false, nakRead := false, resent := [], lastBlock := none, sameBlocks := 0, acked := false,
    sentAcked := false, peerAcked := false }

/-- Table 10.11: a port that trains leaves its training: it is disabled, or in loopback. -/
def Port.off (x : Port) (state : PortState) : Port := { x with state := state, phase := 0, attempts := 0, peerId := 0, lanes := 0 }

/-- R292: the packets that a port which goes DOWN discards: those sent that still lie in the replay buffer or go on, and those received. -/
def Port.lost (x : Port) : List Packet := x.unacked.map Prod.fst ++ x.received.map Prod.fst ++ x.partials.map Prod.fst

/-- R275, R292: a port goes DOWN: its replay and VC buffers are discarded and counted, LINK_DOWN is recorded, the members
reached through it are reported and a test of the port is scheduled (15 R410). ERR.DETAIL is a mask of the classes lost
(log 31). -/
def State.portDown (s : State) (i : Nat) (code : Nat := 0x0A02) : State :=
  let x := s.port i
  let lost := x.lost
  let mask := (List.range 5).foldl (fun a c => a + (if lost.any (fun q => decide (q.cls.toNat = c)) then 2 ^ c else 0)) 0
  let s1 := (s.linkError i code mask (if code = 0x0A02 then 1 else 0)).setPort i (x.down lost.length)
  let s2 := s1.reportMembers i
  if code = 0x0A02 then
    s2.schedule { target := { kind := 7, index := BitVec.ofNat 28 i }, cause := s.err.wr, code := BitVec.ofNat 16 code,
                  part := some (BitVec.ofNat 2 (s.partOfPort i)) }
  else s2

/-- 15 R411, R421: a port out of the routes and bonds of its partition. -/
def State.dropPort (s : State) (p i : Nat) : State :=
  s.modLinkDies p (fun l => { l with
    routes := l.routes.map (fun e => (e.1, if decide (e.2.first.toNat = i) && !e.2.self then { e.2 with valid := false } else e.2))
    bonds := l.bonds.map (fun e => (e.1, e.2 &&& ~~~(BitVec.ofNat 24 (2 ^ i)))) })

/-- 15 R413: a port back in the routes and bonds that the image of its partition's job gives it. -/
def State.returnPort (s : State) (p i : Nat) : State :=
  let b := s.body p
  s.modLinkDies p (fun l => { l with
    routes := l.routes.map (fun e =>
      (e.1, if decide (e.2.first.toNat = i) && (Route.ofNat (b.routes.get 0 e.1).toNat).valid then { e.2 with valid := true } else e.2))
    bonds := l.bonds.map (fun e => (e.1, e.2 ||| (b.bonds.get 0 e.1 &&& BitVec.ofNat 24 (2 ^ i)))) })

/-- A port disabled without a record: for its own test (15 R414), or by a power state (16 R425). -/
def State.quietDown (s : State) (i : Nat) : State :=
  let x := s.port i
  if x.state = .up || x.state = .retrain then (s.setPort i { (x.down x.lost.length) with state := .disabled }).reportMembers i
  else s.setPort i (x.off .disabled)

end Sys2Proof.Machine
end

