-- ==== Sys2Proof/Machine/Links.lean ====
section
/-! DEFINITION. The link commands (10 R269 to R294). -/

namespace Sys2Proof.Machine

-- Packets -----------------------------------------------------------------------------------------------------------------

/-- Whether a packet at its source has an earlier one of its flow (R279). -/
def OutPkt.sameFlow (a b : OutPkt) : Bool :=
  decide (a.quad = b.quad) && decide (a.cls = b.cls) && decide (a.group = b.group) && decide (a.dst = b.dst) && decide (a.flow = b.flow)

/-- R282: the packet that a link die builds from a route entry. -/
def State.buildPacket (s : State) (p : Nat) (x : OutPkt) (e : Route) (ver : BitVec 2) : Packet :=
  let y : Packet :=
    { epoch := (s.linkDie x.quad.toNat).epoch, seq := x.seq, step := x.step, route := e.route, hops := e.hops, dst := x.dst,
      src := s.memberIn p x.group.toNat, group := x.group, dstCore := x.dstCore, dstEp := x.dstEp, part := x.part,
      fin := x.fin, len := BitVec.ofNat 8 (ceilDiv x.payload.length 32), cls := x.cls, ver := ver, payload := pad32 x.payload }
  { y with crc := y.crcOf }

/-- 12 R346 step 4: whether a parameter packet goes to a member that rejoins for its step. -/
def State.rejoinTakes (s : State) (p : Nat) (x : OutPkt) : Bool :=
  decide (x.cls = 3) && (s.part p).job.rejoins.any (fun r => s.sameModule p x.group.toNat x.dst.toNat 0 r.1.toNat &&
    decide (r.2.setWidth 32 ≤ (Pb.ofBytes x.payload).step))

/-- 12 R341: the holder's pin goes with its FETCH_END. -/
def State.unpinSent (s : State) (p : Nat) (x : OutPkt) : State :=
  let c := Ctl.ofBytes x.payload
  if x.cls = 0 && c.kind = 0x19 then
    s.modPart p (fun k => { k with partner := k.partner.map (fun y => (y.1, if y.2.id = c.id then { y.2 with pinned := false } else y.2)) })
  else s

/-- 05 R140, 08 R233: the step in whose packet totals a packet counts, by its low 16 bits; none for a control or snapshot packet, and for
a NOTICE, a RESCALE or a segment of a round after round 0. -/
def OutPkt.countStep (x : OutPkt) : Option (BitVec 16) :=
  match x.cls.toNat with
  | 1 => some x.step
  | 2 => let r := Rc.ofBytes x.payload; if r.kind = 0 && r.round = 0 then some (r.step.setWidth 16) else none
  | 3 => some (((Pb.ofBytes x.payload).step - 1).setWidth 16)
  | _ => none

/-- 05 R140: a packet given to a port counts in the totals of its step. -/
def State.countPacket (s : State) (p port : Nat) (x : OutPkt) : State :=
  match x.countStep with
  | some n => s.modJob p (fun j => { j with portSent := j.portSent.mod 0 (2 ^ 16 * port + n.toNat) (fun y => y + 1) })
  | none => s

/-- 15 R411, R421: whether a route entry is invalid because its first output is a port that firmware has taken out of the routes: one under
test or not enabled, while the image of the job gives the entry. -/
def State.routeRemoved (s : State) (p : Nat) (g m : Nat) (e : Route) : Bool :=
  decide (e.first.toNat < 24) && (!(s.port e.first.toNat).enable || s.gh.disabled.contains { kind := 7, index := BitVec.ofNat 28 e.first.toNat }) &&
    (Route.ofNat ((s.body p).routes.get 0 (4096 * g + m)).toNat).valid

/-- PACKET_SEND (R282): the link die of the injecting quadrant takes the packet at place `i` of the sources, one that none of
its flow precedes. It builds the header and delivers the packet here, puts it at its port, or refuses it. A packet for a
port that is not UP waits, so does one whose port is out of the routes (log 113), and every one while the clock of the die's mesh is stopped
(01 R33, R35). -/
def packetSend (i : Nat) (s : State) : State :=
  match s.txq[i]? with
  | none => s
  | some x =>
    if (s.txq.take i).any (fun a => a.sameFlow x) || s.islandStopped (.die (linkIsland x.quad.toNat)) then s
    else
      let die := x.quad.toNat
      let p := s.partOfQuad die
      let e := (s.linkDie die).routes.get {} (4096 * x.group.toNat + x.dst.toNat)
      let s0 : State := { s with txq := s.txq.eraseIdx i }
      let port := ((s.outPorts die e.first.toNat).headD (6 * die))
      if !e.valid && s.routeRemoved p x.group.toNat x.dst.toNat e then s
      else if !e.valid then
        let peer := (s.port (6 * die)).peerId.toNat
        (s0.portCount (6 * die) 12).programFault
          { code := 0x0A05, kind := 8, unit := die, detail := x.cls.toNat, info := peer, part := some p } 0x23
      else if !e.live && !s.rejoinTakes p x then s0.portCount port 11
      else if e.self then (s0.deliver p die none (s.buildPacket p x e 0)).unpinSent p x
      else
        match s.outPort die e.first.toNat x.flow with
        | none => s
        | some q =>
          ((s0.modPort q (fun z => { z with queue := z.queue ++ [s.buildPacket p x e z.ver] })).countPacket p q x).unpinSent p x

/-- R271: the units of a packet that has been passed on return to the sender. -/
def Port.giveBack (x : Port) (v n : Nat) : Port :=
  let r := (List.range 5).map (fun i => x.returns.getD i 0 + (if i = v then n else 0))
  { x with returns := r }

/-- R283: an UNREACHABLE control packet returned to the source of a packet that could not be forwarded. -/
def State.returnUnreachable (s : State) (die : Nat) (x : Packet) : State :=
  { s with txq := s.txq ++ [{ quad := BitVec.ofNat 2 die, cls := 0, group := x.group, dst := x.src, step := s.ctlStep (s.partOfQuad die),
                              payload := ({ kind := 2, member := x.dst, group := x.group } : Ctl).bytes }] }

/-- PACKET_RECEIVE (R283, R287): the oldest packet of a VC of a port is checked: its epoch, then forwarded, delivered or
discarded. A newer-epoch packet is held at 1.2. None is taken while the clock of the port or of its die's mesh is stopped (01 R33). -/
def packetReceive (i : PortId) (v : Fin 5) (s : State) : State :=
  let x := s.port i.val
  if s.portStopped i.val || s.islandStopped (.die (linkIsland (i.val / 6))) then s
  else match takeFirst (fun q => decide (q.1.cls.toNat = v.val)) x.received with
  | none => s
  | some ((pkt, _), rest) =>
    let die := i.val / 6
    let p := s.partOfPort i.val
    let epoch := (s.linkDie die).epoch
    let gone := s.setPort i.val (({ x with received := rest } : Port).giveBack v.val pkt.units)
    let refuse := (gone.portCount i.val 12)
    if pkt.epoch < epoch then gone.portCount i.val 9
    else if epoch < pkt.epoch then
      if x.ver = 2 then
        s.setPort i.val { x with received := x.received.map (fun q =>
          if decide (q.1 = pkt) then (q.1, true) else q) }
      else gone.portCount i.val 10
    else if x.ver = 0 && decide (4 < pkt.hops.toNat) then refuse.linkError i.val 0x0A05 pkt.cls.toNat
    else if pkt.hop.toNat < pkt.hops.toNat then
      let out := bitsAt pkt.route.toNat (5 * pkt.hop.toNat) 5
      let fits := (s.outPorts die out).all (fun q => decide (s.partOfPort q = p))
      match (if x.fwdEn && fits then s.outPort die out pkt.flow else none) with
      | some q => gone.modPort q (fun z => { z with queue := z.queue ++ [{ pkt with hop := pkt.hop + 1 }] })
      | none => (refuse.linkError i.val 0x0A05 pkt.cls.toNat).returnUnreachable die pkt
    else if !s.isMember p pkt.group.toNat pkt.dst then refuse
    else if !((s.linkDie die).routes.get {} (4096 * pkt.group.toNat + pkt.src.toNat)).live then gone.portCount i.val 11
    else gone.deliver p die (some i.val) pkt

/-- EPOCH_AHEAD (R288): a held packet that is still ahead after KLP.AHEAD_LIMIT cycles is discarded and recorded. No cycle
passes in a port whose clock is stopped (01 R33). -/
def epochAhead (i : PortId) (v : Fin 5) (s : State) : State :=
  let x := s.port i.val
  match takeFirst (fun q => decide (q.1.cls.toNat = v.val)) x.received with
  | none => s
  | some ((pkt, held), rest) =>
    if held && decide ((s.linkDie (i.val / 6)).epoch < pkt.epoch) && !s.portStopped i.val then
      ((s.setPort i.val (({ x with received := rest } : Port).giveBack v.val pkt.units)).portCount i.val 10).linkError i.val 0x0A06
        pkt.cls.toNat
    else s

/-- R288: a link die's epoch written; held packets are checked again in arrival order. -/
def State.writeEpoch (s : State) (die : Nat) (v : BitVec 32) : State :=
  let s1 := s.setLinkDie die { s.linkDie die with epoch := v }
  (List.range 6).foldl (fun a j =>
    let i := portOf (6 * die + j)
    ((a.port i.val).received.filter (fun q => q.2)).foldl (fun b q =>
      if h : q.1.cls.toNat < 5 then packetReceive i ⟨q.1.cls.toNat, h⟩ b else b) a) s1

/-- LD_EPOCH_WRITE (R287, R288): firmware writes LD.EPOCH of a link die. -/
def ldEpochWrite (die : LinkDieId) (v : BitVec 32) (s : State) : State := s.writeEpoch die.val v

/-- R228, 05 R127: credits of a CREDIT packet return to the producer's endpoint. -/
def State.takeCredit (s : State) (p : Nat) (x : Packet) : State :=
  let c := Ctl.ofBytes x.payload
  s.modCore (physCore (s.part p).job.quads x.dstCore.toNat) (fun k => k.modEp x.dstEp.toNat (fun e =>
    { e with edges := e.edges.map (fun d =>
        if d.link.isSome && d.edgeId = c.edge then { d with credits := d.credits + c.count.toNat } else d) }))

/-- CREDIT (R280): the delivered CREDIT packet at place `i` returns queue credits of a link stream. -/
def klpCredit (p : PartId) (i : Nat) (s : State) : State :=
  match s.rxAt p.val i 0 with
  | none => s
  | some x => if (Ctl.ofBytes x.payload).kind = 1 then (s.dropRx i).takeCredit p.val x else s

/-- UNREACHABLE (R286): the delivered UNREACHABLE packet at place `i` names a member that could not be reached. -/
def unreachablePacket (p : PartId) (i : Nat) (s : State) : State :=
  match s.rxAt p.val i 0 with
  | none => s
  | some x =>
    let c := Ctl.ofBytes x.payload
    if c.kind = 2 then
      (s.dropRx i).modPart p.val (fun k => { k with unreach := k.unreach ++ [(c.group.toNat, c.member.toNat)] })
    else s

/-- Whether a group 0 member is a producer or consumer of one of a partition's link streams. -/
def State.streamsWith (s : State) (p m : Nat) : Bool :=
  (s.part p).job.body'.queues.any (fun q =>
    (match q.linkOut with | some l => decide (l.member.toNat = m) | none => false) ||
    (match q.linkIn with | some l => decide (l.member.toNat = m) | none => false))

/-- 12 Table 12.10: a group 0 member is unreachable: a rollback hold where it shares a link stream or owns a tile; the partner's loss stops
snapshots only (12 R347). -/
def State.loseJobMember (s : State) (p m idx : Nat) : State :=
  let s1 := if (s.partnerOf p).toNat = m then s.modJob p (fun j => { j with partnerLost := true }) else s
  if (s1.streamsWith p m || s1.ownsAny p 0 m) && (s1.part p).jcp.state.active then s1.rollbackHold p idx else s1

/-- MEMBER_UNREACHABLE (R286): the module controller takes the oldest report of an unreachable member: a membership change of a
reduction group, or, in group 0, what the loss policy gives. -/
def memberUnreachable (p : PartId) (s : State) : State :=
  match (s.part p.val).unreach with
  | [] => s
  | (g, m) :: rest =>
    let idx := s.err.wr.toNat
    let s0 := s.modPart p.val (fun k => { k with unreach := rest })
    let die := (s.quadsOf p.val).headD 0
    let out := ((s.linkDie die).routes.get {} (4096 * g + m)).first.toNat
    let peer := (s.port ((s.outPorts die out).headD (6 * die))).peerId
    -- 15 Table 15.3: no packet is lost by the report itself; the peer is that of the member's route
    let s1 := s0.logError { code := 0x0A07, kind := 8, unit := die, info := peer.toNat, part := some p.val }
    if g = 0 then s1.loseJobMember p.val m idx
    else if (s1.part p.val).jcp.state.inJob then s1.removeMember p.val g m else s1

-- Flits -------------------------------------------------------------------------------------------------------------------

/-- R271, R272: the oldest queued packet of a VC, where its units are there. -/
def Port.vcReady (x : Port) (v : Nat) : Bool :=
  match x.queue.find? (fun q => decide (q.cls.toNat = v)) with
  | some q => decide (q.units ≤ x.txCredits.getD v 0)
  | none => false

/-- R272: the VC of the next packet to start. -/
def Port.choose (x : Port) : Option Nat :=
  let rr := [x.turn % 3 + 1, (x.turn + 1) % 3 + 1, (x.turn + 2) % 3 + 1]
  if x.vcReady 0 then some 0
  else if x.ver = 2 && decide (x.starts4 < x.snapFloor.toNat) && x.vcReady 4 then some 4
  else match rr.find? (fun v => x.vcReady v) with
    | some v => some v
    | none => if x.vcReady 4 then some 4 else none

/-- R272: the window after a start on a VC. -/
def Port.started (x : Port) (v : Nat) : Port :=
  if v = 0 then x
  else
    let y : Port := { x with turn := if v < 4 then v else x.turn, starts := x.starts + 1, starts4 := x.starts4 + (if v = 4 then 1 else 0) }
    if y.starts = 16 then { y with starts := 0, starts4 := 0 } else y

/-- 05 R140, 08 R233: a packet that starts, among the port's transfers or apart from them. -/
def Port.tally (x : Port) (q : Packet) : Port :=
  if q.apart then { x with apart := satAdd x.apart 1 } else { x with transfers := satAdd x.transfers 1 }

/-- R269: up to `n` packets begin in a flit whose data field is filled to `bs`. -/
def Port.fill (x : Port) : Nat → List (Packet × Nat) → List Byte → Port × List (Packet × Nat) × List Byte
  | 0, hs, bs => (x, hs, bs)
  | n + 1, hs, bs =>
    if 2048 ≤ bs.length then (x, hs, bs)
    else
      match x.choose with
      | none => (x, hs, bs)
      | some v =>
        match takeFirst (fun q : Packet => decide (q.cls.toNat = v)) x.queue with
        | none => (x, hs, bs)
        | some (q, rest) =>
          let room := 2048 - bs.length
          let y : Port := { (x.started v) with
            queue := rest
            rest := q.payload.drop room
            unacked := x.unacked ++ [({ q with payload := [] }, none)]
            txCredits := listSet x.txCredits v (x.txCredits.getD v 0 - q.units) }
          ((y.count 0 1).tally q).fill n (hs ++ [({ q with payload := [] }, bs.length / 32)]) (bs ++ q.payload.take room)

/-- How many flits of the replay buffer an FL.ACK covers: those up to the one it names. -/
def ackCount (l : List Flit) (ack : BitVec 12) : Nat :=
  match l.findIdx? (fun f => f.seq = ack) with
  | some n => n + 1
  | none => 0

/-- R292: the packets that go on with the flits sent: all but the last have their last byte in flit `seq`, and the last too where nothing of
it is left. -/
def endIn (seq : BitVec 12) (more : Bool) : List (Packet × Option (BitVec 12)) → List (Packet × Option (BitVec 12))
  | [] => []
  | [q] => [if more then q else (q.1, some (q.2.getD seq))]
  | q :: t => (q.1, some (q.2.getD seq)) :: endIn seq more t

/-- R270: an acknowledgement applied. -/
def Port.takeAck (x : Port) (ack : BitVec 12) : Port :=
  let n := ackCount x.replay ack
  if n = 0 then x
  else
    let gone := (x.replay.take n).map (fun f => f.seq)
    { x with replay := x.replay.drop n, resend := x.resend.filter (fun f => !gone.contains f.seq)
             resent := x.resent.filter (fun e => !gone.contains (BitVec.ofNat 12 e.1))
             unacked := x.unacked.filter (fun q => match q.2 with | some n => !gone.contains n | none => true) }

/-- A packet whose payload has all arrived enters its VC buffer; a class code of 5 to 7 is discarded and counted (R278). -/
def Port.arrived (x : Port) (q : Packet) (bs : List Byte) : Port :=
  if 5 ≤ q.cls.toNat then x.count 12 1
  else ({ x with received := x.received ++ [({ q with payload := bs }, false)] } : Port).count 1 1

/-- The payload bytes of a flit from an offset, for a packet that has some. -/
def Port.feed (x : Port) (q : Packet) (have' data : List Byte) : Port :=
  let bs := have' ++ data.take (32 * q.len.toNat - have'.length)
  if bs.length < 32 * q.len.toNat then { x with partials := [(q, bs)] } else x.arrived q bs

/-- R269: an accepted flit's data field: the rest of a payload under way, then the payloads that begin. -/
def Port.takeData (x : Port) (f : Flit) : Port :=
  let data := f.data ++ List.replicate (2048 - f.data.length) 0
  let x1 := match x.partials with
    | (q, bs) :: _ => ({ x with partials := [] } : Port).feed q bs data
    | [] => x
  f.heads.foldl (fun a h => a.feed h.1 [] (data.drop (32 * h.2))) x1

/-- FLIT_RECEIVE (R270): a port receives a flit, in which FEC corrected `corrected` symbols and found `uncorr` codewords
that it could not correct. The next in order is accepted, with its credits and its acknowledgement; the first discarded
flit asks for a NAK, and nothing of a discarded flit acts. -/
def flitReceive (i : PortId) (f : Flit) (corrected uncorr : Nat) (s : State) : State :=
  let x0 := s.port i.val
  if x0.state ≠ .up || s.portStopped i.val then s
  else
    let x := if corrected = 0 then x0 else x0.count 2 corrected
    let nak (y : Port) : Port := if y.nakSent then y else { y with nakSent := true, nakPending := true }
    if uncorr ≠ 0 then s.setPort i.val (nak (x.count 3 uncorr))
    else if f.crc ≠ f.crcOf then s.setPort i.val (nak (x.count 4 1))
    else
      let y1 : Port := { (x.takeAck f.ack) with nakRead := x.nakRead || f.nak }
      if f.seq = x.rxSeq then
        let z : Port := { y1 with
          rxSeq := x.rxSeq + 1, nakSent := false, nakPending := false
          txCredits := (List.range 5).map (fun v => y1.txCredits.getD v 0 + f.credits.getD v 0) }
        s.setPort i.val (z.takeData f)
      else if (x.rxSeq - f.seq).toNat < 2048 then s.setPort i.val (if x.nakSent then x else y1)
      else s.setPort i.val (nak x)

/-- R270: a replay from the oldest unacknowledged flit. -/
def Port.replayAll (x : Port) : Port := if x.replay.isEmpty then x else { (x.count 5 1) with resend := x.replay }

/-- NAK_RECEIVE (R270): a sender that has read FL.NAK resends every flit after FL.ACK, in order. -/
def nakReceive (i : PortId) (s : State) : State :=
  let x := s.port i.val
  if x.nakRead && !s.portStopped i.val then s.setPort i.val { x.replayAll with nakRead := false } else s

/-- REPLAY_TIMEOUT (R270): no acknowledgement has advanced in time: a replay from the oldest unacknowledged flit. The timeout runs in
the port's own cycles (01 R33). -/
def replayTimeout (i : PortId) (s : State) : State :=
  let x := s.port i.val
  if x.state = .up && !x.replay.isEmpty && !s.portStopped i.val then s.setPort i.val x.replayAll else s

-- Training ----------------------------------------------------------------------------------------------------------------

/-- Lanes of a mask. -/
def laneCount (l : BitVec 8) : Nat := ((List.range 8).filter (fun i => l.getLsbD i)).length

/-- SIGNAL_DETECT (R273, R275): stable signal on at least 4 lanes: the lanes are declared present, equalisation begins. A DOWN
port starts a fresh training when signal returns. The training offers the version that KLP.MAX_VER gives now (R294); its lanes start from the
user presets or the factory seeds (16 R437), and on a wake from Retain from the coefficients last in use (16 Table 16.3). -/
def signalDetect (i : PortId) (lanes : BitVec 8) (s : State) : State :=
  let x := s.port i.val
  if x.enable && (x.state = .signal || x.state = .down) && decide (4 ≤ laneCount lanes) && !s.portStopped i.val then
    s.setPort i.val { x with state := .equalise, retraining := false, attempts := if x.state = .down then 0 else x.attempts,
                             offer := x.maxVer, keepCoefs := false,
                             coefs := if x.keepCoefs then x.coefs else (List.range 8).map (s.pwr.startCoef i.val) }
  else s

/-- R274: the minor version that a port offers: the lower of 2 and the KLP.MAX_VER that this training began with. -/
def Port.minor (x : Port) : Nat := min 2 x.offer.toNat

/-- R291: whether a port may run on 4 lanes, as far as it knows before the exchange. -/
def Port.mayDegrade (x : Port) : Bool := x.degradeEn && decide (x.minor = 2)

/-- R273, R291: the lanes in use after equalisation: all 8, or a whole half where degraded operation is allowed. A degraded
port returns to 8 only at a requested retrain; at any other it trains 4 lanes, or fails where it may not. -/
def Port.lanesFor (x : Port) (trained : BitVec 8) : BitVec 8 :=
  let half := if trained &&& 0x0F = 0x0F then 0x0F else if trained &&& 0xF0 = 0xF0 then 0xF0 else 0
  if x.degraded && x.retraining && !x.retrainReq then
    (if !x.mayDegrade then 0 else if x.lanes &&& trained = x.lanes then x.lanes else half)
  else if trained = 0xFF then 0xFF
  else if x.mayDegrade then half else 0

/-- EQUALISATION_DONE (R273, R291): the present lanes report trained, or the limit has passed. A retrain that cannot use 8
lanes, nor 4 where that is allowed, takes the port DOWN. -/
def equalisationDone (i : PortId) (trained : BitVec 8) (s : State) : State :=
  let x := s.port i.val
  let inPhase := x.state = .equalise || (x.state = .retrain && x.phase = 0)
  if !inPhase || s.portStopped i.val then s
  else
    let l := x.lanesFor trained
    if l = 0 then (if x.state = .retrain then s.portDown i.val else s)
    else s.setPort i.val { x with lanes := l, phase := 1, state := if x.state = .retrain then .retrain else .lock,
                                  trainings := x.trainings + 1,
                                  coefs := (List.range 8).map (fun n => Config.trainedCoef (8 * i.val + n) x.trainings (x.coefs.getD n 0)) }

/-- FEC_LOCK_DONE (R273): alignment markers are locked: the exchange begins. -/
def fecLockDone (i : PortId) (s : State) : State :=
  let x := s.port i.val
  if (x.state = .lock || (x.state = .retrain && x.phase = 1)) && !s.portStopped i.val then
    s.setPort i.val { x with phase := 2, state := if x.state = .retrain then .retrain else .exchange, lastBlock := none,
                             sameBlocks := 0, acked := false, sentAcked := false, peerAcked := false }
  else s

/-- R290: a retrain begins: everything of the link is kept; it is recorded, and a deferred test of the port scheduled. -/
def State.retrain (s : State) (i : Nat) : State :=
  let x := s.port i
  if x.state ≠ .up then s
  else
    let idx := s.err.wr
    let s1 := s.setPort i { x with state := .retrain, retraining := true, phase := 0, attempts := 0, lastBlock := none,
                                   sameBlocks := 0, acked := false, sentAcked := false, peerAcked := false, resent := [],
                                   offer := x.maxVer }
    (s1.linkError i 0x0A01 0 1).schedule
      { target := { kind := 7, index := BitVec.ofNat 28 i }, deferred := true, cause := idx, code := 0x0A01,
        part := some (BitVec.ofNat 2 (s.partOfPort i)) }

/-- R273, R274, R290: a port enters UP: version, peer and credits of a fresh training; after a retrain the sender replays. A
retrain that was asked for meanwhile begins (log 113). -/
def State.portUp (s : State) (i : Nat) (b : ExBlock) : State :=
  let x := s.port i
  let deg := decide (x.lanes ≠ 0xFF)
  let y : Port := { x with
    state := .up, ver := BitVec.ofNat 2 (min x.minor b.maxMinor.toNat), peerId := b.moduleId, peerPort := b.port.setWidth 5,
    degraded := deg, attempts := 0, phase := 0 }
  let z : Port :=
    if x.retraining then { (y.count 7 1).replayAll with retraining := false, retrainReq := false }
    else { y with txSeq := 0, rxSeq := 0, replay := [], resend := [], resent := [], unacked := [], txCredits := b.cred.map BitVec.toNat,
                  returns := [0, 0, 0, 0, 0], partials := [], received := [], rest := [], starts := 0, starts4 := 0, turn := 3 }
  let s1 := s.setPort i z
  let s2 := if deg then s1.linkError i 0x0A03 0 else s1
  if z.retrainReq then s2.retrain i else s2

/-- Table 10.4: the block that an end sends in the exchange phase. -/
def Port.block (x : Port) (i : Nat) (moduleId : BitVec 64) : ExBlock :=
  let b : ExBlock := { magic := 0x4B4C5058, moduleId := moduleId, major := 1, maxMinor := BitVec.ofNat 8 x.minor,
                       port := BitVec.ofNat 8 i, lanes := x.lanes, cred := (List.range 5).map (fun v => BitVec.ofNat 16 (vcUnits v)),
                       acked := x.acked }
  { b with crc := b.crcOf }

/-- Whether a port is in the exchange phase of a training or a retrain. -/
def Port.exchanges (x : Port) : Bool := x.state = .exchange || (x.state = .retrain && x.phase = 2)

/-- R273, R274: the exchange ends once EX.ACKED = 1 has been sent and received; 4 lanes need 1.2 at both ends
(R291). -/
def State.endExchange (s : State) (i : Nat) : State :=
  let x := s.port i
  match x.lastBlock with
  | some b => if x.sentAcked && x.peerAcked && !(decide (x.lanes ≠ 0xFF) && decide (min x.minor b.maxMinor.toNat < 2)) then s.portUp i b else s
  | none => s

/-- R273: in the exchange phase a port sends its block. -/
def State.sendBlock (s : State) (i : Nat) : State :=
  let x := s.port i
  let s1 := s.setPort i { x with sentAcked := x.sentAcked || x.acked }
  ({ s1 with out := s1.out ++ [.exchange i (x.block i s.fw.loaded.moduleId)] } : State).endExchange i

/-- R270: what a copy of a flit's link control word carries: no header, and no NAK again. -/
def Flit.word (f : Flit) : Flit := { f with heads := [], data := [], nak := false }

/-- FLIT_SEND (R269 to R273): at a flit boundary a port sends a flit: the next of a replay, or a new one with the rest of the
payload under way and the packets that start, credits and acknowledgement. With the replay buffer full it sends no new
flit, but a copy of its last link control word without headers, in which FL.NAK is not said again (R270 step 3); in the exchange phase its
block. -/
def flitSend (i : PortId) (s : State) : State :=
  let x := s.port i.val
  if s.portStopped i.val then s
  else if x.exchanges then s.sendBlock i.val
  else if x.state ≠ .up then s
  else
    let ack := x.rxSeq - 1
    match x.resend with
    | f :: rest =>
      let g : Flit := { f with ack := ack, nak := x.nakPending }
      let y : Port := { x with resend := rest, nakPending := false, resent := x.resent.mod 0 f.seq.toNat (· + 1), lastSent := g.word }
      let s1 := s.setPort i.val (y.count 6 1)
      { s1 with out := s1.out ++ [.flit i.val g.sealed] }
    | [] =>
      if 256 ≤ x.replay.length then
        { s with out := s.out ++ [.flit i.val x.lastSent.sealed] }
      else
        let first := x.rest.take 2048
        let (y, hs, bs) := ({ x with rest := x.rest.drop 2048 } : Port).fill (if x.rest.length < 2048 then 3 else 0) [] first
        let give := (List.range 5).map (fun v => min (x.returns.getD v 0) 255)
        let f : Flit := { seq := x.txSeq, ack := ack, nak := x.nakPending, credits := give, heads := hs, data := bs }
        let z : Port := { y with
          txSeq := x.txSeq + 1, replay := y.replay ++ [f], lastSent := f.word, nakPending := false, unacked := endIn x.txSeq (!y.rest.isEmpty) y.unacked
          returns := (List.range 5).map (fun v => x.returns.getD v 0 - give.getD v 0) }
        let s1 := s.setPort i.val z
        { s1 with out := s1.out ++ [.flit i.val f.sealed] }

/-- EXCHANGE_BLOCK_RECEIVE (R273, R274): a port receives an exchange block. Three identical blocks with a right EX.CRC are acknowledged;
once EX.ACKED = 1 has been sent and received the port is UP. Another major version takes it DOWN with VERSION. A flit that FEC cannot
correct, or with a wrong FL.CRC, is discarded (R270) and gives no block; it counts as every flit does (R294). -/
def exchangeBlockReceive (i : PortId) (b : ExBlock) (c : FlitCheck) (s : State) : State :=
  let x0 := s.port i.val
  let x := if c.corrected = 0 then x0 else x0.count 2 c.corrected
  if !x0.exchanges || s.portStopped i.val then s
  else if c.uncorr ≠ 0 then s.setPort i.val { (x.count 3 c.uncorr) with lastBlock := none, sameBlocks := 0 }
  else if c.crcWrong then s.setPort i.val { (x.count 4 1) with lastBlock := none, sameBlocks := 0 }
  else if b.crc ≠ b.crcOf || b.magic ≠ 0x4B4C5058 then s.setPort i.val { x with lastBlock := none, sameBlocks := 0 }
  else if b.major ≠ 1 then (s.setPort i.val x).portDown i.val 0x0A09
  else
    let n := if x.lastBlock = some b then x.sameBlocks + 1 else 1
    (s.setPort i.val { x with lastBlock := some b, sameBlocks := n, acked := x.acked || decide (3 ≤ n),
                              peerAcked := x.peerAcked || b.acked }).endExchange i.val

/-- TRAINING_ATTEMPT_TIMEOUT (R273): an attempt has not reached UP in time: it starts again, and after three the port is
DOWN; the time runs in the port's own cycles (01 R33). -/
def trainingAttemptTimeout (i : PortId) (s : State) : State :=
  let x := s.port i.val
  let trains := match x.state with | .equalise => true | .lock => true | .exchange => true | .retrain => true | _ => false
  if !trains || s.portStopped i.val then s
  else if 3 ≤ x.attempts + 1 then s.portDown i.val
  else
    s.setPort i.val { x with attempts := x.attempts + 1, phase := 0, lastBlock := none, sameBlocks := 0, acked := false,
                             peerAcked := false, lanes := if x.state = .retrain then x.lanes else 0,
                             state := if x.state = .retrain then .retrain else .signal }

/-- SIGNAL_LOSS (R275): signal is lost on all lanes: the port goes DOWN at once; the time runs in the port's own cycles (01 R33). -/
def signalLoss (i : PortId) (s : State) : State :=
  if s.portStopped i.val then s else match (s.port i.val).state with
  | .disabled => s
  | .down => s
  | .loopback => s
  | _ => s.portDown i.val

/-- LINK_RETRAIN (R290): a port retrains: after 64 NAKs within 2²⁰ cycles, or loss of FEC lock (`seen`), or where one flit has
been replayed 4 times. No cycle passes in a port whose clock is stopped (01 R33). -/
def linkRetrain (i : PortId) (seen : Bool) (s : State) : State :=
  if (seen || (s.port i.val).resent.any (fun e => decide (4 ≤ e.2))) && !s.portStopped i.val then s.retrain i.val else s

/-- KLP_ENABLE (R273, R292, 15 R421): a write of KLP.ENABLE: training starts, or the port is disabled, an active link going down
first. Firmware takes a port out of the routes and bonds before it clears the bit, and puts it back as it sets it; the drain of Table 15.8 is
firmware's wait before the write (log 73). -/
def klpEnable (i : PortId) (on : Bool) (s : State) : State :=
  let x := s.port i.val
  if s.portStopped i.val then s
  else if on then
    if x.enable then s
    else (s.setPort i.val { x with enable := true, state := if x.loopback = 0 then .signal else .loopback }).returnPort (s.partOfPort i.val)
      i.val
  else
    let s0 := if x.state = .up || x.state = .retrain then s.portDown i.val else s
    let s1 := s0.dropPort (s.partOfPort i.val) i.val
    s1.modPort i.val (fun y => { y.off .disabled with enable := false })

/-- KLP_RETRAIN (R290, R294): a write of 1 to KLP.RETRAIN requests a retrain; the bit clears when it ends. A port that is not UP holds the
bit: a retrain under way is then a requested one, and in any other state it waits until the port is UP (log 113). -/
def klpRetrain (i : PortId) (s : State) : State :=
  if s.portStopped i.val then s else (s.modPort i.val (fun x => { x with retrainReq := true })).retrain i.val

/-- KLP_CTR_CLR (R294): a write of 1 to KLP.CTR_CLR clears every counter of the port. -/
def klpCtrClr (i : PortId) (s : State) : State := if s.portStopped i.val then s else s.modPort i.val (fun x => { x with counters := [] })

/-- FLIT_SEND. -/
def execFlitSend (i : PortId) (s : State) : Host.Outcome State Fault Refusal := .next (flitSend i s)
/-- FLIT_RECEIVE. -/
def execFlitReceive (i : PortId) (f : Flit) (corrected uncorr : Nat) (s : State) : Host.Outcome State Fault Refusal :=
  .next (flitReceive i f corrected uncorr s)
/-- NAK_RECEIVE. -/
def execNakReceive (i : PortId) (s : State) : Host.Outcome State Fault Refusal := .next (nakReceive i s)
/-- REPLAY_TIMEOUT. -/
def execReplayTimeout (i : PortId) (s : State) : Host.Outcome State Fault Refusal := .next (replayTimeout i s)
/-- SIGNAL_DETECT. -/
def execSignalDetect (i : PortId) (lanes : BitVec 8) (s : State) : Host.Outcome State Fault Refusal := .next (signalDetect i lanes s)
/-- EQUALISATION_DONE. -/
def execEqualisationDone (i : PortId) (trained : BitVec 8) (s : State) : Host.Outcome State Fault Refusal :=
  .next (equalisationDone i trained s)
/-- FEC_LOCK_DONE. -/
def execFecLockDone (i : PortId) (s : State) : Host.Outcome State Fault Refusal := .next (fecLockDone i s)
/-- EXCHANGE_BLOCK_RECEIVE. -/
def execExchangeBlockReceive (i : PortId) (b : ExBlock) (c : FlitCheck) (s : State) : Host.Outcome State Fault Refusal :=
  .next (exchangeBlockReceive i b c s)
/-- TRAINING_ATTEMPT_TIMEOUT. -/
def execTrainingAttemptTimeout (i : PortId) (s : State) : Host.Outcome State Fault Refusal := .next (trainingAttemptTimeout i s)
/-- SIGNAL_LOSS. -/
def execSignalLoss (i : PortId) (s : State) : Host.Outcome State Fault Refusal := .next (signalLoss i s)
/-- LINK_RETRAIN. -/
def execLinkRetrain (i : PortId) (seen : Bool) (s : State) : Host.Outcome State Fault Refusal := .next (linkRetrain i seen s)
/-- PACKET_SEND. -/
def execPacketSend (i : Nat) (s : State) : Host.Outcome State Fault Refusal := .next (packetSend i s)
/-- PACKET_RECEIVE. -/
def execPacketReceive (i : PortId) (v : Fin 5) (s : State) : Host.Outcome State Fault Refusal := .next (packetReceive i v s)
/-- CREDIT. -/
def execKlpCredit (p : PartId) (i : Nat) (s : State) : Host.Outcome State Fault Refusal := .next (klpCredit p i s)
/-- UNREACHABLE. -/
def execUnreachablePacket (p : PartId) (i : Nat) (s : State) : Host.Outcome State Fault Refusal := .next (unreachablePacket p i s)
/-- MEMBER_UNREACHABLE. -/
def execMemberUnreachable (p : PartId) (s : State) : Host.Outcome State Fault Refusal := .next (memberUnreachable p s)
/-- EPOCH_AHEAD. -/
def execEpochAhead (i : PortId) (v : Fin 5) (s : State) : Host.Outcome State Fault Refusal := .next (epochAhead i v s)
/-- LD_EPOCH_WRITE. -/
def execLdEpochWrite (die : LinkDieId) (v : BitVec 32) (s : State) : Host.Outcome State Fault Refusal :=
  .next (ldEpochWrite die v s)
/-- KLP_ENABLE. -/
def execKlpEnable (i : PortId) (on : Bool) (s : State) : Host.Outcome State Fault Refusal := .next (klpEnable i on s)
/-- KLP_RETRAIN. -/
def execKlpRetrain (i : PortId) (s : State) : Host.Outcome State Fault Refusal := .next (klpRetrain i s)
/-- KLP_CTR_CLR. -/
def execKlpCtrClr (i : PortId) (s : State) : Host.Outcome State Fault Refusal := .next (klpCtrClr i s)

end Sys2Proof.Machine
end

