-- ==== Sys2Proof/Machine/Loader.lean ====
section
/-! DEFINITION. The image checks of START and the loading of a placement variant (05 R116 to R129, R146; 10 R281, R285; 11 R304;
12 R327, R349; 15 R416). -/

namespace Sys2Proof.Machine

-- The image in memory ---------------------------------------------------------------------------------------------------

/-- Table 05.1 from the 1,024 bits of a header. -/
def WvHeader.ofNat (n : Nat) : WvHeader :=
  { imageId := BitVec.ofNat 64 (bitsAt n 448 64), bodyLen := BitVec.ofNat 32 (bitsAt n 416 32),
    sectionCount := BitVec.ofNat 16 (bitsAt n 400 16), shares := BitVec.ofNat 16 (bitsAt n 384 16),
    stallLimit := BitVec.ofNat 8 (bitsAt n 376 8), flags := BitVec.ofNat 8 (bitsAt n 368 8),
    reportVer := BitVec.ofNat 16 (bitsAt n 336 16), streamIsaVer := BitVec.ofNat 16 (bitsAt n 320 16),
    coreIsaVer := BitVec.ofNat 16 (bitsAt n 304 16), klpMinVer := BitVec.ofNat 16 (bitsAt n 288 16),
    formatVer := BitVec.ofNat 16 (bitsAt n 272 16), targets := BitVec.ofNat 4 (bitsAt n 264 4),
    variants := BitVec.ofNat 4 (bitsAt n 260 4), pairKind := BitVec.ofNat 2 (bitsAt n 258 2),
    quads := BitVec.ofNat 2 (bitsAt n 256 2), magic := BitVec.ofNat 32 (bitsAt n 0 32) }

/-- Table 05.2 from the 128 bits of an entry. -/
def Section.ofNat (n : Nat) : Section :=
  { offset := BitVec.ofNat 64 (bitsAt n 64 64), length := BitVec.ofNat 32 (bitsAt n 32 32),
    share := BitVec.ofNat 16 (bitsAt n 16 16), variant := BitVec.ofNat 4 (bitsAt n 12 4),
    target := BitVec.ofNat 4 (bitsAt n 8 4), type := BitVec.ofNat 8 (bitsAt n 0 8) }

/-- R116, 14 R384: the offset of the section table: the header and the signature block precede it. -/
def sectionTableOff : Nat := 128 + 8192

/-- The section table of an image at an MPA. -/
def State.sections (s : State) (mpa count : Nat) : List Section :=
  (List.range count).map (fun i => Section.ofNat (ofBytes (s.mpaBytes (mpa + sectionTableOff + 16 * i) 16)))

/-- 11 R304: whether `len` bytes from an MPA lie in frames open to jobs of one tower of a partition. -/
def State.staged (s : State) (p mpa len : Nat) : Bool :=
  let t := mpa / 2 ^ 37
  decide (0 < len) && decide (t < 32) && decide (s.partOfTower t = p) && decide ((mpa + len - 1) / 2 ^ 37 = t) &&
    (pagesOf (mpa % 2 ^ 37) len).all (fun g => decide (g < 49152) && decide (g % 3072 < 3070))

/-- R117: whether a version field is accepted against the module's own. -/
def versionOk (v cap : BitVec 16) : Bool := decide (v.toNat / 256 = 1) && decide (v.toNat % 256 ≤ cap.toNat % 256)

/-- R117, 11 Table 11.3: the version fields of a header. -/
def WvHeader.versionsOk (h : WvHeader) : Bool :=
  versionOk h.formatVer 0x0100 && versionOk h.coreIsaVer 0x0100 && versionOk h.streamIsaVer 0x0100 &&
    versionOk h.reportVer 0x0100 && versionOk h.klpMinVer 0x0102

/-- Table 05.4: the target of a partition's quadrants under a header's shape. -/
def WvHeader.targetOf (h : WvHeader) (quads : List Nat) : Option Nat :=
  match h.quads.toNat, h.pairKind.toNat, quads with
  | 0, 0, [q] => some q
  | 1, 1, [0, 1] => some 0
  | 1, 1, [2, 3] => some 1
  | 1, 2, [0, 2] => some 0
  | 1, 2, [1, 3] => some 1
  | 2, 0, [0, 1, 2, 3] => some 0
  | _, _, _ => none

-- The sections ---------------------------------------------------------------------------------------------------------------

/-- Table 05.2: the section of a type for a share, a variant and a target. -/
def sectionOf (l : List Section) (type share variant target : Nat) : Option Section :=
  l.find? (fun e => decide (e.type.toNat = type) && (decide (e.share = 0xFFFF) || decide (e.share.toNat = share)) &&
    (decide (e.variant = 0xF) || decide (e.variant.toNat = variant)) && (decide (e.target = 0xF) || decide (e.target.toNat = target)))

/-- The number in `n` bytes of an image that a job address names; the tables that the sections name so lie in the image region (log 13). -/
def State.imageNat (s : State) (b : ImageBody) (mpa addr n : Nat) : Nat := ofBytes (s.mpaBytes (mpa + (addr - b.addrOf mpa 0)) n)

/-- R123, R126: a variant with its descriptor, which opens its placement section, and the entries of its queue map. -/
def State.readVariant (s : State) (mpa share target : Nat) (secs : List Section) (i : Nat) (v : VariantBody) : VariantBody :=
  let descr := match sectionOf secs 2 share i target with
    | some e => Variant.ofNat (ofBytes (s.mpaBytes (mpa + e.offset.toNat) 96))
    | none => v.descr
  let queues := match sectionOf secs 5 share i target with
    | some e => (List.range (e.length.toNat / 16)).map (fun n =>
        QmEntry.ofNat (v.queues.getD n {}) (ofBytes (s.mpaBytes (mpa + e.offset.toNat + 16 * n) 16)))
    | none => v.queues
  { v with descr := descr, queues := queues }

/-- 08 R209, R210, R217, 07 R202: a group's descriptor, its owner runs, its slice of the home-run table, its optimiser descriptors. -/
def State.readGroup (s : State) (mpa : Nat) (b : ImageBody) (d : GroupDesc) : GroupDesc :=
  let d1 := d.ofNat (ofBytes (s.mpaBytes (mpa + d.off) 64))
  { d1 with
    ownerRuns := (List.range d1.runs.toNat).map (fun i => runOfNat (s.imageNat b mpa (d1.runBase.toNat + 8 * i) 8))
    homeRuns := (List.range d1.homeCount.toNat).map (fun i =>
      runOfNat (ofBytes (s.mpaBytes (mpa + b.homeOff + 8 * (d1.homeFirst.toNat + i)) 8)))
    regions := d.regions.map (fun r => { r with opt := r.opt.ofNat (ofBytes (s.mpaBytes (mpa + r.opt.off) 64)) }) }

/-- 12 R326: the snapshot plan of an image that has the section. -/
def State.readPlan (s : State) (mpa share target : Nat) (secs : List Section) (b : ImageBody) : Option SnapPlan :=
  (sectionOf secs 0xA share 0 target).map (fun e =>
    let n := ofBytes (s.mpaBytes (mpa + e.offset.toNat) 64)
    SnapPlan.ofNat n ((List.range (bitsAt n 352 32)).map (fun i => Ple.ofNat (s.imageNat b mpa (bitsAt n 304 48 + 4 * i) 4))))

/-- R119: an image's sections: what the spec lays out is read from the image at an MPA, the rest is as it came (log 13). -/
def State.readBody (s : State) (mpa share target : Nat) (secs : List Section) (b : ImageBody) : ImageBody :=
  { b with
    variants := (List.range b.variants.length).map (fun i => s.readVariant mpa share target secs i (b.variants.getD i {}))
    groups := b.groups.map (s.readGroup mpa b)
    plan := s.readPlan mpa share target secs b }

/-- 14 R383, R387: the check that the signature of a weave image with a header's digest fails; in development an unsigned image
(class 0) passes. -/
def Firmware.imageCheck (f : Firmware) (digest : BitVec 256) (b : SigBlock) : Option Nat :=
  if !f.production && decide (b.cls = 0) then none else f.sigCheck .weave digest [6] b

-- Rules over the sections -------------------------------------------------------------------------------------------------

/-- The number of the first rule that is broken. -/
def firstBroken (l : List (Nat × Bool)) : Option Nat := (l.find? (fun x => x.2)).map Prod.fst

/-- R118. -/
def sectionsBad (h : WvHeader) (l : List Section) : Bool :=
  let known (t : Nat) : Bool := decide (0x80 ≤ t) || (decide (1 ≤ t) && decide (t ≤ 0xB))
  let has (t sh v g : Nat) : Bool := l.any (fun e => decide (e.type.toNat = t) &&
    (decide (e.share = 0xFFFF) || decide (e.share.toNat = sh)) && (decide (e.variant = 0xF) || decide (e.variant.toNat = v)) &&
    (decide (e.target = 0xF) || decide (e.target.toNat = g)))
  let missing := [1, 2, 3, 4, 5, 8].any (fun t => (List.range h.shares.toNat).any (fun sh =>
    (List.range h.variants.toNat).any (fun v => (List.range 4).any (fun g => h.targets.getLsbD g && !has t sh v g))))
  let meets (a b : Section) : Bool := decide (a.offset.toNat < b.offset.toNat + b.length.toNat) &&
    decide (b.offset.toNat < a.offset.toNat + a.length.toNat)
  l.any (fun e => !known e.type.toNat) || missing || overlaps meets l
where
  overlaps (f : Section → Section → Bool) : List Section → Bool
    | [] => false
    | a :: t => t.any (f a) || overlaps f t

/-- 02 R45: whether two operands may form products. -/
def pairOk (x w : Fmt) : Bool :=
  match x, w with
  | .e4m3, .e4m3 | .e4m3, .e5m2 | .e5m2, .e4m3 | .e5m2, .e5m2 | .fp4, .fp4 | .int8, .int8 | .bf16, .bf16 => true
  | _, _ => false

/-- 03 R80: whether a drain may write a format; INT32 needs an INT8 operator. -/
def drainFmtOk (code : BitVec 4) (int8 : Bool) : Bool :=
  match Fmt.ofCode code.toNat with
  | some .fp32 | some .bf16 | some .e4m3 | some .e5m2 | some .fp4 | some .int24 => true
  | some .int32 => int8
  | _ => false

/-- The logical tower in whose frames a job page lies (R241). -/
def VariantBody.towerOf (v : VariantBody) (page : Nat) : Option Nat :=
  (v.extents.find? (fun e => decide (e.jobPage.toNat ≤ page) && decide (page < e.jobPage.toNat + e.pages.toNat))).map
    (fun e => e.tower.toNat)

/-- Whether `n` bytes of job addresses lie in the frames of a logical tower. -/
def VariantBody.inTower (v : VariantBody) (t addr n : Nat) : Bool :=
  (pagesOf addr n).all (fun g => decide (v.towerOf g = some t))

/-- Whether an operand has scales: its format has blocks and its tensor a scale plane. -/
def hasScales (f : Fmt) (plane : Bool) : Bool := plane && decide (f ≠ .bf16)

/-- 07 R186, Table 07.1: the row of a product of a parameter: 0 forward, 1 input gradient, 2 weight gradient. -/
def Product.row (x : Product) : Option Nat :=
  match x.k, x.m, x.n with
  | .inFeatures, .tokens, .outFeatures => some 0
  | .outFeatures, .tokens, .inFeatures => some 1
  | .tokens, .inFeatures, .outFeatures => some 2
  | _, _, _ => none

/-- 07 R186: whether a product of a parameter takes another role than those of Table 07.1: its axes, what passes through Twill, the axis
of its operands' scales. -/
def OpEntry.roleBad (o : OpEntry) : Bool :=
  match o.product with
  | none => false
  | some x =>
    match x.row with
    | none => true
    | some r => (o.xTwill != decide (r = 2)) || (o.wTwill != decide (r ≠ 0)) || (hasScales o.xFmt o.xPlane && !o.xAlongK) ||
        (hasScales o.wFmt o.wPlane && !o.wAlongK)

/-- The rules over one operator of a core of logical tower t (02 R45, R48; 03 R80, R84; 04 R94 to R98; 07 R186, R198; 08 R212). -/
def opRules (v : VariantBody) (t : Nat) (o : OpEntry) : List (Nat × Bool) :=
  let l := o.tiling
  let list := decide (l.m.src = 1) || decide (l.n.src = 1) || decide (l.k.src = 1)
  [(45, !pairOk o.xFmt o.wFmt),
   (48, decide (131072 < o.fullK.getD 0)),
   (94, decide (6 ≤ l.order.toNat)),
   (95, decide (8 < l.slotBase.toNat + l.slotBudget.toNat) || decide (l.slotBudget = 0)),
   (97, decide (l.arrayMask = 0)),
   (96, decide (l.slotBudget.toNat < demandOf l (l.m.loadLen 64) (l.n.loadLen 64))),
   (98, list && decide (l.plMax = 0)),
   (98, decide (131072 < l.k.max.toNat)),
   (98, decide (l.spillSlots ≠ 0) && decide (v.towerOf (l.spillBase.toNat * 65536 / 2 ^ 21) ≠ some t)),
   (84, (o.xTwill && hasScales o.xFmt o.xPlane && !o.xAlongK) || (o.wTwill && hasScales o.wFmt o.wPlane && !o.wAlongK)),
   (186, o.roleBad),
   (198, match o.rank with | some r => decide (r % 64 ≠ 0) | none => false),
   (80, o.drains.any (fun d => !drainFmtOk d.desc.format (decide (o.xFmt = .int8)))),
   (212, o.drains.any (fun d => decide (d.desc.destKind = 4) && d.desc.round))]

/-- The fields of Table 03.5 in which a recompute drain must match its forward drain (07 R193): all but DRAIN.SLOT, DRAIN.DEST_KIND,
DRAIN.DEST_QUEUE and DRAIN.DEST_OFFSET. -/
def DrainDesc.common (d : DrainDesc) : DrainDesc := { d with slot := 0, destKind := 0, destQueue := 0, destOffset := 0 }

/-- 07 R193: whether a recompute drain of a variant differs from its forward drain. -/
def VariantBody.recomputeBad (v : VariantBody) : Bool :=
  v.programs.any (fun c => c.passList.any (fun o => o.drains.any (fun d =>
    match d.forward with
    | none => false
    | some (core, i, j) =>
      match v.programs.find? (fun x => decide (x.core = core)) with
      | none => true
      | some x =>
        match (x.passList.getD i {}).drains[j]? with
        | some f => decide (f.desc.common ≠ d.desc.common)
        | none => true)))

/-- The rules over a core's program: its operators, its counter log ring (R146). -/
def coreRules (v : VariantBody) (c : CoreProgram) : List (Nat × Bool) :=
  let t := c.core.toNat / 16
  c.passList.flatMap (opRules v t) ++
  [(146, match c.ring with
     | none => false
     | some (base, k) => !(decide (k.toNat ≤ 15) && decide (base.toNat % 4096 = 0) &&
         v.inTower t base.toNat (32 * 2 ^ (8 + k.toNat))))]

/-- Whether two ranges meet. -/
def rangesMeet (a la b lb : Nat) : Bool := decide (a < b + lb) && decide (b < a + la)

/-- R126: `ops` are the operand regions of the cores' stores: logical core, store, offset, bytes. -/
def queuesBad (l : List QmEntry) (ops : List (Nat × Nat × Nat × Nat)) : Bool :=
  let here := l.filter (fun q => q.linkOut.isNone)
  let bytes (q : QmEntry) : Nat := 64 * q.slotUnits.toNat * q.depth.toNat
  let sameIn (a b : QmEntry) : Bool := decide (a.dstCore = b.dstCore) && decide (a.dstEp = b.dstEp)
  let clash (a b : QmEntry) : Bool := sameIn a b || (decide (a.dstCore = b.dstCore) && decide (a.store = b.store) &&
    rangesMeet a.bufOffset.toNat (bytes a) b.bufOffset.toNat (bytes b))
  let fed (q : QmEntry) : Nat := (l.filter (fun x => x.linkIn.isNone && decide (x.srcCore = q.srcCore) &&
    decide (x.srcEp = q.srcEp))).length
  let onOps (q : QmEntry) : Bool := ops.any (fun r => decide (r.1 = q.dstCore.toNat) && decide (r.2.1 = q.store.toNat) &&
    rangesMeet q.bufOffset.toNat (bytes q) r.2.2.1 r.2.2.2)
  l.any (fun q => decide (q.depth = 0)) || here.any onOps || l.any (fun q => q.linkIn.isNone && decide (4 < fed q)) || overlaps clash here
where
  overlaps (f : QmEntry → QmEntry → Bool) : List QmEntry → Bool
    | [] => false
    | a :: t => t.any (f a) || overlaps f t

/-- R129: entries of a core that the image marks as the last write of an endpoint. -/
def CoreProgram.marks (c : CoreProgram) (ep : Nat) : Nat :=
  ((c.passList.flatMap (fun o => o.drains)).filter (fun d => decide (d.desc.destKind = 3) && d.desc.eos &&
    decide (d.desc.destQueue.toNat = ep))).length +
  (c.vectorList.filter (fun e => (e.eos || e.markerOnly) && (match e.dest with | .queue q _ => decide (q.val = ep) | _ => false))).length

/-- R132: the output endpoints that a node's kind gives it. -/
def SteerSetting.outs (n : SteerSetting) : List (BitVec 5) :=
  match n.kind.toNat with
  | 1 => [n.outA, n.outB]
  | 2 | 3 => [n.outA]
  | _ => []

/-- R129: whether an output endpoint has no marked entry, or more than one; a steering node marks its own outputs. -/
def VariantBody.marksBad (v : VariantBody) : Bool :=
  v.queues.any (fun q => q.linkIn.isNone &&
    !v.steers.any (fun n => decide (n.core = q.srcCore) && n.outs.contains q.srcEp) &&
    decide (((v.programs.filter (fun c => decide (c.core = q.srcCore))).map (fun c => c.marks q.srcEp.toNat)).sum ≠ 1))

/-- R156: whether a word at a place of a program is one the loader refuses. -/
def wordBad (copy : Bool) (pc w : Nat) : Bool :=
  let d := bitsAt w 25 3
  let dimBad := decide (6 ≤ d)
  match w / 2 ^ 28 with
  | 0 => decide (bitsAt w 0 28 ≠ 0)
  | 1 => dimBad || decide (bitsAt w 23 2 = 3)
  | 2 => dimBad || decide (bitsAt w 4 20 ≠ 0) || decide (pc ≤ bitsAt w 0 4)
  | 3 => false
  | 4 => decide (bitsAt w 0 14 ≠ 0) || (decide (bitsAt w 17 2 = 2) && decide (6 ≤ bitsAt w 14 3))
  | 5 => decide (bitsAt w 12 12 ≠ 0) || (copy && decide (d % 2 = 1))
  | 6 => dimBad || decide (bitsAt w 23 2 = 0) || decide (bitsAt w 23 2 = 3) || decide (bitsAt w 4 15 ≠ 0)
  | 7 => decide (5 < bitsAt w 22 3) || decide (bitsAt w 4 18 ≠ 0)
  | 8 => decide (bitsAt w 23 2 = 3) || decide (bitsAt w 0 20 ≠ 0)
  | 9 => decide (bitsAt w 0 23 ≠ 0)
  | _ => true

/-- The logical tower of a logical context. -/
def StreamProg.tower (p : StreamProg) : Nat := if p.ctx < 3072 then p.ctx / 96 else (p.ctx - 4096) / 16 % 32

/-- Tables 06.1, 06.5: whether a context runs streams of a kind's code. -/
def kindAllowed (ctx code : Nat) : Bool :=
  if ctx < 3072 then (if ctx % 6 < 4 then decide (code = 0) || decide (code = 2) else decide (code = 1)) else decide (code = 3)

/-- R161: a program as the loader follows it: the word it is at, the counters with their limits, the registers LEN and PLEN, and the address
registers; `none` stands for what only the run decides: a length that a PLFETCH or BFETCH reads, a base that a pointer list names. -/
structure FarWalk where
  pc : Nat := 0
  dims : List (Nat × Option Nat) := List.replicate 8 (0, some 0)
  regs : List (Option (BitVec 64)) := []
  len : Option Nat := some 0
  plen : Option Nat := some 0
  /-- no PLFETCH has been passed, so that the flag of a list's last entry is 0 -/
  noList : Bool := true
  deriving DecidableEq, Repr

/-- The walk past the LOOPE of counter d that follows. -/
def FarWalk.leave (x : FarWalk) (words : List (BitVec 32)) (d : Nat) : FarWalk :=
  match (List.range 16).find? (fun i => decide (x.pc < i) && decide ((words.getD i 0).toNat / 2 ^ 28 = 2) && decide (bitsAt (words.getD i 0).toNat 25 3 = d)) with
  | some i => { x with pc := i + 1 }
  | none => { x with pc := 16 }

/-- R161: where a program may go on from one word (Table 06.3). Where only the run decides, both ways are followed, and a loop whose limit
it decides is taken at most twice (log 94). -/
def FarWalk.step (x : FarWalk) (words : List (BitVec 32)) (copy : Bool) (w : Nat) : List FarWalk :=
  let reg (i : Nat) : Option (BitVec 64) := x.regs.getD i none
  let a := bitsAt w 25 3
  let dim := x.dims.getD a (0, none)
  let next : FarWalk := { x with pc := x.pc + 1 }
  let length (m sh : Nat) : Option Nat := (if m = 1 then x.len else x.plen).map (fun l => ceilDiv l (2 ^ sh))
  match w / 2 ^ 28 with
  | 1 =>
    let lim := if bitsAt w 23 2 = 0 then some (bitsAt w 0 19) else length (bitsAt w 23 2) (bitsAt w 19 4)
    let y : FarWalk := { next with dims := listSet x.dims a (0, lim) }
    match lim with
    | some 0 => [{ x with dims := listSet x.dims a (0, lim) }.leave words a]
    | some _ => [y]
    | none => [y, { x with dims := listSet x.dims a (0, lim) }.leave words a]
  | 2 =>
    let y : FarWalk := { next with dims := listSet x.dims a (dim.1 + 1, dim.2) }
    let again : FarWalk := { y with pc := bitsAt w 0 4 }
    match dim.2 with
    | some l => if dim.1 + 1 < l then again :: (if w.testBit 24 && !x.noList then [y] else []) else [y]
    | none => if dim.1 = 0 then [again, y] else [y]
  | 3 => [{ next with regs := listSet x.regs a ((reg a).map (fun v => v + (BitVec.ofInt 64 (signedOf 21 w) <<< bitsAt w 21 4))) }]
  | 4 =>
    let sum (f : BitVec 64 → BitVec 64 → BitVec 64) : Option (BitVec 64) :=
      match reg (bitsAt w 22 3), reg (bitsAt w 19 3) with | some b, some c => some (f b c) | _, _ => none
    [{ next with regs := listSet x.regs a (match bitsAt w 17 2 with
      | 0 => sum (fun b c => b + c)
      | 1 => sum (fun b c => b - c)
      | 2 => sum (fun b c => b + c * BitVec.ofNat 64 (x.dims.getD (bitsAt w 14 3) (0, none)).1)
      | _ => reg (bitsAt w 22 3)) }]
  | 5 =>
    let up (l : List (Option (BitVec 64))) (i : Nat) : List (Option (BitVec 64)) :=
      listSet l i ((l.getD i none).map (fun v => v + BitVec.ofNat 64 (bitsAt w 0 12 + 1)))
    [if w.testBit 24 then { next with regs := if copy then up (up x.regs a) (a + 1) else up x.regs a } else next]
  | 6 =>
    let past : FarWalk := { x with pc := x.pc + 1 + bitsAt w 0 4 }
    match (if bitsAt w 23 2 = 1 then x.len else x.plen) with
    | some l => [if l ≤ dim.1 * 2 ^ bitsAt w 19 4 then past else next]
    | none => [next, past]
  | 7 =>
    let l := listSet x.regs a ((reg a).map (fun v => v + 32))
    let y : FarWalk := { next with regs := [0, 1, 2].foldl (fun l n => listSet l (bitsAt w 22 3 + n) none) l, plen := none, noList := false }
    [y, { y with pc := y.pc + bitsAt w 0 4 }]
  | 8 => [if bitsAt w 23 2 = 1 then next else { next with len := none }]
  | 9 => [next]
  | _ => []

/-- Whether an address lies in space 1 or 2 (Table 06.2); one that a pointer list names is in question as the image says. -/
def farAddr (lists : Bool) : Option (BitVec 64) → Bool
  | some v => decide (v.toNat / 2 ^ 60 = 1) || decide (v.toNat / 2 ^ 60 = 2)
  | none => lists

/-- R161: whether a word makes a request in space 1 or 2: an EMIT, of a COPY with its destination in the next register, or the read of a
PLFETCH or BFETCH. -/
def FarWalk.asks (x : FarWalk) (copy lists : Bool) (w : Nat) : Bool :=
  let a := bitsAt w 25 3
  match w / 2 ^ 28 with
  | 5 => farAddr lists (x.regs.getD a none) || (copy && farAddr lists (x.regs.getD (a + 1) none))
  | 7 | 8 => farAddr lists (x.regs.getD a none)
  | _ => false

/-- R161: whether a program makes a request in space 1 or 2; `lists` says that its pointer lists name such addresses, the number bounds the
words that are followed. -/
def FarWalk.far (words : List (BitVec 32)) (copy lists : Bool) : Nat → FarWalk → Bool
  | 0, _ => false
  | n + 1, x =>
    if 16 ≤ x.pc then false
    else
      let w := (words.getD x.pc 0).toNat
      x.asks copy lists w || (x.step words copy w).any (FarWalk.far words copy lists n)

/-- R161: whether a descriptor's requests use space 1 or 2 (log 94). -/
def Desc.usesFar (d : Desc) (lists : Bool) : Bool :=
  FarWalk.far d.words d.kind.isCopy lists (2 ^ 120) { regs := d.areg.map some }

/-- R160, R161, R156: the rules over one descriptor. An IN_LOAD of a ring's member may have a tee: its first chunk enters so (R174, log
95). -/
def descRules (v : VariantBody) (p : StreamProg) (bs : List Byte) : List (Nat × Bool) :=
  let d := parseDesc bs
  let h := ofBytes (bs.drop 128)
  let st := StoreId.ofCode d.store.toNat
  let far := d.usesFar p.farLists
  let member := v.rings.any (fun l => l.any (fun m => decide (m.core.toNat = p.ctx / 6)))
  let kind := bitsAt h 258 4
  [(156, (List.range 16).any (fun i => wordBad d.kind.isCopy i (d.words.getD i 0).toNat)),
   (160, !kindAllowed p.ctx kind),
   (160, d.kind.isOut && !(decide (st = .input) || decide (st = .scratch))),
   (160, d.tee && !((decide (kind = 2) || (decide (kind = 0) && member)) && decide (st = .weights))),
   (160, decide (d.bufSize % 64 ≠ 0) || decide (st.size < d.bufOffset + d.bufSize)),
   (160, !v.inTower p.tower d.saveArea.toNat 256 || decide (d.saveArea.toNat % 256 ≠ 0)),
   (161, far && !d.release)]

/-- R159: an operator with a pointer list has one lead context on its core, which may be armed more than once. -/
def leadBad (v : VariantBody) (descs : List (StreamProg × Desc)) : Bool :=
  v.programs.any (fun c => c.passList.any (fun o => decide (o.tiling.plMax ≠ 0) &&
    decide (((descs.filter (fun x => decide (x.1.ctx < 3072) && decide (x.1.ctx / 6 = c.core.toNat) && x.2.plLead &&
      decide (x.2.operator = o.reportOp))).map (fun x => x.1.ctx)).eraseDups.length ≠ 1)))

/-- The operand regions that stream descriptors lay in their cores' stores, tee copies among them: logical core, store, offset, bytes. -/
def operandRegions (descs : List (StreamProg × Desc)) : List (Nat × Nat × Nat × Nat) :=
  (descs.filter (fun x => decide (x.1.ctx < 3072))).flatMap (fun x =>
    let d := x.2
    (x.1.ctx / 6, d.store.toNat, d.bufOffset, d.bufSize) :: (if d.tee then [(x.1.ctx / 6, 0, d.teeOffset, d.bufSize)] else []))

/-- 06 R173: whether the chunks of a ring differ or exceed one weight-staging half, or it has fewer than 2 members or more than 64. -/
def ringBad (l : List RingMember) : Bool :=
  decide (l.length < 2) || decide (64 < l.length) || l.any (fun m => decide (262144 < m.chunk) || decide (m.chunk ≠ (l.headD {}).chunk))

/-- R241: whether an extent may be mapped in a partition of `q` quadrants. -/
def Extent.bad (e : Extent) (q : Nat) : Bool :=
  decide (16 < e.pairFirst.toNat + e.pairSpan.toNat) || decide (e.pairSpan = 0) || decide (8 * q ≤ e.tower.toNat) ||
    (decide (e.pages ≠ 0) && decide (3070 ≤ e.frameBase.toNat + (e.pages.toNat - 1) / e.pairSpan.toNat))

/-- R241: whether two extents cover one job page. -/
def extentsMeet : List Extent → Bool
  | [] => false
  | a :: t => t.any (fun b => rangesMeet a.jobPage.toNat a.pages.toNat b.jobPage.toNat b.pages.toNat) || extentsMeet t

/-- Whether the first places of runs ascend. -/
def ascending : List (Nat × Nat) → Bool
  | [] => true
  | [_] => true
  | a :: b :: t => decide (a.1 < b.1) && ascending (b :: t)

/-- The reduction words of a core's reduction drains and vector writes (08 R212). -/
def CoreProgram.redWords (c : CoreProgram) : List (BitVec 32) :=
  ((c.passList.flatMap (fun o => o.drains)).filter (fun d => decide (d.desc.destKind = 4))).map (fun d => d.desc.destOffset) ++
    c.vectorList.filterMap (fun e => match e.dest with | .reduction w => some w | _ => none)

/-- Whether an FP32 pattern is a number above 0. -/
def f32Positive (x : BitVec 32) : Bool := !x.msb && decide (x ≠ 0) && decide (x.toNat ≤ 0x7F800000)

/-- 08 R210, R215, R217, 07 R202 to R204, 10 R281: the rules over groups; `rd` reads the schedule directory's tables. -/
def groupRules (b : ImageBody) (v : VariantBody) (rd : Nat → Nat → Nat) (dir : Nat) : List (Nat × Bool) :=
  let spanBad := spans (b.groups.map (fun d => (d.homeFirst.toNat, d.homeCount.toNat)))
  b.groups.flatMap (fun d =>
    [(281, decide (d.id = 0)),
     (210, !ascending d.ownerRuns || decide ((d.ownerRuns.headD (d.ownFirst.toNat + 1, 0)).1 ≠ d.ownFirst.toNat)),
     (210, d.ownerRuns.any (fun r => v.descr.coreExcl.getLsbD r.2)),
     (217, !ascending d.homeRuns || decide ((d.homeRuns.headD (1, 0)).1 ≠ 0)),
     (202, d.regions.any (fun r => decide (r.opt.workFmt ≠ 1) && decide (r.opt.workFmt ≠ 2))),
     (202, d.regions.any (fun r => decide (r.opt.count.toNat % 32 ≠ 0) || !f32Positive r.opt.eps || decide (r.opt.wtBwd = 3))),
     (203, d.regions.any (fun r => decide (b.dirCount ≤ r.opt.schedule.toNat) ||
       (let l := lrSchedule rd dir r.opt.schedule.toNat
        !ascending (l.map (fun x => (x.start.toNat, 0))) || (match l with
         | [] => true
         | x :: _ => decide (r.opt.t0.toNat < x.start.toNat)))))]) ++
  [(203, decide (256 < b.dirCount)), (217, spanBad), (215, decide (65535 < b.mbCount))]
where
  spans : List (Nat × Nat) → Bool
    | [] => false
    | a :: t => t.any (fun x => rangesMeet a.1 a.2 x.1 x.2) || spans t

/-- Whether a record's closing term is not the last of its terms in a list. -/
def closesEarly (record : Nat) (l : List (BitVec 32)) : Bool :=
  match l.filter (fun w => decide (bitsAt w.toNat 0 30 = record)) with
  | [] => false
  | ws => ws.dropLast.any (fun w => w.getLsbD 31)

/-- 08 R216, R217: every group tile has one closing term, the last of its record's in list order; every term of it stands on the core
that the tile's home run names. -/
def closeRules (b : ImageBody) (v : VariantBody) : List (Nat × Bool) :=
  b.groups.flatMap (fun d => (List.range d.tiles.toNat).flatMap (fun t =>
    let recs := (List.range b.crs.length).filter (fun i =>
      let r := (b.crs.getD i 0).toNat
      decide (bitsAt r 88 8 = d.id.toNat) && decide (bitsAt r 96 32 = t))
    let terms (c : CoreProgram) : List (BitVec 32) := c.redWords.filter (fun w => recs.contains (bitsAt w.toNat 0 30))
    let closers := v.programs.flatMap (fun c => (terms c).filter (fun w => w.getLsbD 31))
    [(216, decide (closers.length ≠ 1) || v.programs.any (fun c => recs.any (fun i => closesEarly i c.redWords))),
     (217, v.programs.any (fun c => !(terms c).isEmpty && decide (c.core.toNat ≠ runCore d.homeRuns t)))]))

-- Parameters and their copies -----------------------------------------------------------------------------------------------

/-- 07 R188: OPT.WT_BWD of the region that a product reads. -/
def ImageBody.wtBwd (b : ImageBody) (x : ParamRef) : BitVec 2 :=
  match x with
  | .trainable g i => (((b.groups.find? (fun d => decide (d.id = g))).getD {}).regions.getD i {}).opt.wtBwd
  | .frozen i => (b.frozen.getD i {}).wtBwd

/-- 07 R199, R200: the regions that an operator reads as weights, each with the operator that its gradient flows to. -/
def OpEntry.weights (o : OpEntry) : List (ParamRef × Option (BitVec 24)) :=
  (o.param.map (fun x => (x, o.gradOp))).toList ++ (o.fused.map (fun x => (x, o.fusedOp))).toList

/-- 07 R188: whether an input-gradient product of a variant reads E4M3 working parameters without a backward copy. -/
def backwardBad (b : ImageBody) (v : VariantBody) : Bool :=
  v.programs.any (fun c => c.passList.any (fun o =>
    decide (o.product.bind Product.row = some 1) && decide (o.wFmt = .e4m3) &&
      o.weights.any (fun x => decide (b.wtBwd x.1 = 0))))

/-- 07 R185: whether the copies of a micro-batch are placed over copies that an instance which is still pending reads. -/
def Retained.bad (r : Retained) : Bool :=
  let n := r.places.length
  (List.range n).any (fun i => (List.range r.distance).any (fun k =>
    let a := r.places.getD i (0, 0)
    let b := r.places.getD ((i + k + 1) % n) (0, 0)
    rangesMeet a.1 a.2 b.1 b.2))

/-- 07 R200: the byte ranges of a region's working parameters. -/
def Region.copies (r : Region) : List (Nat × Nat) :=
  r.fwd.map (fun a => (a, r.opt.count.toNat * (if r.opt.workFmt = 1 then 2 else 1)))

/-- 07 R200: TIED_WEIGHTS: two producers are listed for byte ranges that overlap, or an operator reads a trainable region as a weight
whose gradient does not flow to the region's producer. -/
def tiedBad (b : ImageBody) : Bool :=
  let regions := b.groups.flatMap (fun d => d.regions)
  let clash (x y : Region) : Bool := decide (x.producer ≠ y.producer) &&
    x.copies.any (fun p => y.copies.any (fun q => rangesMeet p.1 p.2 q.1 q.2))
  pairs clash regions || b.variants.any (fun v => v.programs.any (fun c =>
    c.passList.any (fun o => o.weights.any (fun x => strays x.2 x.1)) || c.vectorList.any (fun e => e.param.any (strays e.gradOp))))
where
  strays (out : Option (BitVec 24)) : ParamRef → Bool
    | .trainable g i => decide (out ≠ some (((b.groups.find? (fun d => decide (d.id = g))).getD {}).regions.getD i {}).producer)
    | _ => false
  pairs (f : Region → Region → Bool) : List Region → Bool
    | [] => false
    | a :: t => t.any (f a) || pairs f t

/-- 12 R327: `v` maps the image's job pages; `image` is the image region, in pages. -/
def planBad (b : ImageBody) (v : VariantBody) (image : Nat × Nat) : Bool :=
  match b.plan with
  | none => false
  | some x =>
    let partner := (x.partnerBase.toNat, 2 * (16 + x.partnerPages.toNat) * 2 ^ 21)
    let near (page : Nat) : Bool := (v.towerOf page).isSome && !(decide (image.1 ≤ page) && decide (page < image.1 + image.2))
    let regions := b.others ++ b.ownedRanges ++ [(2 ^ 21 * image.1, 2 ^ 21 * image.2), (2 ^ 21 * b.jobState.toNat, 2 ^ 21)]
    decide (524272 < x.pages.length) || decide ((x.pages.head?).map (fun e => e.page) ≠ some b.jobState) ||
      x.pages.any (fun e => !near e.page.toNat) ||
      x.pages.any (fun e => e.ride && (
        let meets (r : Nat × Nat) : Bool := rangesMeet (2 ^ 21 * e.page.toNat) (2 ^ 21) r.1 r.2
        b.others.any meets || meets partner || meets (2 ^ 21 * b.jobState.toNat, 2 ^ 21) || !b.ownedRanges.any meets)) ||
      regions.any (fun r => rangesMeet partner.1 partner.2 r.1 r.2)

/-- 07 R204: whether the first step lies before a region's OPT.T0. -/
def t0Bad (b : ImageBody) (start : BitVec 64) : Bool :=
  b.groups.any (fun d => d.regions.any (fun r => decide (2 ^ 31 ≤ ((start.toNat + 2 ^ 32 - r.opt.t0.toNat) % 2 ^ 32))))

/-- R123: variant 0 excludes nothing. -/
def Variant.excludesAny (v : Variant) : Bool := decide (v.towerExcl ≠ 0) || decide (v.portExcl ≠ 0) || decide (v.coreExcl ≠ 0)

/-- The rules over one variant of an image of `len` bytes. -/
def State.variantRules (s : State) (q mpa len : Nat) (b : ImageBody) (v : VariantBody) : List (Nat × Bool) :=
  let bytes (p : StreamProg) : List Byte := s.mpaBytes (mpa + p.off) 192
  let descs := v.streams.map (fun p => (p, parseDesc (bytes p)))
  v.programs.flatMap (coreRules v) ++ [(126, queuesBad v.queues (operandRegions descs)), (129, v.marksBad)] ++
    v.streams.flatMap (fun p => descRules v p (bytes p)) ++
    [(159, leadBad v descs), (173, v.rings.any ringBad), (188, backwardBad b v), (193, v.recomputeBad),
     (241, v.extents.any (fun e => e.bad q || rangesMeet e.jobPage.toNat e.pages.toNat b.imagePage.toNat ((mpa % 2 ^ 21 + len + 2 ^ 21 - 1) / 2 ^ 21)) ||
       extentsMeet v.extents),
     (327, planBad b v (b.imagePage.toNat, (mpa % 2 ^ 21 + len + 2 ^ 21 - 1) / 2 ^ 21))] ++
    groupRules b v (s.imageNat b mpa) (b.addrOf mpa b.dirOff) ++ closeRules b v

/-- R146: a load with a report refuses a core that runs in the variant and has no ring. -/
def ringless (v : VariantBody) : Bool := v.programs.any (fun c => c.ring.isNone && !v.descr.coreExcl.getLsbD c.core.toNat)

-- Fences and variants -----------------------------------------------------------------------------------------------------

/-- R124, 15 R418: whether no variant may run a unit: it is fenced, or has returned from a fence and not passed its test. -/
def Gingham.barred (g : Gingham) (kind index : Nat) : Bool := g.fenced kind index || g.returning kind index

/-- R124: whether a variant on physical quadrants excludes every fenced unit of them. -/
def Variant.excludesFenced (v : Variant) (g : Gingham) (quads : List Nat) : Bool :=
  (List.range (128 * quads.length)).all (fun b =>
    let c := physCore quads b
    !(g.barred 1 c || g.barred 3 (c / 16)) || v.coreExcl.getLsbD b) &&
  (List.range (8 * quads.length)).all (fun t =>
    !g.barred 3 (physTower (quads.getD (t / 8) 0) (t / 4 % 2) (t % 4)) || v.towerExcl.getLsbD t) &&
  (List.range (6 * quads.length)).all (fun i =>
    let q := quads.getD (i / 6) 0
    !(g.barred 7 (6 * q + i % 6) || g.barred 8 q) || v.portExcl.getLsbD i)

/-- R124: the lowest-numbered variant that excludes every fenced unit. -/
def selectVariant (b : ImageBody) (g : Gingham) (quads : List Nat) : Option Nat :=
  b.variants.findIdx? (fun v => v.descr.excludesFenced g quads)

/-- Fenced units of a partition's quadrants, for a NO_VARIANT record. -/
def Gingham.fencedIn (g : Gingham) (quads : List Nat) : Nat :=
  (g.fences.filter (fun e => e.2.valid && (match e.2.kind.toNat with
    | 1 => quads.contains (e.2.index.toNat / 128)
    | 3 => quads.contains (e.2.index.toNat / 8)
    | 7 => quads.contains (e.2.index.toNat / 6)
    | 8 => quads.contains e.2.index.toNat
    | _ => false))).length

/-- The ports of a route's first output: itself, or the members of the bond (R284). -/
def ImageBody.portsOf (b : ImageBody) (o : Nat) : List Nat := if o < 24 then [o] else bondPorts (b.bonds.get 0 (o - 24))

/-- The route entry of (group, member) in an image's route memory. -/
def ImageBody.routeOf (b : ImageBody) (g m : Nat) : Route := Route.ofNat (b.routes.get 0 (4096 * g + m)).toNat

/-- R139: the ports that a variant's link streams need: those of the routes to the modules at their far ends. -/
def ImageBody.streamPorts (b : ImageBody) (v : VariantBody) : List Nat :=
  (v.queues.flatMap (fun q => [q.linkOut, q.linkIn])).flatMap (fun x => match x with
    | none => []
    | some e => let r := b.routeOf 0 e.member.toNat; if r.valid && !r.self then b.portsOf r.first.toNat else [])

/-- R117, R285: the ports that routes or bonds use which do not stand as the expected-peer table says, and those whose version is below
what the link streams' WV.KLP_MIN_VER, a bond or a route of more than 4 intermediate hops needs: the reason and the port of the first. -/
def State.portsBad (s : State) (b : ImageBody) (vb : VariantBody) (quads : List Nat) (minVer : BitVec 16) : Option (Nat × Nat) :=
  let v := vb.descr
  let outs := ((b.routes.map (fun e => Route.ofNat e.2.toNat)).filter (fun e => e.valid && !e.self)).map (fun e => e.first.toNat)
  let ports := ((outs.flatMap b.portsOf) ++ (b.bonds.flatMap (fun e => bondPorts e.2))).eraseDups
  let streams := b.streamPorts vb
  let cabled (i : Nat) : Bool :=
    let x := s.port i
    decide (x.state = .up) && quads.contains (i / 6) && !v.portExcl.getLsbD (6 * placeIn quads (i / 6) + i % 6) &&
      b.peers.any (fun e => decide (e.1.toNat = i) && decide (e.2.1 = x.peerId) && decide (e.2.2 = x.peerPort))
  let long := ((b.routes.map (fun e => Route.ofNat e.2.toNat)).filter (fun e => e.valid && !e.self && decide (4 < e.hops.toNat))).flatMap
    (fun e => b.portsOf e.first.toNat)
  let needs (i : Nat) : Nat := max (if b.bonds.any (fun e => e.2.getLsbD i) || long.contains i then 1 else 0)
    (if streams.contains i then minVer.toNat % 256 else 0)
  -- R284: a bond of 2 to 6 ports that lead to one peer
  let bondBad (e : Nat × BitVec 24) : Bool :=
    let ms := bondPorts e.2
    decide (e.2 ≠ 0) && (decide (ms.length < 2) || decide (6 < ms.length) || ms.any (fun i => decide ((s.port i).peerId ≠ (s.port (ms.headD 0)).peerId)))
  match (ports.find? (fun i => !cabled i)).or ((b.bonds.find? bondBad).map (fun e => (bondPorts e.2).headD 0)) with
  | some i => some (0x0A, i)
  | none => (ports.find? (fun i => decide ((s.port i).ver.toNat < needs i))).map (fun i => (0x02, i))

-- Loading -----------------------------------------------------------------------------------------------------------------

/-- An extent as an address map entry on its physical tower. -/
def Extent.amap (e : Extent) (quads : List Nat) : Amap :=
  { jobPage := e.jobPage, pages := e.pages, tower := BitVec.ofNat 5 (physTowerOf quads e.tower.toNat), pairFirst := e.pairFirst,
    pairSpan := e.pairSpan, frameBase := e.frameBase, valid := true }

/-- R119 step 6, R241: the extents of the image region: `len` bytes staged at an MPA, mapped from a job page. -/
def imageExtents (page mpa len : Nat) : List Amap :=
  let g0 := bitsAt mpa 21 16
  let n := (mpa % 2 ^ 21 + len + 2 ^ 21 - 1) / 2 ^ 21
  let first := min n (3072 - g0 % 3072)
  let mk (p g k : Nat) : Amap :=
    { jobPage := BitVec.ofNat 27 p, pages := BitVec.ofNat 21 k, tower := BitVec.ofNat 5 (mpa / 2 ^ 37),
      pairFirst := BitVec.ofNat 4 (g / 3072), pairSpan := 1, frameBase := BitVec.ofNat 12 (g % 3072), valid := true }
  mk page g0 first :: (if first < n then [mk (page + first) (g0 + first) (n - first)] else [])

/-- 15 R416: an extent split at its page i, which goes to a free frame of the same pair. -/
def Amap.split (a : Amap) (i free : Nat) : List Amap :=
  let span := a.pairSpan.toNat
  let col := i % span
  let row := a.frameBase.toNat + i / span
  let left := a.pages.toNat - i - 1
  let inRow := min left (span - 1 - col)
  let sub (from_ n pair sp base : Nat) : List Amap :=
    if n = 0 then [] else [{ a with jobPage := a.jobPage + BitVec.ofNat 27 from_, pages := BitVec.ofNat 21 n,
                                    pairFirst := BitVec.ofNat 4 pair, pairSpan := BitVec.ofNat 5 sp,
                                    frameBase := BitVec.ofNat 12 base }]
  sub 0 i a.pairFirst.toNat span a.frameBase.toNat ++ sub i 1 (a.pairFirst.toNat + col) 1 free ++
    sub (i + 1) inRow (a.pairFirst.toNat + col + 1) inRow row ++
    sub (i + 1 + inRow) (left - inRow) a.pairFirst.toNat span (row + 1)

/-- The pages of a map entry with their frames: job page, tower, frame index 3072p + f. -/
def Amap.frames (a : Amap) : List (Nat × Nat × Nat) :=
  (List.range a.pages.toNat).map (fun i =>
    let pl := a.place (a.jobPage.toNat + i) 0
    (a.jobPage.toNat + i, pl.tower, pl.g))

/-- 15 R416: map entries, each with whether it is read-only, in which no page uses a retired frame, or none where a pair has no
free frame; `fuel` bounds the number of splits. -/
def avoidRetired (retired : List Nat) : Nat → List (Amap × Bool) → Option (List (Amap × Bool))
  | 0, l => some l
  | fuel + 1, l =>
    let bad (a : Amap) : Option Nat := a.frames.findIdx? (fun f => retired.contains (49152 * f.2.1 + f.2.2))
    match l.find? (fun a => (bad a.1).isSome) with
    | none => some l
    | some a =>
      let i := (bad a.1).getD 0
      let f := a.1.frames.getD i (0, 0, 0)
      let used := (l.flatMap (fun x => x.1.frames)).map (fun x => 49152 * x.2.1 + x.2.2)
      let key (r : Nat) : Nat := 49152 * f.2.1 + f.2.2 / 3072 * 3072 + r
      match (List.range 3070).find? (fun r => !used.contains (key r) && !retired.contains (key r)) with
      | none => none
      | some r => avoidRetired retired fuel (l.flatMap (fun x => if x = a then (a.1.split i r).map (fun y => (y, x.2)) else [x]))

/-- The extents of a variant on physical quadrants and of the image region, which is read-only, as the image lays them out. -/
def VariantBody.layout (v : VariantBody) (quads : List Nat) (img : List Amap) : List (Amap × Bool) :=
  v.extents.map (fun e => (e.amap quads, e.ro)) ++ img.map (fun a => (a, true))

/-- 15 R416, R418: the map entries of a variant and of the image region, in which no page uses a barred frame; none where a pair has no free
frame, or where a die's 1,024 entries (09 R240) do not hold them. -/
def State.mapOf (s : State) (v : VariantBody) (quads : List Nat) (img : List Amap) : Option (List (Amap × Bool)) :=
  match avoidRetired s.gh.barredFrames (s.gh.barredFrames.length + 1) (v.layout quads img) with
  | some l => if l.length ≤ 1024 then some l else none
  | none => none

/-- R119 step 5, 09 R240, R244: every die of the partition takes the address map, and each page's frame its entry. -/
def State.loadMaps (s : State) (p : Nat) (l : List (Amap × Bool)) : State :=
  let ts := s.towersOf p
  let entries := l.map Prod.fst
  let amaps : FMap Amap := ts.foldl (fun m t =>
    (List.range 1024).foldl (fun m2 e => FMap.set {} m2 (1024 * t + e) (entries.getD e {})) m) s.amaps
  let kept : FMap Frame := s.frames.filter (fun x => decide (s.partOfTower (x.1 / 49152 % 32) ≠ p))
  let put (m : FMap Frame) (a : Amap × Bool) : FMap Frame := a.1.frames.foldl (fun m2 f =>
    FMap.set {} m2 (49152 * f.2.1 + f.2.2)
      { jobPage := BitVec.ofNat 27 f.1, prot := if a.2 then .ro else .rw, present := true, touched := false,
        part := BitVec.ofNat 2 p }) m
  { s with amaps := amaps, frames := l.foldl put kept }

/-- R127, R139: the endpoints of a core from the queue map. Where an output endpoint feeds edges of different depths or kinds the spec
does not say which of them QEP.DEPTH and QEP.KIND show: the last edge's (DESIGN CHOICE, log 108). -/
def endpointsOf (quads : List Nat) (qs : List QmEntry) (b : Nat) : FMap Endpoint :=
  let ins := qs.filter (fun q => q.linkOut.isNone && decide (q.dstCore.toNat = b))
  let outs := qs.filter (fun q => q.linkIn.isNone && decide (q.srcCore.toNat = b))
  let index (q : QmEntry) : Nat :=
    ((qs.filter (fun x => x.linkIn.isNone && decide (x.srcCore = q.srcCore) && decide (x.srcEp = q.srcEp))).findIdx? (fun x =>
      decide (x = q))).getD 0
  let m := ins.foldl (fun (m : FMap Endpoint) q => FMap.set {} m q.dstEp.toNat
    { dir := 1, kind := q.kind, depth := q.depth, store := q.store, bufOff := q.bufOffset.toNat, slotUnits := q.slotUnits.toNat,
      edgeId := q.edgeId, srcLink := q.linkIn, releaseBase := q.releaseBase, releasePeriod := q.releasePeriod,
      src := if q.linkIn.isSome then none else some (physCore quads q.srcCore.toNat, q.srcEp, index q) }) []
  outs.foldl (fun (m : FMap Endpoint) q => FMap.mod {} m q.srcEp.toNat (fun e =>
    { e with dir := 2, kind := q.kind, depth := q.depth, edgeId := q.edgeId,
             edges := e.edges ++ [{ edgeId := q.edgeId, dstCore := physCore quads q.dstCore.toNat, dstEp := q.dstEp,
                                    link := q.linkOut, credits := q.depth.toNat }] })) m

/-- Table 05.8: the kind of a code. -/
def SteerKind.ofCode (n : Nat) : SteerKind := match n with | 1 => .switch | 2 => .select | 3 => .merge | _ => .unused

/-- Table 05.8: what the steering nodes of a core have routed since job start. -/
def Core.routedCounts (k : Core) : FMap Steer :=
  (k.steer.map (fun x => (x.1, ({ fired := x.2.fired } : Steer)))).filter (fun x => decide (x.2 ≠ {}))

/-- The steering nodes of a core; `fired` are the counts that go on. -/
def steersOf (fired : FMap Steer) (l : List SteerSetting) (b : Nat) : FMap Steer :=
  (l.filter (fun x => decide (x.core.toNat = b))).foldl (fun (m : FMap Steer) x => FMap.set {} m x.node.toNat
    { kind := SteerKind.ofCode x.kind.toNat, inA := x.inA, inB := x.inB, token := x.token, outA := x.outA, outB := x.outB,
      fired := (fired.get {} x.node.toNat).fired }) fired

/-- 06 R173: the ring registers of a core of a variant. -/
def ringOf (v : VariantBody) (b : Nat) : Ring :=
  match v.rings.find? (fun l => l.any (fun m => decide (m.core.toNat = b))) with
  | none => {}
  | some l =>
    let i := (l.findIdx? (fun m => decide (m.core.toNat = b))).getD 0
    { size := BitVec.ofNat 8 l.length, pos := BitVec.ofNat 8 i, chunk := (l.getD i {}).chunk }

/-- 06 R152: the arm list of a core of a variant: its contexts and the addresses of their descriptors; `base` is the image's address. -/
def armsOf (v : VariantBody) (base b : Nat) : List (Fin 6 × BitVec 64) :=
  (v.streams.filter (fun x => decide (x.ctx < 3072) && decide (x.ctx / 6 = b))).map (fun x =>
    (⟨x.ctx % 6, Nat.mod_lt _ (by decide)⟩, BitVec.ofNat 64 (base + x.off)))

/-- R119 step 5, R146, R147: a core takes its lists, endpoints, nodes and ring, and the counters of 05.7 clear; its slots keep their
states, but for HELD ones, whose terms go with the reduction port's (log 96); `first` is the
step it begins next, `base` the address of the image. At job start the counters that
count since then (Table 05.8, 06 Table 06.9) are 0. The RWL locks of its report registers stay (00 R15). -/
def Core.load (k : Core) (quads : List Nat) (v : VariantBody) (spill : Bool) (base : Nat) (c : CoreProgram) (first : BitVec 64)
    (start : Bool) : Core :=
  { k.releaseHeld with
    spilled := [], shadow := [], active := [], anchors := [], red := [], closes := [], grads := [], pass := none, drain := none,
    faultStop := false, passFault := false, arrivals := [], creditsIn := [], own := [], ownCredits := [], bndValid := 0,
    mergeCount := if start then 0 else k.mergeCount
    lists := { k.lists.dropped with
      passList := c.passList, vectorList := c.vectorList, gateEp := c.gateEp, overcommitSpill := spill, queueSpill := c.queueSpill
      armList := armsOf v base c.core.toNat }
    eps := endpointsOf quads v.queues c.core.toNat
    steer := steersOf (if start then [] else k.routedCounts) v.steers c.core.toNat
    ring := { ringOf v c.core.toNat with periods := if start then 0 else k.ring.periods }
    report := { step := first, logEn := c.ring.isSome, logLocked := k.report.logLocked || c.ring.isSome,
                baseLocked := k.report.baseLocked || c.ring.isSome,
                logBase := match c.ring with | some r => r.1 | none => k.report.logBase,
                logSize := match c.ring with | some r => r.2.setWidth 4 | none => k.report.logSize } }

/-- A core that runs nothing in a variant: no lists, endpoints or nodes; RPT.LOG_EN is 0 (R146). -/
def Core.unload (start : Bool) (k : Core) : Core :=
  { k with
    lists := k.lists.dropped, eps := [], steer := if start then [] else k.routedCounts, arrivals := [], creditsIn := [], own := [], ownCredits := []
    pass := none, drain := none
    ring := { periods := if start then 0 else k.ring.periods }, mergeCount := if start then 0 else k.mergeCount
    report := { logLocked := k.report.logLocked, baseLocked := k.report.baseLocked, logBase := k.report.logBase,
                logSize := k.report.logSize } }

/-- The cores of a partition loaded with a variant. -/
def State.loadCores (s : State) (p : Nat) (quads : List Nat) (v : VariantBody) (spill : Bool) (base : Nat) (first : BitVec 64)
    (start : Bool) : State :=
  v.running.foldl (fun a c => a.modCore (physCore quads c.core.toNat) (fun k => k.load quads v spill base c first start))
    (s.modCoresOf p (Core.unload start))

/-- 10 R281, R286: the link dies of a partition take the route memory; at job start every member is live, and a later load keeps a removed
member removed. -/
def State.loadRoutes (s : State) (p : Nat) (b : ImageBody) (start : Bool) : State :=
  let routes (l : LinkDie) : FMap Route := b.routes.map (fun e =>
    let r := Route.ofNat e.2.toNat
    let old := l.routes.get {} e.1
    (e.1, { r with live := r.valid && (start || !old.valid || old.live) }))
  let own : FMap (List (Nat × Nat)) := b.groups.foldl (fun m d => FMap.set [] m d.id.toNat d.ownerRuns) []
  let home : FMap (List (Nat × Nat)) := b.groups.foldl (fun m d => FMap.set [] m d.id.toNat d.homeRuns) []
  let first : FMap Nat := b.groups.foldl (fun m d => FMap.set 0 m d.id.toNat d.homeFirst.toNat) []
  let s1 := s.modLinkDies p (fun l =>
    { l with routes := routes l, ownerRuns := own, homeRuns := home, homeFirst := first, bonds := b.bonds, spare := [] })
  -- 15 R411: a port that a test has disabled stays out of them
  s1.gh.disabled.foldl (fun a x => if x.kind = 7 then a.dropPort p x.index.toNat else a) s1

/-- Table 06.7: STR.ENABLE of the contexts that a variant's stream programs use. -/
def State.enableCtxs (s : State) (quads : List Nat) (v : VariantBody) : State :=
  v.streams.foldl (fun a x => a.setCtx (physCtx quads x.ctx) { enable := true }) s

/-- 12 R349: whether a unit is stale: a tower t, a link die 32 + d. -/
def State.stale (s : State) (p u : Nat) : Bool :=
  s.fromFence.contains u || (s.returned.contains u && decide (s.unitEpochs.get 0 u < (s.part p).jcp.epoch))

/-- 12 R349: every job frame of a stale tower is zeroed, a write of whole lines (09 R255). -/
def State.scrubTower (s : State) (t : Nat) : State :=
  { s with
    dram := s.dram.filter (fun x => decide (x.1 / 2 ^ 37 ≠ t) || decide (3070 ≤ x.1 % 2 ^ 32 / 2 ^ 20))
    channels := s.channels.tab {} 1024 (fun k => decide (k / 32 = t)) (fun c =>
      { c with poisoned := c.poisoned.filter (fun a => decide (3070 ≤ a / 2 ^ 20)) }) }

/-- 12 R349, 05 R124: the units that a variant runs on the quadrants of a partition: the towers, and the link dies (32 + d), that it does
not exclude. -/
def Variant.units (v : Variant) (quads : List Nat) : List Nat :=
  ((List.range (8 * quads.length)).filter (fun t => !v.towerExcl.getLsbD t)).map (physTowerOf quads) ++
    ((List.range quads.length).filter (fun i => !(List.range 6).all (fun n => v.portExcl.getLsbD (6 * i + n)))).map (fun i =>
      32 + quads.getD i 0)

/-- The image region of a partition's job, as it is staged. -/
def State.imageMap (s : State) (p : Nat) : List Amap :=
  let l := (s.part p).job.latched
  imageExtents (s.body p).imagePage.toNat l.imageMpa.toNat l.imageLen.toNat

/-- Where a page of a partition lies now: by its address map, else where the image lays it out. -/
def State.pageNow (s : State) (p : Nat) (f : Nat × Nat × Nat) : Nat × Nat :=
  match s.translate (s.someTower p) (2 ^ 21 * f.1) with
  | some pl => (pl.tower, pl.g)
  | none => f.2

/-- The bytes of the image of a partition's job, which the loader has read. -/
def State.imageCells (s : State) (p : Nat) : List Host.Cell :=
  let l := (s.part p).job.latched
  let lo := l.imageMpa.toNat % 2 ^ 21 + (s.body p).imagePage.toNat * 2 ^ 21
  let pages := ((s.imageMap p).flatMap Amap.frames).map (fun f => (f.1, s.pageNow p f))
  s.dram.filter (fun x =>
    let k := x.1 / 2 ^ 32
    let g := 3072 * (k % 32 / 2) + x.1 % 2 ^ 32 / 2 ^ 20
    pages.any (fun f => decide (f.2 = (chanTower k, g)) &&
      (let a := 2 ^ 21 * f.1 + lineMpa k (x.1 % 2 ^ 32) % 2 ^ 21
       decide (lo ≤ a) && decide (a < lo + l.imageLen.toNat))))

/-- 12 R349: the units that join the running variant are scrubbed where stale: a tower's job frames are zeroed, a link die's LD.EPOCH
is written (its route memory is loaded with every variant); their recorded epochs become JCP.EPOCH. The loader, which has read the image,
writes it anew where it stood (log 32). -/
def State.joinUnits (s : State) (p : Nat) (units : List Nat) : State :=
  let s0 := units.foldl (fun a u => if s.stale p u then
    (if u < 32 then a.scrubTower u else a.writeEpoch (u - 32) (s.part p).jcp.epochAck) else a) s
  let s1 : State := { s0 with dram := (s.imageCells p).foldl (fun m x => FMap.set 0 m x.1 x.2) s0.dram }
  { s1 with
    unitEpochs := units.foldl (fun m u => FMap.set 0 m u (s.part p).jcp.epoch) s1.unitEpochs
    fromFence := s1.fromFence.filter (fun u => !units.contains u)
    returned := s1.returned.filter (fun u => !units.contains u) }

-- Moving a frame ----------------------------------------------------------------------------------------------------------

/-- The bytes of a 1 MiB run of DRAM put at another, which they replace. -/
def copyRun (m : List Host.Cell) (src dst n : Nat) : List Host.Cell :=
  let cleared := m.filter (fun x => !(decide (dst ≤ x.1) && decide (x.1 < dst + n)))
  (m.filter (fun x => decide (src ≤ x.1) && decide (x.1 < src + n))).foldl (fun a x => FMap.set 0 a (x.1 - src + dst) x.2) cleared

/-- 09 R249: a free frame of a pair: holding no page, none of the control reserve, neither retired nor under test. -/
def State.freeFrame (s : State) (t g : Nat) : Option Nat :=
  let base := g / 3072 * 3072
  let busy (f : Nat) : Bool :=
    s.gh.retired.contains (49152 * t + f) || (s.gh.queue ++ s.gh.running.map Prod.snd).any (fun x => x.frames.contains (49152 * t + f))
  ((List.range 3070).map (fun r => base + r)).find? (fun f => decide (f ≠ g) && !(s.frame t f).present && !busy f)

/-- 09 R249 steps 2 and 4: the frame's data, with its poisoned lines, in another frame of its pair. -/
def State.copyFrame (s : State) (t g h : Nat) : State :=
  let src := g % 3072 * 2 ^ 20
  let dst := h % 3072 * 2 ^ 20
  [0, 1].foldl (fun a b =>
    let k := 32 * t + 2 * (g / 3072) + b
    let c := a.chan k
    let moved := (c.poisoned.filter (fun l => decide (l / 2 ^ 20 = g % 3072))).map (fun l => l - src + dst)
    let kept := c.poisoned.filter (fun l => !decide (l / 2 ^ 20 = h % 3072))
    ({ a with dram := copyRun a.dram (dramKey k src) (dramKey k dst) (2 ^ 20) } : State).setChan k { c with poisoned := kept ++ moved }) s

/-- 09 R249 step 4: the address map of a die with the page of frame (t, g) in frame `h`, its extent split. -/
def splitMap (l : List Amap) (t g h : Nat) : List Amap :=
  l.flatMap (fun a =>
    match a.frames.findIdx? (fun f => decide (f.2.1 = t) && decide (f.2.2 = g)) with
    | some i => a.split i (h % 3072)
    | none => [a])

/-- 09 R249 step 5: STR.RESUME to each context halted on a page of partition p. -/
def State.resumePage (s : State) (p page : Nat) : State :=
  s.ctxs.foldl (fun a x =>
    if decide (s.ctxPart x.1 = p) && decide (x.2.state = .halted) && decide (x.2.faultCode = 0x0601) &&
        decide (x.2.faultAddr.toNat / 2 ^ 21 = page) then strResume (ctxKey x.1) a
    else a) s

/-- 09 R249 steps 2 to 6: a page whose frame g of a tower is not present any more is moved into a free frame of the same pair; the old entry
keeps all but FT.JOB_PAGE. -/
def State.moveFrame (s : State) (t g h : Nat) : State :=
  let f := s.frame t g
  let s1 := s.copyFrame t g h
  let amaps : FMap Amap := (s.towersOf f.part.toNat).foldl (fun m d =>
    let l := ((List.range 1024).map (fun e => FMap.get {} m (1024 * d + e))).filter (fun a => a.valid)
    let l2 := splitMap l t g h
    (List.range 1024).foldl (fun m2 e => FMap.set {} m2 (1024 * d + e) (l2.getD e {})) m) s1.amaps
  ((({ s1 with amaps := amaps } : State).setFrame t h { f with touched := false, present := true }).resumePage f.part.toNat
    f.jobPage.toNat).setFrame t g { f with present := false, jobPage := 0 }

/-- 09 R249, 15 R416: the page of a retired frame is moved away, unless it is COW_PENDING, or its pair has no free frame. -/
def State.vacate (s : State) (index : Nat) : State :=
  let t := index / 49152
  let g := index % 49152
  let f := s.frame t g
  if !s.gh.retired.contains index || !f.present || decide (f.prot = .cowPending) then s
  else match s.freeFrame t g with
    | none => s
    | some h => (s.setFrame t g { f with present := false }).moveFrame t g h

/-- 15 R416: the data of each page that the loader places elsewhere in its pair, because the image lays it into a retired frame. -/
def State.carryPages (s : State) (p : Nat) (layout map : List (Amap × Bool)) : State :=
  (map.flatMap (fun a => a.1.frames)).foldl (fun a f =>
    match (layout.flatMap (fun x => x.1.frames)).find? (fun r => decide (r.1 = f.1)) with
    | none => a
    | some r =>
      let now := s.pageNow p r
      if decide (r.2 ≠ f.2) && decide (now ≠ f.2) && decide (now.1 = f.2.1) && decide (now.2 / 3072 = f.2.2 / 3072) then
        a.copyFrame f.2.1 now.2 f.2.2
      else a) s

/-- R119 step 5, R125 step 2: a variant of the loaded image takes the partition, whose cores begin step `first` next, at job start or
later; what an earlier run of such steps has reported is forgotten (R148). -/
def State.loadVariant (s : State) (p n : Nat) (first : BitVec 64) (start : Bool) : State :=
  let j := (s.part p).job
  let v := j.body.variants.getD n {}
  let img := s.imageMap p
  let map := (s.mapOf v j.quads img).getD []
  let s1 := ((s.joinUnits p (v.descr.units j.quads)).carryPages p (v.layout j.quads img) map).loadMaps p map
  let s2 := (s1.loadRoutes p j.body start).loadCores p j.quads v (j.latched.modes.getLsbD 0) (j.body.addrOf j.latched.imageMpa.toNat 0) first
    start
  (s2.enableCtxs j.quads v).modJob p (fun x => { x with variant := n, stepStatus := x.stepStatus.filter (fun e => decide (e.1 < first.toNat)) })

end Sys2Proof.Machine
end

