-- ==== Sys2Proof/Machine/JobOps.lean ====
section
/-! DEFINITION. Shared operations of the job control pages (11 R305 to R310): START and its refusals, stop steps, abort, clear,
epochs, the return of a partition to its step (12 R346). -/

namespace Sys2Proof.Machine

/-- 11 R310, R287: JCP.EPOCH written into every link die of a partition, and acknowledged. -/
def State.applyEpoch (s : State) (p : Nat) : State :=
  let v := (s.part p).jcp.epoch
  let s1 := (s.quadsOf p).foldl (fun a d => a.writeEpoch d v) s
  if (s1.part p).jcp.epochAck = v then s1
  else (s1.modJcp p (fun j => { j with epochAck := v })).jobEvent p 9

/-- R308, R309: the link dies of a partition return to epoch 0. -/
def State.dropEpoch (s : State) (p : Nat) : State :=
  let s1 := (s.quadsOf p).foldl (fun a d => a.writeEpoch d 0) s
  if (s1.part p).jcp.epochAck = 0 then s1
  else (s1.modJcp p (fun j => { j with epochAck := 0 })).jobEvent p 9

-- START -------------------------------------------------------------------------------------------------------------------

/-- START refused: REFUSED with a reason, and the record of a refusal that writes one. -/
def State.refuseStart (s : State) (p : Nat) (r : Nat × Option Report1) : State :=
  let idx := s.err.wr.toNat
  let s1 := match r.2 with
    | some x => (s.logError { x with action := 6, part := some p }).modJcp p (fun j => { j with failRec := BitVec.ofNat 64 idx })
    | none => s
  (s1.modJcp p (fun j => { j with reason := BitVec.ofNat 8 r.1 })).setJobState p .refused

/-- A refusal by LOADER_RULE (15 Table 15.3): the rule's number and a section's offset. -/
def loaderRule (rule : Nat) (off : Nat := 0) : Nat × Option Report1 := (0x0F, some { code := 0x0508, detail := rule, info := off })

/-- Table 05.3: the type of the section that a rule of the loader is about, 0 for the section table (log 33). -/
def ruleSection (rule : Nat) : Nat :=
  if [123].contains rule then 2
  else if [156, 159, 160, 161, 173].contains rule then 4
  else if rule = 126 then 5
  else if [146, 185, 241].contains rule then 8
  else if rule = 327 then 0xA
  else if [202, 203, 204, 210, 215, 216, 217, 281].contains rule then 0xB
  else if rule = 118 then 0
  else 3

/-- The offset of the section that a rule is about. -/
def ruleOffset (l : List Section) (rule : Nat) : Nat :=
  match l.find? (fun e => decide (e.type.toNat = ruleSection rule)) with | some e => e.offset.toNat | none => 0

/-- The header of the image that a page's latched fields name. -/
def State.imageHeader (s : State) (l : JcpLatched) : WvHeader := WvHeader.ofNat (ofBytes (s.mpaBytes l.imageMpa.toNat 128))

/-- R316: whether the store window of deep snapshots serves. -/
def State.sergeOk (s : State) (p : Nat) (l : JcpLatched) : Bool :=
  let w := s.window (bitsAt l.snapB.toNat 24 4)
  decide (bitsAt l.snapB.toNat 0 16 = 0) || (decide (w.state = .enabled) && decide (w.part.toNat = p) &&
    decide (w.size.toNat % 32 = 0) && decide (64 ≤ w.size.toNat))

/-- 09 R265: whether the far tier serves an image that uses it. -/
def State.farOk (s : State) (p : Nat) (h : WvHeader) : Bool :=
  !h.flags.getLsbD 2 || [0, 1].any (fun i => (s.cxlPort i).linkUp && decide (0 < (s.part p).jcp.quota i))

/-- The section table of the image that a page's latched fields name. -/
def State.imageSections (s : State) (l : JcpLatched) : List Section :=
  s.sections l.imageMpa.toNat (s.imageHeader l).sectionCount.toNat

/-- R119: the sections of the image that a page's latched fields name, for this module's share and a target. -/
def State.imageBody (s : State) (l : JcpLatched) (target : Nat) (b : ImageBody) : ImageBody :=
  s.readBody l.imageMpa.toNat (l.ident.toNat / 2 ^ 16) target (s.imageSections l) b

/-- The number of the first loader rule that an image breaks for a partition that would run a target. -/
def State.ruleBroken (s : State) (p : Nat) (l : JcpLatched) (h : WvHeader) (b : ImageBody) : Option Nat :=
  let q := (s.quadsOf p).length
  let secs := s.imageSections l
  firstBroken ([(118, sectionsBad h secs), (118, decide (b.variants.length ≠ h.variants.toNat)),
      (123, match b.variants with | [] => true | v :: _ => v.descr.excludesAny)] ++
    b.variants.flatMap (s.variantRules q l.imageMpa.toNat l.imageLen.toNat b) ++
    [(185, b.retained.any Retained.bad), (204, t0Bad b l.startStep)])

/-- 10 Table 10.9: the record of a port that refuses a job: VERSION or CABLING. -/
def State.portReport (s : State) (reason port : Nat) : Report1 :=
  { code := if reason = 2 then 0x0A09 else 0x0A08, kind := 7, unit := port, info := (s.port port).peerId.toNat }

/-- R119, R122, R124, R301, R304, R310, R316; 09 R265; 10 R285: why START is refused, in the order in which the model checks
(log 33): the reason and the record; or the target and the variant to load. -/
def State.startCheck (s : State) (p : Nat) (img : StartImage) : Except (Nat × Option Report1) (Nat × Nat) :=
  let j := (s.part p).jcp
  let l := j.latch
  let quads := s.quadsOf p
  let h := s.imageHeader l
  let blk := SigBlock.ofBytes (s.mpaBytes (l.imageMpa.toNat + 128) 8192) img.issuerMsg img.objectMsg
  let at' := l.imageMpa.toNat
  if s.mod.jcpVersion = 0 then .error (0x10, none)
  else if j.epoch = 0 then .error (0x0C, none)
  else if !(s.staged p at' l.imageLen.toNat) || (decide (l.reportLen ≠ 0) && !s.staged p l.reportMpa.toNat l.reportLen.toNat) then
    .error (0x0D, none)
  else if h.magic ≠ 0x56414557 then .error (0x01, none)
  else if !h.versionsOk then .error (0x02, none)
  else
    match s.fw.imageCheck (digestOf (s.mpaBytes at' 128)) blk with
    | some n => .error (0x03, some { code := 0x0E01, detail := n, info := blk.signerHash.toNat % 2 ^ 64 })
    | none =>
      if digestOf (s.mpaBytes (at' + sectionTableOff) (64 * h.bodyLen.toNat)) ≠
          BitVec.ofNat 256 (ofBytes (s.mpaBytes (at' + 64) 32)) then .error (0x04, none)
      else if decide (l.reportLen ≠ 0) && decide (digestOf (s.mpaBytes l.reportMpa.toNat l.reportLen.toNat) ≠
          BitVec.ofNat 256 (ofBytes (s.mpaBytes (at' + 96) 32))) then .error (0x05, none)
      else
        match h.targetOf quads with
        | none => .error (0x06, none)
        | some t =>
          if !h.targets.getLsbD t then .error (0x07, none)
          else
            let body := s.imageBody l t img.body
            let refuse (n : Nat) : Nat × Option Report1 := loaderRule n (ruleOffset (s.imageSections l) n)
            match s.ruleBroken p l h body with
            | some n => .error (refuse n)
            | none =>
              if tiedBad body then .error (0x09, none)
              else
                match selectVariant body s.gh quads with
                | none => .error (0x08, some { code := 0x0507, detail := s.gh.fencedIn quads })
                | some v =>
                  let vb := body.variants.getD v {}
                  if (s.mapOf vb quads (imageExtents body.imagePage.toNat at' l.imageLen.toNat)).isNone then .error (refuse 416)
                  else if decide (l.reportLen ≠ 0) && ringless vb then .error (refuse 146)
                  else if !s.farOk p h then .error (0x0B, none)
                  else if !s.sergeOk p l then .error (0x0E, none)
                  else
                    match s.portsBad body vb quads h.klpMinVer with
                    | some (reason, port) => .error (reason, some (s.portReport reason port))
                    | none => .ok (t, v)

/-- The job that START begins. -/
def State.newJob (s : State) (p : Nat) (img : StartImage) (target : Nat) : Job :=
  let l := (s.part p).jcp.latch
  let h := s.imageHeader l
  { latched := l, header := h, headDigest := digestOf (s.mpaBytes l.imageMpa.toNat 128), body := s.imageBody l target img.body
    loaded := true, quads := s.quadsOf p, target := target, report := img.report,
    reportLoaded := decide (l.reportLen ≠ 0), stepIrqBase := l.startStep - 1,
    cursor := l.startStep * BitVec.ofNat 64 img.body.mbCount,
    restore := if l.restoreId = 0 then none else some { fetch := { id := l.restoreId } } }

/-- 08 R218: the contributor records take their initial contents from the image. -/
def State.initCrs (s : State) (p : Nat) : State :=
  (List.range (s.body p).crs.length).foldl (fun a i => a.setJobNat p (a.crAddr p i) 16 ((a.body p).crs.getD i 0).toNat) s

/-- 07 R192, R197: what the image's memory map places in job memory at job start. -/
def State.placeContents (s : State) (p : Nat) : State :=
  (s.body p).placed.foldl (fun a x => a.jobWrite (a.someTower p) x.1 x.2) s

/-- R305: START takes effect: LOADING, the checks, the variant and the routes loaded; a restore raises LD.EPOCH first (R310). -/
def State.startJob (s : State) (p : Nat) (img : StartImage) : State :=
  let s0 := s.setJobState p .loading
  match s0.startCheck p img with
  | .error r => s0.refuseStart p r
  | .ok (t, v) =>
    let j := s0.newJob p img t
    let s1 := s0.modPart p (fun k => { k with
      job := j, jcp := { k.jcp with imageId := j.header.imageId, step := j.latched.startStep - 1, reason := 0 } })
    let s2 := ((((s1.loadVariant p v j.latched.startStep true).initCrs p).placeContents p).recastFrozen p).openCatalogue p
    if j.latched.restoreId = 0 then s2 else s2.applyEpoch p

-- Commands ----------------------------------------------------------------------------------------------------------------

/-- R307: H, the highest RPT.STEP among a partition's cores. -/
def State.highStep (s : State) (p : Nat) : BitVec 64 :=
  s.cores.foldl (fun a x => if s.partOfCore x.1 = p && decide (a < x.2.report.step) then x.2.report.step else a) 0

/-- R307: the highest step that a core of a partition has begun, if any. -/
def State.highBegun (s : State) (p : Nat) : Option (BitVec 64) :=
  s.cores.foldl (fun a x =>
    if s.partOfCore x.1 = p && (x.2.report.inStep || x.2.report.ended) then
      match a with | some b => if b < x.2.report.step then some x.2.report.step else a | none => some x.2.report.step
    else a) none

/-- R307: the stop step of a PAUSE or STOP. -/
def State.stopAt (s : State) (p : Nat) (st : JobState) : State :=
  let h := s.highStep p
  let e := (s.part p).jcp.endStep
  (s.modJob p (fun j => { j with stopStep := some (if h < e then h else e), stopSnap := false })).setJobState p st

/-- 15 R408, 11 R308: what ABORT does to a partition before its engines are idle. -/
def State.abortJob (s : State) (p : Nat) : State :=
  let s1 := (((s.abandonPart p).clearReduction p).abandonSnap p 0).abandonFlash p
  let s2 := s1.modJob p (fun j => { j with waitingCmds := [], restore := none, serge := [], snapDue := none })
  (s2.dropEpoch p).setJobState p .aborting

/-- 12 Table 12.9: CAT.HOLD. -/
def State.catHold (s : State) (p : Nat) : Nat :=
  match s.plan p with
  | some x => s.jobNat p (x.catalogue.toNat + 8) 4
  | none => 0

/-- The cores of a partition's running variant enabled (11 Table 11.7a). -/
def State.enableCores (s : State) (p : Nat) : State :=
  let j := (s.part p).job
  (List.range (128 * j.quads.length)).foldl (fun a b =>
    let c := physCore j.quads b
    if j.body'.descr.coreExcl.getLsbD b || a.gh.fenced 1 c || a.gh.fenced 3 (c / 16) then a
    else a.modCore c (fun k => { k with ctrl := { k.ctrl with enable := true }, pendCtrl := none })) s

/-- 06: the contexts of a core, or of a bulk mover. -/
def UnitRef.hasCtx (x : UnitRef) (k : Nat) : Bool :=
  match x.kind.toNat with
  | 1 => decide (k < 3072) && decide (k / 6 = x.index.toNat)
  | 5 => decide (4096 ≤ k) && decide ((k - 4096) / 4 = x.index.toNat)
  | _ => false

/-- 15 R413: the contexts of a partition's running variant that a test of their unit has left DISABLED are enabled again, once the test
has passed. -/
def State.returnCtxs (s : State) (p : Nat) : State :=
  let j := (s.part p).job
  j.body'.streams.foldl (fun a x =>
    let k := physCtx j.quads x.ctx
    let y := a.ctx k
    if decide (y.state = .disabled) && !a.gh.disabled.any (fun u => u.hasCtx k) then a.setCtx k { y with enable := true, state := .idle }
    else a) s

/-- Whether every core that runs a partition's job has ended a step. -/
def State.allEnded (s : State) (p : Nat) (step : BitVec 64) : Bool :=
  (s.jobCores p).all (fun c =>
    let r := (s.core c).report
    (r.ended && decide (step ≤ r.step)) || (!r.inStep && !r.ended && decide (step < r.step)))

/-- R306: RESUME: cores begin the step after the stop step; a job that has reached JCP.END_STEP goes on to its end (R307). CAT.HOLD
returns to 0 after a rollback that has ended. -/
def State.resumeJob (s : State) (p : Nat) : State :=
  let s1 := if s.catHold p = 3 then s.setCatHold p 0 else s
  let s2 := (((s1.modJob p (fun j => { j with stopStep := none })).enableCores p).returnCtxs p).setJobState p .running
  let e := (s.part p).jcp.endStep
  if decide (s.highBegun p = some e) && s.allEnded p e then s2.stopAt p .stopping else s2

/-- R309: CLEAR begins: the frame tables and address maps of the partition's towers are invalid. -/
def State.clearJob (s : State) (p : Nat) : State :=
  let mine (t : Nat) : Bool := decide (s.partOfTower t = p)
  let s1 : State := { s with
    amaps := s.amaps.filter (fun x => !mine (x.1 / 1024 % 32)), frames := s.frames.filter (fun x => !mine (x.1 / 49152 % 32)) }
  (s1.dropEpoch p).setJobState p .clearing

/-- A command that has been accepted takes effect. -/
def State.runCmd (s : State) (p : Nat) (c : JobCmd) (img : StartImage) : State :=
  match c with
  | .start => s.startJob p img
  | .pause => s.stopAt p .pausing
  | .resume => s.resumeJob p
  | .stop => s.stopAt p .stopping
  | .abort => s.abortJob p
  | .clear => s.clearJob p

/-- Table 11.7: whether a command is accepted. -/
def State.accepts (s : State) (p : Nat) (c : JobCmd) : Bool :=
  let k := s.part p
  let v11 := decide ((s.mod.jcpVersion &&& 0xFF) ≠ 0)
  s.mod.ready && match c, k.jcp.state with
  | .start, .idle => true
  | .pause, .running => v11
  | .resume, .paused => v11
  | .stop, .running | .stop, .pausing | .stop, .paused => true
  | .abort, .loading | .abort, .running | .abort, .pausing | .abort, .paused | .abort, .stopping => true
  | .clear, .done | .clear, .failed | .clear, .refused => true
  | _, _ => false

/-- 15 R414: whether a test of a unit of a partition runs. -/
def State.testing (s : State) (p : Nat) : Bool := s.gh.running.any (fun t => t.2.part = some (BitVec.ofNat 2 p))

/-- 14 R396: whether a quadrant of a partition takes an update. -/
def State.activatingIn (s : State) (p : Nat) : Bool :=
  match s.fw.activating with | some q => decide (s.partOfQuad q = p) | none => false

/-- 15 R418: whether a unit of a partition that returns from a fence has yet to pass its test. -/
def State.returnTest (s : State) (p : Nat) : Bool :=
  (s.gh.queue ++ s.gh.running.map Prod.snd).any (fun t => decide (t.code = 0x0F06) && decide (t.part = some (BitVec.ofNat 2 p)))

/-- R318; 14 R396; 15 R410, R414: whether an accepted command waits; a START also for the test of a unit that returns from a fence
(15 R418), a RESUME for the end of a rollback hold, whose step is not one that cores could go on from (12 R345, log 34). -/
def State.cmdWaits (s : State) (p : Nat) (c : JobCmd) : Bool :=
  let w := (s.part p).power
  decide (w.state ≠ .run) || w.moving.isSome || (match c with
    | .start => s.testing p || s.activatingIn p || s.returnTest p
    | .resume => (s.part p).job.hold || s.testing p || s.gh.queue.any (fun t => t.deferred && decide (t.part = some (BitVec.ofNat 2 p)))
    | _ => false)

/-- R318: a partition in a deeper state that a command waits for begins its wake. -/
def State.wakeFor (s : State) (p : Nat) : State :=
  let w := (s.part p).power
  if w.moving.isSome || decide (w.state = .run) then s
  else s.modPart p (fun k => { k with power := { w with moving := some .run } })

/-- The place of the first command that waits but for a RESUME that a rollback hold keeps (log 34). -/
def Job.nextCmd (j : Job) : Option Nat := j.waitingCmds.findIdx? (fun x => !(j.hold && decide (x.1 = .resume)))

/-- R306: a command written to a page. -/
def State.jobCommand (s : State) (p : Nat) (c : JobCmd) (img : StartImage) : State :=
  if !s.accepts p c then s.modJcp p (fun j => { j with cmdRefused := true })
  else
    let s1 := s.modJcp p (fun j => { j with lastCmd := c.code })
    if s1.cmdWaits p c || (s1.part p).job.nextCmd.isSome then
      (s1.modJob p (fun j => { j with waitingCmds := j.waitingCmds ++ [(c, img)] })).wakeFor p
    else s1.runCmd p c img

/-- The first command that waits takes effect once nothing holds it back; one whose state has gone by then is refused. -/
def State.retryFirst (s : State) (p : Nat) : State :=
  let l := (s.part p).job.waitingCmds
  match (s.part p).job.nextCmd with
  | none => s
  | some i =>
    let (c, img) := l.getD i (.stop, {})
    if s.cmdWaits p c then s
    else
      let s1 := s.modJob p (fun x => { x with waitingCmds := l.eraseIdx i })
      if s1.accepts p c then s1.runCmd p c img else s1.modJcp p (fun x => { x with cmdRefused := true })

/-- The commands of a partition that wait take effect in their order (log 109). -/
def State.retryCmd (s : State) (p : Nat) : State := (s.part p).job.waitingCmds.foldl (fun a _ => a.retryFirst p) s

/-- Every partition's waiting command tries again. -/
def State.retryCmds (s : State) : State := (List.range 4).foldl (fun a p => a.retryCmd p) s

-- Return to a step --------------------------------------------------------------------------------------------------------

/-- A queue inside the partition with no tile in it and a credit for each of its slots; a queue to or from another module is
left as it is (log 96). -/
def Endpoint.emptied (depth : Nat → Nat → Nat) (x : Endpoint) : Endpoint :=
  let y : Endpoint := { x with edges := x.edges.map (fun d =>
    if d.link.isSome then d else { d with credits := depth d.dstCore d.dstEp.toNat }) }
  if x.srcLink.isSome then y
  else { y with tiles := [], spill := [], spilled := false, markers := [], closed := [], lastFreed := none, lastSeq := none }

/-- A core that has left a step unfinished (15 Table 15.8), between steps again: what its lists have not issued is dropped, its
queues are empty, and its OPEN and SPILLED slots hold tiles that no list names (log 96). -/
def Core.dropStep (k : Core) (depth : Nat → Nat → Nat) : Core :=
  { k with
    faultStop := false, passFault := false, spilled := [], shadow := [], active := [], anchors := [], pass := none
    drain := none, eps := k.eps.map (fun x => (x.1, x.2.emptied depth))
    arrivals := k.arrivals.filter (fun a => (k.ep a.ep.toNat).srcLink.isSome)
    creditsIn := k.creditsIn.filter (fun a => (k.ep a.ep).edges[a.edge]?.any (fun d => d.link.isSome))
    own := [], ownCredits := []
    lists := { k.lists with floor := k.lists.nextSerial, ops := [], vecs := [], drains := [], insts := [], plPending := none, plIndex := 0, arms := [] } }

/-- 12 R346 step 6, R352 step 5: the cores of a partition are set to a step, which they begin next, and the data-order cursor
follows (07 R180). -/
def State.setStep (s : State) (p : Nat) (step : BitVec 64) : State :=
  let s1 := s.modCoresOf p (fun k => { k.dropStep (fun c e => ((s.core c).ep e).depth.toNat) with
    report := { k.report with step := step, ended := false, inStep := false } })
  s1.modJob p (fun j => { j with
    cursor := step * BitVec.ofNat 64 j.body.mbCount, genParts := [], opened := none
    stepStatus := j.stepStatus.filter (fun e => decide (e.1 < step.toNat)), portSent := [] })

/-- 12 R346 step 2, Table 12.5: REJOIN sent to every member of group 0, this module included. -/
def State.sendRejoin (s : State) (p : Nat) (step : BitVec 64) : State :=
  let ms := (List.range 4096).filter (fun m => (s.route p 0 m).valid)
  ms.foldl (fun a m => a.sendCtl p (BitVec.ofNat 12 m) (Ctl.snap 0x20 step 0)) s

/-- 12 R346: a partition that has withdrawn rejoins at its step S_j: REJOIN goes out, and the die controllers set its cores to
that step and enable them. -/
def State.rejoinNow (s : State) (p : Nat) : State :=
  match (s.part p).job.withdrawn with
  | none => s
  | some j => (((s.sendRejoin p j).setStep p j).enableCores p).returnCtxs p

/-- 05 R125: whether a physical tower holds state of a partition's job: a page of its snapshot plan, which lists the job's state (12 R324), or,
without a plan, a page that the job may write (DEDUCED, log 111). -/
def State.holdsState (s : State) (p t : Nat) : Bool :=
  match s.plan p with
  | some x => x.pages.any (fun e => match s.translate (s.someTower p) (2 ^ 21 * e.page.toNat) with
    | some pl => decide (pl.tower = t)
    | none => false)
  | none => (s.part p).job.body'.extents.any (fun e =>
      !e.ro && ((e.amap (s.part p).job.quads).frames.any (fun f => decide (f.2.1 = t))))

/-- 05 R125, 15 R418: a partition at a step boundary takes the variant that its fences leave: in place, from the next step or,
withdrawn, with a rejoin (12 R346); else through a rollback hold; with no variant the job stops. `first` is the step that its
cores begin next. -/
def State.changeVariant (s : State) (p : Nat) (cause : BitVec 32) (first : BitVec 64) : State :=
  let j := (s.part p).job
  let s0 := s.modJob p (fun x => { x with reselect := none })
  match selectVariant j.body s.gh j.quads with
  | none =>
    s0.programFault { code := 0x0507, detail := s.gh.fencedIn j.quads, part := some p } 0x08
  | some n =>
    if n = j.variant then s0.rejoinNow p
    else
      let new := j.body.variants.getD n {}
      let held := (List.range (8 * j.quads.length)).any (fun t =>
        s.gh.fenced 3 (physTowerOf j.quads t) && !j.body'.descr.towerExcl.getLsbD t && s.holdsState p (physTowerOf j.quads t))
      let policy1 := decide (bitsAt j.latched.modes.toNat 2 2 = 1)
      if !new.descr.inPlace || held || (j.withdrawn.isSome && policy1) then s0.rollbackHold p cause.toNat
      else
        let s1 := (s0.loadVariant p n first false).enableCores p
        match j.withdrawn with
        | some st => ((s1.sendRejoin p st).setStep p st).enableCores p
        | none => s1

end Sys2Proof.Machine
end

