-- ==== Sys2Proof/Machine/Host.lean ====
section
/-! DEFINITION. The host interface (11): the function's reset, BAR2, versions, the partition layout, job commands and their
completion, epochs, events, store windows, quotas; and the change of a placement variant (05 R125). -/

namespace Sys2Proof.Machine

-- Store windows -----------------------------------------------------------------------------------------------------------

/-- R315: the accepted requests of a context to window `w` that have not been sent fault with HOST_WINDOW, at the side that names the
window. -/
def State.abandonWindowReq (s : State) (w : Nat) (k : CtxKey) : State :=
  (List.range (s.ctx k.val).issued.length).foldl (fun a i =>
    let x := a.ctx k.val
    match x.issued[i]? with
    | some r =>
      if r.waitsWindow x.desc.kind w && !r.sent then
        (if inWindow r.addr w then a.faultReq k.val i 0x0605 r.addr.toNat else a.faultReq k.val i 0x0605 r.dst.toNat true)
      else a
    | none => a) s

/-- R315: the accepted requests to window `w` of contexts that are not named have been sent to the host. -/
def State.sendOthers (s : State) (w : Nat) (unsent : List CtxKey) : State :=
  s.ctxs.foldl (fun a x =>
    if unsent.any (fun k => decide (k.val = x.1)) then a
    else (List.range x.2.issued.length).foldl (fun b i =>
      if (match x.2.issued[i]? with | some r => r.waitsWindow x.2.desc.kind w | none => false) then b.hostSend x.1 i else b) a) s

/-- R315: a window is asked to disable: drain, or abandon, in which the requests that have not been sent fault: those of the contexts
given; what another context has there the hub sends in that cycle. A second request in abandon mode turns a drain into an abandon
(15 R421). -/
def State.disableWindow (s : State) (w : Nat) (abandon : Bool) (unsent : List CtxKey) : State :=
  let x := s.window w
  match x.state with
  | .disabled => s
  | _ =>
    let ab := if x.state = .disabling then x.abandon || abandon else abandon
    let s1 := s.setWindow w { x with state := .disabling, enable := false, abandon := ab }
    let s2 := if ab then (unsent.foldl (fun a k => a.abandonWindowReq w k) s1).sendOthers w unsent else s1
    s2.settleWindows

/-- SW_ENABLE (R314): a write of SW.ENABLE = 1; refused while DISABLING (15 R421). -/
def swEnable (w : Fin 16) (s : State) : State :=
  let x := s.window w.val
  if x.state = .disabled then s.setWindow w.val { x with state := .enabled, enable := true } else s

/-- SW_DISABLE (R315): a write of SW.ENABLE = 0, with SW.MODE; `unsent` are the contexts whose request the hub has not sent. -/
def swDisable (w : Fin 16) (abandon : Bool) (unsent : List CtxKey) (s : State) : State :=
  (s.setWindow w.val { s.window w.val with mode := abandon }).disableWindow w.val abandon unsent

-- The function ------------------------------------------------------------------------------------------------------------

/-- FUNCTION_LEVEL_RESET (R296): every partition that is not IDLE gets an ABORT, the host-side registers that the rule names take their
reset values, windows are abandoned. CAP.JCP_VERSION, which the rule does not name, stays (log 35). -/
def functionLevelReset (unsent : List (Fin 16 × CtxKey)) (s : State) : State :=
  let s1 := (List.range 4).foldl (fun a p =>
    match (a.part p).jcp.state with | .idle => a | .notLead => a | _ => a.jobCommand p .abort {}) s
  let s2 := (List.range 4).foldl (fun a p => a.modJcp p (fun j => { j with eventEn := 0 })) s1
  let s3 := ({ s2 with mod := { s2.mod with bar2Base := 0, bar2Part := 0, bar2En := false, hostMaxVersion := 0, eventEn := 0 } } :
    State).settleMsix
  (List.range 16).foldl (fun a w => a.disableWindow w true ((unsent.filter (fun u => decide (u.1.val = w))).map Prod.snd)) s3

/-- R300: whether a quadrant's memory can be reached: neither in reset nor in Retain or Standby; an access during an entry waits
for the entry to end (16 R427). -/
def State.memoryOn (s : State) (q : Nat) : Bool :=
  let w := (s.part (s.partOfQuad q)).power
  let deep (x : PState) : Bool := match x with | .retain => true | .standby => true | _ => false
  !s.mod.inReset.getLsbD q && !deep w.state && !(match w.moving with | some d => deep d | none => false)

/-- R300: the place that an offset of BAR2 names, where an access of the host to it is served. -/
def State.bar2Place (s : State) (off : BitVec 36) : Option Place :=
  (mpaPlace (s.mod.bar2Base.toNat / 2 ^ 21 * 2 ^ 21 + off.toNat)).filter (fun pl =>
    s.mod.bar2En && decide (s.partOfTower pl.tower = s.mod.bar2Part.toNat) && s.memoryOn (quadOfTower pl.tower) && decide (pl.frame < 3070))

/-- 01 R33, R35: whether an access through BAR2 waits: its channel's clock is stopped. -/
def State.bar2Held (s : State) (off : BitVec 36) : Bool :=
  match s.bar2Place off with
  | some pl => s.chanStopped pl.channel
  | none => false

/-- R300: an access of the host to the place that its module physical address names, none where it is refused. -/
def State.bar2Serve (s : State) (act : MemAct) (f : LineFound) : Option Place → State
  | none => s.bar2Refuse act
  | some pl =>
    let p := s.mod.bar2Part.toNat
    s.arrive pl.channel { src := .host, part := BitVec.ofNat 2 p, page := (s.frame pl.tower pl.g).jobPage, frame := pl.g,
                               addr := pl.chanAddr, act := act } f

/-- R299, R300: an access within one line at a BAR2 offset: a read of up to 64 bytes, or a write. A read's data
leaves on the host link. Behind one that a channel has refused with RETRY it waits in the hub (09 R248, R297). -/
def State.bar2Apply (s : State) (off : BitVec 36) (act : MemAct) (f : LineFound) : State :=
  s.bar2Serve act f (s.bar2Place off)

/-- BAR2_ACCESS (R297, R299, R300): an access through BAR2, in its turn. -/
def bar2Access (off : BitVec 36) (act : MemAct) (f : LineFound) (s : State) : State :=
  if s.hostBlocked || s.bar2Held off then s.hostWaits (.bar2Access off act f) else s.bar2Apply off act f

/-- HOST_MAX_VERSION_WRITE (R301). -/
def hostMaxVersionWrite (v : BitVec 32) (s : State) : State :=
  let free := (List.range 4).all (fun p => match (s.part p).jcp.state with | .idle => true | .notLead => true | _ => false)
  if !free then s
  else
    let major := bitsAt v.toNat 8 8
    let minor := bitsAt v.toNat 0 8
    let n : Nat := if major = 1 then 0x100 + (if minor < 1 then minor else 1) else 0
    { s with mod := { s.mod with hostMaxVersion := v, jcpVersion := BitVec.ofNat 16 n } }

-- Partitions --------------------------------------------------------------------------------------------------------------

/-- The quadrants that a layout gives to partition p. -/
def layoutQuads (v : BitVec 8) (p : Nat) : List Nat := (List.range 4).filter (fun q => bitsAt v.toNat (2 * q) 2 = p)

/-- R302, 01 R26: whether a layout is legal: each partition bears the number of its lowest quadrant and has a legal set. -/
def layoutLegal (v : BitVec 8) : Bool :=
  (List.range 4).all (fun p =>
    match layoutQuads v p with
    | [] => true
    | [q] => decide (q = p)
    | [a, b] => decide (a = p) && (decide (a + b = 1) || decide (a + b = 5 ∧ a = 2) || decide (b = a + 2))
    | [a, _, _, _] => decide (a = p)
    | _ => false)

/-- 14 R397: whether a layout would join quadrants that run different firmware sets. -/
def State.setsDiffer (s : State) (v : BitVec 8) : Bool :=
  (List.range 4).any (fun p => match layoutQuads v p with
    | [] => false
    | q :: t => t.any (fun r => decide ((s.fw.quadSets.get {} r).digest ≠ (s.fw.quadSets.get {} q).digest)))

/-- R302: the state of a page when its partition number has quadrants, or has none. -/
def State.setLead (s : State) (p : Nat) (lead : Bool) : State :=
  match (s.part p).jcp.state, lead with
  | .notLead, true => s.setJobState p .idle
  | .notLead, false => s
  | _, true => s
  | _, false => s.modJcp p (fun j => { j with state := .notLead })

/-- LAYOUT (R302): every gate that must close has closed; the others open, CFG_BUSY clears, the LAYOUT event. -/
def layoutDone (s : State) : State :=
  if !s.mod.cfgBusy || s.gatesToClose then s
  else
    let s1 := s.openGates
    ({ s1 with mod := { s1.mod with cfgBusy := false } } : State).modEvent 2

-- Commands ----------------------------------------------------------------------------------------------------------------

/-- START (R305, R119). -/
def jobStart (p : PartId) (img : StartImage) (s : State) : State := s.jobCommand p.val .start img
/-- PAUSE (R307). -/
def jobPause (p : PartId) (s : State) : State := s.jobCommand p.val .pause {}
/-- RESUME (R306). -/
def jobResume (p : PartId) (s : State) : State := s.jobCommand p.val .resume {}
/-- STOP (R307). -/
def jobStop (p : PartId) (s : State) : State := s.jobCommand p.val .stop {}
/-- ABORT (R308). -/
def jobAbort (p : PartId) (s : State) : State := s.jobCommand p.val .abort {}
/-- CLEAR (R309). -/
def jobClear (p : PartId) (s : State) : State := s.jobCommand p.val .clear {}

/-- JOB_ENABLE_COMPLETE (R305, Table 11.7a): with the checks and any restore done, LD.EPOCH is JCP.EPOCH in every link die, every
core is enabled: RUNNING. -/
def jobEnableComplete (p : PartId) (s : State) : State :=
  let k := s.part p.val
  if k.jcp.state = .loading && k.job.restore.isNone then
    ((s.applyEpoch p.val).enableCores p.val).setJobState p.val .running
  else s

/-- STOP_STEP_REACHED (R307): every core has ended the stop step and no copy is in flight: PAUSED, or DONE, before which
JCP.SNAP_AT_STOP asks for the snapshot point of the stop step. -/
def stopStepReached (p : PartId) (s : State) : State :=
  let k := s.part p.val
  match k.job.stopStep with
  | none => s
  | some h =>
    let rides := match k.job.snap with | some r => !r.ride.isEmpty && decide (h ≤ r.step) | none => false
    if !s.allEnded p.val h || k.job.snapDue.isSome then s
    else if rides then s.abandonSnap p.val 0
    else if k.job.snap.isSome then s
    else
      match k.jcp.state with
      | .pausing => s.setJobState p.val .paused
      | .stopping =>
        let held := match k.job.newest with | some n => decide (n.step = h) | none => false
        if k.job.latched.modes.getLsbD 4 && !k.job.stopSnap && !held && (s.plan p.val).isSome then
          s.modJob p.val (fun j => { j with snapDue := some h })
        else s.setJobState p.val .done
      | _ => s

/-- END_STEP_WRITE (R307, 00 R13): a write of JCP.END_STEP, or (`half`) of one of its words; one that lowers it below a step begun takes
effect as a STOP, and one at the step that every core has just ended ends the job. -/
def endStepWrite (p : PartId) (half : Option Bool) (w : BitVec 64) (s : State) : State :=
  let k := s.part p.val
  let v := write64 k.jcp.endStep half w
  let s1 := s.modJcp p.val (fun j => { j with endStep := v })
  match s.highBegun p.val, k.jcp.state with
  | some h, .running =>
    if v < h || decide (v = h ∧ s.allEnded p.val h = true) then s1.stopAt p.val .stopping else s1
  | some h, .pausing => if v < h then s1.stopAt p.val .stopping else s1
  | some h, .paused => if v < h then s1.stopAt p.val .stopping else s1
  | _, _ => s1

/-- Whether a context has work. -/
def StrState.busy : StrState → Bool
  | .running | .serialWait | .halting | .disabling => true
  | _ => false

/-- Whether an engine or context of a partition has work in flight. -/
def State.partBusy (s : State) (p : Nat) : Bool :=
  s.cores.any (fun x => decide (s.partOfCore x.1 = p) && (x.2.pass.isSome || x.2.drain.isSome)) ||
    s.ctxs.any (fun x => decide (s.ctxPart x.1 = p) && x.2.state.busy)

/-- ABORT_COMPLETE (R308): every engine and context is idle: FAILED with ABORTED. -/
def abortComplete (p : PartId) (s : State) : State :=
  let j := (s.part p.val).jcp
  if j.state = .aborting && !s.partBusy p.val then
    (s.modJcp p.val (fun x => { x with reason := 0x20 })).setJobState p.val .failed
  else s

/-- CLEAR_COMPLETE (R309): the partition's frames read zero, its far pages are returned, its page is at its reset values but for
JCP.EVENT_EN and JCP.LAT_TOL_US: IDLE. -/
def clearComplete (p : PartId) (s : State) : State :=
  let k := s.part p.val
  if k.jcp.state ≠ .clearing then s
  else
    let mine (chan : Nat) : Bool := decide (s.partOfTower (chan / 32) = p.val)
    let s1 : State := { s with
      dram := s.dram.filter (fun x => !mine (x.1 / 2 ^ 32) || decide (3070 ≤ x.1 % 2 ^ 32 / 2 ^ 20))
      channels := s.channels.foldl (fun m x => if mine x.1 then FMap.set {} m x.1 { x.2 with
        poisoned := x.2.poisoned.filter (fun a => decide (3070 ≤ a / 2 ^ 20)) } else m) s.channels
      cxl := s.cxl.foldl (fun m x => FMap.set {} m x.1 { x.2 with used := x.2.used.filter (fun u => decide (u.part ≠ p.val)) }) s.cxl }
    let s2 := s1.modPart p.val (fun q => { q with
      jcp := { state := .clearing, eventEn := q.jcp.eventEn, latTolUs := q.jcp.latTolUs }
      job := {}, partner := [], far := [], evict := none, unreach := [] })
    (s2.settleMsix.setJobState p.val .idle).retryAllFar

/-- EPOCH_WRITE (R310, 12 R348, R353): a write of JCP.EPOCH: refused, stored, or applied in every link die and acknowledged; in a
rollback hold with RB.VALID = 1 it begins the rollback. -/
def epochWrite (p : PartId) (v : BitVec 32) (s : State) : State :=
  let k := s.part p.val
  let refuse := s.modJcp p.val (fun j => { j with epochRefused := true })
  if v ≤ k.jcp.epoch then refuse
  else
    let s1 := s.modJcp p.val (fun j => { j with epoch := v })
    let deep := match k.power.state with | .retain => true | .standby => true | _ => false
    match k.jcp.state with
    | .aborting | .clearing | .notLead => refuse
    | .loading => if k.job.latched.restoreId ≠ 0 then s1.applyEpoch p.val else s1
    | .running | .pausing | .stopping => if deep then s1 else s1.applyEpoch p.val
    | .paused =>
      if deep then s1
      else
        let s2 := s1.applyEpoch p.val
        match s2.plan p.val with
        | some x =>
          if k.job.hold && decide (s2.catHold p.val = 1) && decide (s2.jobNat p.val (x.catalogue.toNat + 0x1008) 4 % 2 = 1) then
            let r : Restore := { fetch := { id := BitVec.ofNat 64 (s2.jobNat p.val (x.catalogue.toNat + 0x1000) 8) }, rollback := true }
            (s2.setCatHold p.val 2).modJob p.val (fun j => { j with restore := some r })
          else s2
        | none => s2
    | _ => if deep then s1.modJob p.val (fun j => { j with raised := true }) else s1

-- Events, acknowledgements, tolerances ------------------------------------------------------------------------------------

/-- EVENT_ENABLE_WRITE (R311): a write of JCP.EVENT_EN of a partition, or of MOD.EVENT_EN; a vector whose OR rises sends. -/
def eventEnableWrite (p : Option PartId) (v : BitVec 11) (s : State) : State :=
  match p with
  | some q =>
    let j := (s.part q.val).jcp
    let j1 : Jcp := { j with eventEn := v }
    let s1 := s.modJcp q.val (fun _ => j1)
    ((List.range 8).foldl (fun a i =>
      if jcpOr j q.val (8 * q.val + i) = false && jcpOr j1 q.val (8 * q.val + i) = true then a.sendMsix (8 * q.val + i) else a) s1).settleMsix
  | none =>
    let m := s.mod
    let s1 : State := { s with mod := { m with eventEn := v.setWidth 4 } }
    ((List.range 4).foldl (fun a i =>
      if m.eventStatus.getLsbD i && !m.eventEn.getLsbD i && v.getLsbD i then a.sendMsix (32 + i) else a) s1).settleMsix

/-- 12 R342, Table 11.8: the Serge snapshots whose last segment JCP.PERSIST_ACK covers commit, their flash slots are no longer pinned,
and the SNAPSHOT event is raised. -/
def State.commitSerge (s : State) (p : Nat) : State :=
  let k := s.part p
  let got (r : SergeRun) : Bool := decide (r.first + BitVec.ofNat 64 r.total ≤ k.jcp.persistAck)
  let s1 := s.modJob p (fun j => { j with serge := j.serge.filter (fun r => !got r) })
  (k.job.serge.filter got).foldl (fun a r => (a.setCatEntry p r.cat r.id r.step 3 0 2).jobEvent p 10) s1

/-- PERSIST_ACK_WRITE (R317, 12 R342, 00 R13): a write of JCP.PERSIST_ACK, or (`half`) of one of its words. -/
def persistAckWrite (p : PartId) (half : Option Bool) (w : BitVec 64) (s : State) : State :=
  let j := (s.part p.val).jcp
  let v := write64 j.persistAck half w
  if v < j.persistAck || decide (j.segWritten < v) then s.modJcp p.val (fun x => { x with ackRefused := true })
  else (s.modJcp p.val (fun x => { x with persistAck := v })).commitSerge p.val

/-- LAT_TOL_WRITE (R318, 16 R426, R427). -/
def latTolWrite (p : PartId) (v : BitVec 32) (s : State) : State :=
  (s.modJcp p.val (fun j => { j with latTolUs := v })).retarget p.val

/-- FAR_QUOTA_WRITE (R319): refused where the quotas of all partitions on the port would exceed its device pages. -/
def farQuotaWrite (p : PartId) (port : Fin 2) (v : BitVec 32) (s : State) : State :=
  let x := s.cxlPort port.val
  let pages := if x.linkUp then x.pages else 0
  let others := ((List.range 4).map (fun q => if q = p.val then 0 else (s.part q).jcp.quota port.val)).sum
  if pages < others + v.toNat then s.modJcp p.val (fun j => { j with quotaRefused := true })
  else
    (s.modJcp p.val (fun j => if port.val = 0 then { j with farQuota0 := v } else { j with farQuota1 := v })).retryFar p.val

-- Variants ----------------------------------------------------------------------------------------------------------------

/-- VARIANT_CHANGE (05 R124, R125, 15 R418): at a step boundary of a running or paused partition, or once it has withdrawn, the
fence that asked for it has the variant selected again. A boundary is where every core has ended the partition's step and begun none after
it. While a unit that returns from a fence has yet to pass its test, no variant is selected (15 R418). -/
def variantChange (p : PartId) (s : State) : State :=
  let k := s.part p.val
  let live := match k.jcp.state with | .running | .pausing | .paused | .stopping => true | _ => false
  match k.job.reselect with
  | none => s
  | some cause =>
    let between := (s.jobCores p.val).all (fun c => !(s.core c).report.inStep && decide ((s.core c).report.next = k.jcp.step + 1))
    if !live || k.job.hold || !(between || k.job.withdrawn.isSome) || s.returnTest p.val then s
    else s.changeVariant p.val cause (k.jcp.step + 1)

/-- FUNCTION_LEVEL_RESET. -/
def execFunctionLevelReset (unsent : List (Fin 16 × CtxKey)) (s : State) : Host.Outcome State Fault Refusal :=
  .next (functionLevelReset unsent s)
/-- BAR2_ACCESS. -/
def execBar2Access (off : BitVec 36) (act : MemAct) (f : LineFound) (s : State) : Host.Outcome State Fault Refusal :=
  .next (bar2Access off act f s)
/-- HOST_MAX_VERSION_WRITE. -/
def execHostMaxVersionWrite (v : BitVec 32) (s : State) : Host.Outcome State Fault Refusal :=
  .next (s.inTurn (.hostMaxVersionWrite v) (hostMaxVersionWrite v))
/-- LAYOUT. -/
def execLayoutDone (s : State) : Host.Outcome State Fault Refusal := .next (layoutDone s)
/-- START. -/
def execJobStart (p : PartId) (img : StartImage) (s : State) : Host.Outcome State Fault Refusal :=
  .next (s.inTurn (.jobStart p img) (jobStart p img))
/-- JOB_ENABLE_COMPLETE. -/
def execJobEnableComplete (p : PartId) (s : State) : Host.Outcome State Fault Refusal := .next (jobEnableComplete p s)
/-- PAUSE. -/
def execJobPause (p : PartId) (s : State) : Host.Outcome State Fault Refusal := .next (s.inTurn (.jobPause p) (jobPause p))
/-- RESUME. -/
def execJobResume (p : PartId) (s : State) : Host.Outcome State Fault Refusal := .next (s.inTurn (.jobResume p) (jobResume p))
/-- STOP. -/
def execJobStop (p : PartId) (s : State) : Host.Outcome State Fault Refusal := .next (s.inTurn (.jobStop p) (jobStop p))
/-- STOP_STEP_REACHED. -/
def execStopStepReached (p : PartId) (s : State) : Host.Outcome State Fault Refusal := .next (stopStepReached p s)
/-- END_STEP_WRITE. -/
def execEndStepWrite (p : PartId) (w : WordWrite) (s : State) : Host.Outcome State Fault Refusal :=
  .next (s.inTurn (.endStepWrite p w) (endStepWrite p w.half w.value))
/-- ABORT. -/
def execJobAbort (p : PartId) (s : State) : Host.Outcome State Fault Refusal := .next (s.inTurn (.jobAbort p) (jobAbort p))
/-- ABORT_COMPLETE. -/
def execAbortComplete (p : PartId) (s : State) : Host.Outcome State Fault Refusal := .next (abortComplete p s)
/-- CLEAR. -/
def execJobClear (p : PartId) (s : State) : Host.Outcome State Fault Refusal := .next (s.inTurn (.jobClear p) (jobClear p))
/-- CLEAR_COMPLETE. -/
def execClearComplete (p : PartId) (s : State) : Host.Outcome State Fault Refusal := .next (clearComplete p s)
/-- EPOCH_WRITE. -/
def execEpochWrite (p : PartId) (v : BitVec 32) (s : State) : Host.Outcome State Fault Refusal :=
  .next (s.inTurn (.epochWrite p v) (epochWrite p v))
/-- EVENT_ENABLE_WRITE. -/
def execEventEnableWrite (p : Option PartId) (v : BitVec 11) (s : State) : Host.Outcome State Fault Refusal :=
  .next (s.inTurn (.eventEnableWrite p v) (eventEnableWrite p v))
/-- SW_ENABLE. -/
def execSwEnable (w : Fin 16) (s : State) : Host.Outcome State Fault Refusal := .next (s.inTurn (.swEnable w) (swEnable w))
/-- SW_DISABLE. -/
def execSwDisable (w : Fin 16) (abandon : Bool) (unsent : List CtxKey) (s : State) : Host.Outcome State Fault Refusal :=
  .next (s.inTurn (.swDisable w abandon unsent) (swDisable w abandon unsent))
/-- PERSIST_ACK_WRITE. -/
def execPersistAckWrite (p : PartId) (w : WordWrite) (s : State) : Host.Outcome State Fault Refusal :=
  .next (s.inTurn (.persistAckWrite p w) (persistAckWrite p w.half w.value))
/-- LAT_TOL_WRITE. -/
def execLatTolWrite (p : PartId) (v : BitVec 32) (s : State) : Host.Outcome State Fault Refusal :=
  .next (s.inTurn (.latTolWrite p v) (latTolWrite p v))
/-- FAR_QUOTA_WRITE. -/
def execFarQuotaWrite (p : PartId) (port : Fin 2) (v : BitVec 32) (s : State) : Host.Outcome State Fault Refusal :=
  .next (s.inTurn (.farQuotaWrite p port v) (farQuotaWrite p port v))
/-- VARIANT_CHANGE. -/
def execVariantChange (p : PartId) (s : State) : Host.Outcome State Fault Refusal := .next (variantChange p s)

end Sys2Proof.Machine
end

