-- ==== Sys2Proof/Machine/SnapOps.lean ====
section
/-! DEFINITION. Shared operations of snapshots: packets, the copy side, the holder's slots, flash and Serge (12). -/

namespace Sys2Proof.Machine

/-- The link die that a partition's module controller sends by. -/
def State.homeQuad (s : State) (p : Nat) : BitVec 2 := BitVec.ofNat 2 ((s.quadsOf p).headD 0)

/-- R331: a snapshot packet put at its source. -/
def State.sendSn (s : State) (quad : BitVec 2) (dst : BitVec 12) (h : Sn) (data : List Byte) : State :=
  { s with txq := s.txq ++ [{ quad := quad, cls := 4, dst := dst, payload := h.bytes ++ data }] }

/-- R331: the bytes of a page, or of a manifest, as packets of 2,048 bytes; `chunked` numbers a manifest's 2 MiB chunks. -/
def State.sendPieces (s : State) (quad : BitVec 2) (dst : BitVec 12) (h : Sn) (chunked : Bool) (bs : List Byte) : State :=
  (List.range (ceilDiv bs.length 2048)).foldl (fun a n =>
    let off := 2048 * n
    let h1 : Sn := { h with offset := BitVec.ofNat 21 (off % 2 ^ 21), index := if chunked then BitVec.ofNat 27 (off / 2 ^ 21) else h.index }
    a.sendSn quad dst h1 ((bs.drop off).take 2048)) s

/-- The bytes of a job page. -/
def State.pageBytes (s : State) (p page : Nat) : List Byte := s.jobBytes (s.someTower p) (2 ^ 21 * page) (2 ^ 21)
/-- The state with bytes written at a job address by the module controller or the partner-region writer: a posted write, which faults, is
held or clears poison as any does (09 R240, R245, R247, R255). -/
def State.putBytes (s : State) (p addr : Nat) (bs : List Byte) : State := s.jobPost p addr bs
/-- The place of a job page. -/
def State.pagePlace (s : State) (p page : Nat) : Option Place := s.translate (s.someTower p) (2 ^ 21 * page)
/-- A function applied to the Muslin copy in progress. -/
def State.modSnap (s : State) (p : Nat) (f : SnapRun → SnapRun) : State := s.modJob p (fun j => { j with snap := j.snap.map f })

/-- The members of group 0 that have a valid route (R333). -/
def State.jobMembers (s : State) (p : Nat) : List Nat := (List.range 4096).filter (fun m => (s.route p 0 m).valid)

-- The copy side -----------------------------------------------------------------------------------------------------------

/-- R323: why a snapshot that falls due is skipped, numbered as the cases of R323. -/
def Job.skipReason (j : Job) : Option Nat :=
  let free := match j.newest with
    | none => true
    | some n => n.complete && (match j.flash with
        | some f => decide (f.fetch.id = n.id) || f.fetch.ended.isSome
        | none => true)
  if j.snap.isSome then some 1 else if !free then some 2 else if j.partnerLost then some 3 else none

/-- R323: a snapshot skipped: SNAP_SKIPPED and CAT.SKIPPED. -/
def State.skipSnap (s : State) (p reason : Nat) (step : BitVec 64) : State :=
  let s1 := s.logError { code := 0x0C01, detail := reason, info := step.toNat, part := some p }
  match s1.plan p with
  | some x =>
    let a := x.catalogue.toNat + 0xC
    s1.postJobNat p a 4 ((s1.jobNat p a 4 + 1) % 2 ^ 32)
  | none => s1

/-- Table 12.2: JS.LIVE of a group for a step: the members live now, and those that rejoin by then (R346), whose number in group 0 the
rejoin names. -/
def State.liveBits (s : State) (p g : Nat) (step : BitVec 64) : Nat :=
  (List.range 4096).foldl (fun a m =>
    let e := s.route p g m
    if e.live || (e.valid && (s.part p).job.rejoins.any (fun r => s.sameModule p g m 0 r.1.toNat && decide (r.2 ≤ step))) then a + 2 ^ m
    else a) 0

/-- Table 12.2: bytes 0 to 256 KiB - 1 of a job page zeroed; they alternate between the channels of its pair (09 R242). -/
def State.zeroBlock (s : State) (p page : Nat) : State :=
  match s.pagePlace p page with
  | none => s
  | some pl => { s with dram := s.dram.filter (fun x =>
      !(decide (x.1 / 2 ^ 33 = pl.channel / 2) && decide (x.1 % 2 ^ 32 / 2 ^ 20 = pl.frame) && decide (x.1 % 2 ^ 20 < 2 ^ 17))) }

/-- R325, Table 12.2: the job state block written for a step, its reserved bytes zero. -/
def State.writeJobState (s : State) (p page : Nat) (step : BitVec 64) : State :=
  let j := (s.part p).job
  let a := 2 ^ 21 * page
  let s1 := ((s.zeroBlock p page).setJobNat p a 8 step.toNat).setJobNat p (a + 8) 8 ((step + 1) * BitVec.ofNat 64 j.body.mbCount).toNat
  let s2 := (s1.setJobNat p (a + 0x10) 8 j.latched.seed.toNat).setJobNat p (a + 0x18) 8 j.header.imageId.toNat
  let s3 := (s2.setJobNat p (a + 0x20) 4 (s.part p).jcp.epoch.toNat).setJobNat p (a + 0x24) 4 (j.variant % 16)
  (List.range 256).foldl (fun b g => b.setJobNat p (a + 0x1000 + 512 * g) 512 (s.liveBits p g (step + 1))) s3

/-- R328 step 2: a state page's frame write-protected. -/
def State.protectPage (s : State) (p page : Nat) : State :=
  match s.pagePlace p page with
  | none => s
  | some pl => s.setFrame pl.tower pl.g { s.frame pl.tower pl.g with prot := .cowPending, touched := false }

/-- The frame of a job page becomes RW, and what was held for it is applied (R329, R334). -/
def State.freePage (s : State) (p page : Nat) : State :=
  match s.pagePlace p page with
  | none => s
  | some pl => s.writeFrame pl.tower pl.g { s.frame pl.tower pl.g with prot := .rw }

/-- R334: the frames not begun that may ride become RW and are handed to the ride; step S + 1 is marked in every core. -/
def State.handOver (s : State) (p : Nat) (begun : List Nat) : State :=
  match (s.part p).job.snap, s.plan p with
  | some r, some x =>
    if r.queue.isEmpty || decide ((s.part p).job.rideStep = some (r.step + 1)) then s
    else
      let rides (i : Nat) : Bool := !begun.contains i && (match x.pages[i]? with | some e => e.ride | none => false)
      let taken := r.queue.filter rides
      let r1 : SnapRun := { r with queue := r.queue.filter (fun i => !rides i), ride := r.ride ++ taken }
      let s1 := s.modJob p (fun j => { j with snap := some r1, rideStep := some (r.step + 1) })
      let s2 := taken.foldl (fun a i => match x.pages[i]? with | some e => a.freePage p e.page.toNat | none => a) s1
      s2.modCoresOf p (fun k => if k.report.inStep && decide (k.report.step = r.step + 1) then k.rptSet (fun q => { q with snapshot := true }) else k)
  | _, _ => s

/-- R325, R328, R333 step 1: a Muslin snapshot begins. -/
def State.openSnap (s : State) (p : Nat) (x : SnapPlan) (page0 : Nat) (step : BitVec 64) : State :=
  let k := s.part p
  let slot := match k.job.newest with | some n => 1 - n.slot | none => 0
  let id := k.jcp.epoch.setWidth 64 <<< 32 ||| (step.setWidth 32).setWidth 64
  let queue := (List.range x.pages.length).filter (fun i => match x.pages[i]? with | some e => !e.frozen | none => false)
  let s1 := s.writeJobState p page0 step
  let s2 := queue.foldl (fun a i => match x.pages[i]? with | some e => a.protectPage p e.page.toNat | none => a) s1
  let run : SnapRun := { id := id, step := step, slot := slot, epoch := k.jcp.epoch, variant := k.job.variant, queue := queue }
  let s3 := (s2.modJob p (fun j => { j with snap := some run })).setCatEntry p slot id step 1 slot 1
  let s4 := s3.sendCtl p (s.partnerOf p) (Ctl.snap 0x10 id (slot * 2 ^ 112 + x.pages.length * 2 ^ 113))
  if k.job.latched.budget = 0 then s4.handOver p [] else s4

/-- R337: the header and the entries of the manifest of a copy. -/
def State.manifestOf (s : State) (p : Nat) (x : SnapPlan) (r : SnapRun) : List Byte :=
  let j := (s.part p).job
  let m : Mf := { id := r.id, step := r.step, imageId := j.header.imageId, epoch := r.epoch, pages := BitVec.ofNat 32 x.pages.length,
                  member := s.selfOf p, share := (j.latched.ident >>> 16).setWidth 16, variant := BitVec.ofNat 4 r.variant,
                  sigLen := if x.sign then 8192 else 0 }
  bytesOf m.toNat 128 ++ (List.range x.pages.length).flatMap (fun i =>
    let e := x.pages.getD i {}
    let d : BitVec 256 := if e.frozen then digestOf (s.pageBytes p e.page.toNat) else BitVec.ofNat 256 (ofBytes (r.digests.get [] i))
    let me : Me := { digest := d, page := e.page.toNat, frozen := e.frozen, ride := r.rode.contains i, jobState := decide (i = 0) }
    bytesOf me.toNat 48)

/-- R333 step 3, R338: once every page has been sent and every ride digest has come, the manifest and SNAP_SEAL go out. -/
def State.trySeal (s : State) (p : Nat) : State :=
  match (s.part p).job.snap, s.plan p with
  | some r, some x =>
    if !r.queue.isEmpty || !r.ride.isEmpty || r.sealed then s
    else
      let body := s.manifestOf p x r
      let m := if x.sign then body ++ s.fw.identityBlock s.freeCounter .manifest (digestOf body) else body
      let s0 : State := if x.sign then { s with freeCounter := s.freeCounter + 1 } else s
      let s1 := s0.modSnap p (fun q => { q with sealed := true, manifest := m })
      let h : Sn := { id := r.id, kind := 1, slot := BitVec.ofNat 1 r.slot, member := s.selfOf p }
      (s1.sendPieces (s.homeQuad p) (s.partnerOf p) h true m).sendCtl p (s.partnerOf p) (Ctl.snap 0x11 r.id (m.length * 2 ^ 108))
  | _, _ => s

/-- R333: the newest snapshot is job-complete once SNAP_DONE has come from every member with a valid route. -/
def State.checkComplete (s : State) (p : Nat) : State :=
  let j := (s.part p).job
  match j.newest, s.plan p with
  | some n, some x =>
    if !n.complete && (s.jobMembers p).all (fun m => j.snapDone.any (fun d => decide (d.1 = n.id) && decide (d.2.toNat = m))) then
      (s.modJob p (fun y => { y with newest := some { n with complete := true },
                                     snapDone := y.snapDone.filter (fun d => decide (d.1 ≠ n.id)) })).postJobNat p x.catalogue.toNat 8 n.step.toNat
    else s
  | _, _ => s

-- Flash and Serge -----------------------------------------------------------------------------------------------------------

/-- R341 step 1: a flash snapshot of a committed Muslin snapshot begins, or is skipped (R323, R347): FETCH is sent with the pin bit. The
slot that it will take keeps what it holds until the partner's slot is pinned. In a fenced area none is begun (15 R415). -/
def State.beginFlash (s : State) (p : Nat) (r : SnapRun) (number : Nat) : State :=
  if (s.part p).job.partnerLost then s.skipSnap p 3 r.step
  else if s.flashFenced p then s.skipSnap p 4 r.step
  else match (s.part p).job.flash, s.freeFlash p with
  | none, some slot =>
    let f : FlashRun := { fetch := { id := r.id, manifest := r.manifest, begun := true }, step := r.step, number := number, slot := slot }
    (s.modJob p (fun j => { j with flash := some f })).sendCtl p (s.partnerOf p)
      (Ctl.snap 0x18 r.id (2 ^ 85 + manifestPages r.manifest * 2 ^ 86))
  | _, _ => s.skipSnap p 4 r.step

/-- R339, 13 R373: before the first page of a flash snapshot is written, its slot's commit record is zeroed and its intent record
written. -/
def State.openFlash (s : State) (p : Nat) (f : FlashRun) : State :=
  if f.opened then s
  else (((s.setFlash f.slot 0 (List.replicate 64 0)).setFlash f.slot 2048 (bytesOf (intentRecord f.fetch.id f.step f.slot p) 64)).modJob p
    (fun j => { j with flash := some { f with opened := true } })).setCatEntry p (2 + f.slot) f.fetch.id f.step 2 f.slot 1

/-- A flash snapshot is given up; a slot that it has not touched keeps its copy. -/
def State.dropFlash (s : State) (p : Nat) (f : FlashRun) : State :=
  let s1 := s.modJob p (fun j => { j with flash := none })
  if f.opened then s1.setCatEntry p (2 + f.slot) f.fetch.id f.step 2 f.slot 0 else s1

/-- Table 12.9: the catalogue's entry for a new Serge snapshot: one without a copy, else that of the oldest (log 28). -/
def State.sergeEntry (s : State) (p : Nat) : Nat :=
  let word (i : Nat) : Nat := match s.plan p with | some x => s.jobNat p (x.catalogue.toNat + 0x40 + 32 * i) 32 | none => 0
  let l := [10, 13, 14, 15].filter (fun i => !(s.part p).job.serge.any (fun r => decide (r.cat = i)))
  match l.find? (fun i => decide (bitsAt (word i) 118 2 ≠ 2)) with
  | some i => i
  | none => l.foldl (fun a i => if bitsAt (word i) 128 64 < bitsAt (word a) 128 64 then i else a) (l.headD 10)

/-- R342: a Serge snapshot of a flash snapshot begins, its segments after those of the ones under way; it is skipped while the partner is
unreachable (R347). -/
def State.beginSerge (s : State) (p : Nat) (f : FlashRun) (pages : Nat) : State :=
  let k := s.part p
  if k.job.partnerLost then s.skipSnap p 3 f.step
  else if s.flashFenced p then s.skipSnap p 4 f.step
  else
    let first := match k.job.serge.getLast? with | some r => r.first + BitVec.ofNat 64 r.total | none => k.jcp.segWritten
    let r : SergeRun := { id := f.fetch.id, step := f.step, slot := f.slot, first := first, total := ceilDiv pages 32 + 1, pages := pages,
                          cat := s.sergeEntry p }
    (s.modJob p (fun j => { j with serge := j.serge ++ [r] })).setCatEntry p r.cat r.id r.step 3 0 1

/-- R342: segment number `i` of a Serge snapshot. -/
def State.segmentBytes (s : State) (r : SergeRun) (i : Nat) : List Byte :=
  if i + 1 < r.total then
    let n := min 32 (r.pages - 32 * i)
    s.flashBytes r.slot (headerArea + 32 * i * 2 ^ 21) (2 ^ 21 * n) ++ List.replicate ((32 - n) * 2 ^ 21) 0
  else
    let c : Cm := (s.flashCm r.slot).getD {}
    let c1 : Cm := { c with tier := 3, seq := s.sergeSeq + 1 }
    bytesOf c1.toNat 64 ++ (s.flashBytes r.slot 64 (headerArea - 64) ++ List.replicate headerArea 0)

-- The holder --------------------------------------------------------------------------------------------------------------

/-- A slot of a partition's partner region. -/
def State.held (s : State) (p k : Nat) : PartnerSlot := (s.part p).partner.get {} k
/-- The state with a slot of a partner region replaced. -/
def State.setHeld (s : State) (p k : Nat) (x : PartnerSlot) : State := s.modPart p (fun q => { q with partner := q.partner.set {} k x })

/-- The slot of a snapshot that has been opened and not committed. -/
def State.openSlot (s : State) (p : Nat) (id : BitVec 64) (member : BitVec 12) : Option Nat :=
  [0, 1].find? (fun k => (s.held p k).opened && decide ((s.held p k).id = id) && decide ((s.held p k).member = member))

/-- R333 step 4: whether every page that is not frozen and the whole manifest of a slot are written. -/
def State.slotFull (s : State) (p k : Nat) (x : SnapPlan) : Bool :=
  let h := s.held p k
  match h.sealLen with
  | none => false
  | some len =>
    let m := s.jobBytes (s.someTower p) (x.slotBase k + manifestOff) len
    decide (len ≤ h.manifestGot) && (List.range h.pages).all (fun i => (manifestEntry m i).frozen || decide (2 ^ 21 ≤ h.got.get 0 i))

/-- R333 step 4, R339: a full slot gets its commit record, and SNAP_COMMITTED goes to the module. -/
def State.tryCommit (s : State) (p k : Nat) : State :=
  match s.plan p with
  | none => s
  | some x =>
    let h := s.held p k
    if !h.opened || !s.slotFull p k x then s
    else
      let m := s.jobBytes (s.someTower p) (x.slotBase k + manifestOff) (h.sealLen.getD 0)
      match Mf.ofBytes m with
      | none => s
      | some f =>
        let seq := (s.held p 0).seq + 1
        let c : Cm := { id := h.id, step := f.step, digest := digestOf m, pages := BitVec.ofNat 32 h.pages, seq := seq, tier := 1,
                        slot := BitVec.ofNat 4 k, signed := decide (f.sigLen ≠ 0), ride := !h.rides.isEmpty }
        let s1 := s.putBytes p (x.slotBase k) (bytesOf c.toNat 64)
        -- R339: CM.SEQ counts the commits into both slots of the area
        let s1' := (s1.setHeld p (1 - k) { s.held p (1 - k) with seq := seq }).setHeld p k { h with opened := false, committed := true, seq := seq }
        let s2 := s1'.setCatEntry p (11 + k) h.id f.step 4 k 2
        s2.sendCtl p h.member (Ctl.snap 0x12 h.id 0)

/-- Bytes of a page written in a slot; `ride` where they came by the ride. -/
def State.placePiece (s : State) (p k : Nat) (x : SnapPlan) (h : Sn) (ride : Bool) (bs : List Byte) : State :=
  let i := h.index.toNat
  let b := s.held p k
  if b.pages ≤ i then s
  else
    let s1 := s.putBytes p (x.slotBase k + headerArea + 2 ^ 21 * i + h.offset.toNat) bs
    s1.setHeld p k { b with got := FMap.set 0 b.got i (b.got.get 0 i + bs.length), rides := if ride && !b.rides.contains i then b.rides ++ [i] else b.rides }

-- Restore -----------------------------------------------------------------------------------------------------------------

/-- A page of a fetch: the piece that comes next in it appended, and the page when it is whole. What a FETCH sent again brings once more
is passed over. -/
def FetchRun.take (f : FetchRun) (i off : Nat) (bs : List Byte) : FetchRun × Option (List Byte) :=
  let l := f.got.get [] i ++ bs
  if off ≠ (f.got.get [] i).length || f.placed.contains i || f.bad.contains i then (f, none)
  else if 2 ^ 21 ≤ l.length then ({ f with got := f.got.erase i }, some l) else ({ f with got := FMap.set [] f.got i l }, none)

/-- R350: the header area of a flash slot. -/
def State.flashHeader (s : State) (slot : Nat) (sig : Option (List Byte)) : HeaderArea :=
  let len := match Mf.ofBytes (s.flashBytes slot manifestOff 128) with | some m => m.size | none => 0
  { commit := BitVec.ofNat 512 (ofBytes (s.flashBytes slot 0 64)), manifest := s.flashBytes slot manifestOff len, sigMsg := sig }

/-- R350: the flash slot of a partition that holds a good copy of a snapshot. -/
def State.flashOf (s : State) (p : Nat) (id : BitVec 64) (sig : Option (List Byte)) : Option Nat :=
  (s.flashSlots p).find? (fun n => ((s.flashHeader n sig).good s.fw id 2).isSome)

/-- R351: whether a manifest is one that the partition may restore. -/
def State.restoreFits (s : State) (p : Nat) (r : Restore) (m : Mf) : Bool :=
  let j := (s.part p).job
  decide (m.imageId = j.header.imageId) && decide (m.member = s.selfOf p) && decide (m.share = (j.latched.ident >>> 16).setWidth 16) &&
    (r.rollback || decide (j.latched.startStep = m.step + 1))

/-- Whether a page's bytes match a manifest entry. -/
def Me.fits (e : Me) (bs : List Byte) : Bool := decide (bs.length = 2 ^ 21) && decide (digestOf bs = e.digest)

/-- RB.VALID written. -/
def State.clearTarget (s : State) (p : Nat) : State :=
  match s.plan p with
  | some x => s.postJobNat p (x.catalogue.toNat + 0x1008) 4 0
  | none => s

/-- R350, R351: a restore fails: a START is REFUSED by the rule, a rollback sets CAT.HOLD = 4. -/
def State.failRestore (s : State) (p rule : Nat) : State :=
  let roll := match (s.part p).job.restore with | some r => r.rollback | none => false
  let s1 := s.modJob p (fun j => { j with restore := none })
  if roll then (s1.setCatHold p 4).clearTarget p else s1.refuseStart p (loaderRule rule)

/-- R350: a page of a restore from the flash, else from the store window; none where neither yields it. -/
def State.restorePage (s : State) (p : Nat) (slot : Option Nat) (serge : List (List Byte)) (e : Me) (i : Nat) : Option State :=
  let fl := match slot with | some n => s.flashBytes n (headerArea + 2 ^ 21 * i) (2 ^ 21) | none => []
  let se := serge.getD i []
  if e.fits fl then some (s.putBytes p (2 ^ 21 * e.page) fl)
  else if e.fits se then some (s.putBytes p (2 ^ 21 * e.page) se)
  else none

/-- R350: the pages of a manifest that the Muslin tier has not placed, each from the next tier that yields it; frozen pages are
checked in place. The first page that fails ends it. -/
def State.restorePages (s : State) (p : Nat) (placed : List Nat) (slot : Option Nat) (serge : List (List Byte)) (m : List Byte) :
    List Nat → Except Nat State
  | [] => .ok s
  | i :: t =>
    let e := manifestEntry m i
    if e.frozen then
      if e.fits (s.pageBytes p e.page) then s.restorePages p placed slot serge m t else .error i
    else if placed.contains i then s.restorePages p placed slot serge m t
    else
      match s.restorePage p slot serge e i with
      | some s1 => s1.restorePages p placed slot serge m t
      | none => .error i

/-- R353, 05 R124: a rollback takes the variant that the fences leave; none stops the job with NO_VARIANT. -/
def State.reselectFor (s : State) (p : Nat) (id : BitVec 64) : Option State :=
  let j := (s.part p).job
  match selectVariant j.body s.gh j.quads with
  | none => none
  | some n => some ((s.modJob p (fun x => { x with reselect := none })).loadVariant p n ((id.setWidth 32).setWidth 64 + 1) false)

/-- R457: every writable far page of a partition that is present is marked not present, its device page returned without write-back; a
page still being filled keeps its device page. -/
def State.clearFar (s : State) (p : Nat) : State :=
  [0, 1].foldl (fun a port =>
    (a.cxlPort port).used.foldl (fun b u =>
      if u.part ≠ p then b
      else
        let f := b.ftt p port u.page
        if f.write && f.present then (b.setFtt p port u.page { f with present := false, dirty := false }).returnPage p port u.page else b) a) s

end Sys2Proof.Machine
end

