-- ==== Sys2Proof/Machine/ResetOps.lean ====
section
/-! DEFINITION. What a reset reaches and does (13 R354 to R357, 15 R414), and its episodes (13 R361, R362, R370). -/

namespace Sys2Proof.Machine

/-- 16 R423, 19 Table 19.3: whether the 12 V input is present. -/
def State.present12 (s : State) : Bool := !s.rst.absent12

-- Jobs and tests ----------------------------------------------------------------------------------------------------------

/-- 19 R465, 11 Table 11.8: the management controller posts a notice. -/
def State.postNotice (s : State) (n : MgmtNotice) : State := ({ s with notices := s.notices ++ [n] } : State).modEvent 1

/-- R356: the unit that a reset's record names: kind and index of Table 15.2, and its quadrant. -/
def Reach.unit : Reach → Nat × Nat × Nat
  | .island (.core c) => (1, c.val, c.val / 128)
  | .island (.mesh t) => (3, t.val, t.val / 8)
  | .island (.channel k) => (2, k.val, k.val / 256)
  | .island (.dieControl t) => (6, 2 * t.val, t.val / 8)
  | .island (.linkMesh d) => (8, d.val, d.val)
  | .island (.port p) => (7, p.val, p.val / 6)
  | .island (.linkControl d) => (6, 64 + 2 * d.val, d.val)
  | .die d => if d.val < 32 then (3, d.val, d.val / 8) else (8, d.val - 32, d.val - 32)
  | .quadrant q => (8, q.val, q.val)
  | _ => (9, 0, 0)

/-- R356: the job states that a reset of a unit leaves. -/
def JobState.settled : JobState → Bool
  | .idle | .notLead | .done | .failed | .refused => true
  | _ => false

/-- R356: what a reset does to the job of the partition it reaches; `src` are its sources as RST.STATUS lays them out. -/
def State.resetJob (s : State) (r : Reach) (src : Nat) : State :=
  let (kind, unit, q) := r.unit
  let p := s.partOfQuad q
  let rep : Report1 := { code := 0x0D01, kind := kind, unit := unit, detail := src, part := some p }
  if r.hub || (s.part p).jcp.state.settled then s
  else match r with
    | .quadrant _ =>
      let idx := s.err.wr.toNat
      let s1 := (((s.logError { rep with action := 4 }).abandonPart p).clearReduction p).abandonFlash p
      let s2 := s1.modJob p (fun j => { j with waitingCmds := [], restore := none, serge := [], snapDue := none })
      (s2.dropEpoch p).failJob p 0x28 idx
    | _ => s.hwError rep

/-- 15 Table 15.4: the kind of test of a unit; 0 where no test covers it. -/
def testKind (kind index : Nat) : Nat :=
  match kind with
  | 1 => 1 | 2 | 13 => 2 | 4 => 3 | 7 => 4 | 5 => 6 | 3 | 8 => 7
  | 6 => if index < 76 then 5 else 0
  | _ => 0

/-- 15 Table 15.2: a test's record: frames name their tower. -/
def Test.report (t : Test) (code detail info action : Nat) : Report1 :=
  let i := t.target.index.toNat
  { code := code, kind := t.target.kind.toNat, unit := if t.target.kind = 13 then i / 49152 else i,
    frame := if t.target.kind = 13 then i % 49152 else 0, detail := detail, info := info, action := action, part := t.part.map BitVec.toNat }

/-- Table 15.4's number for a test. -/
def Test.kind (t : Test) : Nat := testKind t.target.kind.toNat t.target.index.toNat

/-- R27, 11 Table 11.4: the quadrants that a running test of a bridge or of a mesh takes. -/
def UnitRef.quads (x : UnitRef) : List Nat :=
  let i := x.index.toNat
  match x.kind.toNat with
  | 3 => [i / 8]
  | 8 => [i]
  | 4 =>
    if 128 ≤ i then [(i - 128) / 8]
    else [i / 32, ((bridgeAcross (i / 4) (i % 4)).getD (i / 4)) / 8]
  | _ => []

/-- 11 Table 11.4: MOD.STATUS[15:12]: the quadrants in test or taking an update. -/
def State.settleQuiesced (s : State) : State :=
  let taken := s.fw.activating.toList ++ s.gh.running.flatMap (fun x => x.2.target.quads)
  let md : ModRegs := { s.mod with
    quiesced := BitVec.ofNat 4 ((List.range 4).foldl (fun a q => a + (if taken.contains q then 2 ^ q else 0)) 0) }
  { s with mod := md }

/-- 15 R414: the tests that a reset ends: of a unit that it reaches, or run by a cluster that it reaches, whose test runs again. -/
def State.abortTests (s : State) (r : Reach) : State :=
  let hit (x : Nat × Test) : Bool := r.hasUnit x.2.target || r.hasCluster x.1
  let gone := s.gh.running.filter hit
  let again := (gone.filter (fun x => !r.hasUnit x.2.target)).map Prod.snd
  let g : Gingham := { s.gh with
    running := s.gh.running.filter (fun x => !hit x), queue := again ++ s.gh.queue,
    reqState := if gone.any (fun x => x.2.host) then 5 else s.gh.reqState,
    disabled := s.gh.disabled.filter (fun x => !r.hasUnit x) }
  gone.foldl (fun a x => a.logError (x.2.report 0x0F03 x.2.kind x.2.cause.toNat 0)) ({ s with gh := g } : State).settleQuiesced

/-- 15 R414: a new test of each unit whose test a reset has ended, under the reset's RESET_UNIT record, whose index is `idx`, or, where it
wrote none, the cause as it was; a unit that the record itself has a test scheduled for gets no second one. -/
def State.repeatTests (s : State) (l : List Test) (idx : Option (BitVec 32)) : State :=
  l.foldl (fun a t =>
    if a.gh.queue.any (fun x => decide (x.target = t.target) && decide (x.code = 0x0D01)) then a
    else a.schedule { target := t.target, cause := idx.getD t.cause, code := if idx.isSome then 0x0D01 else t.code, part := t.part }) s

-- Crossings ---------------------------------------------------------------------------------------------------------------

/-- R34: the crossings between two islands at which the model holds what waits: from the mesh of a die into a core or a channel, from the
mesh of a link die into a port and back. What crosses a die bridge waits at the crossing of its receiver. -/
inductive Crossing where
  | core (c : Nat)
  | channel (k : Nat)
  | portOut (p : Nat)
  | portIn (p : Nat)
  deriving DecidableEq, Repr

/-- R34: the two islands of a crossing: the unit's and the mesh's. -/
def Crossing.sides : Crossing → Island × Island
  | .core c => (coreIsland c, meshIsland (c / 16))
  | .channel k => (channelIsland k, meshIsland (k / 32))
  | .portOut p | .portIn p => (.port (portOf p), linkIsland (p / 6))

/-- R34: the bytes of an entry of a crossing; none where the spec gives no entry size. -/
def Crossing.entryBytes : Crossing → Option Nat
  | .core _ => some 256
  | .channel _ => some 128
  | .portOut _ | .portIn _ => none

/-- R34: the entries of a crossing. -/
def Crossing.depth : Nat := 8

/-- R34: the entries that `n` bytes take at a crossing; a message without bytes takes one. -/
def Crossing.entriesOf (x : Crossing) (n : Nat) : Nat :=
  match x.entryBytes with
  | some b => max 1 ((n + b - 1) / b)
  | none => 1

/-- The bytes that a response brings. -/
def Answer.size : Answer → Nat
  | .data b => b.length
  | _ => 0

/-- The bytes that a request brings. -/
def MemAct.size : MemAct → Nat
  | .read _ => 0
  | .write b => b.length
  | .memside _ _ b => b.length

/-- R35: what a sender still holds for lack of credit when the first `n` entries at a crossing are discarded, and how many of these entries
the list does not fill; a message of which a part stood in the crossing goes with it. -/
def behind {α : Type} (size : α → Nat) (n : Nat) : List α → List α × Nat
  | [] => ([], n)
  | a :: t => if n = 0 then (a :: t, 0) else behind size (n - size a) t

/-- The response that waits, as entries of a crossing. -/
def Ctx.waitingEntries (x : Ctx) (g : Crossing) : Nat := (x.waiting.map (fun r => g.entriesOf r.answer.size)).sum

/-- R34, R35: the entries that wait at a crossing, in the order they came: what has been sent and the receiver has not taken. -/
def State.waitingAt (s : State) (g : Crossing) : Nat :=
  match g with
  | .core c =>
    let k := s.core c
    (k.arrivals.map (fun a => g.entriesOf a.bytes.length)).sum + k.creditsIn.length +
      ((List.range 6).map (fun i => (s.ctx (6 * c + i)).waitingEntries g)).sum
  | .channel k => ((s.chan k).refused.map (fun r => g.entriesOf r.act.size)).sum
  | .portOut p => (s.port p).queue.length
  | .portIn p => (s.port p).received.length

/-- R34: the entries that stand in the crossing itself; the rest its sender holds for lack of credit, and nothing is lost (R35). -/
def State.crossingHeld (s : State) (g : Crossing) : Nat := min Crossing.depth (s.waitingAt g)

/-- R35: whether a crossing is open: neither side is in reset. -/
def State.crossingOpen (s : State) (g : Crossing) : Bool :=
  !s.rst.episodes.any (fun e => e.holds g.sides.1 || e.holds g.sides.2)

/-- R34, R35: the credit that the sender has; a crossing that a reset has emptied reopens with full credit when both sides run. -/
def State.crossingCredit (s : State) (g : Crossing) : Nat := if s.crossingOpen g then Crossing.depth - s.crossingHeld g else 0

/-- The unit of Table 15.2 of either side of a crossing. -/
def Crossing.units : Crossing → (Nat × Nat) × (Nat × Nat)
  | .core c => ((1, c), (3, c / 16))
  | .channel k => ((2, k), (3, k / 32))
  | .portOut p | .portIn p => ((7, p), (8, p / 6))

/-- R35: the crossings of the module. -/
def allCrossings : List Crossing :=
  (List.range 512).map .core ++ (List.range 1024).map .channel ++ (List.range 24).map .portOut ++ (List.range 24).map .portIn

/-- R22: whether what goes from tower `a` to tower `t` comes there over the bridge from tower `u`. -/
def comesOver (u t a : Nat) : Bool := decide (((dieRoute a t).reverse.drop 1).head? = some u)

/-- The tower that a request at a channel came from; none for the host and the module controller. -/
def ReqSrc.tower : ReqSrc → Option Nat
  | .stream k _ _ _ => some (ctxTower k)
  | .port c => some (c / 16)
  | _ => none

/-- R35: the entries on their way from tower `u` over a die bridge to tower `t`, which wait there at the crossings of its cores and
channels: tiles, markers, credits and memory requests. -/
def State.bridgeWaiting (s : State) (u t : Nat) : Nat :=
  ((List.range 16).map (fun n =>
    let c := 16 * t + n
    let k := s.core c
    (k.arrivals.map (fun a => match (k.ep a.ep.toNat).src with
      | some (p, _, _) => if comesOver u t (p / 16) then (Crossing.core c).entriesOf a.bytes.length else 0
      | none => 0)).sum +
    (k.creditsIn.filter (fun x => match (k.ep x.ep).edges[x.edge]? with
      | some d => comesOver u t (d.dstCore / 16)
      | none => false)).length)).sum +
  ((List.range 32).map (fun n => (((s.chan (32 * t + n)).refused.filter (fun r => match r.src.tower with
      | some a => comesOver u t a
      | none => false)).map (fun r => (Crossing.channel (32 * t + n)).entriesOf r.act.size)).sum)).sum

/-- R25, R35: the die bridges of which a reset reaches one side, as the bridge port of the surviving tower and what it was sending. -/
def State.bridgesLost (s : State) (r : Reach) : List (Nat × Nat × Nat) :=
  (List.range 32).flatMap (fun t => (List.range 4).filterMap (fun side =>
    match bridgeAcross t side with
    | some u => if r.hasIsland (meshIsland t) && !r.hasIsland (meshIsland u) then some (4, 4 * u + (side + 2) % 4, s.bridgeWaiting u t) else none
    | none => none))

/-- R35: the crossings of which a reset reaches one side, as the surviving unit and how many entries are discarded: those that stand in the
crossing. Control clusters are reached over the register network, at which nothing waits. -/
def State.crossings (s : State) (r : Reach) : List (Nat × Nat × Nat) :=
  (allCrossings.filter (fun g => r.hasIsland g.sides.1 != r.hasIsland g.sides.2)).map (fun g =>
    let u := if r.hasIsland g.sides.1 then g.units.2 else g.units.1
    (u.1, u.2, s.crossingHeld g)) ++ s.bridgesLost r

/-- R35: whether a reset reaches the mesh side of a crossing alone: the crossing is emptied, its unit runs on. -/
def Reach.emptiesOnly (r : Reach) (g : Crossing) : Bool := r.hasIsland g.sides.2 && !r.hasIsland g.sides.1

/-- R35: whether a reset reaches the unit's side of a crossing alone: the mesh holds what it could not put into the crossing. -/
def Reach.leavesMesh (r : Reach) (g : Crossing) : Bool := r.hasIsland g.sides.1 && !r.hasIsland g.sides.2

-- The hardware ------------------------------------------------------------------------------------------------------------

/-- R355: a core after a reset: every register at its reset value, its stores undefined (Table 13.2). -/
def Core.reset (k : Core) : Core := { stores := { epoch := k.stores.epoch + 1 } }

/-- 16 R425: a core whose island loses its supply without a reset: what a reset would leave, but for CORE.ARITH_STATUS and CORE.WUF_COUNT,
which a write or a reset alone clears (02 R65), a debug halt asked or in force (18 R459), and the RWL fields of its report, which keep
their locks (00 R15) and with them their values. -/
def Core.unpowered (k : Core) : Core :=
  { k.reset with arith := k.arith, wufCount := k.wufCount, ctrl := { enable := k.reset.ctrl.enable, haltReq := k.wantCtrl.haltReq },
                 report := { logLocked := k.report.logLocked, baseLocked := k.report.baseLocked,
                             logBase := k.report.logBase, logSize := k.report.logSize } }

/-- R34: the entries ahead of number `n` at a core's crossing. -/
def Core.ahead (k : Core) (c n : Nat) : Nat :=
  ((k.arrivals.filter (fun a => decide (a.ord < n))).map (fun a => (Crossing.core c).entriesOf a.bytes.length)).sum +
    k.creditsIn.countP (fun a => decide (a.ord < n))

/-- R35, R355: a core after a reset that leaves its die's mesh running: what stood in the crossing is gone, the mesh holds the rest. -/
def Core.resetAlone (c : Nat) (k : Core) : Core :=
  { k.reset with arrivals := k.arrivals.filter (fun a => decide (Crossing.depth ≤ k.ahead c a.ord))
                 creditsIn := k.creditsIn.filter (fun a => decide (Crossing.depth ≤ k.ahead c a.ord)), crossed := k.crossed }

/-- R355: a channel after a reset: what its dies hold is kept (they refresh themselves meanwhile); the self-refresh of a trip (16 R433) goes on. -/
def Channel.reset (c : Channel) : Channel := { poisoned := c.poisoned, selfRef := c.selfRef }

/-- R35: a channel after a reset that leaves its die's mesh running. -/
def Channel.resetAlone (k : Nat) (c : Channel) : Channel :=
  { c.reset with refused := (behind (fun r : MemReq => (Crossing.channel k).entriesOf r.act.size) Crossing.depth c.refused).1 }

/-- 06 R172: whether a reset reaches what a request came from. -/
def Reach.hasSource (r : Reach) : ReqSrc → Bool
  | .stream k _ _ _ => r.hasIsland (if k < 3072 then coreIsland (k / 6) else meshIsland ((k - 4096) / 16))
  | .port c => r.hasIsland (coreIsland c)
  | .host | .copier | .control => r.hub

/-- 06 R172: a channel without the requests of what a reset reaches. -/
def Channel.forget (r : Reach) (c : Channel) : Channel :=
  { c with hold := c.hold.filter (fun x => !r.hasSource x.src), refused := c.refused.filter (fun x => !r.hasSource x.src) }

/-- R354, R355, Table 13.2: cores, contexts, memory control, links and routes that a reset reaches. -/
def State.resetUnits (s : State) (r : Reach) : State :=
  { s with
    cores := ((List.range 512).filter (fun c => r.hasIsland (coreIsland c))).foldl (fun m c =>
        FMap.mod {} m c (if r.leavesMesh (.core c) then Core.resetAlone c else Core.reset))
      (s.cores.tab {} 512 (fun c => r.emptiesOnly (.core c)) (fun k => { k with arrivals := [], creditsIn := [] }))
    ctxs := ((s.ctxs.filter (fun x => !r.hasIsland (if x.1 < 3072 then coreIsland (x.1 / 6) else meshIsland ((x.1 - 4096) / 16)))).map
      (fun x => if x.1 < 3072 && r.emptiesOnly (.core (x.1 / 6)) then (x.1, { x.2 with waiting := [] }) else x)).filter
      (fun x => decide (x.2 ≠ {}))
    channels := ((s.channels.map (fun x =>
      let c := if r.leavesMesh (.channel x.1) then x.2.resetAlone x.1 else if r.hasIsland (channelIsland x.1) then x.2.reset
        else if r.emptiesOnly (.channel x.1) then { x.2 with refused := [] } else x.2
      (x.1, c.forget r))).filter (fun x => decide (x.2 ≠ {})))
    ports := (s.ports.map (fun x =>
      let y : Port := if r.leavesMesh (.portOut x.1) then { queue := x.2.queue.drop Crossing.depth }
        else if r.hasIsland (.port (portOf x.1)) then {}
        else if r.emptiesOnly (.portOut x.1) then { x.2 with queue := [], received := x.2.received.drop Crossing.depth } else x.2
      (x.1, y))).filter (fun x => decide (x.2 ≠ {}))
    linkDies := s.linkDies.filter (fun x => !r.hasIsland (linkIsland x.1))
    amaps := s.amaps.filter (fun x => if x.1 / 1024 < 32 then !r.hasIsland (meshIsland (x.1 / 1024)) else !r.hub)
    frames := s.frames.filter (fun x =>
      let k := 32 * (x.1 / 49152) + x.1 % 49152 / 3072 * 2
      if x.1 / 49152 < 32 then !(r.hasIsland (channelIsland k) || r.hasIsland (channelIsland (k + 1))) else !r.hub)
    txq := s.txq.filter (fun x => !r.hasQuad x.quad.toNat)
    rx := s.rx.filter (fun x => !(List.range 4).any (fun q => r.hasQuad q && decide (s.partOfQuad q = x.part.toNat)))
    unitEpochs := s.unitEpochs.filter (fun x => !r.reaches x.1)
    returned := s.returned ++ (List.range 36).filter (fun u => r.reaches u && !s.returned.contains u) }

/-- 15 Table 15.5, Table 11.4: the quadrants whose link die a fence names, or that the fuses fence. -/
def State.fencedQuads (s : State) : BitVec 4 :=
  s.fw.loaded.fencedQuads ||| BitVec.ofNat 4 ((List.range 4).foldl (fun a q =>
    a + (if s.gh.fences.any (fun e => e.2.valid && decide (e.2.kind = 8) && decide (e.2.index.toNat = q)) then 2 ^ q else 0)) 0)

/-- R376: the reset block after a reset of module-warm reach or wider: its record domain is kept, the management domain is
cleared by power-on reach alone. -/
def RstRegs.hubReset (x : RstRegs) (mgmt : Bool) : RstRegs :=
  { x with wdtReach := 4, wdtLocked := false, connectorEn := if mgmt then 0 else x.connectorEn &&& 1, bootAddr := 0, bootLen := 0,
           bootStatus := 0, hostLink := false, i3cAddr := if mgmt then none else x.i3cAddr, mgmtUp := x.mgmtUp && !mgmt }

/-- 15.7: the Gingham block after a reset of the hub: its record domain is kept. -/
def Gingham.hubReset (g : Gingham) : Gingham :=
  { divLimit := g.divLimit, repeatLimit := g.repeatLimit, tests := g.tests, transient := g.transient, counts := g.counts,
    fences := g.fences }

/-- 14: what lies in fuses and NOR, and what hub memory holds after a reset of the hub; the staged set is discarded (R397).
DBG.CHALLENGE has no reset value: it is kept until the exit draws another, and ends a debug unlock (00 R16, 14 R393, R401). -/
def Firmware.hubReset (f : Firmware) (mgmt : Bool) : Firmware :=
  { fuses := f.fuses, loaded := f.loaded, own0 := f.own0, own1 := f.own1, rootKey := f.rootKey, identityStore := f.identityStore,
    identityKey := f.identityKey, identityCert := f.identityCert, identityIssued := f.identityIssued, unlocked := f.unlocked, sel0 := f.sel0, sel1 := f.sel1, slots := f.slots, mgmt := f.mgmt,
    lastSlot := f.lastSlot, factory := f.factory, factorySig := f.factorySig, factoryCal := f.factoryCal, challenge := f.challenge, mgmtSet := if mgmt then {} else f.mgmtSet }

/-- R354, R356: the hub after a reset that reaches it: jobs, pages, windows, logs and host registers at their reset values. -/
def State.resetHub (s : State) (mgmt : Bool) : State :=
  { s with
    parts := [], mod := {}, hostWait := [], err := { own := s.err.own }, msixTable := [], msixMask := BitVec.allOnes 36, msixPend := 0, windows := [], txq := [], rx := [],
    cxl := [], gates := [], gh := s.gh.hubReset, fw := s.fw.hubReset mgmt, rst := s.rst.hubReset mgmt, pwr := { vf := s.pwr.vf, fac := s.pwr.fac, trims := s.pwr.trims },
    meterView := if mgmt then {} else s.meterView, notices := if mgmt then [] else s.notices }

/-- R369, Table 11.4: the quadrants that a reset reaches are in reset, and their link connectors high-Z. -/
def State.markReset (s : State) (r : Reach) : State :=
  let m := (List.range 4).foldl (fun a q => a + (if r.hasQuad q then 2 ^ q else 0)) 0
  let md : ModRegs := { s.mod with inReset := s.mod.inReset ||| BitVec.ofNat 4 m }
  let rs : RstRegs := { s.rst with connectorEn := s.rst.connectorEn &&& ~~~(BitVec.ofNat 8 (16 * m)),
                                   wdt := s.rst.wdt.filter (fun x => !r.hasCluster x.1),
                                   haltedCores := s.rst.haltedCores.filter (fun k => !r.hasCluster (clusterOfCore k)) }
  -- log 100: a control core that is reset loses its own log
  { s with mod := md, rst := rs, err := { s.err with own := s.err.own.filter (fun x => !r.hasCluster (clusterOfCore x.1)) } }

/-- Table 13.1: a reset of module-cold reach or wider loses the DRAM contents; `off` are banks whose input ran down (16 R424). -/
def State.loseDram (s : State) (r : Reach) : State := if 5 ≤ r.code then { s with dramLost := List.range 32 } else s

/-- R354 to R357: a reset of a reach takes effect; the tests of the units that it reaches are repeated after its exit, unless the module
has lost its power. -/
def State.applyReset (s : State) (r : Reach) (src : Nat) : State :=
  let ended := (s.gh.running.filter (fun x => r.hasUnit x.2.target)).map Prod.snd
  let part : Option Nat := if r.hub then none else some (s.partOfQuad r.unit.2.2)
  let lost := s.crossings r
  let s0 := s.abortTests r
  let s1 := s0.resetJob r src
  let s2 := lost.foldl (fun a x => a.discardRecord x.1 x.2.1 x.2.2 part) s1
  let s3 := (s2.resetUnits r).loseDram r
  let s4 := (if r.hub then s3.resetHub (decide (r = .powerOn)) else s3).markReset r
  if r = .powerOn then s4 else s4.repeatTests ended (if s1.err.wr = s0.err.wr then none else some s0.err.wr)

-- Episodes ----------------------------------------------------------------------------------------------------------------

/-- The state with its reset block replaced. -/
def State.setRst (s : State) (x : RstRegs) : State := { s with rst := x }

/-- Table 13.8: the record of the latest episode of module-warm or wider reach. -/
def State.stampReset (s : State) (e : Episode) : State :=
  if 4 ≤ e.reach.code then s.setRst { s.rst with lastReach := BitVec.ofNat 4 e.reach.code, sources := e.joined } else s

/-- R361, R362, R364: a source asserts in a reach: an episode begins, or the nested ones become one whose latch is the widest. An
exit that runs stops, and a pass of option loading in progress is abandoned. A power-on reach asserted again resets the management
controller that runs meanwhile (R370). -/
def State.assertReset (s : State) (src : RstSource) (r : Reach) : State :=
  let hit := s.rst.episodes.filter (fun e => e.reach.nests r)
  let rest := s.rst.episodes.filter (fun e => !e.reach.nests r)
  let wide := hit.foldl (fun a e => a.wider e.reach) r
  let asserted := (src, r) :: (hit.flatMap (fun e => e.asserted)).filter (fun x => decide (x ≠ (src, r)))
  let joined : BitVec 9 := hit.foldl (fun a e => a ||| e.joined) (BitVec.ofNat 9 (2 ^ src.bit))
  let e : Episode := { reach := wide, asserted := asserted, joined := joined, hubWake := hit.any (fun x => x.hubWake) }
  let known := hit.any (fun x => decide (x.reach = wide))
  let loading := hit.any (fun x => decide (x.phase = .optionLoading)) && s.rst.optBusy
  let fresh := !known || hit.any (fun x => decide (x.phase ≠ .release)) || (wide.hasCluster 38 && s.rst.mgmtUp && decide (r = .powerOn))
  let count : FMap (BitVec 16) := match wide, known with
    | .quadrant q, false => s.rst.qcount.set 0 q.val (satAdd (s.rst.qcount.get 0 q.val) 1)
    | _, _ => s.rst.qcount
  let s1 := s.setRst { s.rst with
    episodes := rest ++ [e], qcount := count, optBusy := if loading then false else s.rst.optBusy,
    loadRestarts := if loading then satAdd s.rst.loadRestarts 1 else s.rst.loadRestarts }
  (if fresh then s1.applyReset wide joined.toNat else s1).stampReset e

/-- The state with an episode replaced; none removes it. -/
def State.setEpisode (s : State) (old : Episode) (new : Option Episode) : State :=
  s.setRst { s.rst with episodes := s.rst.episodes.flatMap (fun e => if e = old then new.toList else [e]) }

/-- Table 13.5: the phase in which an exit begins: option loading for module-warm reach and wider, after the straps where they are
sampled; bring-up for a die or a quadrant; the island exit. -/
def Reach.firstPhase (r : Reach) : RstPhase :=
  match r with
  | .island _ => .islandExit
  | .die _ | .quadrant _ => .bringUp
  | .warm => .optionLoading
  | _ => .strapSample

/-- Table 13.5: an exit enters a phase; option loading is busy from its start (Table 13.9). -/
def State.enterPhase (s : State) (e : Episode) (x : RstPhase) : State :=
  let s1 := s.setEpisode e (some { e with phase := x, waiting := false })
  if x = .optionLoading then s1.setRst { s1.rst with optBusy := true, optValid := false, loadFail := false } else s1

/-- R362, Table 13.5: every source of an episode has released: its exit begins; clocks are qualified first at module-cold reach and
wider, and after a clock failure. -/
def State.beginExit (s : State) (e : Episode) : State :=
  if 5 ≤ e.reach.code || e.joined.getLsbD 7 then s.enterPhase e .clockStart else s.enterPhase e e.reach.firstPhase

/-- R376: the record domain is cleared when the 12 V input returns from absence. -/
def State.clearRecords (s : State) : State :=
  let x := s.rst
  let y : RstRegs :=
    { wdtReach := x.wdtReach, wdtLocked := x.wdtLocked, connectorEn := x.connectorEn, bootAddr := x.bootAddr,
      bootLen := x.bootLen, bootStatus := x.bootStatus, episodes := x.episodes, mgmtUp := x.mgmtUp, padsLoaded := x.padsLoaded, tapRequest := x.tapRequest,
      trstLow := x.trstLow, tapShifting := x.tapShifting, haltedCores := x.haltedCores, i3cAddr := x.i3cAddr, hostLink := x.hostLink, refclkLost := x.refclkLost, wdtLog := x.wdtLog, wdt := x.wdt }
  let g : Gingham := { s.gh with divLimit := 4, repeatLimit := 4, tests := 0, transient := 0, counts := [], fences := [] }
  { s with rst := y, gh := g }

/-- Every episode stamps its record again. -/
def State.restamp (s : State) : State := s.rst.episodes.foldl (fun a e => a.stampReset e) s

/-- R362: a source releases. -/
def State.releaseReset (s : State) (src : RstSource) (r : Reach) : State :=
  match s.rst.episodes.find? (fun e => e.asserted.contains (src, r)) with
  | none => s
  | some e =>
    let e1 : Episode := { e with asserted := e.asserted.filter (fun x => decide (x ≠ (src, r))) }
    let s1 := s.setEpisode e (some e1)
    if e1.asserted.isEmpty then s1.beginExit e1 else s1

/-- R396 step 3: an activation whose dies have all been brought up ends: the hub records the set, the bit clears. -/
def State.finishActivation (s : State) : State :=
  match s.fw.activating with
  | none => s
  | some q =>
    if s.rst.episodes.any (fun e => (List.range 36).any (fun d => decide (dieQuad d = q) && e.reach.hasDie d)) then s
    else
      let f : Firmware := { s.fw with activating := none, state := .done, quadSets := match s.fw.staged with
        | some i => s.fw.quadSets.set {} q i
        | none => s.fw.quadSets }
      ({ s with fw := f } : State).settleQuiesced

/-- 16 R427: a partition that a reset has woken re-enters its target. -/
def State.reenter (s : State) (p : Nat) : State :=
  let w := (s.part p).power
  if w.moving.isSome || decide (w.state = .run) then s
  else s.modPart p (fun k => { k with power := { w with moving := some (s.powerTarget p) } })

/-- R362: an episode has ended: gates that may be open open (01 R27), power states are re-entered, what waited goes on. -/
def State.endEpisode (s : State) (e : Episode) : State :=
  let s1 := ((s.setEpisode e none).finishActivation).openGates
  let ps := (List.range 4).filter (fun p => (s1.quadsOf p).any (fun q => e.reach.hasQuad q || decide (e.reach.unit.2.2 = q)))
  ((if e.reach.hub then s1 else ps.foldl State.reenter s1)).retryCmds

end Sys2Proof.Machine
end

