-- ==== Sys2Proof/Machine/Resets.lean ====
section
/-! DEFINITION. The commands of the reset sources and of the exit sequence (13 R358 to R376, 14 R379, R392, 19 R466). -/

namespace Sys2Proof.Machine

-- Sources -----------------------------------------------------------------------------------------------------------------

/-- 16 Table 16.1: whether an input is below a threshold in 10 mV, or absent. -/
def InputVolts.below (v : InputVolts) (n : Nat) : Bool := match v with | none => true | some x => decide (x < n)

/-- 16 Table 16.1: whether the 12 V input, and the 48 V input ahead of its switch, are good. -/
def InputPair.good12 (x : InputPair) : Bool := !x.v12.below 1100
/-- The 48 V input is good. -/
def InputPair.good48 (x : InputPair) : Bool := !x.v48.below 4200 && x.v48.below 5651

/-- 17 R441, R442: 12 V has gone: the meter measures and signs nothing more, and is carried to its hold-up commit. -/
def Meter.loseSupply (m : Meter) : Meter := { m with running := false, holdup := m.holdup || m.running, signing := none, waiting := [] }

/-- POWER_ON (R358, R375, 16 R423): the 12 V input is absent, or below 10.5 V: power-on reach. Every bank stops with the conversion's control, the
meter loses its supply (17 R441), and a value written to the TAP's reset-request register goes (R360). -/
def powerOn (v12 : InputVolts) (s : State) : State :=
  if !v12.below 1050 then s
  else
    let s1 : State := { s with banksOff := s.banksOff ||| 0xF, hubOff := false, meter := s.meter.loseSupply }
    let s2 := s1.assertReset .powerOn .powerOn
    s2.setRst { s2.rst with absent12 := s2.rst.absent12 || v12.isNone, tapRequest := 4, padsLoaded := false }

/-- Whether the 12 V input is good: no power-on source asserts. -/
def State.power12 (s : State) : Bool := !s.rst.episodes.any (fun e => e.asserted.any (fun x => decide (x.1 = .powerOn)))

/-- BROWN_OUT (R358, 16 R423): the 48 V input falls below 40.0 V or is absent while 12 V is good; or it rises above 58.0 V, which opens the
input switch. `x.off` are the quadrant banks whose input has run down. -/
def brownOut (x : Input48) (s : State) : State :=
  let tooHigh := !x.volts.below 5801
  if !s.power12 || !(tooHigh || x.volts.below 4000) then s
  else ({ s with banksOff := s.banksOff ||| x.off.setWidth 5, hubOff := false, switchOver := s.switchOver || tooHigh } : State).assertReset
    .brownOut .cold

/-- 19 R469: a low pulse that the filter takes: none shorter than 100 ns, each of 1 µs or longer; between them nothing says. -/
def pulseTaken (ns n : Nat) : Bool := decide (1000 ≤ ns) || (decide (100 ≤ ns) && Config.freeBit n)

/-- The state after one more free value has been drawn. -/
def State.drawn (s : State) : State := { s with freeCounter := s.freeCounter + 1 }

/-- 16 R428: a wake of a module whose hub is off: the episode precharges every bank first. -/
def State.markHubWake (s : State) (was : Bool) : State :=
  if !was then s
  else
    let s1 := s.setRst { s.rst with episodes := s.rst.episodes.map (fun e => if e.reach.hub then { e with hubWake := true } else e) }
    { s1 with hubOff := false }

/-- MRST_N (R358, 19 R467, R469, 16 R428): MRST_N is low for a time in nanoseconds; without 12 V that has no effect. -/
def mrstN (lowNs : Nat) (s : State) : State :=
  if !s.present12 then s
  else if pulseTaken lowNs s.freeCounter then (s.drawn.assertReset .mrst .warm).markHubWake s.hubOff else s.drawn

/-- Table 13.3: the reach of a control cluster's watchdog. -/
def State.watchdogReach (s : State) (u : Fin 39) : Reach :=
  if h : u.val < 36 then
    match s.rst.wdtReach.toNat with
    | 2 => .die ⟨u.val, h⟩
    | 3 => .quadrant ⟨dieQuad u.val % 4, Nat.mod_lt _ (by decide)⟩
    | _ => .warm
  else if u.val = 38 then .powerOn else .warm

/-- WATCHDOG_EXPIRE (14 R379, R358): cycles of a cluster pass without a restart of its watchdog, which expires at 2^WDT_LOG; none passes for it
while the cluster's clock is stopped or a core of the cluster is debug-halted. -/
def watchdogExpire (u : Fin 39) (cycles : Nat) (s : State) : State :=
  let n := s.rst.wdt.get 0 u.val + cycles
  if s.clusterStopped u.val || s.clusterHalted u.val then s
  else if n < 2 ^ s.rst.wdtLog.toNat then s.setRst { s.rst with wdt := s.rst.wdt.set 0 u.val n }
  else (s.setRst { s.rst with wdt := s.rst.wdt.set 0 u.val 0 }).assertReset .watchdog (s.watchdogReach u)

/-- WATCHDOG_RESTART (14 R379). -/
def watchdogRestart (u : Fin 39) (s : State) : State := s.setRst { s.rst with wdt := s.rst.wdt.set 0 u.val 0 }

/-- Table 13.11's bits [23:13] as a reach: die, quadrant, code. -/
def reachOf (die quad code : Nat) : Option Reach :=
  match code with
  | 2 => if h : die < 36 then some (.die ⟨die, h⟩) else none
  | 3 => some (.quadrant ⟨quad % 4, Nat.mod_lt _ (by decide)⟩)
  | 4 => some .warm
  | 5 => some .cold
  | 6 => some .powerOn
  | _ => none

/-- RST_SW_REQUEST (R359): a keyed write of RST.CTRL of reach 2 to 4, or a control core's request of island or die reach. -/
def rstSwRequest (r : SwRequest) (s : State) : State :=
  match r with
  | .host w =>
    let code := bitsAt w.toNat 13 3
    if bitsAt w.toNat 24 8 = 0x5A ∧ code ≤ 4 then
      match reachOf (bitsAt w.toNat 18 6) (bitsAt w.toNat 16 2) code with
      | some x => s.assertReset .software x
      | none => s
    else s
  | .control x => if x.code ≤ 2 then s.assertReset .software x else s

/-- 18 R453, R459, 14 R401: JTAG halts a control core, or lets it go on: the target state of the partition of its die is evaluated, and the
steps that the halt falls in are marked. -/
def State.haltCtl (s : State) (k : Nat) (on : Bool) : State :=
  let l := s.rst.haltedCores.filter (fun x => decide (x ≠ k))
  let s1 := s.setRst { s.rst with haltedCores := if on then l ++ [k] else l }
  let hits (c : Nat) : Bool := decide (72 ≤ k) || decide (s.partOfCore c = s.partOfQuad (dieQuad (clusterOfCore k)))
  let s2 : State := if on then { s1 with cores := s1.cores.tab {} 512 hits (fun x =>
    if x.report.inStep then x.rptSet (fun r => { r with debug := true }) else x) } else s1
  if 72 ≤ k then s2 else s2.retarget (s.partOfQuad (dieQuad (clusterOfCore k)))

/-- DEBUG_REQUEST (R360, 19 R466, R467, R469): DBGREQ_N falls and uses the TAP's reset-request register; or JTAG writes that register
and requests its reach; or halts a control core, or lets it go on, where Table 14.4 lets JTAG do so. Without 12 V none has an effect, and TRST_N
low holds the TAP. -/
def debugRequest (r : DbgRequest) (s : State) : State :=
  let reach (v : BitVec 11) : Option Reach := reachOf (bitsAt v.toNat 5 6) (bitsAt v.toNat 3 2) (bitsAt v.toNat 0 3)
  if !s.present12 then s else match r with
  | .pin ns =>
    if pulseTaken ns s.freeCounter then
      match reach s.rst.tapRequest with
      | some x => s.drawn.assertReset .dbgreq x
      | none => s.drawn
    else s.drawn
  | .jtag v =>
    match reach v with
    | some x => if s.rst.trstLow then s else (s.setRst { s.rst with tapRequest := v }).assertReset .jtag x
    | none => s
  | .halt k on => if s.rst.trstLow || (on && !s.debugOpen) then s else s.haltCtl k.val on
  | .shift on => if s.rst.trstLow then s else s.setRst { s.rst with tapShifting := on }

/-- TRST_N (19 R466): TRST_N low resets the TAP and its instruction register; while it is low, no instruction updates and nothing shifts. The
reset-request register keeps its value. -/
def trstN (low : Bool) (s : State) : State := s.setRst { s.rst with trstLow := low, tapShifting := s.rst.tapShifting && !low }

/-- R366: the host link goes down without a reset: the function is reset as R296 gives. -/
def State.refclkFails (s : State) (unsent : List (Fin 16 × CtxKey)) : State :=
  let s1 := functionLevelReset unsent s
  s1.setRst { s1.rst with hostLink := false, refclkLost := true }

/-- CLOCK_FAILURE (R366, Table 13.4): the smallest reach that contains every island the clock feeds; under STRAP_CLK = 10 a failure
of REFCLK takes the host link down. A clock that nothing runs from fails without effect. -/
def clockFailure (c : ClockSource) (unsent : List (Fin 16 × CtxKey)) (s : State) : State :=
  let strap := s.rst.strapClk.toNat
  match c with
  | .oscillator => if strap = 1 then s else s.assertReset .clock .warm
  | .refclk => if strap = 1 then s.assertReset .clock .warm else if strap = 2 then s.refclkFails unsent else s
  | .management => s.assertReset .clock .powerOn
  | .hubPll => s.assertReset .clock .warm
  | .islandPll i => s.assertReset .clock (.island i)

/-- REFCLK_RETURN (R366): REFCLK returns after a failure; under STRAP_CLK = 10 the host link retrains. -/
def refclkReturn (s : State) : State :=
  if s.rst.refclkLost then
    s.setRst { s.rst with refclkLost := false, hostLink := if s.rst.strapClk = 2 then s.rst.connectorEn.getLsbD 1 else s.rst.hostLink }
  else s

/-- CONTROL_CORE_LOCKUP (R358): a control core of 15 Table 15.2 retires nothing for 2^24 cycles while its clock runs and it is
not debug-halted. -/
def controlCoreLockup (u : Fin 78) (s : State) : State :=
  let k := u.val
  let cluster := if k < 64 then k / 2 else if k < 72 then 32 + (k - 64) / 2 else if k < 76 then 36 else k - 39
  if s.clusterStopped cluster || s.ctlHalted k then s
  else if h : cluster < 36 then s.assertReset .lockup (.die ⟨cluster, h⟩)
  else if k = 77 then s.assertReset .lockup .powerOn
  else s.assertReset .lockup .warm

/-- SOURCE_RELEASE (R362, R375, R376, 16 R423): a source releases; the inputs' sources only once their input is good. When 12 V has returned
from absence, the record domain is cleared; where 48 V behind the input switch is lost then, brown-out asserts. The brown-out source cannot
release while the hub's trip holds the switch open (16 R435); a switch that an input above 58.0 V has opened closes as that input is good
again (log 112). -/
def sourceRelease (src : RstSource) (r : Reach) (x : InputPair) (s : State) : State :=
  match src with
  | .powerOn =>
    if s.power12 || !x.good12 then s
    else
      let s1 := if s.rst.absent12 then s.clearRecords else s
      let s2 := s1.setRst { s1.rst with absent12 := false }
      let s3 := if x.v48.below 4000 || s.switchOpen || s.switchOver then s2.assertReset .brownOut .cold else s2
      s3.restamp.releaseReset .powerOn .powerOn
  | .brownOut => if s.switchOpen || !x.good48 then s else ({ s with switchOver := false } : State).releaseReset .brownOut .cold
  | _ => s.releaseReset src r

-- The exit sequence -------------------------------------------------------------------------------------------------------

/-- The episode whose exit is in a phase and whose latched reach fits. -/
def State.exiting (s : State) (x : RstPhase) (p : Reach → Bool) : Option Episode :=
  s.rst.episodes.find? (fun e => decide (e.phase = x) && p e.reach)

/-- MANAGEMENT_START (R370, 14 R398): once the power-on source has released, the management controller runs, whatever else asserts:
I3C answers. -/
def managementStart (s : State) : State :=
  if s.power12 && !s.rst.episodes.any (fun e => e.asserted.any (fun x => decide (x.2 = .powerOn))) && !s.rst.mgmtUp then
    let f : Firmware := { s.fw with mgmtSet := s.fw.mgmtImage }
    ({ s with fw := f } : State).setRst { s.rst with mgmtUp := true, connectorEn := s.rst.connectorEn ||| 1 }
  else s

/-- CLOCK_START (R370, Table 13.5): the reach's islands are clocked. -/
def clockStart (r : Reach) (s : State) : State :=
  match s.exiting .clockStart (fun x => decide (x = r)) with
  | none => s
  | some e => s.enterPhase e r.firstPhase

/-- STRAP_SAMPLE (R365, R366): the straps are sampled, and option loading begins. A failure of REFCLK is one of STRAP_CLK = 10. -/
def strapSample (boot clk : BitVec 2) (s : State) : State :=
  match s.exiting .strapSample Reach.hub with
  | none => s
  | some e =>
    let s1 := s.setRst { s.rst with strapBoot := boot, strapClk := clk, clkStrapBad := s.rst.clkStrapBad || decide (clk = 3),
                                    refclkLost := s.rst.refclkLost && decide (clk = 2) }
    s1.enterPhase e .optionLoading

/-- R363: islands take their trims from the hub's shadow of the last load. -/
def State.takeTrims (s : State) (p : Nat → Bool) : State :=
  let kept := s.pwr.trims.filter (fun x => !p x.1)
  { s with pwr := { s.pwr with
    trims := (s.fw.loaded.trims.filter (fun x => p x.1)).foldl (fun m x => FMap.set 0 m x.1 x.2) kept } }

/-- OPTION_LOADING (R363, R381, R382): one to three passes read the fuse rows, with the trims and the base points of the V/F tables;
three without a consistent read (`got`) leave the module in reset, and so does a row of which both copies are wrong. -/
def optionLoading (passes : Fin 3) (got : Bool) (s : State) : State :=
  match s.exiting .optionLoading Reach.hub with
  | none => s
  | some e =>
    if s.rst.loadFail then s
    else
      let ok := got && s.fw.fuses.readable
      let s1 := s.setRst { s.rst with optBusy := false, loadPasses := if ok then BitVec.ofNat 8 (passes.val + 1) else 3, optValid := ok,
                                      loadFail := !ok, padsLoaded := s.rst.padsLoaded || ok }
      if !ok then s1
      else
        let f : Firmware := { s1.fw with loaded := s1.fw.fuses }
        let s2 : State := ({ s1 with fw := f, pwr := { s1.pwr with vf := { points := 1, entries := s1.fw.fuses.vf } } } : State).takeTrims (fun n => decide (n / 4096 = 36))
        let md : ModRegs := { s2.mod with fenced := s2.fencedQuads }
        ({ s2 with mod := md } : State).enterPhase e .hubStart

/-- 13 R373: flash slots whose intent record is valid and whose commit record is not. -/
def State.interruptedSlots (s : State) : List (Nat × Nat) :=
  (List.range 8).filterMap (fun k =>
    let n := ofBytes (s.flashBytes k 2048 64)
    if recordOk 0x494E5445 n && (s.flashCm k).isNone then some (k, n) else none)

/-- 13 R373: the interrupted snapshot with the highest IN.STEP is reported. -/
def State.scanFlash (s : State) (reach : Nat) : State :=
  let best := s.interruptedSlots.foldl (fun (a : Option (Nat × Nat)) x => match a with
    | none => some x
    | some y => if bitsAt y.2 352 64 < bitsAt x.2 352 64 then some x else some y) none
  match best with
  | none => s
  | some (k, n) => s.reportSnap (BitVec.ofNat 64 (bitsAt n 416 64)) k (bitsAt n 346 2) reach

/-- 13 R374: an interrupted update of a module slot is reported. -/
def State.scanSlots (s : State) (reach : Nat) : State :=
  match [0, 1].find? (fun k => (s.fw.slots.get {} k).interrupted) with
  | none => s
  | some k => s.setRst { s.rst with recFwValid := true, recFwReach := BitVec.ofNat 3 reach, recFwSlot := decide (k = 1) }

/-- 14 R392 step 5, R401, R373, R374: an image that has passed the checks runs: the module controllers start, the endpoint is
enabled, a challenge is drawn; the configuration read follows. -/
def State.hubRuns (s : State) (e : Episode) (i : FwImage) (src : BitVec 2) (trial : Bool) : State :=
  let f : Firmware := { s.fw with hub := i, challenge := Config.freeWord64 s.freeCounter, unlocked := false, bootedTrial := trial, confirmed := false }
  let s1 := ({ s with fw := f } : State).drawn
  let s2 := s1.setRst { s1.rst with bootSrc := src, recoveryWait := false, connectorEn := s1.rst.connectorEn ||| 2,
                                    hostLink := !s1.rst.refclkLost }
  ((s2.scanFlash e.reach.code).scanSlots e.reach.code).enterPhase e .configRead

/-- R367: nothing in NOR can be booted: the module waits for an image, with the endpoint up for the mailbox. -/
def State.bootWaits (s : State) (e : Episode) (recovery : Bool) : State :=
  let s1 := s.setRst { s.rst with recoveryWait := recovery, connectorEn := s.rst.connectorEn ||| 2, hostLink := !s.rst.refclkLost }
  s1.setEpisode e (some { e with waiting := true })

/-- 14 R392: a source is rejected: RST.BOOT_FAIL keeps the first reason; AUTH_FAIL where R387 refused. -/
def State.bootFails (s : State) (code : Nat) (check : Option Nat) (b : SigBlock) : State :=
  (s.setRst { s.rst with bootFail := if s.rst.bootFail = 0 then BitVec.ofNat 4 code else s.rst.bootFail }).authFailIf check b

/-- 14 R391: what an exit does to a selector on trial, under STRAP_BOOT = 00, before it reads a slot. -/
def State.trialBoot (s : State) : State :=
  let x := s.fw.selector
  if !x.trial then s
  else if x.trialLeft = 0 then
    let s1 := s.setRst { s.rst with fallback := true }
    { s1 with fw := s.fw.writeSelector { x with slot := !x.slot, trial := false } }
  else { s with fw := s.fw.writeSelector { x with trialLeft := x.trialLeft - 1 } }

/-- R367, 14 R392: a slot is tried. -/
def State.trySlot (s : State) (e : Episode) (slot fallback : Bool) : State :=
  let x := s.fw.slots.get {} (slotKey slot)
  let trial := s.fw.selector.trial && decide (s.fw.selector.slot = slot)
  let s1 := s.setRst { s.rst with fallback := s.rst.fallback || fallback }
  match s1.fw.slotCheck x with
  | none => s1.hubRuns e x.image (BitVec.ofNat 2 (slotKey slot)) trial
  | some (code, check) =>
    let s2 := s1.bootFails code check x.image.sig
    let e1 : Episode := { e with tried := e.tried ++ [slotKey slot] }
    let s3 := s2.setEpisode e (some e1)
    if s2.rst.strapBoot = 0 ∧ e1.tried.length < 2 then s3 else s3.bootWaits e1 true

/-- R363, R428: whether the hub may start: its bank is on, and, where the hub was off, every quadrant bank too. -/
def State.hubPowered (s : State) (e : Episode) : Bool :=
  !s.banksOff.getLsbD 4 && (!e.hubWake || decide (s.banksOff = 0))

/-- HUB_START (14 R392, R367): the boot chain on the next source. The root key record is checked first; without it nothing runs. -/
def hubStart (s : State) : State :=
  match s.exiting .hubStart Reach.hub with
  | none => s
  | some e =>
    if e.waiting || !s.hubPowered e then s
    else
      let first := e.tried.isEmpty
      let s1 := if first then s.setRst { s.rst with bootFail := 0, fallback := false, recoveryWait := false } else s
      if digestOf s.fw.rootKey ≠ s.fw.loaded.rootHash then s1.bootFails 2 none {}
      else
        match s.rst.strapBoot.toNat with
        | 0 =>
          let s2 := if first then s1.trialBoot else s1
          let named := s2.fw.selector.slot
          if e.tried.contains (slotKey named) then s2.trySlot e (!named) true else s2.trySlot e named false
        | 1 => s1.trySlot e false false
        | _ => s1.bootWaits e false

/-- R369, R371: an image received by the mailbox (2) or over I3C (3) is checked from step 3 of 14 R392 on, and runs where an exit
waits for it; else the code of BOOT_FAIL that it meets. -/
def State.takeImage (s : State) (x : FwSupply) (src : BitVec 2) : State × Option Nat :=
  match s.fw.supplyCheck x with
  | some (code, check) => (s.bootFails code check x.image.sig, some code)
  | none =>
    match s.exiting .hubStart Reach.hub with
    | some e => if e.waiting then (s.hubRuns e x.image src false, none) else (s, none)
    | none => (s, none)

/-- BOOT_GO (R369, Table 13.14): a write of 1 to BOOT.GO, ignored unless STRAP_BOOT = 10 or in recovery wait: BOOT.LEN bytes are
read from host memory and checked. -/
def bootGo (x : FwSupply) (s : State) : State :=
  if !(decide (s.rst.strapBoot = 2) || s.rst.recoveryWait) then s
  else if s.rst.bootLen = 0 ∨ 32 * 2 ^ 20 < s.rst.bootLen.toNat then s.setRst { s.rst with bootStatus := 4 }
  else
    let (s1, r) := s.takeImage (x.upTo s.rst.bootLen.toNat) 2
    s1.setRst { s1.rst with bootStatus := match r with | none => 2 | some 5 => 5 | some _ => 3 }

/-- 16 R437: whether the second copy is the valid one with the higher UC.SEQ. -/
def State.userCalCopy (s : State) : Bool :=
  match s.userCal0, s.userCal1 with
  | some a, some b => decide (a.seq < b.seq)
  | none, some _ => true
  | _, none => false

/-- 16 R437: the user calibration that a configuration read takes: the valid copy with the higher UC.SEQ. -/
def State.userCal (s : State) : Option UserCal :=
  if s.userCalCopy then s.userCal1 else s.userCal0

/-- CONFIGURATION_READ (R372, 14 R389, R392 step 6, 16 R437): the control region is checked, the factory calibration block with its V/F tables
(16 R436), the user calibration chosen; firmware writes the watchdogs' configuration. A slot that fails here is rejected, and the exit
restarts at hub start. An invalid factory block holds MOD.READY. -/
def configurationRead (x : ConfigNor) (s : State) : State :=
  match s.exiting .configRead Reach.hub with
  | none => s
  | some e =>
    let fromSlot := decide (s.rst.bootSrc.toNat < 2)
    match (if fromSlot then s.fw.hub.ctlCheck else none) with
    | some code =>
      let s1 := s.bootFails code none {}
      let e1 : Episode := { e with tried := e.tried ++ [s.rst.bootSrc.toNat], phase := .hubStart }
      let s2 := s1.setEpisode e (some e1)
      if s.rst.strapBoot = 0 ∧ e1.tried.length < 2 then s2 else s2.bootWaits e1 true
    | none =>
      let fails := s.fw.sigCheck .factory s.fw.factory [2] s.fw.factorySig
      let sets : FMap FwImage := [0, 1, 2, 3].foldl (fun m q => FMap.set {} m q s.fw.hub) []
      let f : Firmware := { s.fw with quadSets := sets }
      let fac := if fails.isNone then s.fw.factoryCal else s.pwr.fac
      let pw := ({ s.pwr with cal := s.userCal, calCopy := s.userCalCopy, fac := fac,
                              vf := if fails.isNone then { points := 8, entries := fac.vf } else s.pwr.vf } : Power).derated
      let reach : BitVec 3 := if x.wdtReach = 2 ∨ x.wdtReach = 3 then x.wdtReach else 4
      let log : BitVec 6 := if 20 ≤ x.wdtLog.toNat ∧ x.wdtLog.toNat ≤ 32 then x.wdtLog else 28
      let s1 := ({ s with fw := f, pwr := pw } : State).setRst
        { s.rst with wdtLog := log, wdtReach := if s.rst.wdtLocked then s.rst.wdtReach else reach, wdtLocked := true }
      let s2 := match fails with
        | none => s1
        | some n =>
          let s3 := (s1.authFail n s.fw.factorySig).logError { code := 0x0E02, kind := 9, action := 7 }
          let g : Gingham := { s3.gh with notReady := true }
          ({ s3 with gh := g } : State).postNotice .calInvalid
      s2.enterPhase e .bringUp

/-- 13 Table 13.5: a compute die's DRAM leaves its reset: trained and zeroed where it has lost its contents, else out of
self-refresh, in which a standing trip (16 R433) keeps it. -/
def State.wakeDram (s : State) (t : Nat) : State :=
  let lost := s.dramLost.contains t
  { s with
    dram := if lost then s.dram.filter (fun x => decide (x.1 / 2 ^ 37 ≠ t)) else s.dram
    dramLost := s.dramLost.filter (fun x => decide (x ≠ t))
    channels := s.channels.tab {} 1024 (fun k => decide (k / 32 = t)) (fun c =>
      { c with selfRef := s.tripped t, poisoned := if lost then [] else c.poisoned }) }

/-- Table 13.5: the dies of a quadrant are up: its reset bit clears, its link connectors are enabled. -/
def State.quadUp (s : State) (q : Nat) : State :=
  let md : ModRegs := { s.mod with inReset := s.mod.inReset &&& ~~~(BitVec.ofNat 4 (2 ^ q)) }
  let rs : RstRegs := { s.rst with connectorEn := s.rst.connectorEn ||| BitVec.ofNat 8 (16 * 2 ^ q) }
  { s with mod := md, rst := rs }

/-- Whether every die of a quadrant is in a list. -/
def quadIn (dies : List Nat) (q : Nat) : Bool := (List.range 36).all (fun d => decide (dieQuad d ≠ q) || dies.contains d)

/-- BRING_UP (R370, Table 13.5): a die of an exit loads its firmware, its DRAM comes up and it is issue-ready. -/
def bringUp (d : Fin 36) (s : State) : State :=
  match s.exiting .bringUp (fun r => r.hasDie d.val) with
  | none => s
  | some e =>
    if s.banksOff.getLsbD (dieQuad d.val) || e.dies.contains d.val then s
    else
      let e1 : Episode := { e with dies := e.dies ++ [d.val] }
      let s1 := ((if d.val < 32 then s.wakeDram d.val else s).takeTrims (fun n => decide (n / 4096 = d.val))).setEpisode e (some e1)
      let s2 := if 3 ≤ e.reach.code ∧ quadIn e1.dies (dieQuad d.val) = true then s1.quadUp (dieQuad d.val) else s1
      if (List.range 36).all (fun x => !e.reach.hasDie x || e1.dies.contains x) then
        (if e.reach.hub then s2.enterPhase e1 .ready else s2.endEpisode e1)
      else s2

/-- ISLAND_EXIT (R370): an island leaves its reset with trims from the hub's shadow (R363); a channel's dies leave self-refresh. -/
def islandExit (i : Island) (s : State) : State :=
  match s.exiting .islandExit (fun r => decide (r = .island i)) with
  | none => s
  | some e =>
    let s1 := match i with | .channel k => s.setChan k.val { s.chan k.val with selfRef := s.tripped (chanTower k.val) } | _ => s
    (s1.takeTrims (fun n => decide (n = i.number))).endEpisode e

/-- READY (R370, R371, 19 R471): every quadrant is up; a CXL port trains with its device pages, or not. -/
def moduleReady (c0 c1 : Option (Fin 2097153)) (s : State) : State :=
  match s.exiting .ready Reach.hub with
  | none => s
  | some e =>
    let up (a : State) (i : Nat) (x : Option (Fin 2097153)) : State :=
      match x with
      | some n => a.setCxlPort i { a.cxlPort i with linkUp := true, pages := n.val }
      | none => a
    let s1 := up (up s 0 c0) 1 c1
    let md : ModRegs := { s1.mod with ready := !s1.gh.notReady }
    let rs : RstRegs := { s1.rst with connectorEn := s1.rst.connectorEn ||| BitVec.ofNat 8 (4 * bitOf c0.isSome + 8 * bitOf c1.isSome) }
    ({ s1 with mod := md, rst := rs } : State).endEpisode e

/-- REC_SNAP_ACK (R373): a write of 1 to REC.SNAP_VALID: the report is acknowledged, and the intent record zeroed. -/
def recSnapAck (s : State) : State :=
  if !s.rst.recSnapValid then s
  else (s.setFlash s.rst.recFlashSlot.toNat 2048 (List.replicate 64 0)).setRst { s.rst with recSnapValid := false }

/-- POWER_ON. -/
def execPowerOn (v12 : InputVolts) (s : State) : Host.Outcome State Fault Refusal := .next (powerOn v12 s)
/-- BROWN_OUT. -/
def execBrownOut (x : Input48) (s : State) : Host.Outcome State Fault Refusal := .next (brownOut x s)
/-- MRST_N. -/
def execMrstN (lowNs : Nat) (s : State) : Host.Outcome State Fault Refusal := .next (mrstN lowNs s)
/-- WATCHDOG_EXPIRE. -/
def execWatchdogExpire (u : Fin 39) (cycles : Nat) (s : State) : Host.Outcome State Fault Refusal := .next (watchdogExpire u cycles s)
/-- WATCHDOG_RESTART. -/
def execWatchdogRestart (u : Fin 39) (s : State) : Host.Outcome State Fault Refusal := .next (watchdogRestart u s)
/-- RST_SW_REQUEST. -/
def execRstSwRequest (r : SwRequest) (s : State) : Host.Outcome State Fault Refusal :=
  .next (match r with
    | .host _ => s.inTurn (.rstSwRequest r) (rstSwRequest r)
    | .control _ => rstSwRequest r s)
/-- DEBUG_REQUEST. -/
def execDebugRequest (r : DbgRequest) (s : State) : Host.Outcome State Fault Refusal := .next (debugRequest r s)
/-- CLOCK_FAILURE. -/
def execClockFailure (c : ClockSource) (unsent : List (Fin 16 × CtxKey)) (s : State) : Host.Outcome State Fault Refusal :=
  .next (clockFailure c unsent s)
/-- CONTROL_CORE_LOCKUP. -/
def execControlCoreLockup (u : Fin 78) (s : State) : Host.Outcome State Fault Refusal := .next (controlCoreLockup u s)
/-- SOURCE_RELEASE. -/
def execSourceRelease (src : RstSource) (r : Reach) (x : InputPair) (s : State) : Host.Outcome State Fault Refusal :=
  .next (sourceRelease src r x s)
/-- MANAGEMENT_START. -/
def execManagementStart (s : State) : Host.Outcome State Fault Refusal := .next (managementStart s)
/-- CLOCK_START. -/
def execClockStart (r : Reach) (s : State) : Host.Outcome State Fault Refusal := .next (clockStart r s)
/-- STRAP_SAMPLE. -/
def execStrapSample (boot clk : BitVec 2) (s : State) : Host.Outcome State Fault Refusal := .next (strapSample boot clk s)
/-- OPTION_LOADING. -/
def execOptionLoading (passes : Fin 3) (ok : Bool) (s : State) : Host.Outcome State Fault Refusal := .next (optionLoading passes ok s)
/-- HUB_START. -/
def execHubStart (s : State) : Host.Outcome State Fault Refusal := .next (hubStart s)
/-- CONFIGURATION_READ. -/
def execConfigurationRead (x : ConfigNor) (s : State) : Host.Outcome State Fault Refusal := .next (configurationRead x s)
/-- BRING_UP. -/
def execBringUp (d : Fin 36) (s : State) : Host.Outcome State Fault Refusal := .next (bringUp d s)
/-- ISLAND_EXIT. -/
def execIslandExit (i : Island) (s : State) : Host.Outcome State Fault Refusal := .next (islandExit i s)
/-- READY. -/
def execModuleReady (c0 c1 : Option (Fin 2097153)) (s : State) : Host.Outcome State Fault Refusal := .next (moduleReady c0 c1 s)
/-- REC_SNAP_ACK. -/
def execRecSnapAck (s : State) : Host.Outcome State Fault Refusal := .next (s.inTurn (.recSnapAck) (recSnapAck))
/-- BOOT_GO. -/
def execBootGo (x : FwSupply) (s : State) : Host.Outcome State Fault Refusal := .next (s.inTurn (.bootGo x) (bootGo x))
/-- REFCLK_RETURN. -/
def execRefclkReturn (s : State) : Host.Outcome State Fault Refusal := .next (refclkReturn s)
/-- TRST_N. -/
def execTrstN (low : Bool) (s : State) : Host.Outcome State Fault Refusal := .next (trstN low s)

end Sys2Proof.Machine
end

