-- ==== Sys2Proof/Machine/Gingham.lean ====
section
/-! DEFINITION. Gingham tests, fencing and the windows of suppressed records (15). -/

namespace Sys2Proof.Machine

-- Units -------------------------------------------------------------------------------------------------------------------

/-- Table 15.2: whether a unit exists. -/
def UnitRef.real (x : UnitRef) : Bool :=
  let i := x.index.toNat
  match x.kind.toNat with
  | 1 => decide (i < 512)
  | 2 => decide (i < 1024)
  | 3 => decide (i < 32)
  | 4 => if i < 128 then (bridgeEnd (i / 4) (i % 4)).isSome else hubBridges.contains (i - 128)
  | 5 => decide (i < 128)
  | 6 => decide (i < 78)
  | 7 => decide (i < 24)
  | 8 => decide (i < 4)
  | 12 => decide (i < 4)
  | 13 => decide (i < 32 * 49152)
  | _ => false

/-- The quadrant of a unit; a module-controller core counts to the quadrant whose page it serves. -/
def UnitRef.quad (x : UnitRef) : Option Nat :=
  let i := x.index.toNat
  match x.kind.toNat with
  | 1 => some (i / 128)
  | 2 => some (i / 256)
  | 3 => some (i / 8)
  | 4 => some (if i < 128 then i / 32 else (i - 128) / 8)
  | 5 => some (i / 32)
  | 6 => if i < 64 then some (i / 16) else if i < 72 then some ((i - 64) / 2) else if i < 76 then some (i - 72) else none
  | 7 => some (i / 6)
  | 8 | 12 => some i
  | 13 => some (i / 49152 / 8)
  | _ => none

/-- The partition of a unit. -/
def State.unitPart (s : State) (x : UnitRef) : Option Nat := x.quad.map s.partOfQuad

/-- Table 15.4: the number of the test that covers a unit; 0 for none. -/
def UnitRef.test (x : UnitRef) : Nat := if x.real then testKind x.kind.toNat x.index.toNat else 0

-- Running a test ----------------------------------------------------------------------------------------------------------

/-- R410: whether the unit of a deferred test stands idle. -/
def State.standsIdle (s : State) (t : Test) : Bool :=
  match s.unitPart t.target with
  | none => true
  | some p =>
    let k := s.part p
    let i := t.target.index.toNat
    let d := i / 6
    let between := match k.jcp.state with | .running | .pausing | .stopping => false | _ => true
    let aside := decide (t.target.kind = 7) &&
      (k.job.body'.descr.portExcl.getLsbD (6 * placeIn k.job.quads d + i % 6) ||
        (s.linkDie d).bonds.any (fun b => b.2.getLsbD i && (bondPorts b.2).any (fun o => decide (o ≠ i) && decide ((s.port o).state = .up))))
    between || aside

/-- Table 15.4: whether a quadrant's partition runs, so that its die meshes and bridges are in use: a partition that has withdrawn
from its step does not. -/
def State.quadRuns (s : State) (q : Nat) : Bool :=
  let k := s.part (s.partOfQuad q)
  k.jcp.state.active && k.job.withdrawn.isNone

/-- Table 15.4: the frame that a test writes, 49,152t + g: a frame's own; of a channel the one of its latest uncorrectable line (DESIGN
CHOICE, log 100). -/
def State.testFrame (s : State) (t : Test) : Option Nat :=
  let i := t.target.index.toNat
  if t.target.kind = 13 then some i
  else if t.target.kind = 2 then
    some (t.row.getD (49152 * (i / 32) + 3072 * (i % 32 / 2) + (s.chan i).lastUeAddr.toNat / 2 ^ 20 % 3072))
  else none

/-- R410 to R412, 16 R427: whether a test may begin. -/
def State.testReady (s : State) (cl : Nat) (t : Test) : Bool :=
  let x := t.target
  let awake := match s.unitPart x with
    | none => true
    | some p => decide ((s.part p).power.state = .run) && (s.part p).power.moving.isNone
  let frameOk := match s.testFrame t with
    | none => true
    | some n =>
      let f := s.frame (n / 49152) (n % 49152)
      decide (f.prot ≠ .cowPending) && (!(f.present || t.was) || (s.freeFrame (n / 49152) (n % 49152)).isSome)
  decide (x.test ≠ 0) && decide (x.cluster = cl) && awake && frameOk && (!t.deferred || s.standsIdle t) &&
    !s.rst.episodes.any (fun e => e.reach.hasUnit x || e.reach.hasCluster cl) && x.quads.all (fun q => !s.quadRuns q)

/-- R421, Table 15.8: a unit is disabled in abandon mode. -/
def State.disableUnit (s : State) (x : UnitRef) : State :=
  let g : Gingham := { s.gh with disabled := s.gh.disabled ++ [x] }
  let s1 : State := { s with gh := g, ctxs := s.ctxs.foldl (fun a c => if x.hasCtx c.1 then a.set {} c.1 c.2.abandon else a) s.ctxs }
  match x.kind.toNat with
  | 1 => s1.modCore x.index.toNat Core.stopIssue
  | 7 => (s1.quietDown x.index.toNat).dropPort (s1.partOfPort x.index.toNat) x.index.toNat
  | _ => s1

/-- R421: whether nothing of a unit is in flight. -/
def State.unitFree (s : State) (x : UnitRef) : Bool :=
  let k := s.core x.index.toNat
  (decide (x.kind ≠ 1) || (k.pass.isNone && k.drain.isNone)) && s.ctxs.all (fun c => !x.hasCtx c.1 || !c.2.state.busy)

/-- R411: what a test does to its unit as it begins: GATE_DIS of a core, a page moved out of a frame, a port in loopback. -/
def State.prepare (s : State) (t : Test) : State :=
  let i := t.target.index.toNat
  match t.target.kind.toNat with
  | 1 => s.modCore i (fun k => { k with ctrl := { k.ctrl with gateDis := true } })
  | 7 => s.modPort i (fun y => { y with enable := true, loopback := 1, state := .loopback })
  | 2 | 13 =>
    match s.testFrame t with
    | some n =>
      if t.was then
        match s.freeFrame (n / 49152) (n % 49152) with | some h => s.moveFrame (n / 49152) (n % 49152) h | none => s
      else s
    | none => s
  | _ => s

/-- What a test puts back when it ends. -/
def State.found (s : State) (x : UnitRef) : Bool :=
  match x.kind.toNat with
  | 1 => (s.core x.index.toNat).ctrl.gateDis
  | 7 => (s.port x.index.toNat).enable
  | _ => false

/-- R27: the boundary gates of the quadrants that a test takes close. -/
def State.closeGatesIn (s : State) (qs : List Nat) : State :=
  (List.range 12).foldl (fun a i => if qs.contains (gateQuads i).1 || qs.contains (gateQuads i).2 then a.setGate i false else a) s

/-- R411: the test that a cluster runs goes on: a port's, from near-end loopback, into flit loopback. -/
def State.nextHalf (s : State) (x : UnitRef) : State :=
  if decide (x.kind = 7) && decide ((s.port x.index.toNat).loopback = 1) then s.modPort x.index.toNat (fun y => { y with loopback := 3 }) else s

/-- GINGHAM_TEST (R410 to R412): a cluster that runs no test takes the first scheduled test that may begin: its unit is disabled in
abandon mode, and the test begins once nothing of it is in flight. A frame that holds a page first gets FT.PRESENT = 0, and the page is
moved before the test (09 R249). Of a cluster that runs a port's test it begins the second half (DESIGN CHOICE, log 100). -/
def ginghamTest (cl : Fin 39) (s : State) : State :=
  match s.gh.running.find? (fun x => decide (x.1 = cl.val)) with
  | some x => s.nextHalf x.2.target
  | none => match s.gh.queue.findIdx? (s.testReady cl.val) with
    | none => s
    | some i =>
      let t := s.gh.queue.getD i {}
      let was := s.found t.target || t.was
      let row := s.testFrame t
      let n := row.getD 0
      let f := s.frame (n / 49152) (n % 49152)
      if row.isSome && f.present then
        let gh : Gingham := { s.gh with queue := listSet s.gh.queue i { t with was := true, row := row } }
        ({ s with gh := gh } : State).setFrame (n / 49152) (n % 49152) { f with present := false }
      else
      let s1 := if s.gh.disabled.contains t.target then s else s.disableUnit t.target
      if !s1.unitFree t.target then s1
      else
        let s2 := s1.prepare t
        let g : Gingham := { s2.gh with queue := s2.gh.queue.eraseIdx i,
                                        running := s2.gh.running ++ [(cl.val, { t with was := was, row := row })],
                                        reqState := if t.host then 2 else s2.gh.reqState }
        (({ s2 with gh := g } : State).settleQuiesced).closeGatesIn t.target.quads

-- Fencing -----------------------------------------------------------------------------------------------------------------

/-- Table 15.5: what a lasting fault of a unit fences, a tower as its die mesh; none for a hub unit. -/
def UnitRef.fences (x : UnitRef) : Option (Nat × Nat) :=
  let i := x.index.toNat
  match x.kind.toNat with
  | 1 | 7 | 8 | 12 | 13 | 3 => some (x.kind.toNat, i)
  | 2 => some (3, i / 32)
  | 4 => some (3, if i < 128 then i / 4 else i - 128)
  | 5 => some (3, i / 4)
  | 6 => if i < 64 then some (3, i / 2) else if i < 72 then some (8, (i - 64) / 2) else none
  | _ => none

/-- The tower (3) or link die (8) that contains a fenced unit. -/
def fenceHome (kind index : Nat) : Option (Nat × Nat) :=
  match kind with
  | 1 => some (3, index / 16)
  | 3 => some (3, index)
  | 7 => some (8, index / 6)
  | 8 => some (8, index)
  | 13 => some (3, index / 49152)
  | _ => none

/-- R411: the module is held not ready. -/
def State.holdNotReady (s : State) : State :=
  let g : Gingham := { s.gh with notReady := true }
  let md : ModRegs := { s.mod with ready := false }
  { s with gh := g, mod := md }

/-- R418, 05 R125: a fence of a unit asks for a variant selection in the job of its partition; `idx` is the index of its record. -/
def State.askReselect (s : State) (kind index : Nat) (idx : BitVec 32) : State :=
  match s.unitPart ⟨BitVec.ofNat 4 kind, BitVec.ofNat 28 index⟩ with
  | none => s
  | some p =>
    if (s.part p).jcp.state.inJob && decide (kind ≠ 12) && decide (kind ≠ 13) then s.modJob p (fun j => { j with reselect := some idx }) else s

/-- R416: the retired frames of a frame's pair. -/
def State.retiredInPair (s : State) (index : Nat) : Nat :=
  (s.gh.retired.filter (fun i => decide (i / 3072 = index / 3072))).length

/-- R415, R416: a fence table entry is written with its record: FENCED, or FRAME_RETIRED for a frame. -/
def State.putFence (s : State) (i kind index : Nat) (code : BitVec 16) (cause : Nat) (part : Option Nat) : State :=
  let e : FenceEntry := { kind := BitVec.ofNat 4 kind, index := BitVec.ofNat 28 index, code := code, cause := BitVec.ofNat 8 cause,
                          valid := true }
  let g : Gingham := { s.gh with fences := s.gh.fences.set {} i e }
  let s1 : State := { s with gh := g }
  let md : ModRegs := { s1.mod with fenced := s1.fencedQuads }
  let s2 : State := { s1 with mod := md }
  let r : Report1 :=
    if kind = 13 then { code := 0x0F07, kind := 13, unit := index / 49152, frame := index % 49152, detail := s2.retiredInPair index,
                        info := index % 49152, action := 5, part := part }
    else { code := 0x0F05, kind := kind, unit := index, detail := cause, info := i, action := 5, part := part }
  (s2.logError r).askReselect kind index s2.err.wr

/-- R416: a frame is retired though the fence table does not hold it. -/
def Gingham.keepRetired (g : Gingham) (kind index : Nat) : Gingham :=
  if kind = 13 ∧ !g.retiredMore.contains index then { g with retiredMore := g.retiredMore ++ [index] } else g

/-- R417: the table is full: the entry of the whole tower or link die takes the place of those of its units; where there are none,
the module is held not ready. Frames whose entries give way stay retired (R416). -/
def State.fenceFull (s : State) (kind index : Nat) (code : BitVec 16) (part : Option Nat) : State :=
  let s0 : State := { s with gh := s.gh.keepRetired kind index }
  match fenceHome kind index with
  | none => s0.holdNotReady
  | some (k, i) =>
    if s.gh.fenced k i then s0
    else
      match s.gh.fences.filter (fun e => decide (fenceHome e.2.kind.toNat e.2.index.toNat = some (k, i))) with
      | [] => s0.holdNotReady
      | e :: rest =>
        let kept := (e :: rest).foldl (fun g x => g.keepRetired x.2.kind.toNat x.2.index.toNat) s0.gh
        let g : Gingham := { kept with fences := rest.foldl (fun m x => m.set {} x.1 {}) s.gh.fences }
        ({ s0 with gh := g } : State).putFence e.1 k i code 3 part

/-- R415, R417: a unit is fenced, in the lowest free entry of the table. -/
def State.fence (s : State) (kind index : Nat) (code : BitVec 16) (cause : Nat) (part : Option Nat) : State :=
  if s.gh.fenced kind index then s
  else match (List.range 512).find? (fun i => !(s.gh.fences.get {} i).valid) with
    | some i => s.putFence i kind index code cause part
    | none => s.fenceFull kind index code part

/-- R415: a flash area is fenced: the flash and Serge snapshots under way in it are abandoned. -/
def State.fenceArea (s : State) (q : Nat) : State :=
  let p := s.partOfQuad q
  (s.abandonFlash p).modJob p (fun j => { j with serge := [] })

/-- R415, R416: a unit is fenced, with what its fence ends; a retired frame is vacated (09 R249), and the 16th of one pair fences the
tower. -/
def State.fenceUnit (s : State) (kind index : Nat) (code : BitVec 16) (cause : Nat) (part : Option Nat) : State :=
  let s0 := s.fence kind index code cause part
  let s1 := if kind = 13 then s0.vacate index else if kind = 12 then s0.fenceArea index else s0
  if decide (kind = 13) && !s.gh.retired.contains index && decide (s1.retiredInPair index = 16) then
    s1.fence 3 (index / 49152) code 4 part
  else s1

-- Ending a test -----------------------------------------------------------------------------------------------------------

/-- The key of a unit's transient count. -/
def UnitRef.key (x : UnitRef) : Nat := x.kind.toNat * 2 ^ 28 + x.index.toNat

/-- R413: a lasting fault: GH_FAIL with the first failing address, and what Table 15.5 fences. `code` says that a channel's code check
failed; a channel's row test condemns the frame of the failing address. -/
def State.lasting (s : State) (t : Test) (cause addr : Nat) (code : Bool) : State :=
  let x := t.target
  let i := x.index.toNat
  let part := t.part.map BitVec.toNat
  let code := code && (decide (x.kind = 2) || decide (x.kind = 13))
  let what : Option (Nat × Nat) :=
    if code then some (3, if x.kind = 13 then i / 49152 else i / 32)
    else if x.kind = 2 ∧ cause = 0 then some (13, 49152 * (i / 32) + 3072 * (i % 32 / 2) + addr / 2 ^ 20 % 3072)
    else x.fences
  let s1 := s.logError (t.report 0x0F02 t.kind addr (if what.isNone then 7 else 5))
  match what with
  | none => s1.holdNotReady
  | some (k, j) => s1.fenceUnit k j t.code cause part

/-- R413: what a test leaves of its unit: a core's stores are undefined, a port is as it was found. -/
def State.restoreUnit (s : State) (t : Test) : State :=
  let i := t.target.index.toNat
  match t.target.kind.toNat with
  | 1 => s.modCore i (fun k => { k with ctrl := { k.ctrl with gateDis := t.was }, slots := [], stores := { epoch := k.stores.epoch + 1 } })
  | 7 => (s.modPort i (fun y => { y with loopback := 0, enable := t.was, state := if t.was then .signal else .disabled })).returnPort
      (s.partOfPort i) i
  | _ => s

/-- 12 R349: a tower or a link die with a unit that returns from its test. -/
def State.comesBack (s : State) (x : UnitRef) : State :=
  let u : Option Nat := match (if x.kind = 13 then none else x.fences) with
    | some (k, j) => (fenceHome k j).map (fun h => if h.1 = 3 then h.2 else 32 + h.2)
    | none => none
  match u with
  | some n => if s.returned.contains n then s else { s with returned := s.returned ++ [n] }
  | none => s

/-- R413, R407, 12 R346: after a test of a unit of a partition that has withdrawn, with no further test and no fence to place, the
partition rejoins; the partition's target is evaluated (16 R427), and commands that waited go on. -/
def State.afterTest (s : State) (t : Test) : State :=
  match t.part with
  | none => s.retryCmds
  | some b =>
    let p := b.toNat
    let k := s.part p
    let more := s.gh.queue.any (fun x => !x.deferred && decide (x.part = t.part)) || s.gh.running.any (fun x => decide (x.2.part = t.part))
    let s1 := if k.job.withdrawn.isSome && k.jcp.state.active && !k.job.hold && k.job.reselect.isNone && !more && !t.deferred then
      s.rejoinNow p else s
    (s1.retarget p).retryCmds

/-- R411: whether a test that has not failed has run whole: a port's both loopbacks. -/
def State.wholeTest (s : State) (t : Test) : Bool := decide (t.target.kind ≠ 7) || decide ((s.port t.target.index.toNat).loopback = 3)

/-- GINGHAM_TEST_COMPLETE (R413, R415): the test that a cluster runs ends. -/
def ginghamTestComplete (cl : Fin 39) (e : TestEnd) (s : State) : State :=
  match s.gh.running.find? (fun x => decide (x.1 = cl.val)) with
  | none => s
  | some (_, t) =>
    let g := s.gh
    let n := g.counts.get 0 t.target.key + 1
    let pass := match e with | .pass => true | _ => false
    let good := pass && decide (n < g.repeatLimit.toNat)
    if pass && !s.wholeTest t then s else
    let g1 : Gingham := { g with
      running := g.running.filter (fun x => decide (x.1 ≠ cl.val)), disabled := g.disabled.filter (fun x => decide (x ≠ t.target)),
      tests := g.tests + 1, transient := if pass then g.transient + 1 else g.transient,
      counts := if pass then g.counts.set 0 t.target.key n else g.counts,
      reqState := if t.host then (if good then 3 else 4) else g.reqState }
    let s1 := ((({ s with gh := g1 } : State).settleQuiesced).restoreUnit t).openGates
    let s2 := match e with
      | .pass =>
        if good then (s1.logError (t.report 0x0F01 t.kind t.cause.toNat 0)).comesBack t.target
        else s1.drawn.lasting t 1 (Config.freeWord64 s1.freeCounter).toNat false
      | .fail a => s1.lasting t 0 a.toNat false
      | .codeFail a => s1.lasting t 0 a.toNat true
    s2.afterTest t

-- Corrected errors --------------------------------------------------------------------------------------------------------

/-- R409: a unit that shows 256 or more corrections in one read; of a unit under test they are part of its outcome (R414). -/
def State.ceStorm (s : State) (kind unit n : Nat) (part : Nat) : State :=
  if n < 256 || s.underTest kind unit ⟨BitVec.ofNat 4 kind, BitVec.ofNat 28 unit⟩ then s
  else
    let idx := s.err.wr
    (s.logError { code := 0x0F04, kind := kind, unit := unit, detail := n, action := 1, part := some part }).schedule
      { target := { kind := BitVec.ofNat 4 kind, index := BitVec.ofNat 28 unit }, deferred := true, cause := idx, code := 0x0F04,
        part := some (BitVec.ofNat 2 part) }

/-- CE_POLL (R409): the die control cluster of a tower reads CORE.SRAM_CE_COUNT and CHN.CE_COUNT of its units, which the read
clears but for the errors corrected in the read's own cycle (00 R14): `coreNow` of the cores, `chanNow` of the channels. A cluster whose
clock is stopped counts no cycles (01 R33). -/
def cePoll (t : TowerId) (coreNow chanNow : List Nat) (s : State) : State :=
  let p := s.partOfTower t.val
  if s.clusterStopped t.val then s else
  let s1 := (List.range 16).foldl (fun a n =>
    let c := 16 * t.val + n
    (a.modCore c (fun k => { k with sramCe := rcRead k.sramCe (coreNow.getD n 0) })).ceStorm 1 c (a.core c).sramCe.toNat p) s
  let s2 := (List.range 32).foldl (fun a n =>
    let c := 32 * t.val + n
    (a.setChan c { a.chan c with ceCount := rcRead (a.chan c).ceCount (chanNow.getD n 0) }).ceStorm 2 c (a.chan c).ceCount.toNat p) s1
  s2.retarget p

-- Suppression -------------------------------------------------------------------------------------------------------------

/-- R405: the control cluster whose core writes the records of a suppressed pair. -/
def State.windowOf (s : State) (x : Suppress) : Nat :=
  clusterOfCore (s.writer x.code.toNat x.unitKind.toNat x.unit.toNat (x.part.map BitVec.toNat))

/-- SUPPRESSION_WINDOW_EXPIRE (R405): outside a job, 2^20 cycles of a writer's cluster end. -/
def suppressionWindowExpire (cl : Fin 39) (s : State) : State :=
  let outside (x : Suppress) : Bool :=
    decide (s.windowOf x = cl.val) &&
      (match x.part with | none => true | some p => !(s.part p.toNat).jcp.state.inJob)
  if s.clusterStopped cl.val then s else
  let er : ErrLog := { s.err with suppress := s.err.suppress.filter (fun x => !outside x) }
  (s.err.suppress.filter outside).foldl (fun a x =>
    if x.count = 0 then a
    else a.writeRecord (a.record x.summary x.count)) { s with err := er }

-- Host requests -----------------------------------------------------------------------------------------------------------

/-- R419: a job state in which the host may ask for a test. -/
def JobState.testable : JobState → Bool
  | .idle | .done | .failed | .refused => true
  | _ => false

/-- GH_REQ (R419): a keyed write of GH.REQ asks for a test of a unit, or is refused. GH.REQ_STATE follows the latest request alone. The cause
index of a requested test is open. -/
def ghReq (key : BitVec 8) (kind : BitVec 4) (unit : BitVec 12) (s : State) : State :=
  let x : UnitRef := { kind := kind, index := unit.setWidth 28 }
  let ok := decide (kind ≠ 13) && decide (x.test ≠ 0) &&
    (match s.unitPart x with | some p => (s.part p).jcp.state.testable | none => false)
  if key ≠ 0x47 then s
  else if !ok then
    let g : Gingham := { s.gh with reqRefused := true }
    { s with gh := g }
  else
    let old (y : Test) : Test := { y with host := false }
    let g : Gingham := { s.gh with reqState := 1, queue := s.gh.queue.map old, running := s.gh.running.map (fun y => (y.1, old y.2)) }
    let t : Test := { target := x, cause := (Config.freeWord64 s.freeCounter).setWidth 32, host := true,
                      part := (s.unitPart x).map (BitVec.ofNat 2) }
    let s1 := ({ s with gh := g } : State).drawn.schedule t
    match s.unitPart x with | some p => s1.retarget p | none => s1

/-- GH_CLR_COUNTS (R413). -/
def ghClrCounts (s : State) : State :=
  let g : Gingham := { s.gh with counts := [] }
  { s with gh := g }

/-- Table 15.6's bits. -/
def FenceEntry.ofBits (v : BitVec 64) : FenceEntry :=
  { kind := BitVec.ofNat 4 (bitsAt v.toNat 60 4), index := BitVec.ofNat 28 (bitsAt v.toNat 32 28), code := BitVec.ofNat 16 (bitsAt v.toNat 16 16),
    cause := BitVec.ofNat 8 (bitsAt v.toNat 8 8) }

/-- R419: the kinds of Table 15.2 that Table 15.5 fences. -/
def fenceable (x : UnitRef) : Bool := [1, 3, 7, 8, 12, 13].contains x.kind.toNat && x.real

/-- FENCE_ADD (R419): a keyed write of FENCE.CTRL adds FENCE.ARG with FE.CAUSE = 2, refused when the table is full, for an invalid kind
and for a unit under test (R414). -/
def fenceAdd (key : BitVec 8) (s : State) : State :=
  let e := FenceEntry.ofBits s.gh.fenceArg
  let x : UnitRef := { kind := e.kind, index := e.index }
  let full := (List.range 512).all (fun i => (s.gh.fences.get {} i).valid)
  let tested := s.gh.running.any (fun t => decide (t.2.target = x) || decide (t.2.target.fences = some (x.kind.toNat, x.index.toNat)))
  if key ≠ 0x46 then s
  else if full || !fenceable x || tested then
    let g : Gingham := { s.gh with fenceRefused := true }
    { s with gh := g }
  else s.fenceUnit x.kind.toNat x.index.toNat e.code 2 (s.unitPart x)

/-- FENCE_REMOVE (R418, R419): a keyed write of FENCE.CTRL removes an entry. The unit's tower or link die is stale at its next join
(12 R349), and the unit must pass a test before it contributes. -/
def fenceRemove (key : BitVec 8) (i : Fin 512) (s : State) : State :=
  let e := s.gh.fences.get {} i.val
  let x : UnitRef := { kind := e.kind, index := e.index }
  if key ≠ 0x46 ∨ e.valid = false then s
  else
    let g : Gingham := { s.gh with fences := s.gh.fences.set {} i.val {} }
    let s1 : State := { s with gh := g }
    let md : ModRegs := { s1.mod with fenced := s1.fencedQuads }
    let p := s.unitPart x
    let idx := s.err.wr
    let s2 := ({ s1 with mod := md } : State).logError
      { code := 0x0F06, kind := e.kind.toNat, unit := if e.kind = 13 then e.index.toNat / 49152 else e.index.toNat, info := i.val,
        frame := if e.kind = 13 then e.index.toNat % 49152 else 0, part := p }
    let s3 : State := match (if e.kind = 13 then none else fenceHome e.kind.toNat e.index.toNat) with
      | none => s2
      | some h =>
        let u := if h.1 = 3 then h.2 else 32 + h.2
        { s2 with fromFence := if s2.fromFence.contains u then s2.fromFence else s2.fromFence ++ [u] }
    if x.test = 0 then s3
    else
      let s4 := s3.schedule { target := x, cause := idx, code := 0x0F06, part := p.map (BitVec.ofNat 2) }
      match p with | some n => s4.retarget n | none => s4

/-- GINGHAM_TEST. -/
def execGinghamTest (cl : Fin 39) (s : State) : Host.Outcome State Fault Refusal := .next (ginghamTest cl s)
/-- GINGHAM_TEST_COMPLETE. -/
def execGinghamTestComplete (cl : Fin 39) (e : TestEnd) (s : State) : Host.Outcome State Fault Refusal := .next (ginghamTestComplete cl e s)
/-- CE_POLL. -/
def execCePoll (x : CePoll) (s : State) : Host.Outcome State Fault Refusal :=
  .next (cePoll x.tower x.coreNow x.chanNow s)
/-- SUPPRESSION_WINDOW_EXPIRE. -/
def execSuppressionWindowExpire (cl : Fin 39) (s : State) : Host.Outcome State Fault Refusal := .next (suppressionWindowExpire cl s)
/-- GH_REQ. -/
def execGhReq (key : BitVec 8) (kind : BitVec 4) (unit : BitVec 12) (s : State) : Host.Outcome State Fault Refusal :=
  .next (s.inTurn (.ghReq key kind unit) (ghReq key kind unit))
/-- GH_CLR_COUNTS. -/
def execGhClrCounts (s : State) : Host.Outcome State Fault Refusal := .next (s.inTurn (.ghClrCounts) (ghClrCounts))
/-- FENCE_ADD. -/
def execFenceAdd (key : BitVec 8) (s : State) : Host.Outcome State Fault Refusal := .next (s.inTurn (.fenceAdd key) (fenceAdd key))
/-- FENCE_REMOVE. -/
def execFenceRemove (key : BitVec 8) (i : Fin 512) (s : State) : Host.Outcome State Fault Refusal :=
  .next (s.inTurn (.fenceRemove key i) (fenceRemove key i))

end Sys2Proof.Machine
end

