-- ==== Sys2Proof/Machine/Meter.lean ====
section
/-! DEFINITION. The sealed energy meter and the view that the module has of it (17). -/

namespace Sys2Proof.Machine

/-- The state with the meter replaced. -/
def State.setMeter (s : State) (m : Meter) : State := { s with meter := m }

/-- R446: an event enters the log unless it is full. -/
def Meter.logEvent (m : Meter) (kind : BitVec 8) (detail : BitVec 64) : Meter :=
  if 65536 ≤ m.log.length then m
  else
    let e : MeterEvent := { e48 := m.regs.e48, seconds := m.regs.seconds, detail := detail, index := BitVec.ofNat 32 m.log.length, kind := kind }
    { m with log := m.log ++ [e] }

/-- R442: the registers and counters committed. -/
def Meter.commit (m : Meter) : Meter := { m with committed := m.regs }

-- Sampling ----------------------------------------------------------------------------------------------------------------

/-- R442, Table 17.1: energy of a sample: the product of its readings, and what stays below 1 mWh; `unit` products make 1 mWh. -/
def integrate (e : BitVec 64) (rest product unit : Nat) : BitVec 64 × Nat := (e + BitVec.ofNat 64 ((rest + product) / unit), (rest + product) % unit)

/-- R445: the samples of the 48 V channel, 8,000 a second, that a signature takes: about 20 ms (DESIGN CHOICE, log 12). -/
def signingTicks : Nat := 160

-- Records -----------------------------------------------------------------------------------------------------------------

/-- Table 17.2: the 192 bytes of a record's body. -/
def Meter.body (m : Meter) (nonce : BitVec 256) (kind : Nat) : List Byte :=
  bytesOf (bitOf (!m.sealed) * 2 ^ 459 + bitOf (decide (65536 ≤ m.log.length)) * 2 ^ 460 + bitOf m.holdupSeen * 2 ^ 461 +
    bitOf m.overSeen * 2 ^ 462 + bitOf m.selfCheckFail * 2 ^ 463 + kind * 2 ^ 472 + m.regs.interruptions.toNat * 2 ^ 480 +
    m.log.length * 2 ^ 512 + m.i12.toNat * 2 ^ 544 + m.v12.toNat * 2 ^ 560 + m.i48.toNat * 2 ^ 576 + m.v48.toNat * 2 ^ 592 +
    m.regs.e12.toNat * 2 ^ 608 + m.regs.e48.toNat * 2 ^ 672 + m.regs.seconds.toNat * 2 ^ 736 + m.regs.seq.toNat * 2 ^ 800 +
    m.moduleId.toNat * 2 ^ 864 + m.meterId.toNat * 2 ^ 928 + 0x4D455452 * 2 ^ 992 + m.fwSum.toNat * 2 ^ 1024 + nonce.toNat * 2 ^ 1280) 192

/-- R444: a signature area: the length, the signature of the bytes in a context as draw `n`, zeros. -/
def Meter.signatureArea (m : Meter) (n : Nat) (c : SigContext) (bs : List Byte) : List Byte :=
  let sig := signature true m.privateKey n (sigMessage c (digestOf bs))
  bytesOf sig.length 2 ++ padTo 1470 sig

/-- Table 17.3: the 32 bytes of a log entry. -/
def MeterEvent.bytes (e : MeterEvent) : List Byte :=
  bytesOf (e.kind.toNat + e.index.toNat * 2 ^ 32 + e.detail.toNat * 2 ^ 64 + e.seconds.toNat * 2 ^ 128 + e.e48.toNat * 2 ^ 192) 32

/-- Table 17.5: a log extract: its header, whose fields lie in the order the table names them, and up to `count` entries. -/
def Meter.extract (m : Meter) (nonce : BitVec 256) (first : BitVec 32) (count : BitVec 8) : List Byte :=
  let head := bytesOf nonce.toNat 32 ++ (bytesOf m.regs.seq.toNat 8 ++ (bytesOf m.log.length 4 ++ (bytesOf first.toNat 4 ++
    (bytesOf count.toNat 1 ++ List.replicate 15 0))))
  head ++ ((m.log.drop first.toNat).take count.toNat).flatMap MeterEvent.bytes

/-- R442, R445: the engine begins a signature: of a record, MR.SEQ advances, the registers are committed and every value is sampled now. -/
def Meter.beginSigning (m : Meter) (a : MeterAsk) : Meter :=
  let next := ({ m with regs := { m.regs with seq := m.regs.seq + 1 } } : Meter).commit
  match a with
  | .broadcast => { next with signing := some { ask := a, bytes := next.body 0 0 } }
  | .read _ nonce => { next with signing := some { ask := a, bytes := next.body nonce 1 } }
  | .log _ nonce first count => { m with signing := some { ask := a, bytes := m.extract nonce first count } }

/-- R445: what asks for a signature is served at once where the engine is idle, else in order of arrival. -/
def Meter.ask (m : Meter) (a : MeterAsk) : Meter :=
  if m.signing.isNone then m.beginSigning a else { m with waiting := m.waiting ++ [a] }

/-- R445: the engine is free: the oldest of what waits begins. -/
def Meter.nextSigning (m : Meter) : Meter :=
  match m.waiting with
  | [] => { m with signing := none }
  | a :: t => ({ m with signing := none, waiting := t } : Meter).beginSigning a

/-- Table 17.4: a frame. -/
def frameOf (code : Nat) (tag : BitVec 16) (payload : List Byte) : List Byte :=
  let b := [0xA7, BitVec.ofNat 8 code] ++ (bytesOf tag.toNat 2 ++ (bytesOf payload.length 4 ++ payload))
  b ++ bytesOf (crc32 b).toNat 4

/-- R448: the meter, which runs, answers with a frame. -/
def State.answer (s : State) (code : Nat) (tag : BitVec 16) (payload : List Byte) : State :=
  { s with out := s.out ++ [OutMsg.meterTx (frameOf code tag payload)] }

/-- R444, R445, R449: a signature is made: the record goes to the management controller or is the response, and what waits begins. -/
def State.endSigning (s : State) (x : MeterSigning) : State :=
  let m := s.meter
  let s1 : State := { s with freeCounter := s.freeCounter + 1 }
  let done (c : SigContext) : List Byte := x.bytes ++ m.signatureArea s.freeCounter c x.bytes
  let s2 := match x.ask with
    | .broadcast => s1.setMeter { m with line := some (done .meterRecord) }
    | .read tag _ => s1.answer 0x82 tag (done .meterRecord)
    | .log tag _ _ _ => s1.answer 0x83 tag (done .meterLog)
  s2.setMeter s2.meter.nextSigning

/-- R445: a sample's time passes for the signing engine. -/
def State.meterTick (s : State) : State :=
  match s.meter.signing with
  | none => s
  | some x =>
    if x.ticks + 1 < signingTicks then s.setMeter { s.meter with signing := some { x with ticks := x.ticks + 1 } } else s.endSigning x

/-- METER_SAMPLE (R440, R442, R445, Table 17.1): one of the 8,000 samples of a second of a channel: volts in 10 mV; amperes in 0.1 A on the
48 V channel, in 10 mA on the 12 V channel. Below the starting current no energy is recorded; above the measured range the channel
reads its top, and OVERRANGE is logged as the range is left. A self-check that fails is logged once a start. -/
def meterSample (ch12 : Bool) (v i : BitVec 16) (selfFail : Bool) (s : State) : State :=
  let m := s.meter
  if !m.running then s
  else
    let top := if ch12 then 800 else 3000
    let beyond := decide (top < i.toNat)
    let amps := if beyond then top else i.toNat
    let product := if amps < (if ch12 then 2 else 5) then 0 else v.toNat * amps
    let was := if ch12 then m.over12 else m.over48
    let reading := BitVec.ofNat 16 amps
    let m1 : Meter :=
      if ch12 then
        let (e, r) := integrate m.regs.e12 m.rest12 product 288000000
        { m with regs := { m.regs with e12 := e }, rest12 := r, v12 := v, i12 := reading, over12 := beyond }
      else
        let (e, r) := integrate m.regs.e48 m.rest48 product 28800000
        { m with regs := { m.regs with e48 := e }, rest48 := r, v48 := v, i48 := reading, over48 := beyond }
    let m2 := if beyond && !was then ({ m1 with overSeen := true } : Meter).logEvent 7 (if ch12 then 1 else 0) else m1
    let m3 := if selfFail && !m.selfCheckFail then ({ m2 with selfCheckFail := true } : Meter).logEvent 6 0 else m2
    if ch12 then s.setMeter m3 else (s.setMeter m3).meterTick

-- Records and the supply --------------------------------------------------------------------------------------------------

/-- METER_BROADCAST (R443, R445): a whole second: a broadcast record for the management controller is signed. -/
def meterBroadcast (s : State) : State :=
  let m := s.meter
  if !m.running then s
  else s.setMeter (({ m with regs := { m.regs with seconds := m.regs.seconds + 1 } } : Meter).ask .broadcast)

/-- R451: the last frame on METER_TX is cut after `n` of its bytes. -/
def cutFrame (n : Nat) : List OutMsg → List OutMsg
  | [] => []
  | x :: t =>
    if t.any (fun y => match y with | .meterTx _ => true | _ => false) then x :: cutFrame n t
    else match x with | .meterTx b => .meterTx (b.take n) :: t | _ => x :: cutFrame n t

/-- R451: a loss of 12 V during a response cuts its frame. -/
def State.cutResponse (s : State) (cut : Option Nat) : State :=
  match cut with | some n => { s with out := cutFrame n s.out } | none => s

/-- HOLDUP_COMMIT (R442, R446, R451): 12 V falls below 10.5 V: the registers are committed on hold-up and SUPPLY_LOSS is logged, or the
commit fails. The meter then stops; a response of which `cut` bytes have left is cut. -/
def holdupCommit (ok : Bool) (cut : Option Nat) (s : State) : State :=
  let m : Meter := { s.meter with signing := none, waiting := [], holdup := false }
  if !s.meter.running && !s.meter.holdup then s
  else if ok then
    let m1 : Meter := { m with regs := { m.regs with interruptions := satAdd m.regs.interruptions 1 } }
    let m2 := (m1.logEvent 1 0).commit
    (s.cutResponse cut).setMeter { m2 with running := false }
  else (s.cutResponse cut).setMeter { m with running := false, commitLost := true }

/-- METER_START (R441 to R443, R446, R447): the meter starts, while 12 V is present, from what it has committed: a hold-up commit that failed or
was never made and
the return of supply are logged, the firmware sum where it differs from the one logged last, and a break that the cell has latched. -/
def meterStart (fwSum : BitVec 256) (s : State) : State :=
  let m := s.meter
  if m.running || !s.power12 then s
  else
    let c := m.committed
    let m1 : Meter := { m with running := true, holdup := false, signing := none, waiting := [], regs := c, rest48 := 0, rest12 := 0, selfCheckFail := false, over48 := false, over12 := false,
                               fwSum := fwSum, line := none }
    let m2 := if m.commitLost || m.holdup then
      ({ m1 with regs := { c with interruptions := satAdd c.interruptions 1 }, commitLost := false, holdupSeen := true } : Meter).logEvent 5 c.seq
      else m1
    let m3 := m2.logEvent 2 0
    let m4 := if m3.fwLogged = some fwSum then m3 else ({ m3 with fwLogged := some fwSum } : Meter).logEvent 4 (fwSum.setWidth 64)
    let m5 := if m.cell && m.sealed then ({ m4 with sealed := false } : Meter).logEvent 3 0 else m4
    s.setMeter m5.commit

/-- SEAL_BROKEN (R447): the seal loop opens: latched and logged once, or, unpowered, latched in the cell. -/
def sealBroken (s : State) : State :=
  let m := s.meter
  if !m.running then s.setMeter { m with cell := true }
  else if m.sealed then s.setMeter (({ m with sealed := false } : Meter).logEvent 3 0)
  else s

-- The external port -------------------------------------------------------------------------------------------------------

/-- R449: payload byte 0 of an ERROR. -/
def MeterFault.byte (f : MeterFault) : Byte := match f with | .frame => 1 | .code => 2 | .busy => 3

/-- R449: whether two requests already wait. -/
def Meter.busy (m : Meter) : Bool := decide (2 ≤ (m.waiting.filter (fun a => decide (a ≠ .broadcast))).length)

/-- R449: a request that arrives while the meter runs: BUSY where two already wait. -/
def State.onPort (s : State) (tag : BitVec 16) (f : State → State) : State :=
  if !s.meter.running then s else if s.meter.busy then s.answer 0xFE tag [MeterFault.busy.byte] else f s

/-- GET_INFO (R449). -/
def getInfo (tag : BitVec 16) (s : State) : State :=
  s.onPort tag (fun a =>
    let m := a.meter
    a.answer 0x81 tag (bytesOf m.meterId.toNat 8 ++ (bytesOf m.moduleId.toNat 8 ++ (bytesOf m.fwVersion.toNat 4 ++ bytesOf m.fwSum.toNat 32))))

/-- READ (R445, R449): the record is sampled when its own signing starts. -/
def meterRead (tag : BitVec 16) (nonce : BitVec 256) (s : State) : State :=
  s.onPort tag (fun a => a.setMeter (a.meter.ask (.read tag nonce)))

/-- READ_LOG (R449): up to 32 entries, signed with their header; a count outside 1 to 32 is answered with ERROR. -/
def readLog (tag : BitVec 16) (nonce : BitVec 256) (first : BitVec 32) (count : BitVec 8) (s : State) : State :=
  s.onPort tag (fun a =>
    if count = 0 ∨ 32 < count.toNat then a.answer 0xFE tag [MeterFault.frame.byte]
    else a.setMeter (a.meter.ask (.log tag nonce first count)))

/-- GET_CERT (R449, R450). -/
def getCert (tag : BitVec 16) (s : State) : State := s.onPort tag (fun a => a.answer 0x84 tag a.meter.cert)

/-- Table 17.5: the payload bytes of a command; none for an unknown code. -/
def payloadOf (code : Nat) : Option Nat :=
  match code with
  | 1 => some 0 | 2 => some 32 | 3 => some 37 | 4 => some 0 | _ => none

/-- Table 17.4: FR.TAG of the bytes of a frame. -/
def frameTag (bs : List Byte) : BitVec 16 := BitVec.ofNat 16 (ofBytes ((bs.drop 2).take 2))

/-- R449: what is wrong with the bytes of a frame, but for BUSY: FR.SYNC, FR.LEN or FR.CRC; then FR.CODE. -/
def frameFault (bs : List Byte) : Option MeterFault :=
  let code := (bs.getD 1 0).toNat
  let n := ofBytes ((bs.drop 4).take 4)
  if !(decide (bs.head? = some 0xA7) && decide (bs.length = 12 + n) &&
      decide (ofBytes (bs.drop (8 + n)) = (crc32 (bs.take (8 + n))).toNat)) then some .frame
  else match payloadOf code with
    | none => some .code
    | some k => if k = n then none else some .frame

/-- ERROR (R449): a frame that is answered with ERROR has no other effect; one with nothing wrong is the command that it spells. -/
def meterError (bs : List Byte) (s : State) : State :=
  let tag := frameTag bs
  let nonce := BitVec.ofNat 256 (ofBytes ((bs.drop 8).take 32))
  match frameFault bs with
  | some f => if !s.meter.running then s else s.answer 0xFE tag [f.byte]
  | none => match (bs.getD 1 0).toNat with
    | 1 => getInfo tag s
    | 2 => meterRead tag nonce s
    | 3 => readLog tag nonce (BitVec.ofNat 32 (ofBytes ((bs.drop 40).take 4))) (BitVec.ofNat 8 (bs.getD 44 0).toNat) s
    | _ => getCert tag s

/-- FRAME_GAP_TIMEOUT (R449): a gap inside a frame discards the frame: a frame that has not ended is no command, and nothing changes. -/
def frameGapTimeout (s : State) : State := s

-- The management controller ------------------------------------------------------------------------------------------------

/-- METER_RECORD_RECEIVE (R452): the management controller takes the broadcast record on its line: a record that fails its CRC or its
signature is discarded and counted, another is copied into the view. -/
def meterRecordReceive (crcOk sigOk : Bool) (s : State) : State :=
  match s.meter.line with
  | none => s
  | some r =>
    let x := s.meterView
    let s1 := s.setMeter { s.meter with line := none }
    if !s.rst.mgmtUp then s1
    else if !(crcOk && sigOk) then
      let y : MeterView := { x with rejected := satAdd x.rejected 1, sigBad := true }
      { s1 with meterView := y }
    else
      let broken := (ofBytes (r.take 192)).testBit 459
      let y : MeterView := { x with age := 0, gen := x.gen + 2, sealBroken := broken, stale := false, sigBad := false, record := r.take 192,
                                    signature := r.drop 192 }
      let s2 : State := { s1 with meterView := y }
      let s3 := if x.stale then s2.postNotice (.meterStale false) else s2
      if broken ≠ x.sealBroken then s3.postNotice .sealBroken else s3

/-- METER_STALE (R452, Table 17.6): milliseconds since the last accepted record, which only grow until there is another; at 3,000 the view is
stale. -/
def meterStale (ms : Nat) (s : State) : State :=
  let x := s.meterView
  if !s.rst.mgmtUp then s
  else
    let age := max x.age.toNat (min ms 65535)
    let old := decide (3000 ≤ age)
    let y : MeterView := { x with age := BitVec.ofNat 16 age, stale := x.stale || old }
    let s1 : State := { s with meterView := y }
    if old && !x.stale then s1.postNotice (.meterStale true) else s1

/-- METER_SAMPLE. -/
def execMeterSample (ch12 : Bool) (v i : BitVec 16) (selfFail : Bool) (s : State) : Host.Outcome State Fault Refusal :=
  .next (meterSample ch12 v i selfFail s)
/-- METER_BROADCAST. -/
def execMeterBroadcast (s : State) : Host.Outcome State Fault Refusal := .next (meterBroadcast s)
/-- HOLDUP_COMMIT. -/
def execHoldupCommit (x : Holdup) (s : State) : Host.Outcome State Fault Refusal := .next (holdupCommit x.ok x.cut s)
/-- METER_START. -/
def execMeterStart (fwSum : BitVec 256) (s : State) : Host.Outcome State Fault Refusal := .next (meterStart fwSum s)
/-- SEAL_BROKEN. -/
def execSealBroken (s : State) : Host.Outcome State Fault Refusal := .next (sealBroken s)
/-- GET_INFO. -/
def execGetInfo (tag : BitVec 16) (s : State) : Host.Outcome State Fault Refusal := .next (getInfo tag s)
/-- READ. -/
def execMeterRead (tag : BitVec 16) (nonce : BitVec 256) (s : State) : Host.Outcome State Fault Refusal := .next (meterRead tag nonce s)
/-- READ_LOG. -/
def execReadLog (tag : BitVec 16) (nonce : BitVec 256) (first : BitVec 32) (count : BitVec 8) (s : State) : Host.Outcome State Fault Refusal :=
  .next (readLog tag nonce first count s)
/-- GET_CERT. -/
def execGetCert (tag : BitVec 16) (s : State) : Host.Outcome State Fault Refusal := .next (getCert tag s)
/-- FRAME_GAP_TIMEOUT. -/
def execFrameGapTimeout (s : State) : Host.Outcome State Fault Refusal := .next (frameGapTimeout s)
/-- ERROR: the frame is its header's bytes and then the rest. -/
def execMeterError (header rest : List Byte) (s : State) : Host.Outcome State Fault Refusal := .next (meterError (header ++ rest) s)
/-- METER_RECORD_RECEIVE. -/
def execMeterRecordReceive (crcOk sigOk : Bool) (s : State) : Host.Outcome State Fault Refusal := .next (meterRecordReceive crcOk sigOk s)
/-- METER_STALE. -/
def execMeterStale (ms : Nat) (s : State) : Host.Outcome State Fault Refusal := .next (meterStale ms s)

end Sys2Proof.Machine
end

