-- ==== Sys2Proof/Machine/Power.lean ====
section
/-! DEFINITION. Power states, throttling, the coolant and calibration (16). -/

namespace Sys2Proof.Machine

/-- The state with its power block replaced. -/
def State.setPwr (s : State) (x : Power) : State := { s with pwr := x }

-- Power states ------------------------------------------------------------------------------------------------------------

/-- R428: with every partition in Standby and PWR.HUB_OFF_EN = 1 the hub bank is switched off; the host link goes down. -/
def State.maybeHubOff (s : State) : State :=
  let all := (List.range 4).all (fun p => (s.quadsOf p).isEmpty ||
    (decide ((s.part p).power.state = .standby) && (s.part p).power.moving.isNone))
  if !(all && s.pwr.hubOffEn) then s
  else
    let md : ModRegs := { s.mod with ready := false }
    let rs : RstRegs := { s.rst with hostLink := false }
    { s with hubOff := true, banksOff := s.banksOff ||| 16, mod := md, rst := rs }

/-- The entries of a map at other keys. -/
def moveKeys {α : Type} [DecidableEq α] (d : α) (m : FMap α) (f : Nat → Nat) : FMap α :=
  m.foldl (fun a x => FMap.set d a (f x.1) x.2) []

/-- R425, R427, 09 R253: what Retain and Standby take from a partition: its islands stop or lose their supply, the DRAM goes into
self-refresh, the ports are disabled; the frame tables and address maps are lost but for their mirrors in the control reserve (09 R243).
That the registers of the cores, contexts, channels and link dies do not outlive their supply, but for what
`Core.unpowered` keeps, is the model's reading (DEDUCED, log 104). -/
def State.stopPart (s : State) (p : Nat) : State :=
  let s1 : State := { s with
    cores := s.cores.tab {} 512 (fun c => decide (s.partOfCore c = p)) Core.unpowered
    ctxs := s.ctxs.filter (fun x => decide (s.partOfTower (ctxTower x.1) ≠ p))
    channels := s.channels.tab {} 1024 (fun k => decide (s.partOfTower (k / 32) = p)) Channel.reset
    linkDies := s.linkDies.filter (fun x => decide (s.partOfQuad x.1 ≠ p))
    amaps := moveKeys {} s.amaps (fun k => if k / 1024 < 32 && decide (s.partOfTower (k / 1024) = p) then k + 1024 * 32 else k)
    frames := moveKeys {} s.frames (fun k => if k / 49152 < 32 && decide (s.partOfTower (k / 49152) = p) then k + 49152 * 32 else k) }
  (List.range 24).foldl (fun a i => if s.partOfPort i = p then a.quietDown i else a) s1

/-- R425, R426, 09 R253, 18 R458: what Standby takes besides: the banks, the memory and its tables, the far-tier pages; every unit's
recorded epoch is 0. -/
def State.losePart (s : State) (p : Nat) : State :=
  let qs := s.quadsOf p
  let ts := s.towersOf p
  let mine (t : Nat) : Bool := ts.contains t
  let s1 : State := { s with
    banksOff := s.banksOff ||| BitVec.ofNat 5 ((qs.map (fun q => 2 ^ q)).sum)
    dramLost := s.dramLost ++ ts.filter (fun t => !s.dramLost.contains t)
    frames := s.frames.filter (fun x => !mine (x.1 / 49152 % 32))
    amaps := s.amaps.filter (fun x => !mine (x.1 / 1024 % 32))
    unitEpochs := s.unitEpochs.filter (fun x => !(if x.1 < 32 then mine x.1 else qs.contains (x.1 - 32)))
    cxl := s.cxl.foldl (fun m x => FMap.set {} m x.1 { x.2 with used := x.2.used.filter (fun u => decide (u.part ≠ p)) }) s.cxl }
  s1.modPart p (fun k => { k with partner := [], far := [], evict := none })

/-- The power state of a quadrant as its partition takes another set of quadrants: one that it is entering counts as entered. -/
def State.quadPower (s : State) (q : Nat) : PState :=
  let w := (s.part (s.partOfQuad q)).power
  match w.moving with
  | some d => if d = .run then w.state else d
  | none => w.state

/-- 11 R302, R425: a partition whose quadrants came with the power states of the list takes the deepest of them, which then applies to
every one of its quadrants, and evaluates its target: one whose banks are off or whose islands have stopped wakes first (DESIGN CHOICE,
log 112). -/
def State.joinPower (s : State) (p : Nat) (from' : List PState) : State :=
  let d := from'.foldl (fun a x => if a.code < x.code then x else a) .run
  let s1 := if 3 ≤ d.code then s.stopPart p else s
  let s2 := if d = .standby then s1.losePart p else s1
  (s2.modPart p (fun k => { k with power := { k.power with state := d, moving := none } })).retarget p

/-- PART_CFG_WRITE (R302): a write of MOD.QPART. It is refused also while a test of a concerned quadrant's partition runs (15 R414), and
where it would join quadrants of different firmware (14 R397). -/
def partCfgWrite (v : BitVec 8) (s : State) : State :=
  let changed := (List.range 4).filter (fun p => layoutQuads v p ≠ s.quadsOf p)
  let free := changed.all (fun p => !s.testing p &&
    (match (s.part p).jcp.state with | .idle => true | .notLead => true | _ => false))
  if !layoutLegal v || !free || s.setsDiffer v then { s with mod := { s.mod with cfgRefused := true } }
  else
    let s1 : State := { s with mod := { s.mod with qpart := v, cfgBusy := true } }
    let s2 := (List.range 4).foldl (fun a p => a.setLead p (!(layoutQuads v p).isEmpty)) s1
    changed.foldl (fun a p => a.joinPower p ((layoutQuads v p).map (fun q => s.quadPower q))) s2

/-- PSTATE_ENTRY_COMPLETE (R425, R427, R428): an entry ends. The THERMAL event is raised. A command that came meanwhile begins
its wake (11 R318); else the target is evaluated again. -/
def pstateEntryComplete (p : PartId) (s : State) : State :=
  match (s.part p.val).power.moving with
  | none => s
  | some d =>
    if d = .run then s
    else
      let s1 := if 3 ≤ d.code then s.stopPart p.val else s
      let s2 := if d = .standby then (s1.losePart p.val).retryAllFar else s1
      let s3 := (s2.modPart p.val (fun k => { k with power := { k.power with state := d, moving := none } })).modEvent 3
      (if (s3.part p.val).job.nextCmd.isNone then s3.retarget p.val else s3.wakeFor p.val).maybeHubOff

/-- R424, R428, Table 13.5: whether a bank that is off precharges now: for a Standby wake, for a quadrant that is brought up, or for a
module whose hub was off, the hub bank first, in whatever exit of the hub. -/
def State.bankWanted (s : State) (b : Nat) : Bool :=
  let leaving := s.rst.episodes.filter (fun e => decide (e.phase ≠ .release))
  let wake := leaving.any (fun e => e.hubWake)
  if b = 4 then leaving.any (fun e => e.reach.hub)
  else
    let w := (s.part (s.partOfQuad b)).power
    (wake && !s.banksOff.getLsbD 4) || (decide (w.state = .standby) && decide (w.moving = some .run)) ||
      leaving.any (fun e => decide (e.phase = .bringUp) && (List.range 36).any (fun d => decide (dieQuad d = b) && e.reach.hasDie d))

/-- BANK_PRECHARGE_COMPLETE (R424): a bank is in regulation. -/
def bankPrechargeComplete (b : Fin 5) (s : State) : State :=
  if s.banksOff.getLsbD b.val && s.bankWanted b.val then { s with banksOff := s.banksOff &&& ~~~(BitVec.ofNat 5 (2 ^ b.val)) } else s

/-- Tables 16.3 and 16.4: a partition's islands run again after Retain or Standby: the DRAM serves, the link dies take the
acknowledged epoch, the enabled ports train; the frame tables and address maps are reloaded from the control reserve (09 R253); its units
are judged under 12 R349. -/
def State.startPart (s : State) (p : Nat) (lost : Bool) : State :=
  let v := (s.part p).jcp.epochAck
  let ts := s.towersOf p
  let units := ts ++ (s.quadsOf p).map (fun d => 32 + d)
  let s1 := if lost then ts.foldl (fun a t => a.wakeDram t) s
    else ts.foldl (fun a t => { a with
      channels := a.channels.tab {} 1024 (fun k => decide (k / 32 = t)) (fun c => { c with selfRef := s.tripped t, scrubRow := 0 }) }) s
  let s2 : State := { s1 with
    linkDies := (s.quadsOf p).foldl (fun m d => FMap.mod {} m d (fun l => { l with epoch := v })) s1.linkDies
    ports := s1.ports.foldl (fun m x => if s.partOfPort x.1 = p ∧ x.2.enable = true then
        FMap.set {} m x.1 { x.2 with state := .signal, keepCoefs := !lost } else m) s1.ports
    amaps := moveKeys {} s1.amaps (fun k => if 32 ≤ k / 1024 && ts.contains (k / 1024 - 32) then k - 1024 * 32 else k)
    frames := moveKeys {} s1.frames (fun k => if 32 ≤ k / 49152 && ts.contains (k / 49152 - 32) then k - 49152 * 32 else k)
    returned := s1.returned ++ units.filter (fun u => !s1.returned.contains u) }
  s2

/-- 12 R348: an epoch written in Retain or Standby, applied on wake: a job that was loaded enters a rollback hold. No record is its
cause: the index that ROLLBACK_HOLD names is open. -/
def State.wakeEpoch (s : State) (p : Nat) : State :=
  let k := s.part p
  let held := match k.jcp.state with | .done => true | .failed => true | _ => false
  if k.job.raised && k.job.loaded && held then
    ((s.modJob p (fun j => { j with raised := false })).drawn.applyEpoch p).rollbackHold p
      ((Config.freeWord64 s.freeCounter).setWidth 32).toNat
  else s

/-- WAKE_COMPLETE (R427, 18 R459, 12 R348): a wake ends in Run; a wake from Standby first needs the partition's banks. Halts that
waited take effect, commands that waited go on, and the target is evaluated. -/
def wakeComplete (p : PartId) (s : State) : State :=
  let w := (s.part p.val).power
  let dark := decide (w.state = .standby) && (s.quadsOf p.val).any (fun q => s.banksOff.getLsbD q)
  if w.moving ≠ some .run ∨ dark = true then s
  else
    let deep := decide (3 ≤ w.state.code)
    let s1 := if deep then s.startPart p.val (decide (w.state = .standby)) else s
    let s2 := s1.modPart p.val (fun k => { k with power := { k.power with state := .run, moving := none } })
    let s3 := s2.modCoresOf p.val (fun k => match k.pendCtrl with
      | some q => if k.pass.isNone && k.drain.isNone then k.applyCtrl q else k
      | none => k)
    let s4 := if deep then s3.wakeEpoch p.val else s3
    ((s4.modEvent 3).retryCmds).retarget p.val

-- Throttling --------------------------------------------------------------------------------------------------------------

/-- The DRAM reading of a tower (R432): the highest CHN.TEMP of its stack. -/
def State.dramReading (s : State) (t : Nat) : Nat :=
  (List.range 32).foldl (fun a n => if a < (s.chan (32 * t + n)).temp.toNat then (s.chan (32 * t + n)).temp.toNat else a) 0

/-- R433: the demands on a tower at a step: for the logic, the DRAM and the power, whether each calls for a step down, and whether
each calls for a step up. -/
structure Demands where
  downLogic : Bool
  downDram : Bool
  downPower : Bool
  upLogic : Bool
  upDram : Bool
  upPower : Bool
  deriving DecidableEq, Repr

/-- Whether some demand calls for a step down. -/
def Demands.down (d : Demands) : Bool := d.downLogic || d.downDram || d.downPower
/-- Whether every demand calls for a step up. -/
def Demands.up (d : Demands) : Bool := d.upLogic && d.upDram && d.upPower

/-- THM.CAUSE: the demand that holds the step. -/
def Demands.cause (d : Demands) (old : BitVec 2) : BitVec 2 :=
  if d.downLogic then 1 else if d.downDram then 2 else if d.downPower then 3
  else if !d.upLogic then 1 else if !d.upDram then 2 else if !d.upPower then 3 else old

/-- R432 to R434: the demands on a tower at step n. Readings are in degrees, power in mW; the share is
(PWR.CAP_EFF - 2,080 W) / 32; a limit that the user calibration lowers is compared with the reading raised by as much. -/
def Power.demands (x : Power) (t : Nat) (y : TowerThermal) (n power : Nat) : Demands :=
  let l := x.fac.limits
  let logic := y.logic.toNat + x.logicCut t
  let dram := y.dram.toNat + x.dramCut t
  let stops := decide (6 ≤ x.stepDown t n)
  let share := (x.capEff.toNat - 2080) * 1000
  { downLogic := decide ((if stops then l.logicStop else l.logicThrottle) < logic)
    downDram := decide ((if stops then l.dramStop else l.dramThrottle) < dram)
    downPower := decide (share < 32 * power)
    upLogic := decide (10000000 ≤ y.coolLogic)
    upDram := decide (10000000 ≤ y.coolDram)
    upPower := decide (32 * power * x.ratio t (x.stepUp t n) ≤ share * x.ratio t n) }

/-- R433: the step after an evaluation at step n: a trip at the trip limits or under a coolant alarm, which holds until every reading
is below its clear limit; otherwise one step down or up, once a full 1 ms has been seen at this step. -/
def Power.nextLevel (x : Power) (t : Nat) (y : TowerThermal) (n power : Nat) : Nat :=
  let l := x.fac.limits
  let logic := y.logic.toNat + x.logicCut t
  let dram := y.dram.toNat + x.dramCut t
  let d := x.demands t y n power
  if n = 9 then (if logic < l.logicClear ∧ dram < l.dramClear ∧ x.alarm = false then 8 else 9)
  else if l.logicTrip ≤ logic ∨ l.dramTrip ≤ dram ∨ x.alarm = true then 9
  else if y.sinceStep < 1000000 then n
  else if d.down then (if n < 8 then x.stepDown t n else n)
  else if d.up then x.stepUp t n
  else n

/-- R433 step 5: a tower trips, or resumes: its channels enter self-refresh, or leave it. -/
def State.tripTower (s : State) (t : Nat) (on : Bool) : State :=
  { s with channels := s.channels.tab {} 1024 (fun k => decide (k / 32 = t)) (fun c => { c with selfRef := on }) }

/-- R431: an island of a tower off OP0 marks the step of its partition's cores. -/
def State.markClock (s : State) (t : Nat) : State :=
  s.modCoresOf (s.partOfTower t) (fun k => k.rptSet (fun x => { x with clock := true }))

/-- THERMAL_EVALUATION (R432 to R434): a tower's thermal controller reads its logic sensors, its DRAM dies and its 1 ms average
power in mW, and steps its throttle. -/
def thermalEvaluation (t : TowerId) (sensors : List (BitVec 8)) (power : Nat) (s : State) : State :=
  let x := s.pwr
  let y := x.towers.get {} t.val
  let m := x.meshCap t.val
  let top := x.topLevel t.val
  let dt := if y.meshHalf then 65536 else 32768
  let logic := x.logicReading t.val sensors
  let dram := s.dramReading t.val
  let n := if y.level m < top then top else y.level m
  let y1 : TowerThermal := { y with
    logic := logic, dram := BitVec.ofNat 8 dram, sinceStep := y.sinceStep + dt
    coolLogic := if logic.toNat + x.logicCut t.val + 5 ≤ x.fac.limits.logicThrottle then y.coolLogic + dt else 0
    coolDram := if dram + x.dramCut t.val + 5 ≤ x.fac.limits.dramThrottle then y.coolDram + dt else 0 }
  let k := x.nextLevel t.val y1 n power
  let y2 := y1.atLevel k (x.lowPoint t.val) m
  let y3 : TowerThermal := { y2 with
    sinceStep := if k = n then y1.sinceStep else 0
    cause := if k ≤ top then 0 else (x.demands t.val y1 n power).cause y.cause
    trips := if k = 9 ∧ n ≠ 9 then satAdd y.trips 1 else y.trips
    stepsDown := if n < k ∧ k ≠ 9 then satAdd y.stepsDown 1 else y.stepsDown }
  let s1 := s.setPwr { x with towers := x.towers.set {} t.val y3 }
  let s2 := if k = 9 ∧ n ≠ 9 then s1.tripTower t.val true else if k ≠ 9 ∧ n = 9 then s1.tripTower t.val false else s1
  let s3 := if k = n then s2 else s2.modEvent 3
  if k = 0 ∧ m = false then s3 else s3.markClock t.val

-- Coolant and caps --------------------------------------------------------------------------------------------------------

/-- R434: the coolant cap in W of a flow in 0.01 L/min and an inlet in 0.1 degrees. -/
def coolantCap (flow inlet : Nat) : Nat := 10400 - 870 * ((1200 - flow) / 100) - 500 * ((inlet - 400) / 10)

/-- R434: PWR.CAP_EFF is the lower of the module cap and the coolant cap; a change raises the THERMAL event. -/
def State.setCap (s : State) (capW coolant : Nat) : State :=
  let eff := if coolant < capW then coolant else capW
  let s1 := s.setPwr { s.pwr with capW := BitVec.ofNat 16 capW, coolantCap := coolant, capEff := BitVec.ofNat 16 eff }
  if s.pwr.capEff.toNat = eff then s1 else s1.modEvent 3

/-- R434: a coolant alarm trips every tower. -/
def State.alarmTrip (s : State) : State :=
  (List.range 32).foldl (fun a t =>
    let y := a.pwr.towers.get {} t
    if y.trip then a
    else
      let m := a.pwr.meshCap t
      let y1 : TowerThermal := { y.atLevel 9 (a.pwr.lowPoint t) m with trips := satAdd y.trips 1, sinceStep := 0 }
      (((a.setPwr { a.pwr with towers := a.pwr.towers.set {} t y1 }).tripTower t true).markClock t).modEvent 3) s

/-- COOLANT_READ (R434, Table 16.11): the management controller reads the coolant and the inputs every 1 ms. -/
def coolantRead (flow : BitVec 12) (inlet outlet : BitVec 10) (v48 i48 v12 i12 : BitVec 16) (s : State) : State :=
  let cap := coolantCap flow.toNat inlet.toNat
  let alarm := decide (cap < 4000) || decide (flow.toNat < 600) || decide (500 < inlet.toNat)
  let s1 := s.setPwr { s.pwr with flow := flow, inlet := inlet, outlet := outlet, voltage48 := v48, current48 := i48, voltage12 := v12,
                                  current12 := i12, alarm := alarm }
  let s2 := s1.setCap s.pwr.capW.toNat cap
  if alarm then s2.alarmTrip else s2

/-- PWR_CAP_WRITE (R434, Table 16.11): a write of PWR.CAP_W, clamped. -/
def pwrCapWrite (v : BitVec 16) (s : State) : State :=
  s.setCap (if v.toNat < 4000 then 4000 else if 10400 < v.toNat then 10400 else v.toNat) s.pwr.coolantCap

/-- DIE_THERMAL_TRIP (R435): a link die, or the hub, reads a temperature; at 110 degrees it trips. A link die's ports are disabled; the
hub opens the 48 V input switch, and the module sees 48 V lost (13 R375). -/
def dieThermalTrip (die : Option LinkDieId) (temp : BitVec 8) (s : State) : State :=
  let trips := decide (110 ≤ temp.toNat)
  match die with
  | some d =>
    let x := s.pwr.links.get {} d.val
    let y : DieThermal := { trip := x.trip || trips, temp := temp }
    let s1 := s.setPwr { s.pwr with links := s.pwr.links.set {} d.val y }
    if x.trip || !trips then s1
    else ((List.range 6).foldl (fun a i => klpEnable (portOf (6 * d.val + i)) false a) s1).modEvent 3
  | none =>
    let y : DieThermal := { trip := s.pwr.hub.trip || trips, temp := temp }
    let s1 := s.setPwr { s.pwr with hub := y }
    if s.switchOpen || !trips then s1
    else
      let s2 := ({ s1 with switchOpen := true } : State).modEvent 3
      if s2.power12 then s2.assertReset .brownOut .cold else s2

/-- DIE_TRIP_CLEAR (R435): a tripped link die, or the hub, reads below 95 degrees; the hub closes the switch. -/
def dieTripClear (die : Option LinkDieId) (temp : BitVec 8) (s : State) : State :=
  let clears := decide (temp.toNat < 95)
  match die with
  | some d =>
    let x := s.pwr.links.get {} d.val
    let y : DieThermal := { trip := x.trip && !clears, temp := temp }
    let s1 := s.setPwr { s.pwr with links := s.pwr.links.set {} d.val y }
    if x.trip && clears then s1.modEvent 3 else s1
  | none =>
    let y : DieThermal := { trip := s.pwr.hub.trip && !clears, temp := temp }
    let s1 := s.setPwr { s.pwr with hub := y }
    if s.switchOpen && clears then ({ s1 with switchOpen := false } : State).modEvent 3 else s1

-- User calibration --------------------------------------------------------------------------------------------------------

/-- R437: whether an entry lies within the factory bounds: a derate from OP1 to the lowest valid point, a limit cut of 0 to 20 degrees, a
preset within the range that the factory block gives its lane, of which the spec gives no form (log 112). -/
def Power.ueOk (x : Power) (e : BitVec 64) : Bool :=
  let v := ueValue e
  let u := ueUnit e
  match ueKind e with
  | 1 => decide (1 ≤ v) && (if u < 32 then decide (v ≤ x.lowPoint u) else decide (u < 64) && decide (v ≤ bitOf (x.meshPoint (u - 32))))
  | 2 => decide (u < 32) && decide (bitsAt v 8 8 ≤ 20) && decide (bitsAt v 0 8 ≤ 20) && decide (v < 2 ^ 16)
  | 3 => decide (u < 192) && Config.presetFits (x.fac.bounds.get 0 u) (BitVec.ofNat 44 v)
  | _ => false

/-- Table 16.9: the CRC of a calibration: its header with the CRC field zero, and its entries. -/
def ucCrc (head : Nat) (entries : List Byte) : Nat := (crc32 (bytesOf (head / 2 ^ 32 * 2 ^ 32) 32 ++ entries)).toNat

/-- R437: the entries of a user calibration image, where every check passes. -/
def Power.ucParse (x : Power) (bs : List Byte) : Option (List (BitVec 64)) :=
  let head := ofBytes (bs.take 32)
  let n := bitsAt head 160 32
  let body := (bs.drop 32).take (8 * n)
  let entries := (List.range (body.length / 8)).map (fun i => BitVec.ofNat 64 (ofBytes ((body.drop (8 * i)).take 8)))
  if decide (bitsAt head 224 32 = 0x5543414C) && decide (body.length = 8 * n) && decide (bitsAt head 0 32 = ucCrc head body) &&
      entries.all x.ueOk then some entries else none

/-- R438: a calibration as it is written, UC.SEQ replaced and the CRC made anew. -/
def ucWrite (bs : List Byte) (seq : BitVec 32) (entries : List (BitVec 64)) : UserCal :=
  let head := ofBytes (bs.take 32)
  let h1 := bitsAt head 224 32 * 2 ^ 224 + seq.toNat * 2 ^ 192 + bitsAt head 0 192
  let body := (bs.drop 32).take (8 * entries.length)
  { seq := seq, entries := entries, bytes := bytesOf (h1 / 2 ^ 32 * 2 ^ 32 + ucCrc h1 body) 32 ++ body }

/-- PWR_CAL_GO (R437, R438): a keyed write of PWR.CTRL whose bit PWR.CAL_GO is `go`, with what host memory holds at PWR.CAL_ADDR: checked, and written into the
copy that is not in force, the first where neither is, with the UC.SEQ in force raised by one. A reset during the write (`cut`) leaves
that copy invalid. -/
def pwrCalGo (key : BitVec 8) (go : Bool) (bytes : List Byte) (cut : Bool) (s : State) : State :=
  let x := s.pwr
  let img := bytes.take x.calLen.toNat
  if key ≠ 0x50 ∨ !go ∨ x.calStatus = 1 then s
  else match (if x.calLen.toNat ≤ 2 ^ 20 then x.ucParse img else none) with
    | none => s.setPwr { x with calStatus := 3 }
    | some entries =>
      let new := ucWrite img ((x.cal.map UserCal.seq).getD 0 + 1) entries
      let stored := if cut then none else some new
      let s1 := s.setPwr { x with calStatus := if cut then 1 else 2 }
      if x.cal.isSome && !x.calCopy then { s1 with userCal1 := stored } else { s1 with userCal0 := stored }

/-- PART_CFG_WRITE. -/
def execPartCfgWrite (v : BitVec 8) (s : State) : Host.Outcome State Fault Refusal := .next (s.inTurn (.partCfgWrite v) (partCfgWrite v))
/-- PSTATE_ENTRY_COMPLETE. -/
def execPstateEntryComplete (p : PartId) (s : State) : Host.Outcome State Fault Refusal := .next (pstateEntryComplete p s)
/-- WAKE_COMPLETE. -/
def execWakeComplete (p : PartId) (s : State) : Host.Outcome State Fault Refusal := .next (wakeComplete p s)
/-- BANK_PRECHARGE_COMPLETE. -/
def execBankPrechargeComplete (b : Fin 5) (s : State) : Host.Outcome State Fault Refusal := .next (bankPrechargeComplete b s)
/-- THERMAL_EVALUATION. -/
def execThermalEvaluation (t : TowerId) (sensors : List (BitVec 8)) (power : Nat) (s : State) : Host.Outcome State Fault Refusal :=
  .next (thermalEvaluation t sensors power s)
/-- COOLANT_READ. -/
def execCoolantRead (flow : BitVec 12) (inlet outlet : BitVec 10) (v48 i48 v12 i12 : BitVec 16) (s : State) :
    Host.Outcome State Fault Refusal := .next (coolantRead flow inlet outlet v48 i48 v12 i12 s)
/-- DIE_THERMAL_TRIP. -/
def execDieThermalTrip (die : Option LinkDieId) (temp : BitVec 8) (s : State) : Host.Outcome State Fault Refusal :=
  .next (dieThermalTrip die temp s)
/-- DIE_TRIP_CLEAR. -/
def execDieTripClear (die : Option LinkDieId) (temp : BitVec 8) (s : State) : Host.Outcome State Fault Refusal :=
  .next (dieTripClear die temp s)
/-- PWR_CAP_WRITE. -/
def execPwrCapWrite (v : BitVec 16) (s : State) : Host.Outcome State Fault Refusal := .next (s.inTurn (.pwrCapWrite v) (pwrCapWrite v))
/-- PWR_CAL_GO. -/
def execPwrCalGo (key : BitVec 8) (go : Bool) (bytes : List Byte) (cut : Bool) (s : State) : Host.Outcome State Fault Refusal :=
  .next (s.inTurn (.pwrCalGo key go bytes cut) (pwrCalGo key go bytes cut))

end Sys2Proof.Machine
end

