-- ==== Sys2Proof/Machine/Update.lean ====
section
/-! DEFINITION. Firmware updates, tokens, attestation and requests over I3C (14 R393 to R402, 16 R428, 17 R452, 19 R465). -/

namespace Sys2Proof.Machine

-- FWU.CTRL ----------------------------------------------------------------------------------------------------------------

/-- The state with its firmware block replaced. -/
def State.setFw (s : State) (f : Firmware) : State := { s with fw := f }

/-- R393: whether a command of FWU.CTRL is taken: its key is right, and no command is in progress. -/
def State.fwuTakes (s : State) (key : BitVec 8) : Bool := decide (key = 0xA5) && decide (s.fw.state ≠ .busy)

/-- Table 14.12a: a command has been carried out. -/
def State.fwuDone (s : State) (cmd : BitVec 4) : State := s.setFw { s.fw with lastCmd := cmd, state := .done, error := 0 }

/-- Table 14.12a: a command is refused; FWU.LAST_CMD keeps the latest that was accepted. -/
def State.fwuRefuse (s : State) (err : BitVec 16) : State := s.setFw { s.fw with state := .refused, error := err }

/-- A command refused where Table 14.12a gives no error for the cause: FWU.ERROR is a free value. -/
def State.fwuRefuseFree (s : State) : State := s.drawn.fwuRefuse ((Config.freeWord64 s.freeCounter).setWidth 16)

/-- R394: the slot that an update writes: not the one booted; after a host or I3C boot, FWU.ARG[0]. -/
def State.updateSlot (s : State) : Bool :=
  match s.rst.bootSrc.toNat with
  | 0 => true
  | 1 => false
  | _ => s.fw.arg.getLsbD 0

/-- R394: an image of `len` bytes is checked, staged and written into the other slot; a reset during the write cuts it. -/
def State.writeSlot (s : State) (x : FwSupply) (len : Nat) (cut : Option SlotCut) : State :=
  if 32 * 2 ^ 20 < len then s.fwuRefuseFree
  else match s.fw.supplyCheck x with
    | some (code, check) => (s.authFailIf check x.image.sig).fwuRefuse (BitVec.ofNat 16 code)
    | none =>
      if len < bitsAt x.image.bits 32 32 then s.fwuRefuse 4
      else
        let b := s.updateSlot
        let slots := s.fw.slots.set {} (slotKey b) ((s.fw.slots.get {} (slotKey b)).write x.image cut)
        let s1 := s.setFw { s.fw with staged := some x.image, lastSlot := some b, slots := slots, state := .busy, lastCmd := 1 }
        if cut.isNone then s1.fwuDone 1 else s1

/-- WRITE_SLOT (R394). -/
def writeSlot (key : BitVec 8) (x : FwSupply) (cut : Option SlotCut) (s : State) : State :=
  if s.fwuTakes key then s.writeSlot (x.upTo s.fw.len.toNat) s.fw.len.toNat cut else s

/-- R395: SELECT. -/
def State.selectSlot (s : State) : State :=
  match s.fw.lastSlot with
  | none => s.fwuRefuse 6
  | some b =>
    if (s.fw.slots.get {} (slotKey b)).committed.isNone then s.fwuRefuse 6
    else (s.setFw (s.fw.writeSelector { s.fw.selector with slot := b, trial := true, trialLeft := 3 })).fwuDone 3

/-- FWU_SELECT (R395). -/
def fwuSelect (key : BitVec 8) (s : State) : State := if s.fwuTakes key then s.selectSlot else s

/-- CONFIRM (R395): accepted where the module has booted the slot that the selector names while it was on trial. -/
def fwuConfirm (key : BitVec 8) (s : State) : State :=
  let x := s.fw.selector
  if !s.fwuTakes key then s
  else if !(s.fw.bootedTrial && decide (s.rst.bootSrc.toNat = slotKey x.slot)) then s.fwuRefuse 6
  else
    let f := s.fw.writeSelector { x with trial := false }
    (s.setFw { f with confirmed := true }).fwuDone 4

/-- R382: a fuse row with the lowest clear bits programmed until `n` are set. -/
def raiseCount (w n : Nat) (v : BitVec w) : BitVec w :=
  (List.range w).foldl (fun a i => if popCount w a.toNat < n then a ||| BitVec.ofNat w (2 ^ i) else a) v

/-- SVN_COMMIT (R395, R382): FUSE.FW_SVN raised to the running FWH.SVN; option loading reads it next. -/
def svnCommit (key : BitVec 8) (s : State) : State :=
  if !s.fwuTakes key then s
  else if !s.fw.production || (s.fw.bootedTrial && !s.fw.confirmed) then s.fwuRefuse 6
  else
    let z : Fuses := { s.fw.fuses with fwSvn := s.fw.fuses.fwSvn.raise (raiseCount 64 s.fw.hub.svn s.fw.fuses.fwSvn.value) }
    (s.setFw { s.fw with fuses := z }).fwuDone 5

/-- R398: a management image of `len` bytes is checked, written into the slot not in use, and named by the selector. -/
def State.mgmtWrite (s : State) (x : FwSupply) (len : Nat) (cut : Option SlotCut) : State :=
  if 4 * 2 ^ 20 < len then s.fwuRefuseFree
  else
    let i : FwImage := { x.image with readError := x.image.readError || x.readError }
    match s.fw.mgmtCheck i (fcDigest x.commit) with
    | some (code, check) => (s.authFailIf check i.sig).fwuRefuse (BitVec.ofNat 16 code)
    | none =>
      let sel := s.fw.selector
      let b := !sel.mgmtSlot
      let s1 := s.setFw { s.fw with mgmt := s.fw.mgmt.set {} (slotKey b) ((s.fw.mgmt.get {} (slotKey b)).write i cut), state := .busy,
                                    lastCmd := 7 }
      if cut.isSome then s1 else (s1.setFw (s1.fw.writeSelector { sel with mgmtSlot := b })).fwuDone 7

/-- MGMT_WRITE (R398). -/
def mgmtWrite (key : BitVec 8) (x : FwSupply) (cut : Option SlotCut) (s : State) : State :=
  if s.fwuTakes key then s.mgmtWrite (x.upTo s.fw.len.toNat) s.fw.len.toNat cut else s

-- Activation --------------------------------------------------------------------------------------------------------------

/-- R396 step 2: a die of the quadrant is reset, and comes up again with the staged parts; an episode that contains the die stands,
one within it joins. -/
def State.activateDie (s : State) (d : Nat) (h : d < 36) : State :=
  let r : Reach := .die ⟨d, h⟩
  if s.rst.episodes.any (fun e => e.reach.contains r) then s
  else
    let within := s.rst.episodes.filter (fun e => r.contains e.reach)
    let held := within.flatMap (fun e => e.asserted)
    let e : Episode := { reach := r, asserted := held, joined := within.foldl (fun a x => a ||| x.joined) 0,
                         phase := if held.isEmpty then .bringUp else .release }
    let s1 := s.setRst { s.rst with episodes := s.rst.episodes.filter (fun x => !r.contains x.reach) ++ [e] }
    s1.applyReset r 0

/-- R27: a quadrant's boundary gates close. -/
def State.closeGatesOf (s : State) (q : Nat) : State :=
  (List.range 12).foldl (fun a i => if (gateQuads i).1 = q ∨ (gateQuads i).2 = q then a.setGate i false else a) s

/-- R396: the minor and major versions of an interface allow the staged quadrant parts under the running hub part. -/
def ifaceFits (staged running : Nat) : Bool := decide (staged / 256 = running / 256) && decide (staged % 256 ≤ running % 256)

/-- ACTIVATE_QUAD (R396): the quadrant's 8 compute dies and its link die are reset together and run the staged parts once every one
has been brought up. -/
def activateQuad (key : BitVec 8) (s : State) : State :=
  let q := bitsAt s.fw.arg.toNat 0 2
  if !s.fwuTakes key then s
  else match s.fw.staged with
    | none => s.fwuRefuse 6
    | some i =>
      if !ifaceFits i.iface s.fw.hub.iface then s.fwuRefuse 7
      else match (s.part (s.partOfQuad q)).jcp.state with
        | .idle | .done | .failed | .refused =>
          let s1 := (s.setFw { s.fw with activating := some q, state := .busy, lastCmd := 2, error := 0 }).settleQuiesced.closeGatesOf q
          (List.range 36).foldl (fun a d => if h : d < 36 then (if dieQuad d = q then a.activateDie d h else a) else a) s1
        | _ => s.fwuRefuse 8

-- Tokens ------------------------------------------------------------------------------------------------------------------

/-- R399: an operation has been made: the owner record that it leaves is written, OWN.SEQ increased by one. -/
def State.tokenDone (s : State) (f : Firmware) (r : OwnerRec) : State := (s.setFw (f.writeOwner r)).fwuDone 6

/-- R400: a token that fails a condition is refused with error 9; AUTH_FAIL where R387 refused its signature. -/
def State.tokenRefuse (s : State) (t : Token) (check : Option Nat) : State := (s.authFailIf check t.sig).fwuRefuse 9

/-- R400: a token of an operation signed by a class, under a further condition. -/
def State.token (s : State) (key : BitVec 8) (t : Token) (op cls : Nat) (hasKey ok : Bool) (f : Firmware) (r : OwnerRec) : State :=
  let (good, check) := s.fw.tokenCheck t op cls hasKey
  if !s.fwuTakes key then s else if good && ok then s.tokenDone f r else s.tokenRefuse t check

/-- CLAIM (R399, R400): the key of an empty record, unsigned, over I3C alone. -/
def claim (key : BitVec 8) (t : Token) (s : State) : State :=
  if !s.fwuTakes key then s
  else if !t.i3c then s.fwuRefuse 10
  else if s.fw.tokenFields t 1 true && allZero t.block && s.fw.ownKey.isEmpty then s.tokenDone s.fw { s.fw.owner with key := t.key }
  else s.fwuRefuse 9

/-- TRANSFER (R399). -/
def ownerTransfer (key : BitVec 8) (t : Token) (s : State) : State :=
  s.token key t 2 5 true (decide (t.seq = s.fw.ownSeq)) s.fw { s.fw.owner with key := t.key }

/-- REVOKE_IMAGE (R399). -/
def revokeImage (key : BitVec 8) (t : Token) (s : State) : State :=
  s.token key t 3 5 false (decide (t.seq = s.fw.ownSeq)) s.fw { s.fw.owner with revoke := s.fw.imageRevoke ||| t.arg.setWidth 16 }

/-- RELEASE (R399). -/
def ownerRelease (key : BitVec 8) (t : Token) (s : State) : State :=
  s.token key t 4 2 false (decide (t.seq = s.fw.ownSeq)) s.fw { s.fw.owner with key := [], revoke := 0 }

/-- DEBUG_UNLOCK (R399, R401). -/
def debugUnlock (key : BitVec 8) (t : Token) (s : State) : State :=
  s.token key t 5 5 false (decide (t.challenge = s.fw.challenge)) { s.fw with unlocked := true } s.fw.owner

/-- LIFECYCLE (R399, R383): every bit of FUSE.LIFECYCLE is programmed (log 49); option loading reads it next. -/
def lifecycleToken (key : BitVec 8) (t : Token) (s : State) : State :=
  let z : Fuses := { s.fw.fuses with lifecycle := s.fw.fuses.lifecycle.raise 0xFF }
  s.token key t 6 2 false (!s.fw.production) { s.fw with fuses := z } s.fw.owner

-- Attestation -------------------------------------------------------------------------------------------------------------

/-- Table 13.9: RST.OPT. -/
def RstRegs.optWord (x : RstRegs) : Nat :=
  bitOf x.optBusy + 2 * bitOf x.optValid + 4 * bitOf x.clkStrapBad + 8 * bitOf x.loadFail + 2 ^ 8 * x.loadPasses.toNat +
    2 ^ 16 * x.loadRestarts.toNat

/-- Table 13.10: RST.BOOT. -/
def RstRegs.bootWord (x : RstRegs) : Nat :=
  x.strapBoot.toNat + 4 * x.strapClk.toNat + 16 * x.bootSrc.toNat + 64 * bitOf x.fallback + 128 * bitOf x.recoveryWait +
    256 * x.bootFail.toNat

/-- Bytes that the spec leaves open, drawn as number `n`. -/
def freeBytes (n len : Nat) : List Byte := (List.range len).map (Config.freeByte n)

/-- Table 14.13: ATR.JOB of a partition; the header's digest where no image is loaded is open (draw `n`). -/
def State.attestJob (s : State) (p n : Nat) : List Byte :=
  let k := s.part p
  bytesOf k.jcp.imageId.toNat 8 ++ ((if k.job.loaded then bytesOf k.job.headDigest.toNat 32 else freeBytes (n + p) 32) ++
    bytesOf k.jcp.state.code 8)

/-- R402, Table 14.13: the body of an attestation report; the digest of the management image where the controller runs on its ROM alone
is open. -/
def State.attestBody (s : State) (nonce : BitVec 256) (n : Nat) : List Byte :=
  let f := s.fw
  let quad (q : Nat) : List Byte :=
    if f.activating = some q then List.replicate 32 0xFF else bytesOf (f.quadSets.get {} q).digest.toNat 32
  bytesOf 0x41545452 4 ++ bytesOf (bitOf f.production + 2 * bitOf f.unlocked) 4 ++ bytesOf f.loaded.moduleId.toNat 8 ++
    bytesOf nonce.toNat 32 ++
    bytesOf (popCount 64 f.loaded.fwSvn.value.toNat + 2 ^ 8 * popCount 32 f.loaded.mgmtSvn.value.toNat + 2 ^ 16 * f.loaded.keyRevoke.value.toNat) 4 ++
    bytesOf s.rst.bootWord 4 ++ bytesOf s.rst.optWord 4 ++ List.replicate 4 0 ++ bytesOf f.hub.digest.toNat 32 ++
    (quad 0 ++ quad 1 ++ quad 2 ++ quad 3) ++
    (if f.mgmtSet = {} then freeBytes (n + 5) 32 else bytesOf f.mgmtSet.digest.toNat 32) ++
    (if f.ownKey.isEmpty then List.replicate 32 0 else shake256 f.ownKey) ++ bytesOf f.factory.toNat 32 ++
    (match s.pwr.cal with | some c => shake256 c.bytes | none => freeBytes (n + 4) 32) ++
    (s.attestJob 0 n ++ s.attestJob 1 n ++ s.attestJob 2 n ++ s.attestJob 3 n) ++ List.replicate 480 0

/-- R402: a report: the body, then its signature block. -/
def State.attestReport (s : State) (nonce : BitVec 256) : List Byte :=
  let body := s.attestBody nonce s.freeCounter
  body ++ s.fw.identityBlock (s.freeCounter + 6) .attestation (digestOf body)

/-- The state after the free values of a report have been drawn. -/
def State.attestDrawn (s : State) : State := { s with freeCounter := s.freeCounter + 7 }

/-- ATT_GO (R402): ignored while ATT.STATUS reads busy. -/
def attGo (s : State) : State :=
  if s.fw.attStatus = 1 then s
  else
    let s1 := s.attestDrawn.setFw { s.fw with attStatus := 2 }
    { s1 with out := s1.out ++ [OutMsg.hubWrite s.fw.attAddr.toNat (s.attestReport s.fw.attNonce)] }

-- Requests over I3C -------------------------------------------------------------------------------------------------------

/-- 16 R428: a request wakes a module whose hub is off, through a module-warm episode with no source. -/
def State.wakeHub (s : State) : State :=
  let e : Episode := { reach := .warm, hubWake := true }
  let rs : RstRegs := { s.rst with episodes := [e] }
  let s1 := ((({ s with hubOff := false } : State).setRst rs).applyReset .warm 0).stampReset e
  s1.beginExit e

/-- R367, 13 R369: a boot image over I3C, under STRAP_BOOT = 11 or in recovery wait; its rejection is reported over I3C. -/
def State.bootImage (s : State) (x : FwSupply) : State :=
  if !(decide (s.rst.strapBoot = 3) || s.rst.recoveryWait) then s
  else match s.takeImage x 3 with
    | (s1, some _) => s1.postNotice .bootRejected
    | (s1, none) => s1

/-- 19 R465: the management controller's dynamic address: by SETDASA to its static address 0x3A, or by ENTDAA. -/
def State.takeAddress (s : State) (r : PldmReq) : State :=
  match r with
  | .setdasa t a => if t = 0x3A then s.setRst { s.rst with i3cAddr := some a } else s
  | .entdaa a => s.setRst { s.rst with i3cAddr := some a }
  | _ => s

/-- PLDM_REQUEST (16 R428, 13 R367, 14 R398, R402, 17 R452, 19 R465): a request over I3C. A module whose hub is off is woken first;
what the hub must do for the request is then for the requester to ask again. Until the target has a dynamic address it takes one and nothing
else. -/
def pldmRequest (r : PldmReq) (s : State) : State :=
  if !s.rst.mgmtUp then s
  else if s.rst.i3cAddr.isNone then s.takeAddress r
  else
    let off := s.hubOff
    let s1 := if off then s.wakeHub else s
    match r with
    | .setdasa _ _ | .entdaa _ => s
    | .wake => s1
    | .meterRecord => { s1 with out := s1.out ++ [OutMsg.mctp (padTo 192 s1.meterView.record ++ padTo 1472 s1.meterView.signature)] }
    | .notices => { s1 with out := s1.out ++ [OutMsg.notices s1.notices], notices := [] }
    | .bootImage x => s1.bootImage x
    | .moduleImage x cut => if off || decide (s1.fw.state = .busy) then s1 else s1.writeSlot x x.bytes.length cut
    | .activate => if off || decide (s1.fw.state = .busy) then s1 else s1.selectSlot
    | .mgmtImage x cut => if off || decide (s1.fw.state = .busy) then s1 else s1.mgmtWrite x x.bytes.length cut
    | .attest nonce =>
      if off then s1 else { s1.attestDrawn with out := s1.out ++ [OutMsg.mctp (s1.attestReport nonce)] }

/-- WRITE_SLOT. -/
def execWriteSlot (key : BitVec 8) (x : FwSupply) (cut : Option SlotCut) (s : State) : Host.Outcome State Fault Refusal :=
  .next (s.inTurn (.writeSlot key x cut) (writeSlot key x cut))
/-- FWU_SELECT. -/
def execFwuSelect (key : BitVec 8) (s : State) : Host.Outcome State Fault Refusal := .next (s.inTurn (.fwuSelect key) (fwuSelect key))
/-- CONFIRM. -/
def execFwuConfirm (key : BitVec 8) (s : State) : Host.Outcome State Fault Refusal := .next (s.inTurn (.fwuConfirm key) (fwuConfirm key))
/-- SVN_COMMIT. -/
def execSvnCommit (key : BitVec 8) (s : State) : Host.Outcome State Fault Refusal := .next (s.inTurn (.svnCommit key) (svnCommit key))
/-- MGMT_WRITE. -/
def execMgmtWrite (key : BitVec 8) (x : FwSupply) (cut : Option SlotCut) (s : State) : Host.Outcome State Fault Refusal :=
  .next (s.inTurn (.mgmtWrite key x cut) (mgmtWrite key x cut))
/-- ACTIVATE_QUAD. -/
def execActivateQuad (key : BitVec 8) (s : State) : Host.Outcome State Fault Refusal :=
  .next (s.inTurn (.activateQuad key) (activateQuad key))
/-- CLAIM. -/
def execOwnerClaim (key : BitVec 8) (t : Token) (s : State) : Host.Outcome State Fault Refusal :=
  .next (s.inTurn (.ownerClaim key t) (claim key t))
/-- TRANSFER. -/
def execOwnerTransfer (key : BitVec 8) (t : Token) (s : State) : Host.Outcome State Fault Refusal :=
  .next (s.inTurn (.ownerTransfer key t) (ownerTransfer key t))
/-- REVOKE_IMAGE. -/
def execRevokeImage (key : BitVec 8) (t : Token) (s : State) : Host.Outcome State Fault Refusal :=
  .next (s.inTurn (.revokeImage key t) (revokeImage key t))
/-- RELEASE. -/
def execOwnerRelease (key : BitVec 8) (t : Token) (s : State) : Host.Outcome State Fault Refusal :=
  .next (s.inTurn (.ownerRelease key t) (ownerRelease key t))
/-- DEBUG_UNLOCK. -/
def execDebugUnlock (key : BitVec 8) (t : Token) (s : State) : Host.Outcome State Fault Refusal :=
  .next (s.inTurn (.debugUnlock key t) (debugUnlock key t))
/-- LIFECYCLE. -/
def execLifecycleToken (key : BitVec 8) (t : Token) (s : State) : Host.Outcome State Fault Refusal :=
  .next (s.inTurn (.lifecycleToken key t) (lifecycleToken key t))
/-- ATT_GO. -/
def execAttGo (s : State) : Host.Outcome State Fault Refusal := .next (s.inTurn (.attGo) (attGo))
/-- PLDM_REQUEST. -/
def execPldmRequest (r : PldmReq) (s : State) : Host.Outcome State Fault Refusal := .next (pldmRequest r s)

end Sys2Proof.Machine
end

