-- ==== Sys2Proof/Machine/Registers.lean ====
section
/-! DEFINITION. A write to a register with no row of its own (00 R12 to R15): BAR0 (11 Table 11.2) and the control spaces that
firmware writes. Bits that a row of the table writes are left to that row; read-only bits and reserved bits ignore the write. -/

namespace Sys2Proof.Machine

/-- Word `i` of a 256-bit register replaced. -/
def setWord256 (old : BitVec 256) (i : Nat) (v : BitVec 32) : BitVec 256 :=
  (old &&& ~~~((BitVec.allOnes 32).setWidth 256 <<< (32 * i))) ||| (v.setWidth 256 <<< (32 * i))

/-- Table 00.5: a W1C bit after a write of its word at bit `i`; a hardware set in the same cycle wins. -/
def w1cBit (old : Bool) (v h : BitVec 32) (i : Nat) : Bool := (old && !v.getLsbD i) || h.getLsbD i

-- The job control page ------------------------------------------------------------------------------------------------------

/-- Table 11.5: the latched fields by the offset of a word; reserved bits stay 0. -/
def JcpLatched.write (l : JcpLatched) (off : Nat) (v : BitVec 32) : JcpLatched :=
  match off with
  | 0x010 => { l with seed := setHalf l.seed false v }
  | 0x014 => { l with seed := setHalf l.seed true v }
  | 0x020 => { l with imageMpa := setHalf l.imageMpa false v }
  | 0x024 => { l with imageMpa := setHalf l.imageMpa true v }
  | 0x028 => { l with imageLen := v }
  | 0x02C => { l with reportLen := v }
  | 0x030 => { l with reportMpa := setHalf l.reportMpa false v }
  | 0x034 => { l with reportMpa := setHalf l.reportMpa true v }
  | 0x038 => { l with routeMpa := setHalf l.routeMpa false v }
  | 0x03C => { l with routeMpa := setHalf l.routeMpa true v }
  | 0x040 => { l with peerMpa := setHalf l.peerMpa false v }
  | 0x044 => { l with peerMpa := setHalf l.peerMpa true v }
  | 0x048 => { l with farTable := setHalf l.farTable false v }
  | 0x04C => { l with farTable := setHalf l.farTable true v }
  | 0x050 => { l with ident := v &&& 0xFFFF0FFF }
  | 0x054 => { l with modes := v &&& 0x1F }
  | 0x060 => { l with startStep := setHalf l.startStep false v }
  | 0x064 => { l with startStep := setHalf l.startStep true v }
  | 0x068 => { l with restoreId := setHalf l.restoreId false v }
  | 0x06C => { l with restoreId := setHalf l.restoreId true v }
  | 0x070 => { l with snapA := v }
  | 0x074 => { l with snapB := v &&& 0x0FFFFFFF }
  | 0x078 => { l with partner := v &&& 0xFFF }
  | _ => l

/-- R311, R312: a page replaced by a write; a vector whose OR rises sends. -/
def State.writeJcp (s : State) (p : Nat) (j1 : Jcp) : State :=
  let j := (s.part p).jcp
  ((List.range 8).foldl (fun a i =>
    if jcpOr j p (8 * p + i) = false && jcpOr j1 p (8 * p + i) = true then a.sendMsix (8 * p + i) else a)
    (s.modJcp p (fun _ => j1))).settleMsix

/-- R303: a write of a word of a job control page. Latched fields are ignored outside IDLE; a code of JCP.JOB_CMD that names no
command is refused (R306). -/
def State.jcpWrite (s : State) (p off : Nat) (v h : BitVec 32) : State :=
  let j := (s.part p).jcp
  match off with
  | 0x000 =>
    if decide (1 ≤ (v &&& 15).toNat) && decide ((v &&& 15).toNat ≤ 6) then s else s.modJcp p (fun x => { x with cmdRefused := true })
  | 0x004 => s.modJcp p (fun x => { x with
      cmdRefused := w1cBit x.cmdRefused v h 8, ackRefused := w1cBit x.ackRefused v h 9
      quotaRefused := w1cBit x.quotaRefused v h 10, epochRefused := w1cBit x.epochRefused v h 11 })
  | 0x080 => s.writeJcp p { j with eventStatus := w1c j.eventStatus (v.setWidth 11) (h.setWidth 11) }
  | 0x088 => s.modJcp p (fun x => { x with stepIrqEvery := v })
  | _ => if j.state = .idle then s.modJcp p (fun x => { x with latch := x.latch.write off v }) else s

-- MSI-X, module words, the log, windows ---------------------------------------------------------------------------------------

/-- R311: a write of word `i` of an entry of the MSI-X table; unmasking a vector whose message pends sends it (log 11). -/
def State.msixWrite (s : State) (vec i : Nat) (v : BitVec 32) : State :=
  if 36 ≤ vec then s
  else if i < 3 then { s with msixTable := s.msixTable.set 0 (4 * vec + i) v }
  else
    let bit := BitVec.ofNat 36 (2 ^ vec)
    if v.getLsbD 0 then { s with msixMask := s.msixMask ||| bit }
    else
      let s1 : State := { s with msixMask := s.msixMask &&& ~~~bit, msixPend := s.msixPend &&& ~~~bit }
      if s.msixMask.getLsbD vec && s.msixPend.getLsbD vec then s1.sendMsix vec else s1

/-- Table 11.4: MOD.EVENT_STATUS, a vector whose OR rises sends; the other words. -/
def State.modWrite (s : State) (off : Nat) (v h : BitVec 32) : State :=
  let m := s.mod
  match off with
  | 0x004 => { s with mod := { m with cfgRefused := w1cBit m.cfgRefused v h 8 } }
  | 0x030 =>
    let m1 : ModRegs := { m with eventStatus := w1c m.eventStatus (v.setWidth 4) (h.setWidth 4) }
    ((List.range 4).foldl (fun a i =>
      if m.eventEn.getLsbD i && !m.eventStatus.getLsbD i && m1.eventStatus.getLsbD i then a.sendMsix (32 + i) else a)
      ({ s with mod := m1 } : State)).settleMsix
  | 0x038 => { s with mod := { m with bar2Base := setHalf m.bar2Base false v } }
  | 0x03C => { s with mod := { m with bar2Base := setHalf m.bar2Base true v } }
  | 0x040 => { s with mod := { m with bar2En := v.getLsbD 0, bar2Part := v.extractLsb' 1 2 } }
  | _ => s

/-- R313: a write of ERR.RD; one above ERR.WR is ignored. -/
def State.errWrite (s : State) (off : Nat) (v : BitVec 32) : State :=
  if off = 4 ∧ v ≤ s.err.wr then { s with err := { s.err with rd := v } } else s

/-- R314: a write of a word of a store window's descriptor: SW.MODE in any state, the rest ignored while SW.STATE is not DISABLED. -/
def State.windowWrite (s : State) (w off : Nat) (v : BitVec 32) : State :=
  let x : StoreWindow := if off = 16 then { s.window w with mode := v.getLsbD 5 } else s.window w
  if x.state ≠ .disabled then s.setWindow w x
  else
    match off with
    | 0 => s.setWindow w { x with hostAddr := setHalf x.hostAddr false v }
    | 4 => s.setWindow w { x with hostAddr := setHalf x.hostAddr true v }
    | 8 => s.setWindow w { x with size := v }
    | 16 => s.setWindow w { x with part := v.extractLsb' 2 2 }
    | _ => s

-- The reset, update, Gingham and power blocks ---------------------------------------------------------------------------------

/-- Tables 13.6, 13.9, 13.11, 13.13, 13.14. RST.WDT_REACH takes its first write; a value other than 2, 3, 4 is stored as 4. -/
def RstRegs.write (x : RstRegs) (off : Nat) (v h : BitVec 32) : RstRegs :=
  match off with
  | 0x04 => { x with clkStrapBad := w1cBit x.clkStrapBad v h 2 }
  | 0x0C =>
    if x.wdtLocked then x
    else
      let r : BitVec 3 := v.extractLsb' 9 3
      { x with wdtReach := if r = 2 ∨ r = 3 then r else 4, wdtLocked := true }
  | 0x28 => { x with recFwValid := w1cBit x.recFwValid v h 30 }
  | 0x40 => { x with bootAddr := setHalf x.bootAddr false v }
  | 0x44 => { x with bootAddr := setHalf x.bootAddr true v }
  | 0x48 => { x with bootLen := v }
  | _ => x

/-- 14 Table 14.12a and the attestation words (R393, R402). -/
def Firmware.write (f : Firmware) (off : Nat) (v : BitVec 32) : Firmware :=
  match off with
  | 0x00 => { f with addr := setHalf f.addr false v }
  | 0x04 => { f with addr := setHalf f.addr true v }
  | 0x08 => { f with len := v }
  | 0x14 => { f with arg := v }
  | 0x40 => { f with attAddr := setHalf f.attAddr false v }
  | 0x44 => { f with attAddr := setHalf f.attAddr true v }
  | _ => if 0x20 ≤ off ∧ off < 0x40 then { f with attNonce := setWord256 f.attNonce ((off - 0x20) / 4) v } else f

/-- 15 Table 15.7. -/
def Gingham.write (g : Gingham) (off : Nat) (v h : BitVec 32) : Gingham :=
  match off with
  | 0x004 => { g with reqRefused := w1cBit g.reqRefused v h 7 }
  | 0x008 => { g with divLimit := v.extractLsb' 8 8, repeatLimit := v.extractLsb' 0 8 }
  | 0x024 => { g with fenceRefused := w1cBit g.fenceRefused v h 10 }
  | 0x028 => { g with fenceArg := setHalf g.fenceArg false (v &&& 0xFFFFFF01) }
  | 0x02C => { g with fenceArg := setHalf g.fenceArg true v }
  | _ => g

/-- 16 Tables 16.10, 16.11: PWR.HUB_OFF_EN may switch the hub off (R428). -/
def State.pwrWrite (s : State) (off : Nat) (v : BitVec 32) : State :=
  match off with
  | 0x014 => ({ s with pwr := { s.pwr with hubOffEn := v.getLsbD 0 } } : State).maybeHubOff
  | 0x028 => { s with pwr := { s.pwr with calAddr := setHalf s.pwr.calAddr false v } }
  | 0x02C => { s with pwr := { s.pwr with calAddr := setHalf s.pwr.calAddr true v } }
  | 0x030 => { s with pwr := { s.pwr with calLen := v } }
  | _ => s

-- BAR0 --------------------------------------------------------------------------------------------------------------------

/-- R297, Table 11.2: a write of the word at an offset of BAR0. -/
def State.bar0Write (s : State) (off : Nat) (v h : BitVec 32) : State :=
  if off < 0x4000 then s.jcpWrite (off / 0x1000) (off % 0x1000) v h
  else if 0xE000 ≤ off ∧ off < 0xE800 then s.msixWrite ((off - 0xE000) / 16) (off % 16 / 4) v
  else if 0x10000 ≤ off ∧ off < 0x10100 then s.modWrite (off - 0x10000) v h
  else if 0x10100 ≤ off ∧ off < 0x10200 then { s with rst := s.rst.write (off - 0x10100) v h }
  else if 0x10200 ≤ off ∧ off < 0x10300 then { s with fw := s.fw.write (off - 0x10200) v }
  else if 0x10400 ≤ off ∧ off < 0x11C00 then { s with gh := s.gh.write (off - 0x10400) v h }
  else if 0x12000 ≤ off ∧ off < 0x12400 then s.pwrWrite (off - 0x12000) v
  else if 0x20000 ≤ off ∧ off < 0x20800 then s.errWrite (off - 0x20000) v
  else if 0x30000 ≤ off ∧ off < 0x30200 then s.windowWrite ((off - 0x30000) / 32) (off % 32) v
  else s

-- Control spaces ------------------------------------------------------------------------------------------------------------

/-- 02 R65, R66: a W1C write of CORE.ARITH_STATUS; NAN_SEEN rising from 0 to 1 sends a notice. -/
def State.arithWrite (s : State) (c : Nat) (v h : BitVec 32) : State :=
  let k := s.core c
  let a := k.arith
  let b : ArithStatus :=
    { nan := w1cBit a.nan v h 0, inf := w1cBit a.inf v h 1, sat := w1cBit a.sat v h 2, wuf := w1cBit a.wuf v h 3
      miss := w1cBit a.miss v h 4, nonfinite := w1cBit a.nonfinite v h 5 }
  let s1 := s.setCore c { k with arith := b }
  if b.nan && !a.nan then s1.logError (s.coreReport c 0x0201 0 0 0) else s1

/-- Table 09.2: an address map entry as its 128 bits, and read from them. -/
def Amap.bits (a : Amap) : Nat :=
  a.jobPage.toNat * 2 ^ 101 + a.pages.toNat * 2 ^ 80 + a.tower.toNat * 2 ^ 75 + a.pairFirst.toNat * 2 ^ 71 +
    a.pairSpan.toNat * 2 ^ 66 + a.frameBase.toNat * 2 ^ 54 + bitOf a.valid

def Amap.ofBits (n : Nat) : Amap :=
  { jobPage := BitVec.ofNat 27 (bitsAt n 101 27), pages := BitVec.ofNat 21 (bitsAt n 80 21), tower := BitVec.ofNat 5 (bitsAt n 75 5),
    pairFirst := BitVec.ofNat 4 (bitsAt n 71 4), pairSpan := BitVec.ofNat 5 (bitsAt n 66 5),
    frameBase := BitVec.ofNat 12 (bitsAt n 54 12), valid := n.testBit 0 }

/-- R241: an extent that the firmware refuses to write into entry `e` of tower `t`'s die. -/
def State.amapRefused (s : State) (t e : Nat) (a : Amap) : Bool :=
  a.valid &&
    (decide (16 < a.pairFirst.toNat + a.pairSpan.toNat) || decide (a.pairSpan = 0) ||
      (decide (a.pages ≠ 0) && decide (3070 ≤ a.frameBase.toNat + (a.pages.toNat - 1) / a.pairSpan.toNat)) ||
      decide (s.partOfTower a.tower.toNat ≠ s.partOfTower t) ||
      s.amaps.any (fun x => decide (x.1 / 1024 = t) && decide (x.1 % 1024 ≠ e) && x.2.valid &&
        decide (x.2.jobPage.toNat < a.jobPage.toNat + a.pages.toNat) && decide (a.jobPage.toNat < x.2.jobPage.toNat + x.2.pages.toNat)))

/-- 09 R240, R241: one half of an address map entry. -/
def State.amapWrite (s : State) (t e : Nat) (hi : Bool) (v : BitVec 64) : State :=
  let old := (s.amaps.get {} (1024 * t + e)).bits
  let a := Amap.ofBits (if hi then old % 2 ^ 64 + v.toNat * 2 ^ 64 else old / 2 ^ 64 * 2 ^ 64 + v.toNat)
  if s.amapRefused t e a then s else { s with amaps := s.amaps.set {} (1024 * t + e) a }

/-- Table 10.8: a route entry from its 64 bits. -/
def Route.ofBits (v : BitVec 64) : Route :=
  { valid := v.getLsbD 63, live := v.getLsbD 62, hops := v.extractLsb' 58 4, first := v.extractLsb' 53 5, route := v.extractLsb' 13 40,
    self := v.getLsbD 12 }

/-- Table 10.11: KLP.SNAP_FLOOR, MAX_VER, LOOPBACK, DEGRADE_EN, FWD_EN. An enabled port that enters loopback leaves its link, and
trains anew when it leaves loopback (DEDUCED, log 38). -/
def State.klpWrite (s : State) (i : Nat) (v : BitVec 32) : State :=
  let lb : BitVec 2 := v.extractLsb' 4 2
  let s1 := s.modPort i (fun x => { x with snapFloor := v.extractLsb' 8 4, maxVer := v.extractLsb' 6 2, loopback := lb,
                                           degradeEn := v.getLsbD 3, fwdEn := v.getLsbD 2 })
  let x := s1.port i
  if !x.enable then s1
  else if lb ≠ 0 then
    if x.state = .loopback then s1
    else
      let s2 := if x.state = .up || x.state = .retrain then s1.portDown i else s1
      s2.modPort i (fun y => y.off .loopback)
  else if x.state = .loopback then s1.modPort i (fun y => { y with state := .signal })
  else s1

/-- R163: the context of mover m of tower t at an offset of the die's control space, its first register at 0x0001_0000. -/
def moverKey (t off : Nat) : CtxKey := ⟨(4096 + 16 * t + (off - 0x10000) / 0x20) % 4608, Nat.mod_lt _ (by decide)⟩

/-- Tables 03.9, 05.7, 05.11, 06.6: the register with writable bits of no row's own at an offset of a core's window. -/
def coreRegAt (c : CoreId) (off : Nat) : Option RegRef :=
  if off = 0x004 then some (.coreGateDis c)
  else if off = 0x008 then some (.coreArith c)
  else if 0x100 ≤ off ∧ off < 0x1C0 then
    let k : CtxKey := ⟨(6 * c.val + (off - 0x100) / 0x20) % 4608, Nat.mod_lt _ (by decide)⟩
    if off % 0x20 = 0 then some (.strMode k) else if off % 0x20 = 4 then some (.strRefused k) else none
  else if 0x1C0 ≤ off ∧ off < 0x1E0 then
    if off % 4 = 0 then some (.bnd c ⟨(off - 0x1C0) / 4 % 8, Nat.mod_lt _ (by decide)⟩) else none
  else if off = 0x1E0 then some (.bndValid c)
  else if off = 0x1E4 then some (.ringCtrl c)
  else if 0x200 ≤ off ∧ off < 0x300 then (if off % 8 = 0 then some (.queueStuck c (epOf ((off - 0x200) / 8))) else none)
  else if off = 0x404 then some (.logCtrl c)
  else if off = 0x408 then some (.logBase c)
  else if off = 0x414 then some (.logRd c)
  else none

/-- R163, 09 R256, Table 09.2: the register at an offset of a die's control space: contexts of its movers, channels, the address map. -/
def dieRegAt (t : TowerId) (off : Nat) : Option RegRef :=
  if 0x10000 ≤ off ∧ off < 0x10200 then
    if off % 0x20 = 0 then some (.strMode (moverKey t.val off)) else if off % 0x20 = 4 then some (.strRefused (moverKey t.val off)) else none
  else if 0x20000 ≤ off ∧ off < 0x20800 then
    if off % 0x40 = 0 then some (.chanPoison ⟨(32 * t.val + (off - 0x20000) / 0x40) % 1024, Nat.mod_lt _ (by decide)⟩) else none
  else if 0x30000 ≤ off ∧ off < 0x34000 then
    let e : Fin 1024 := ⟨(off - 0x30000) / 16 % 1024, Nat.mod_lt _ (by decide)⟩
    if off % 16 = 0 then some (.amapLow t e) else if off % 16 = 8 then some (.amapHigh t e) else none
  else none

/-- 10 R294: the register at an offset of a link die's control space: its ports' blocks and its route memory. -/
def linkRegAt (d : LinkDieId) (off : Nat) : Option RegRef :=
  if 0x20000 ≤ off ∧ off < 0x20600 then
    let p := portOf (6 * d.val + (off - 0x20000) / 0x100)
    if off % 0x100 = 0 then some (.klpCtrl p) else if off % 0x100 = 0x10 then some (.klpReplayTo p)
    else if off % 0x100 = 0x14 then some (.klpAhead p) else none
  else if 0x1000000 ≤ off ∧ off < 0x1800000 then
    if off % 8 = 0 then some (.route d ⟨(off - 0x1000000) / 8 % 1048576, Nat.mod_lt _ (by decide)⟩) else none
  else if 0x1800000 ≤ off ∧ off < 0x1B00000 then
    if off % 8 = 0 then some (.routeRun d ⟨(off - 0x1800000) / 8 % 393216, Nat.mod_lt _ (by decide)⟩) else none
  else none

/-- The register of no row's own that a reference names; none where the offset holds none. -/
def RegRef.resolve : RegRef → Option RegRef
  | .coreAt c off => coreRegAt c off.toNat
  | .dieAt t off => dieRegAt t off.toNat
  | .linkAt d off => linkRegAt d off.toNat
  | r => some r

/-- A write of a register that firmware reaches in a control space; a 32-bit register takes the low word. -/
def State.ctlWrite (s : State) (r : RegRef) (v h : BitVec 64) : State :=
  let v0 : BitVec 32 := v.setWidth 32
  let h0 : BitVec 32 := h.setWidth 32
  match r with
  | .bar0 _ | .coreAt _ _ | .dieAt _ _ | .linkAt _ _ => s
  | .coreGateDis c => s.writeCtrl c.val { (s.core c.val).wantCtrl with gateDis := v.getLsbD 2 }
  | .coreArith c => s.arithWrite c.val v0 h0
  | .queueStuck c e => s.modCore c.val (fun k => k.modEp e.val (fun x => { x with stuckSeen := w1cBit x.stuckSeen v0 h0 10 }))
  | .logCtrl c => s.modCore c.val (fun k =>
      if k.report.logLocked then k
      else k.modReport (fun x => { x with logSize := v.extractLsb' 4 4, logEn := v.getLsbD 0, logLocked := true }))
  | .logBase c => s.modCore c.val (fun k =>
      if k.report.baseLocked then k else k.modReport (fun x => { x with logBase := v, baseLocked := true }))
  | .logRd c => s.modCore c.val (fun k => k.modReport (fun x => { x with logRd := v0 }))
  | .bnd c n => s.modCore c.val (fun k => { k with bnd := k.bnd.set 0 n.val v0 })
  | .bndValid c => s.modCore c.val (fun k => { k with bndValid := v.setWidth 8 })
  | .ringCtrl c => s.modCore c.val (fun k => { k with
      ring := { k.ring with size := v.extractLsb' 24 8, pos := v.extractLsb' 16 8, en := v.getLsbD 0 } })
  | .strMode k => s.setCtx k.val { s.ctx k.val with disableMode := v.getLsbD 7 }
  | .strRefused k => s.setCtx k.val { s.ctx k.val with rearmRefused := w1cBit (s.ctx k.val).rearmRefused v0 h0 9 }
  | .amapLow t e => s.amapWrite t.val e.val false v
  | .amapHigh t e => s.amapWrite t.val e.val true v
  | .chanPoison k => s.setChan k.val { s.chan k.val with poisonSeen := w1cBit (s.chan k.val).poisonSeen v0 h0 0 }
  | .route d key => s.setLinkDie d.val { s.linkDie d.val with routes := (s.linkDie d.val).routes.set {} key.val (Route.ofBits v) }
  | .routeRun d key => s.setLinkDie d.val ((s.linkDie d.val).setRunWord key.val v)
  | .klpCtrl p => s.klpWrite p.val v0
  | .klpReplayTo p => s.modPort p.val (fun x => { x with replayTo := v0 })
  | .klpAhead p => s.modPort p.val (fun x => { x with aheadLimit := v0 })

/-- 11 R297: a write of BAR0: of one word, or (`wide`) of two at an 8-byte-aligned offset, the low word first; any other access changes
nothing. -/
def State.bar0Apply (s : State) (off : BitVec 26) (wide : Bool) (v h : BitVec 64) : State :=
  let s1 := s.bar0Write off.toNat (v.setWidth 32) (h.setWidth 32)
  if !wide then (if off.toNat % 4 = 0 then s1 else s)
  else if off.toNat % 8 = 0 then s1.bar0Write (off.toNat + 4) (v.extractLsb' 32 32) (h.extractLsb' 32 32) else s

/-- REGISTER_WRITE (R12 to R14, 11 R297): a write of a register; `hwSet` are the bits that hardware sets in the same cycle. One of BAR0
behind a BAR2 access that a channel has refused waits in the hub. In a control space the register is written whole. -/
def registerWrite (r : RegRef) (wide : Bool) (v hwSet : BitVec 64) (s : State) : State :=
  match r with
  | .bar0 off => s.inTurn (.registerWrite r wide v hwSet) (fun a => a.bar0Apply off wide v hwSet)
  | _ => match r.resolve with
    | some q => s.ctlWrite q v hwSet
    | none => s

/-- 11 R297, Table 11.2: an access of the host applied: a BAR0 write, with a row of its own or not, or an access through BAR2. No other
command waits in the hub. -/
def State.hostApply (s : State) : Instr → State
  | .registerWrite (.bar0 off) wide v h => s.bar0Apply off wide v h
  | .bar2Access off act f => s.bar2Apply off act f
  | .hostMaxVersionWrite v => hostMaxVersionWrite v s
  | .partCfgWrite v => partCfgWrite v s
  | .jobStart p img => jobStart p img s
  | .jobPause p => jobPause p s
  | .jobResume p => jobResume p s
  | .jobStop p => jobStop p s
  | .jobAbort p => jobAbort p s
  | .jobClear p => jobClear p s
  | .endStepWrite p w => endStepWrite p w.half w.value s
  | .epochWrite p v => epochWrite p v s
  | .eventEnableWrite p v => eventEnableWrite p v s
  | .swEnable w => swEnable w s
  | .swDisable w a l => swDisable w a l s
  | .persistAckWrite p w => persistAckWrite p w.half w.value s
  | .latTolWrite p v => latTolWrite p v s
  | .farQuotaWrite p port v => farQuotaWrite p port v s
  | .farEvict p addr => farEvict p addr s
  | .rstSwRequest r => rstSwRequest r s
  | .recSnapAck => recSnapAck s
  | .bootGo x => bootGo x s
  | .writeSlot key x cut => Machine.writeSlot key x cut s
  | .fwuSelect key => fwuSelect key s
  | .fwuConfirm key => fwuConfirm key s
  | .svnCommit key => svnCommit key s
  | .activateQuad key => activateQuad key s
  | .mgmtWrite key x cut => Machine.mgmtWrite key x cut s
  | .ownerClaim key t => claim key t s
  | .ownerTransfer key t => ownerTransfer key t s
  | .revokeImage key t => revokeImage key t s
  | .ownerRelease key t => ownerRelease key t s
  | .debugUnlock key t => debugUnlock key t s
  | .lifecycleToken key t => lifecycleToken key t s
  | .attGo => attGo s
  | .ghReq key kind unit => ghReq key kind unit s
  | .ghClrCounts => ghClrCounts s
  | .fenceAdd key => fenceAdd key s
  | .fenceRemove key i => fenceRemove key i s
  | .pwrCapWrite v => pwrCapWrite v s
  | .pwrCalGo key go bytes cut => pwrCalGo key go bytes cut s
  | _ => s

/-- 11 R297, 01 R35: whether an access of the host cannot yet be applied: a channel has refused one, or the access goes to a channel whose
clock is stopped. -/
def State.hostHeld (s : State) : Instr → Bool
  | .bar2Access off _ _ => s.hostRefused || s.bar2Held off
  | _ => s.hostRefused

/-- 11 R297, 09 R248: accesses of the host that waited are applied in their order, until a channel does not take one; those behind it wait on. -/
def State.drainHost (s : State) : List Instr → State
  | [] => { s with hostWait := [] }
  | a :: t => if s.hostHeld a then { s with hostWait := a :: t } else (s.hostApply a).drainHost t

/-- RETRY_RESEND (09 R248, 11 R297): the oldest refused request of a source at a channel is resent; once the host's is accepted, or
where what waits is for a channel whose clock was stopped, the accesses of the host follow in their order. -/
def resendInOrder (k : ChannelId) (src : Fin 1026) (f : LineFound) (s : State) : State :=
  let s1 := retryResend k src f s
  if src.val = 1024 then s1.drainHost s1.hostWait else s1

/-- RETRY_RESEND. -/
def execRetryResend (k : ChannelId) (src : Fin 1026) (f : LineFound) (s : State) : Host.Outcome State Fault Refusal :=
  .next (resendInOrder k src f s)
/-- REGISTER_WRITE. -/
def execRegisterWrite (r : RegRef) (wide : Bool) (v hwSet : BitVec 64) (s : State) : Host.Outcome State Fault Refusal :=
  .next (registerWrite r wide v hwSet s)

end Sys2Proof.Machine
end

