-- ==== Sys2Proof/Machine/Training.lean ====
section
/-! DEFINITION. Per-tensor shifts (07 R190 to R192) and the parameter update (07 R201 to R207, 08 R219, R235). -/

namespace Sys2Proof.Machine

/-- R192 step 2: the shift of step S + 1 from the shift in force, the counts of the sixteen steps, and the limit. -/
def nextShift (cur : Nat) (sat : List Nat) (s1 limit : Nat) : Nat :=
  if limit < sat.getD (s1 % 16) 0 then min (cur + 1) 3
  else if (List.range 16).all (fun k => decide (k = (s1 + 1) % 16) || decide (sat.getD k 0 = 0)) then cur - 1
  else cur

/-- R192: a core that has not begun the step to which TSC.SHIFT applies has read the shift before the record changes. -/
def State.readShifts (s : State) (p : Nat) (m : Managed) : State :=
  let step := s.tscStep p m
  let v := s.tscShift p m
  s.modCoresOf p (fun q => if !q.report.inStep && decide (q.report.next.toNat = step) then
    q.modLists (fun l => { l with shifts := l.shifts.set 0 m.tensor.toNat v }) else q)

/-- TENSOR_SHIFT_UPDATE (R192): after every core has ended step S - 1, the module controller computes the shift of managed
tensor `k` for step S + 1, clears that step's entries, and last writes TSC.STEP; a shift that it owes for the step before comes first. A
snapshot point that is due comes before it, and on a frame that is COW_PENDING the writes are a first touch, and wait (12 R328). -/
def tensorShiftUpdate (p : PartId) (k : Nat) (s : State) : State :=
  match (s.body p.val).managed[k]? with
  | none => s
  | some m =>
    let ended := (s.part p.val).jcp.step
    let job := (s.part p.val).job
    let behind := decide (s.tscStep p.val m = ended.toNat) && decide (ended + 1 ≠ job.latched.startStep)
    let last := if behind then ended - 1 else ended
    let next := (last + 2).toNat
    if !(s.part p.val).jcp.state.inJob || job.snapDue.isSome || decide (next ≤ s.tscStep p.val m) then s
    else
      let a := m.addr.toNat
      s.whenWritable p.val [(a, 192)] (fun s =>
        let sat := (List.range 16).map (fun n => s.jobNat p.val (a + 128 + 4 * n) 4)
        let shift := nextShift (s.tscShift p.val m) sat last.toNat (s.jobNat p.val (a + 52) 4)
        let b0 := s.jobNat p.val a 1
        let s1 := (s.readShifts p.val m).setJobNat p.val a 1 (b0 / 4 * 4 + shift)
        let s2 := (s1.setJobNat p.val (a + 128 + 4 * (next % 16)) 4 0).setJobNat p.val (a + 64 + 4 * (next % 16)) 4 0
        s2.setJobNat p.val (a + 56) 8 next)

-- AdamW -----------------------------------------------------------------------------------------------------------------

/-- R204: powi(β, t), from the most significant bit of t down. -/
def powi (b : F32) (t : Nat) : F32 :=
  ((List.range 32).reverse).foldl (fun a i => let q := f32Mul a a; if t.testBit i then f32Mul q b else q) 0x3F800000

/-- R204: the results of powi's multiplications. -/
def powiWords (b : F32) (t : Nat) : List F32 :=
  (List.range 32).flatMap (fun i => let a := powi b (t / 2 ^ (i + 1)); let q := f32Mul a a; if t.testBit i then [q, f32Mul q b] else [q])

/-- R203: the segment in force in a step: the last whose start is at most the step. -/
def segmentFor (l : List LrSeg) (step : BitVec 32) : LrSeg :=
  l.foldl (fun a x => if (step - x.start).toNat < 2 ^ 31 then x else a) {}

/-- R204: the scalars of a region in a step: k1, k2, dec. -/
structure AdamScalars where
  k1 : F32 := 0
  k2 : F32 := 0
  dec : F32 := 0
  /-- what their operands and results set in CORE.ARITH_STATUS (02 R64) -/
  flags : ArithStatus := {}
  deriving DecidableEq, Repr

/-- R204: the per-step scalars. -/
def adamScalars (o : OptDesc) (sched : List LrSeg) (step : BitVec 32) : AdamScalars :=
  let seg := segmentFor sched step
  let t := (step - o.t0 + 1).toNat
  let lr := f32Fma seg.slope (f32Round false (step - seg.start).toNat 0) seg.lr0
  let d1 := f32Sub 0x3F800000 (powi o.beta1 t)
  let d2 := f32Sub 0x3F800000 (powi o.beta2 t)
  let k1 := f32Mul lr (f32Recip d1)
  let k2 := f32Rsqrt d2
  let dec := if o.decay then f32Fma (f32Neg lr) o.wd 0x3F800000 else 0x3F800000
  { k1 := k1, k2 := k2, dec := dec
    flags := floatFlags ([seg.slope, seg.lr0, o.beta1, o.beta2] ++ if o.decay then [o.wd] else [])
      (powiWords o.beta1 t ++ powiWords o.beta2 t ++ [lr, d1, d2, f32Recip d1, k1, k2, dec]) }

/-- R204: one element: the new mn, rn and w. -/
def adamElem (o : OptDesc) (x : AdamScalars) (m r g w : F32) : F32 × F32 × F32 :=
  let mn := f32Fma o.beta1 m (f32Mul o.omb1 g)
  let vn := f32Fma o.beta2 (f32Mul r r) (f32Mul o.omb2 (f32Mul g g))
  let rn := f32Sqrt vn
  let d := f32Fma rn x.k2 o.eps
  (mn, rn, f32Fma (f32Neg x.k1) (f32Mul mn (f32Recip d)) (f32Mul w x.dec))

/-- Whether an FP32 pattern is finite. -/
def f32Finite (x : F32) : Bool := match F32.val x with | .fin _ _ _ => true | _ => false

/-- R206: the gradients of a block, where all are finite. -/
def finiteBlock : List F32 → Option (List F32)
  | [] => some []
  | g :: t => if f32Finite g then (finiteBlock t).map (fun l => g :: l) else none

/-- R204: the values that the update of an element consumes and produces, operands first (02 R64). -/
def adamWords (o : OptDesc) (x : AdamScalars) (m r g w : F32) : List F32 × List F32 :=
  let y := adamElem o x m r g w
  let sq := f32Mul g g
  let vn := f32Fma o.beta2 (f32Mul r r) (f32Mul o.omb2 sq)
  let d := f32Fma y.2.1 x.k2 o.eps
  ([m, r, g, w], [f32Mul o.omb1 g, y.1, f32Mul r r, sq, f32Mul o.omb2 sq, vn, y.2.1, d, f32Recip d, f32Mul y.1 (f32Recip d), f32Mul w x.dec,
    y.2.2])

/-- R204, R205: the block of 32 elements from index `n` of a region updated by its gradients, by the vector unit of core `c`, whose flags
the operations and the conversions set (02 R63, R64). -/
def State.adamBlock (s : State) (p c : Nat) (o : OptDesc) (x : AdamScalars) (n : Nat) (gs : List F32) : State :=
  let mb := s.jobBytes (s.someTower p) (o.mBase.toNat + n) 32
  let rb := s.jobBytes (s.someTower p) (o.rBase.toNat + n) 32
  let ms := s.jobNat p (o.mBase.toNat + o.mScaleOff + n / 32) 1
  let rs := s.jobNat p (o.rBase.toNat + o.rScaleOff + n / 32) 1
  let m (i : Nat) : F32 := f32Of (widen .e4m3 (elemOf .e4m3 mb i) ms)
  let r (i : Nat) : F32 := f32Of (widen .ue5m3 (elemOf .ue5m3 rb i) rs)
  let w (i : Nat) : F32 := BitVec.ofNat 32 (s.jobNat p (o.masterBase.toNat + 4 * (n + i)) 4)
  let out := (List.range 32).map (fun i => adamElem o x (m i) (r i) (gs.getD i 0) (w i))
  let words := (List.range 32).map (fun i => adamWords o x (m i) (r i) (gs.getD i 0) (w i))
  let modes (t : BitVec 32) : List RMode := (List.range 32).map (fun i => (s.rounding c o.momSr t).mode (n + i))
  let mo := convertBlock .e4m3 0 (out.map (fun y => F32.val y.1)) (modes o.mTensor)
  let ro := convertBlock .ue5m3 0 (out.map (fun y => F32.val y.2.1)) (modes o.rTensor)
  let wr (t : State) (a : Nat) (bs : List Byte) : State := t.jobWrite (t.someTower p) a bs
  let s1 := wr s (o.masterBase.toNat + 4 * n) (wordBytes (out.map (fun y => y.2.2)))
  let s2 := wr (wr s1 (o.mBase.toNat + n) (packElems .e4m3 (mo.2.map Prod.fst))) (o.mBase.toNat + o.mScaleOff + n / 32)
    [BitVec.ofNat 8 mo.1]
  let s3 := wr (wr s2 (o.rBase.toNat + n) (packElems .ue5m3 (ro.2.map Prod.fst))) (o.rBase.toNat + o.rScaleOff + n / 32)
    [BitVec.ofNat 8 ro.1]
  s3.setArith c ((floatFlags (words.flatMap Prod.fst) (words.flatMap Prod.snd)).or
    (((mo.2 ++ ro.2).map Prod.snd).foldl ConvFlags.or {}).arith)

/-- R219: the scale byte of a tile for the next step. -/
def nextScale (sf b : Nat) : Nat :=
  if b = 0 then sf
  else
    let z : Int := (sf : Int) - 23 + b + 2
    if z < 0 then 0 else if 0xFE < z then 0xFE else z.toNat

/-- R207, R235: the parts of one copy of a tile, as element and scale bytes, and the flags of its conversions. -/
structure Copy where
  copy : Bool := false
  parts : List (List Byte × List Byte) := []
  flags : ConvFlags := {}
  deriving DecidableEq, Repr

/-- R207: the working parameters of a tile, from its master weights; a skipped block's forward bytes, and the
backward bytes of a tile skipped whole, are those of the generation in use (R206, 08 R236). -/
def State.workCopies (s : State) (p : Nat) (r : Region) (tl gen : Nat) (skipped : List Bool) : List Copy :=
  let n := 4096 * tl
  let w (i : Nat) : Val := F32.val (BitVec.ofNat 32 (s.jobNat p (r.opt.masterBase.toNat + 4 * (n + i)) 4))
  let skip (i : Nat) : Bool := skipped.getD (i / 32) false
  if r.opt.workFmt = 1 then
    let e (i : Nat) : Nat :=
      if skip i then s.jobNat p ((r.place gen tl 0 false).1 + 2 * i) 2 else (convert .bf16 .rne (w i) 1).1
    let fl := ((List.range 4096).filter (fun i => !skip i)).foldl (fun a i => a.or (convert .bf16 .rne (w i) 1).2) {}
    let parts (f : Nat → Nat) : List (List Byte × List Byte) := (List.range 4).map (fun k =>
      (packElems .bf16 ((List.range 1024).map (fun i => f (1024 * k + i))), []))
    [{ parts := parts e, flags := fl }] ++ (if r.opt.wtBwd = 2 then [{ copy := true, parts := parts e }] else [])
  else
    let (fe, fx) := r.place gen tl 0 false
    let new (b : Nat) : Nat × List (Nat × ConvFlags) :=
      convertBlock .e4m3 0 ((List.range 32).map (fun i => w (32 * b + i))) (List.replicate 32 .rne)
    let fwd := (List.range 128).map (fun b =>
      if skip (32 * b) then (s.jobNat p (fx + b) 1, (List.range 32).map (fun i => s.jobNat p (fe + 32 * b + i) 1))
      else ((new b).1, (new b).2.map Prod.fst))
    let orAll (l : List (Nat × List (Nat × ConvFlags))) : ConvFlags := ((l.flatMap Prod.snd).map Prod.snd).foldl ConvFlags.or {}
    let bwd := (List.range 128).map (fun q =>
      convertBlock .e4m3 0 ((List.range 32).map (fun i => w (64 * (32 * (q / 64) + i) + q % 64))) (List.replicate 32 .rne))
    let (ge, gx) := r.place gen tl 0 true
    let none' := (List.range 4096).all skip
    let bel (i : Nat) : Nat := if none' then s.jobNat p (ge + i) 1 else ((bwd.getD (64 * (i / 64 / 32) + i % 64) (0, [])).2.getD (i / 64 % 32) (0, {})).1
    let bscale := if none' then (List.range 128).map (fun i => s.jobNat p (gx + i) 1) else bwd.map Prod.fst
    let b8 (l : List Nat) : List Byte := l.map (BitVec.ofNat 8)
    [{ parts := (List.range 2).map (fun k =>
        (b8 (((fwd.drop (64 * k)).take 64).flatMap Prod.snd), b8 (((fwd.drop (64 * k)).take 64).map Prod.fst)))
       flags := orAll (((List.range 128).filter (fun b => !skip (32 * b))).map new) }] ++
    (if r.opt.wtBwd = 2 then
      [{ copy := true, flags := if none' then {} else orAll bwd, parts := (List.range 2).map (fun k =>
          (b8 ((List.range 2048).map (fun i => bel (2048 * k + i))), b8 (((bscale.drop (64 * k)).take 64)))) }]
    else [])

/-- R235, 12 R346 step 4: the members that a broadcast for a step goes to. -/
def State.broadcastTo (s : State) (p : Nat) (d : GroupDesc) (step : BitVec 32) : List Nat :=
  (List.range d.members.toNat).filter (fun m =>
    (s.route p d.id.toNat m).live || (s.part p).job.rejoins.any (fun r => s.sameModule p d.id.toNat m 0 r.1.toNat && decide (r.2.setWidth 32 ≤ step)))

/-- R235: the parameter packets of a tile to every live member. -/
def State.broadcast (s : State) (p c : Nat) (d : GroupDesc) (t : Nat) (fmt : BitVec 4) (step : BitVec 32) (scale : Nat)
    (skipped : Bool) (copies : List Copy) : State :=
  let pkts (m : Nat) : List OutPkt := copies.flatMap (fun y =>
    (List.range y.parts.length).map (fun k =>
      let b := y.parts.getD k ([], [])
      let pb : Pb := { step := step, tile := BitVec.ofNat 32 t, nextScale := BitVec.ofNat 8 scale, format := fmt,
                       copy := y.copy, part := BitVec.ofNat 2 k, last := decide (k + 1 = y.parts.length), skipped := skipped,
                       member := d.self, group := d.id }
      { quad := BitVec.ofNat 2 (c / 128), cls := 3, group := d.id, dst := BitVec.ofNat 12 m, payload := pb.bytes ++ b.1 ++ b.2 }))
  { s with txq := s.txq ++ (s.broadcastTo p d step).flatMap pkts }

-- The ride ----------------------------------------------------------------------------------------------------------------

/-- 12 R324: the ranges of the optimiser state that a partition's owned tiles hold. -/
def State.ownedRanges (s : State) (p : Nat) : List (Nat × Nat) := (s.body p).ownedRanges

/-- The 32-byte units of a page in which no owned tile has a byte. -/
def State.uncovered (s : State) (p page : Nat) : List Nat :=
  let rs := s.ownedRanges p
  (List.range 65536).filter (fun u => let a := 2 ^ 21 * page + 32 * u
    !rs.any (fun r => decide (r.1 < a + 32) && decide (a < r.1 + r.2)))

/-- 12 R331: a range widened to whole 32-byte units, the least that RIDE_DATA carries (log 36). -/
def wholeUnits (r : Nat × Nat) : Nat × Nat := (r.1 / 32 * 32, (r.1 % 32 + r.2 + 31) / 32 * 32)

/-- A range of job addresses cut at page ends and after 4,064 bytes (12 R331): pairs of address and length. -/
def rideCut : Nat → Nat → Nat → List (Nat × Nat)
  | 0, _, _ => []
  | fuel + 1, a, n =>
    if n = 0 then []
    else
      let m := min (min n 4064) (2 ^ 21 - a % 2 ^ 21)
      (a, m) :: rideCut fuel (a + m) (n - m)

/-- 12 R335 step 1: a piece of a ride page as RIDE_DATA. -/
def State.ridePkt (s : State) (p c : Nat) (r : SnapRun) (i a n : Nat) : OutPkt :=
  let h : Sn := { id := r.id, index := BitVec.ofNat 27 i, offset := BitVec.ofNat 21 (a % 2 ^ 21), kind := 3,
                  slot := BitVec.ofNat 1 r.slot, member := s.selfOf p }
  { quad := BitVec.ofNat 2 (c / 128), cls := 4, dst := s.partnerOf p, payload := h.bytes ++ s.jobBytes (s.someTower p) a n }

/-- 12 R335 step 1: what the update of a tile sends of the pages that ride, before it writes them. The last of a page's tiles
sends with it the bytes that no tile covers, without which the page would not be complete (log 36). -/
def State.rideTile (s : State) (p c : Nat) (ranges : List (Nat × Nat)) : List OutPkt × FMap Nat :=
  let j := (s.part p).job
  match j.snap, j.body.plan with
  | some r, some x =>
    let pieces := (ranges.map wholeUnits).flatMap (fun q => rideCut (q.2 + 1) q.1 q.2)
    let index (page : Nat) : Option Nat := r.ride.find? (fun i => match x.pages[i]? with | some e => decide (e.page.toNat = page) | none => false)
    pieces.foldl (fun acc q =>
      match index (q.1 / 2 ^ 21) with
      | none => acc
      | some i =>
        let page := q.1 / 2 ^ 21
        let rest := s.uncovered p page
        let sent := acc.2.get 0 i + q.2
        let tail := if sent = 2 ^ 21 - 32 * rest.length then rest.map (fun u => s.ridePkt p c r i (2 ^ 21 * page + 32 * u) 32) else []
        (acc.1 ++ (s.ridePkt p c r i q.1 q.2 :: tail), FMap.set 0 acc.2 i sent)) ([], r.rideSent)
  | _, _ => ([], [])

/-- A tile's broadcast with its ride data after the first packet (12 R335 step 1). -/
def State.broadcastRide (s s3 : State) (p c : Nat) (ranges : List (Nat × Nat)) : State :=
  let n := s.txq.length + 1
  let x := s.rideTile p c ranges
  let s4 : State := { s3 with txq := s3.txq.take n ++ (x.1 ++ s3.txq.drop n) }
  s4.modJob p (fun j => { j with snap := j.snap.map (fun r => { r with rideSent := x.2 }) })

/-- R203: the segments of the schedule that a region names, which the owner core reads in job memory in each step. -/
def State.scheduleOf (s : State) (p : Nat) (o : OptDesc) : List LrSeg :=
  let j := (s.part p).job
  lrSchedule (s.jobNat p) (j.body.addrOf j.latched.imageMpa.toNat j.body.dirOff) o.schedule.toNat

/-- R206: the blocks of a tile of a region from its gradients, none where one is not finite; those that lie beyond OPT.COUNT are left
out. -/
def OptDesc.blocks (o : OptDesc) (tl : Nat) (gs : List F32) : List (Option (List F32)) :=
  (List.range (o.elems tl / 32)).map (fun b => finiteBlock ((gs.drop (32 * b)).take 32))

/-- 08 R228: the gradients of a tile, as they lie in the vector scratch of core `c`. -/
def State.gradWords (s : State) (c : Nat) (g : Grad) : List F32 := (s.core c).stores.words c g.off 4096

/-- The owned tiles of a partition whose region stops the job on a gradient that is not finite (R206), with their groups and regions. -/
def State.stopTiles (s : State) (p : Nat) : List (GroupDesc × Nat × Region × Nat) :=
  (s.body p).groups.flatMap (fun d => (List.range d.ownCount.toNat).filterMap (fun i =>
    let t := d.ownFirst.toNat + i
    match regionOf d.regions 0 t with
    | some (_, r, tl) => if r.opt.nonfinite then some (d, t, r, tl) else none
    | none => none))

/-- R206: whether a tile's gradients of a step hold one that is not finite; none while they have not been formed in the step. -/
def State.tileBad (s : State) (p : Nat) (step : BitVec 32) (x : GroupDesc × Nat × Region × Nat) : Option Bool :=
  let o := s.orec p x.1 x.2.1
  if o.step ≠ step.toNat || o.state = 0 then none
  else if o.state = 2 then some false
  else
    match (s.core (s.ownerCore p x.1 x.2.1)).grads.find? (fun g => decide (g.group = x.1.id.toNat) && decide (g.tile = x.2.1)) with
    | some g => some ((x.2.2.1.opt.blocks x.2.2.2 (s.gradWords (s.ownerCore p x.1 x.2.1) g)).any (fun b => b.isNone))
    | none => some false

/-- R204 to R207, 08 R219, R235: the update of a tile: its blocks, its working parameters, their broadcast. `k` is its owner core, `d` the
group, `r` the region, `t` the group tile and `tl` the tile's number in the region. -/
def State.updateTile (s : State) (p c : Nat) (d : GroupDesc) (r : Region) (t tl : Nat) (step : BitVec 32)
    (blocks : List (Option (List F32))) : State :=
  let o := s.orec p d t
  let bad := (blocks.filter (fun x => x.isNone)).length
  let x := adamScalars r.opt (s.scheduleOf p r.opt) step
  let s1 := (List.range blocks.length).foldl (fun a b => match blocks.getD b none with
    | some gs => a.adamBlock p c r.opt x (4096 * tl + 32 * b) gs
    | none => a) (s.setArith c x.flags)
  let s2 := if bad ≠ 0 then s1.logError (s1.coreReport c 0x0701 bad t 0) else s1
  let copies := s2.workCopies p r tl (step.toNat % 2) ((List.range 128).map (fun b => (blocks.getD b none).isNone))
  let s3 := copies.foldl (fun a y => a.setArith c y.flags.arith) s2
  let s4 := s3.broadcast p c d t r.opt.workFmt (step + 1) (nextScale o.scale o.maxb) (decide (bad = blocks.length)) copies
  ((s.broadcastRide s4 p c (r.opt.ranges (4096 * tl) (r.opt.elems tl))).setOrec p d t { o with state := 2 }).modJob p (fun j =>
    { j with updateBegun := true })

/-- ADAMW_UPDATE (R204 to R207, 08 R219, R235): the head of an owner core's vector list updates a COMPLETE tile whose
gradients are written, forms its working parameters and broadcasts them. With OPT.NONFINITE = 1 a gradient of the step that is not finite
stops the job before anything of the step is broadcast: while a tile of such a region has not been formed, updates wait. -/
def adamwUpdate (c : CoreId) (io : IssueIo) (s : State) : State :=
  let k := s.core c.val
  match k.lists.vecs with
  | [] => s
  | e :: rest =>
    match e.op with
    | .adamw g tile =>
      let p := s.partOfCore c.val
      let t := tile.toNat
      match s.groupOf p g.toNat, k.grads.find? (fun x => decide (x.group = g.toNat) && decide (x.tile = t)) with
      | some d, some gr =>
        match regionOf d.regions 0 t with
        | none => s
        | some (_, r, tl) =>
          let step := k.report.step.setWidth 32
          let checks := (s.stopTiles p).map (fun y => (y, s.tileBad p step y))
          if !s.coreIssues c.val || (s.orec p d t).state ≠ 1 then s
          else
            match checks.find? (fun y => y.2 = some true) with
            | some (y, _) => s.programFault (s.coreReport (s.ownerCore p y.1 y.2.1) 0x0702 0 y.2.1 4) 0x26
            | none =>
              if checks.any (fun y => y.2.isNone) then s
              else
                s.whenUnit p c.val (r.opt.ranges (4096 * tl) (r.opt.elems tl) ++ [(d.orAddr t, 32)]) [] [] (fun s =>
                  let s1 := (s.released c.val).updateTile p c.val d r t tl step (r.opt.blocks tl (s.gradWords c.val gr))
                  (s1.modCore c.val (fun q =>
                    let k1 := ((q.countCe io.sramCe).engineHead 2 e.reportOp).charge 2 (16 * (if r.opt.wtBwd = 2 then 36 else 32)) io.waitIn.toNat
                      io.waitOut.toNat 0 1
                    Core.vecHead { k1 with
                      lists := { k1.lists with vecs := rest }
                      grads := k1.grads.filter (fun y => !(decide (y.group = g.toNat) && decide (y.tile = t))) })).moveRegions c.val
                      io.moves)
      | _, _ => s
    | _ => s

/-- TENSOR_SHIFT_UPDATE. -/
def execTensorShiftUpdate (p : PartId) (k : Nat) (s : State) : Host.Outcome State Fault Refusal :=
  .next (tensorShiftUpdate p k s)
/-- ADAMW_UPDATE. -/
def execAdamwUpdate (c : CoreId) (io : IssueIo) (s : State) : Host.Outcome State Fault Refusal := .next ((adamwUpdate c io s).commitLog c.val)

end Sys2Proof.Machine
end

