-- ==== Sys2Proof/Machine/Snapshots.lean ====
section
/-! DEFINITION. Snapshots, rejoin and restore: the commands (12 R328 to R353). -/

namespace Sys2Proof.Machine

-- The copy side -----------------------------------------------------------------------------------------------------------

/-- 08 R220: no reduction is under way in a partition: every contributor record is EMPTY and its combine tile is zero. -/
def State.reductionsRest (s : State) (p : Nat) : Bool :=
  (List.range (s.body p).crs.length).all (fun i =>
    let r := s.cr p i
    decide (r.state = 0) && (match s.groupOf p r.group with
      | some d => decide (s.jobNat p (d.combineAddr r.tile 0) 32768 = 0)
      | none => true))

/-- SNAPSHOT_POINT (R328, R323, 08 R220): every core has ended a snapshot step and no contributor record or combine tile holds a term
of it: the snapshot begins or is skipped, and the cores may begin the next step. While the frame of the job state page is still
protected for an abandoned copy, it waits. -/
def snapshotPoint (p : PartId) (s : State) : State :=
  let j := (s.part p.val).job
  if !s.reductionsRest p.val then s else match j.snapDue, s.plan p.val with
  | some step, some x =>
    let passed (a : State) : State :=
      a.modJob p.val (fun y => { y with snapDue := none, stopSnap := y.stopSnap || decide (y.stopStep = some step) })
    match j.skipReason with
    | some r => (passed s).skipSnap p.val r step
    | none =>
      let page0 := (x.pages.headD {}).page.toNat
      s.whenAccess p.val [] [] [(2 ^ 21 * page0, 2 ^ 18)] (fun a => (passed a).openSnap p.val x page0 step)
  | _, _ => s

/-- FRAME_COPIED (R329, R330): the copier's last read of a protected frame completes: its data and digest are taken, the frame
becomes RW and its held requests are applied. Frames of one copier complete in the order of its queue, but for touched frames
that were moved ahead of one being read. A frame that has been retired meanwhile is then vacated (09 R249). `bad` names a line of the frame that the reads find uncorrectable (09 R254). -/
def frameCopied (t : TowerId) (g : Fin 49152) (bad : Option (Fin 32768)) (s : State) : State :=
  let f := s.frame t.val g.val
  match f.prot with
  | .cowPending =>
    let p := f.part.toNat
    let done (a : State) : State := (a.writeFrame t.val g.val { a.frame t.val g.val with prot := .rw }).vacate (49152 * t.val + g.val)
    match (s.part p).job.snap, s.plan p with
    | some r, some x =>
      match r.queue.find? (fun i => decide ((x.pages.getD i {}).page = f.jobPage)) with
      | none => done s
      | some i =>
        let ahead := (r.queue.takeWhile (fun q => decide (q ≠ i))).any (fun q =>
          match s.pagePlace p (x.pages.getD q {}).page.toNat with
          | some pl => decide (quadOfTower pl.tower = quadOfTower t.val) && !(s.frame pl.tower pl.g).touched
          | none => false)
        let chan (b : Nat) : Nat := 32 * t.val + 2 * (g.val / 3072) + b
        let poisoned := [0, 1].findSome? (fun b =>
          ((s.chan (chan b)).poisoned.find? (fun a => decide (a / 2 ^ 20 = g.val % 3072))).map (fun a => (chan b, a)))
        let ue : Option (Nat × Nat) := match bad with
          | some n => some (chan (n.val / 16384), g.val % 3072 * 2 ^ 20 + 64 * (n.val % 16384))
          | none => poisoned
        if ahead then s
        else
          match ue with
          | some (k, a) => done ((s.dramUe k a (some (p, f.jobPage.toNat))).abandonSnap p 0)
          | none =>
            let bs := s.pageBytes p f.jobPage.toNat
            let h : Sn := { id := r.id, index := BitVec.ofNat 27 i, slot := BitVec.ofNat 1 r.slot, member := s.selfOf p }
            let s1 := s.sendPieces (BitVec.ofNat 2 (quadOfTower t.val)) (s.partnerOf p) h false bs
            let s2 := s1.modSnap p (fun q => { q with queue := q.queue.filter (fun n => decide (n ≠ i)),
                                                      digests := FMap.set [] q.digests i (shake256 bs) })
            (done s2).trySeal p
    | _, _ => done s
  | _ => s

/-- COPY_BUDGET_EXPIRE (R334): the copy budget expires; `begun` are the pages that the copiers have begun reading.
DESIGN CHOICE (log 103): module-controller core 72 + p counts the budget; while it is debug-halted, the count stands. -/
def copyBudgetExpire (p : PartId) (begun : List Nat) (s : State) : State :=
  if s.ctlHalted (72 + p.val) then s else (s.handOver p.val begun).trySeal p.val

/-- RIDE_DIGEST (R335 step 4): the delivered digest of a ride page enters the manifest. -/
def rideDigest (p : PartId) (i : Nat) (s : State) : State :=
  match s.rxAt p.val i 4 with
  | none => s
  | some x =>
    let h := Sn.ofBytes x.payload
    if h.kind ≠ 4 then s
    else
      let n := h.index.toNat
      ((s.dropRx i).modSnap p.val (fun r =>
        if decide (r.id = h.id) && r.ride.contains n then
          { r with ride := r.ride.filter (fun q => decide (q ≠ n)), rode := r.rode ++ [n],
                   digests := FMap.set [] r.digests n ((x.payload.drop 32).take 32) }
        else r)).trySeal p.val

/-- SNAP_COMMITTED (R333 step 5, R320): the delivered commit of the module's copy: the catalogue, the event, SNAP_DONE to every
member, and a flash snapshot where one is due. -/
def snapCommitted (p : PartId) (i : Nat) (s : State) : State :=
  match s.rxAt p.val i 0 with
  | none => s
  | some x =>
    let c := Ctl.ofBytes x.payload
    if c.kind ≠ 0x12 then s
    else
      let s0 := s.dropRx i
      let j := (s.part p.val).job
      match j.snap with
      | none => s0
      | some r =>
        if r.id ≠ c.id || !r.sealed then s0
        else
          let s1 := s0.modJob p.val (fun y => { y with snap := none, newest := some { id := r.id, step := r.step, slot := r.slot } })
          let s2 := (s1.setCatEntry p.val r.slot r.id r.step 1 r.slot 2).jobEvent p.val 10
          let s3 := (s2.jobMembers p.val).foldl (fun a m => a.sendCtl p.val (BitVec.ofNat 12 m) (Ctl.snap 0x14 r.id 0)) s2
          let s4 := s3.checkComplete p.val
          let mu := if j.latched.interval = 0 then 0 else (r.step.toNat + 1) / j.latched.interval
          if j.latched.flashEvery ≠ 0 && decide (mu % j.latched.flashEvery = 0) && j.snapStep r.step then
            s4.beginFlash p.val r (mu / j.latched.flashEvery)
          else s4

/-- SNAP_DONE (R333): the delivered SNAP_DONE of a group 0 member. -/
def snapDone (p : PartId) (i : Nat) (s : State) : State :=
  match s.rxAt p.val i 0 with
  | none => s
  | some x =>
    let c := Ctl.ofBytes x.payload
    if c.kind ≠ 0x14 then s
    else ((s.dropRx i).modJob p.val (fun j => { j with snapDone := j.snapDone ++ [(c.id, x.src)] })).checkComplete p.val

/-- SNAP_ABORT (R332, R322, R333): the delivered SNAP_ABORT ends the module's copy, or the one that the holder was writing. -/
def snapAbort (p : PartId) (i : Nat) (s : State) : State :=
  match s.rxAt p.val i 0 with
  | none => s
  | some x =>
    let c := Ctl.ofBytes x.payload
    if c.kind ≠ 0x13 then s
    else
      let s0 := s.dropRx i
      let s1 := match (s.part p.val).job.snap with
        | some r => if decide (r.id = c.id) && decide (x.src = s.partnerOf p.val) then
            (s0.modJob p.val (fun j => { j with snap := none })).setCatEntry p.val r.slot r.id r.step 1 r.slot 0
          else s0
        | none => s0
      match s1.openSlot p.val c.id x.src with
      | some k => (s1.setHeld p.val k { seq := (s1.held p.val k).seq }).setCatEntry p.val (11 + k) c.id 0 4 k 0
      | none => s1

-- The holder --------------------------------------------------------------------------------------------------------------

/-- SNAP_OPEN (R322, R333): the holder takes the delivered SNAP_OPEN: it invalidates the slot, or refuses. -/
def snapOpen (p : PartId) (i : Nat) (s : State) : State :=
  match s.rxAt p.val i 0 with
  | none => s
  | some x =>
    let c := Ctl.ofBytes x.payload
    if c.kind ≠ 0x10 then s
    else
      let n := bitsAt c.rest 113 27
      let k := bitsAt c.rest 112 1
      let s0 := s.dropRx i
      let h := s.held p.val k
      let refuse (cause : Nat) : State := s0.sendCtl p.val x.src (Ctl.snap 0x13 c.id (cause * 2 ^ 136))
      match s.plan p.val with
      | none => refuse 3
      | some y =>
        if x.src ≠ s.partnerOf p.val then refuse 3
        else if y.partnerPages.toNat < n then refuse 1
        else if h.pinned then refuse 2
        else
          let s1 := s0.putBytes p.val (y.slotBase k) (List.replicate 64 0)
          (s1.setHeld p.val k { opened := true, id := c.id, member := x.src, pages := n, seq := h.seq }).setCatEntry p.val (11 + k) c.id
            ((c.id.setWidth 32).setWidth 64) 4 k 1

/-- What the holder does with a delivered snapshot packet of a kind, in the slot opened for it. -/
def State.holderTake (s : State) (p i : Nat) (kind : BitVec 3) (f : State → Nat → SnapPlan → Sn → Packet → State) : State :=
  match s.rxAt p i 4 with
  | none => s
  | some x =>
    let h := Sn.ofBytes x.payload
    if h.kind ≠ kind then s
    else
      match s.openSlot p h.id x.src, s.plan p with
      | some k, some y => f (s.dropRx i) k y h x
      | _, _ => s.dropRx i

/-- PAGE_DATA (R331, R333): the partner-region writer places the delivered piece. -/
def pageData (p : PartId) (i : Nat) (s : State) : State :=
  s.holderTake p.val i 0 (fun a k y h x => (a.placePiece p.val k y h false (x.payload.drop 32)).tryCommit p.val k)

/-- MANIFEST (R331): the holder places the delivered piece by its offset in the manifest. -/
def snapManifest (p : PartId) (i : Nat) (s : State) : State :=
  s.holderTake p.val i 1 (fun a k y h x =>
    let bs := x.payload.drop 32
    let off := 2 ^ 21 * h.index.toNat + h.offset.toNat
    let b := a.held p.val k
    if headerArea < manifestOff + off + bs.length then a
    else
      ((a.putBytes p.val (y.slotBase k + manifestOff + off) bs).setHeld p.val k { b with manifestGot := b.manifestGot + bs.length }).tryCommit
        p.val k)

/-- RIDE_DATA (R335): the partner-region writer places the delivered piece of a ride page, and answers its digest once the page is
complete. -/
def rideData (p : PartId) (i : Nat) (s : State) : State :=
  s.holderTake p.val i 3 (fun a k y h x =>
    let a1 := a.placePiece p.val k y h true (x.payload.drop 32)
    let n := h.index.toNat
    if (a1.held p.val k).got.get 0 n = 2 ^ 21 then
      let d := shake256 (a1.jobBytes (a1.someTower p.val) (y.slotBase k + headerArea + 2 ^ 21 * n) (2 ^ 21))
      (a1.sendSn (a1.homeQuad p.val) x.src { h with kind := 4, offset := 0 } d).tryCommit p.val k
    else a1)

/-- SNAP_SEAL (R333 step 4): the delivered SNAP_SEAL names the manifest's length; the slot commits once all is written. -/
def snapSeal (p : PartId) (i : Nat) (s : State) : State :=
  match s.rxAt p.val i 0 with
  | none => s
  | some x =>
    let c := Ctl.ofBytes x.payload
    if c.kind ≠ 0x11 then s
    else
      let s0 := s.dropRx i
      match s0.openSlot p.val c.id x.src with
      | some k => (s0.setHeld p.val k { s0.held p.val k with sealLen := some (bitsAt c.rest 108 32) }).tryCommit p.val k
      | none => s0

/-- FETCH (R341, R345): the holder takes the delivered FETCH: the slot is pinned if asked, its pages go out as FETCH_DATA, and
FETCH_END follows, with whose sending the pin goes. Frozen pages are not held. -/
def snapFetch (p : PartId) (i : Nat) (s : State) : State :=
  match s.rxAt p.val i 0 with
  | none => s
  | some x =>
    let c := Ctl.ofBytes x.payload
    if c.kind ≠ 0x18 then s
    else
      let s0 := s.dropRx i
      let answer (a : State) (status : Nat) : State := a.sendCtl p.val x.src (Ctl.snap 0x19 c.id (status * 2 ^ 136))
      -- R339: a slot holds a snapshot while its commit record does
      let recordOf (k : Nat) : Option Cm := match s.plan p.val with
        | some y => Cm.ofNat (s.jobNat p.val (y.slotBase k) 64)
        | none => none
      match [0, 1].find? (fun k => (s.held p.val k).committed && (recordOf k).any (fun x => decide (x.id = c.id))), s.plan p.val with
      | some k, some y =>
        let h := s.held p.val k
        let pin := c.rest.testBit 85
        if h.member ≠ x.src || (pin && h.pinned) then answer s0 2
        else
          let s1 := if pin then s0.setHeld p.val k { h with pinned := true } else s0
          let base := y.slotBase k
          let pages := ((List.range (bitsAt c.rest 86 27)).map (fun n => bitsAt c.rest 113 27 + n)).filter (fun n => decide (n < h.pages) &&
            !(Me.ofNat (s.jobNat p.val (base + manifestOff + 128 + 48 * n) 48)).frozen)
          answer (pages.foldl (fun a n =>
            let sn : Sn := { id := c.id, index := BitVec.ofNat 27 n, kind := 2, slot := BitVec.ofNat 1 k, member := h.member }
            a.sendPieces (a.homeQuad p.val) x.src sn false (a.jobBytes (a.someTower p.val) (base + headerArea + 2 ^ 21 * n) (2 ^ 21))) s1) 0
      | _, _ => answer s0 1

-- Fetches of the module -----------------------------------------------------------------------------------------------------

/-- R341: a piece of a page that the flash snapshot under way has asked for: a whole page is checked against its digest and written to
flash; one that fails abandons the snapshot and marks the Muslin copy unusable. -/
def State.flashTake (s : State) (p : Nat) (f : FlashRun) (h : Sn) (bs : List Byte) : State :=
  let n := h.index.toNat
  let (ft, whole) := f.fetch.take n h.offset.toNat bs
  match whole with
  | none => s.modJob p (fun y => { y with flash := some { f with fetch := ft } })
  | some pg =>
    if (manifestEntry f.fetch.manifest n).fits pg then
      ((s.openFlash p f).setFlash f.slot (headerArea + 2 ^ 21 * n) pg).modJob p (fun y =>
        { y with flash := some { f with opened := true, fetch := { ft with placed := ft.placed ++ [n] } } })
    else
      let s1 := s.logError { code := 0x0C02, detail := n, info := h.id.toNat, part := some p }
      (s1.dropFlash p f).setCatEntry p h.slot.toNat h.id f.step 1 h.slot.toNat 3

/-- R350: a piece of a page that a restore has asked for: a whole page that matches its digest is put in place. -/
def State.restoreTake (s : State) (p : Nat) (r : Restore) (h : Sn) (bs : List Byte) : State :=
  let n := h.index.toNat
  let (ft, whole) := r.fetch.take n h.offset.toNat bs
  let put (a : State) (q : FetchRun) : State := a.modJob p (fun y => { y with restore := y.restore.map (fun x => { x with fetch := q }) })
  match whole with
  | none => put s ft
  | some pg =>
    let e := manifestEntry r.fetch.manifest n
    if e.fits pg then put (s.putBytes p (2 ^ 21 * e.page) pg) { ft with placed := ft.placed ++ [n] }
    else put s { ft with bad := ft.bad ++ [n] }

/-- The restore whose fetch of a snapshot is under way. -/
def Job.fetching (j : Job) (id : BitVec 64) : Option Restore :=
  match j.restore with
  | some r => if r.fetch.begun && decide (r.fetch.id = id) then some r else none
  | none => none

/-- The flash snapshot whose fetch of a snapshot is under way. -/
def Job.flashing (j : Job) (id : BitVec 64) : Option FlashRun :=
  match j.flash with
  | some f => if f.fetch.id = id then some f else none
  | none => none

/-- FETCH_DATA (R341, R350): the delivered piece of a fetched page goes to the restore or to the flash snapshot that has asked for it. -/
def fetchData (p : PartId) (i : Nat) (s : State) : State :=
  match s.rxAt p.val i 4 with
  | none => s
  | some x =>
    let h := Sn.ofBytes x.payload
    if h.kind ≠ 2 then s
    else
      let s0 := s.dropRx i
      let j := (s.part p.val).job
      match j.fetching h.id, j.flashing h.id with
      | some r, _ => s0.restoreTake p.val r h (x.payload.drop 32)
      | none, some f => s0.flashTake p.val f h (x.payload.drop 32)
      | none, none => s0

/-- FETCH_END (R332, R323): the delivered status of a fetch. A flash snapshot whose partner slot could not be pinned is skipped. -/
def fetchEnd (p : PartId) (i : Nat) (s : State) : State :=
  match s.rxAt p.val i 0 with
  | none => s
  | some x =>
    let c := Ctl.ofBytes x.payload
    if c.kind ≠ 0x19 then s
    else
      let s0 := s.dropRx i
      let status := BitVec.ofNat 4 (bitsAt c.rest 136 4)
      let j := (s.part p.val).job
      match j.fetching c.id, j.flashing c.id with
      | some r, _ => s0.modJob p.val (fun y => { y with restore := some { r with fetch := { r.fetch with ended := some status } } })
      | none, some f =>
        if status ≠ 0 then (s0.dropFlash p.val f).skipSnap p.val 4 f.step
        else s0.modJob p.val (fun y => { y with flash := some { f with fetch := { f.fetch with ended := some status } } })
      | none, none => s0

/-- Whether every page of a fetch that is not frozen has come. -/
def FetchRun.all (f : FetchRun) : Bool :=
  (List.range (manifestPages f.manifest)).all (fun i => (manifestEntry f.manifest i).frozen || f.placed.contains i || f.bad.contains i)

/-- FLASH_WRITE_COMPLETE (R341 step 3, R320, Table 11.8): the pages of a flash snapshot are written: the manifest and last the commit
record follow, the SNAPSHOT event is raised, and a Serge snapshot begins where one is due. -/
def flashWriteComplete (p : PartId) (s : State) : State :=
  let j := (s.part p.val).job
  match j.flash with
  | none => s
  | some f =>
    match Mf.ofBytes f.fetch.manifest with
    | none => s
    | some m =>
      if !f.fetch.all || f.fetch.ended.isNone then s
      else
        let ride := (List.range m.pages.toNat).any (fun i => (manifestEntry f.fetch.manifest i).ride)
        let c : Cm := { id := f.fetch.id, step := f.step, digest := digestOf f.fetch.manifest, pages := m.pages, seq := s.flashSeq + 1,
                        tier := 2, slot := BitVec.ofNat 4 f.slot, signed := decide (m.sigLen ≠ 0), ride := ride }
        let s1 := ((s.openFlash p.val f).setFlash f.slot manifestOff f.fetch.manifest).setFlash f.slot 0 (bytesOf c.toNat 64)
        let s2 : State := { s1 with flashSeq := s.flashSeq + 1 }
        let s3 := ((s2.modJob p.val (fun y => { y with flash := none })).setCatEntry p.val (2 + f.slot) c.id c.step 2 f.slot 2).jobEvent p.val 10
        if j.latched.sergeEvery ≠ 0 && decide (f.number % j.latched.sergeEvery = 0) then s3.beginSerge p.val f m.pages.toNat else s3

/-- SERGE_SEGMENT_WRITE (11 R316, R342): the next segment of a Serge snapshot is written into its place in the window, once the
persistence of earlier ones allows, and JCP.SEG_WRITTEN advances. -/
def sergeSegmentWrite (p : PartId) (s : State) : State :=
  let k := s.part p.val
  let n := k.jcp.segWritten
  let w := k.job.latched.sergeWindow
  let slots := (s.window w).size.toNat / 32
  match k.job.serge.find? (fun r => decide (r.first ≤ n) && decide (n < r.first + BitVec.ofNat 64 r.total)) with
  | none => s
  | some r =>
    if slots = 0 || !decide (n.toNat < k.jcp.persistAck.toNat + slots) || !(s.window w).takes p.val 0 (2 ^ 26) then s
    else
      let i := (n - r.first).toNat
      let off := 2 ^ 26 * (n.toNat % slots)
      let s1 : State := { s with out := s.out ++ [.hostWrite w off (s.segmentBytes r i)],
                                 sergeSeq := if i + 1 = r.total then s.sergeSeq + 1 else s.sergeSeq }
      (s1.modJcp p.val (fun x => { x with segWritten := n + 1 })).jobEvent p.val 4

/-- FETCH_RESEND (R352, R353): a restore's FETCH whose FETCH_END has not come is sent again, at most 64 times; a holder that has been
cleared since then answers that it has no such snapshot. -/
def fetchResend (p : PartId) (s : State) : State :=
  match (s.part p.val).job.restore with
  | none => s
  | some r =>
    let f := r.fetch
    if !f.begun || f.ended.isSome || decide (64 ≤ f.resends) then s
    else
      (s.modJob p.val (fun j => { j with restore := some { r with fetch := { f with resends := f.resends + 1 } } })).sendCtl p.val
        (s.partnerOf p.val) (Ctl.snap 0x18 f.id (manifestPages f.manifest * 2 ^ 86))

-- Rejoin ------------------------------------------------------------------------------------------------------------------

/-- The latest step for which a partition has begun broadcasting parameters. -/
def State.broadcastStep (s : State) (p : Nat) : BitVec 64 :=
  let k := s.part p
  k.jcp.step + (if k.job.updateBegun then 2 else 1)

/-- REJOIN (R346 steps 3 to 5): the delivered REJOIN of a member: live in every group from its step, or too late for an owner. -/
def rejoin (p : PartId) (i : Nat) (s : State) : State :=
  match s.rxAt p.val i 0 with
  | none => s
  | some x =>
    let c := Ctl.ofBytes x.payload
    if c.kind ≠ 0x20 then s
    else
      let s0 := s.dropRx i
      let owner := (s.body p.val).groups.any (fun d => decide (d.ownCount ≠ 0))
      let last := s.broadcastStep p.val
      if owner && decide (c.id ≤ last) then s0.sendCtl p.val x.src (Ctl.snap 0x21 last 0)
      else s0.modJob p.val (fun j => { j with rejoins := j.rejoins.filter (fun r => decide (r.1 ≠ x.src)) ++ [(x.src, c.id)] })

/-- REJOIN_LATE (R346 steps 5 and 6): a withdrawn module sends REJOIN again for the step after the one that an owner names, and its
cores are set to that step. -/
def rejoinLate (p : PartId) (i : Nat) (s : State) : State :=
  match s.rxAt p.val i 0 with
  | none => s
  | some x =>
    let c := Ctl.ofBytes x.payload
    if c.kind ≠ 0x21 then s
    else
      let s0 := s.dropRx i
      match (s.part p.val).job.withdrawn with
      | none => s0
      | some st =>
        if c.id < st then s0
        else (s0.modJob p.val (fun j => { j with withdrawn := some (c.id + 1) })).rejoinNow p.val

-- Restore -----------------------------------------------------------------------------------------------------------------

/-- R350, R353: a restore begins: a rollback selects its variant; the Muslin copy's commit record, manifest and signature are checked
and its pages asked for. -/
def State.beginRestore (s : State) (p : Nat) (r : Restore) (muslin : Option HeaderArea) : State :=
  match (if r.rollback then s.reselectFor p r.fetch.id else some s) with
  | none => (s.modJob p (fun j => { j with restore := none })).programFault
      { code := 0x0507, detail := s.gh.fencedIn (s.part p).job.quads, part := some p } 0x08
  | some s1 =>
    let good := match muslin with
      | some h => if (s.part p).job.partnerLost then none else (h.good s.fw r.fetch.id 1).map (fun m => (h, m))
      | none => none
    match good with
    | none => s1.modJob p (fun j => { j with restore := some { r with fetch := { r.fetch with begun := true, ended := some 1 } } })
    | some (h, m) =>
      if !s1.restoreFits p r m then s1.failRestore p 351
      else
        let slot := match Cm.ofNat h.commit.toNat with | some c => some c.slot.toNat | none => none
        (s1.modJob p (fun j => { j with restore := some { r with slot := slot, fetch := { r.fetch with begun := true, manifest := h.manifest } } })).sendCtl
          p (s.partnerOf p) (Ctl.snap 0x18 r.fetch.id (m.pages.toNat * 2 ^ 86))

/-- R350: a restore's fetch has ended: the pages that it did not place come from the flash or the store window, which has to be enabled for
the partition and large enough for the snapshot's segments. -/
def State.endRestore (s : State) (p : Nat) (r : Restore) (flashSig : Option (List Byte)) (serge : Option SergeCopy) : State :=
  let id := r.fetch.id
  let slot := s.flashOf p id flashSig
  let flash := slot.map (fun n => (s.flashHeader n flashSig).manifest)
  let w := s.window (s.part p).job.latched.sergeWindow
  let store := match serge with
    | some c => match c.header.good s.fw id 3 with
      | some m => if w.takes p 0 ((ceilDiv m.pages.toNat 32 + 1) * 2 ^ 26) then some c else none
      | none => none
    | none => none
  let pages := match store with | some c => c.pages | none => []
  let m := if !r.fetch.manifest.isEmpty then r.fetch.manifest
    else match flash, store with | some f, _ => f | none, some c => c.header.manifest | none, none => []
  let fail (i : Nat) : State := (s.logError { code := 0x0C04, detail := i, info := id.toNat, part := some p }).failRestore p 350
  match Mf.ofBytes m with
  | none => fail 0
  | some f =>
    if !s.restoreFits p r f then s.failRestore p 351
    else
      match s.restorePages p r.fetch.placed slot pages m (List.range f.pages.toNat) with
      | .error i => fail i
      | .ok s1 => s1.modJob p (fun j => { j with restore := some { r with done := true } })

/-- Whether a restore waits to begin: for a flash snapshot of the same copy, whose fetch is under way (log 28). -/
def State.restoreWaits (s : State) (p : Nat) (r : Restore) : Bool :=
  !(s.part p).job.partnerLost && (match (s.part p).job.flash with | some f => decide (f.fetch.id = r.fetch.id) | none => false)

/-- RESTORE (R350, R351, R353): a restore begins, and, once the Muslin tier has given what it holds, ends. `muslin` is the header
area that the holder's slot gives, `serge` what the store window holds, `flashSig` the message that the flash
manifest's signature was made over. -/
def snapRestore (p : PartId) (muslin : Option HeaderArea) (flashSig : Option (List Byte)) (serge : Option SergeCopy) (s : State) : State :=
  match (s.part p.val).job.restore with
  | none => s
  | some r =>
    let f := r.fetch
    let ended := (match f.ended with | some st => decide (st ≠ 0) | none => false) || f.all || decide (64 ≤ f.resends) ||
      (s.part p.val).job.partnerLost
    if r.done then s
    else if !f.begun then (if s.restoreWaits p.val r then s else s.beginRestore p.val r muslin)
    else if ended then s.endRestore p.val r flashSig serge
    else s

/-- R352 step 3: the routes reloaded, and the members live as the job state block says. -/
def State.restoreRoutes (s : State) (p page0 : Nat) (step : BitVec 64) : State :=
  let live (g : Nat) : Nat := s.jobNat p (2 ^ 21 * page0 + 0x1000 + 512 * g) 512
  let s1 := (s.loadRoutes p (s.body p) false).modLinkDies p (fun l => { l with
    routes := l.routes.map (fun e => (e.1, { e.2 with live := e.2.valid && (live (e.1 / 4096)).testBit (e.1 % 4096) })) })
  (s.body p).groups.foldl (fun a d => a.setGs p d { a.gs p d with step := step.toNat % 2 ^ 32, live := (a.liveMembers p d).length }) s1

/-- R352 step 4: every owned tile's working parameters formed and broadcast for a step, with the owner's own term scale. -/
def State.rebroadcast (s : State) (p : Nat) (step : BitVec 64) : State :=
  (s.body p).groups.foldl (fun a d =>
    ((List.range d.ownCount.toNat).map (fun i => d.ownFirst.toNat + i)).foldl (fun b t =>
      match regionOf d.regions 0 t with
      | none => b
      | some (_, r, tl) =>
        let scale := match b.crOf p d.id.toNat t with | some i => (b.cr p i).termScale | none => 0
        b.broadcast p (b.ownerCore p d t) d t r.opt.workFmt (step.setWidth 32) scale false (b.workCopies p r tl 0 [])) a) s

/-- RESTORE_COMPLETE (R352, R353, R457): the pages are in place: combine state is zeroed, counters are cleared, routes reloaded,
parameters rebroadcast and the step set to T + 1. A rollback ends its hold. -/
def restoreComplete (p : PartId) (s : State) : State :=
  let j := (s.part p.val).job
  match j.restore, s.plan p.val with
  | some r, some x =>
    if !r.done then s
    else
      let page0 := (x.pages.headD {}).page.toNat
      let a := 2 ^ 21 * page0
      let t := BitVec.ofNat 64 (s.jobNat p.val a 8)
      let cursor := BitVec.ofNat 64 (s.jobNat p.val (a + 8) 8)
      let s1 := s.clearReduction p.val
      let s2 := (s1.body p.val).groups.foldl (fun b d => ((List.range d.ownCount.toNat).map (fun i => d.ownFirst.toNat + i)).foldl (fun c n =>
        c.openOwned p.val (t + 1).toNat d n) b) s1
      let s3 := s2.modCoresOf p.val (fun k => { k with
        bndValid := 0, report := { logSize := k.report.logSize, logEn := k.report.logEn, logBase := k.report.logBase, logLocked := k.report.logLocked, baseLocked := k.report.baseLocked } })
      let s4 := ((s3.restoreRoutes p.val page0 (t + 1)).rebroadcast p.val (t + 1)).setStep p.val (t + 1)
      let newest : Option Newest := match r.slot with
        | some n => if r.fetch.bad.isEmpty && r.fetch.all then some { id := r.fetch.id, step := t, slot := n % 2, complete := true } else none
        | none => if r.rollback then j.newest else none
      let s5 := s4.modPart p.val (fun k => { k with
        jcp := { k.jcp with step := t }
        job := { k.job with restore := none, cursor := cursor, newest := newest, updateBegun := false, withdrawn := none, rejoins := [],
                            snapDue := none, rideStep := none, stopStep := none, stepIrqBase := t } })
      -- R343: the catalogue of the Muslin copy that the module now stands on
      let s5' := match newest, r.slot with
        | some n, some _ => (s5.setCatEntry p.val n.slot n.id n.step 1 n.slot 2).postJobNat p.val x.catalogue.toNat 8 t.toNat
        | _, _ => s5
      let s6 := (s5'.clearFar p.val).retryAllFar
      if r.rollback then
        (((s6.modJob p.val (fun y => { y with hold := false })).setCatHold p.val 3).clearTarget p.val).jobEvent p.val 10 |>.retryCmds
      else s6
  | _, _ => s

/-- FRAME_COPIED. -/
def execFrameCopied (t : TowerId) (g : Fin 49152) (bad : Option (Fin 32768)) (s : State) : Host.Outcome State Fault Refusal :=
  .next (frameCopied t g bad s)
/-- SERGE_SEGMENT_WRITE. -/
def execSergeSegmentWrite (p : PartId) (s : State) : Host.Outcome State Fault Refusal := .next (sergeSegmentWrite p s)
/-- SNAPSHOT_POINT. -/
def execSnapshotPoint (p : PartId) (s : State) : Host.Outcome State Fault Refusal := .next (snapshotPoint p s)
/-- SNAP_OPEN. -/
def execSnapOpen (p : PartId) (i : Nat) (s : State) : Host.Outcome State Fault Refusal := .next (snapOpen p i s)
/-- PAGE_DATA. -/
def execPageData (p : PartId) (i : Nat) (s : State) : Host.Outcome State Fault Refusal := .next (pageData p i s)
/-- MANIFEST. -/
def execSnapManifest (p : PartId) (i : Nat) (s : State) : Host.Outcome State Fault Refusal := .next (snapManifest p i s)
/-- FETCH_DATA. -/
def execFetchData (p : PartId) (i : Nat) (s : State) : Host.Outcome State Fault Refusal := .next (fetchData p i s)
/-- RIDE_DATA. -/
def execRideData (p : PartId) (i : Nat) (s : State) : Host.Outcome State Fault Refusal := .next (rideData p i s)
/-- RIDE_DIGEST. -/
def execRideDigest (p : PartId) (i : Nat) (s : State) : Host.Outcome State Fault Refusal := .next (rideDigest p i s)
/-- SNAP_SEAL. -/
def execSnapSeal (p : PartId) (i : Nat) (s : State) : Host.Outcome State Fault Refusal := .next (snapSeal p i s)
/-- SNAP_COMMITTED. -/
def execSnapCommitted (p : PartId) (i : Nat) (s : State) : Host.Outcome State Fault Refusal := .next (snapCommitted p i s)
/-- SNAP_DONE. -/
def execSnapDone (p : PartId) (i : Nat) (s : State) : Host.Outcome State Fault Refusal := .next (snapDone p i s)
/-- SNAP_ABORT. -/
def execSnapAbort (p : PartId) (i : Nat) (s : State) : Host.Outcome State Fault Refusal := .next (snapAbort p i s)
/-- COPY_BUDGET_EXPIRE. -/
def execCopyBudgetExpire (p : PartId) (begun : List Nat) (s : State) : Host.Outcome State Fault Refusal :=
  .next (copyBudgetExpire p begun s)
/-- FETCH. -/
def execSnapFetch (p : PartId) (i : Nat) (s : State) : Host.Outcome State Fault Refusal := .next (snapFetch p i s)
/-- FETCH_END. -/
def execFetchEnd (p : PartId) (i : Nat) (s : State) : Host.Outcome State Fault Refusal := .next (fetchEnd p i s)
/-- FETCH_RESEND. -/
def execFetchResend (p : PartId) (s : State) : Host.Outcome State Fault Refusal := .next (fetchResend p s)
/-- FLASH_WRITE_COMPLETE. -/
def execFlashWriteComplete (p : PartId) (s : State) : Host.Outcome State Fault Refusal := .next (flashWriteComplete p s)
/-- REJOIN. -/
def execRejoin (p : PartId) (i : Nat) (s : State) : Host.Outcome State Fault Refusal := .next (rejoin p i s)
/-- REJOIN_LATE. -/
def execRejoinLate (p : PartId) (i : Nat) (s : State) : Host.Outcome State Fault Refusal := .next (rejoinLate p i s)
/-- RESTORE. -/
def execSnapRestore (p : PartId) (muslin : Option HeaderArea) (flashSig : Option (List Byte)) (serge : Option SergeCopy) (s : State) :
    Host.Outcome State Fault Refusal := .next (snapRestore p muslin flashSig serge s)
/-- RESTORE_COMPLETE. -/
def execRestoreComplete (p : PartId) (s : State) : Host.Outcome State Fault Refusal := .next (restoreComplete p s)

end Sys2Proof.Machine
end

