-- ==== Sys2Proof/Machine/Dispatch.lean ====
section
/-! DEFINITION. One arm per command: a direct call of its meaning. -/

namespace Sys2Proof.Machine

def exec (i : Instr) (s : State) : Host.Outcome State Fault Refusal :=
  match i with
  | .passIssue core io => Sys2Proof.Machine.execPassIssue core io s
  | .anchorCompute core inputSummary weightSummary => Sys2Proof.Machine.execAnchorCompute core inputSummary weightSummary s
  | .shadowLoad core array offset twill => Sys2Proof.Machine.execShadowLoad core array offset twill s
  | .drainIssue core io => Sys2Proof.Machine.execDrainIssue core io s
  | .drainComplete core => Sys2Proof.Machine.execDrainComplete core s
  | .vectorIssue core io => Sys2Proof.Machine.execVectorIssue core io s
  | .sramUe core store bank offset => Sys2Proof.Machine.execSramUe core store bank offset s
  | .coreEnable core on => Sys2Proof.Machine.execCoreEnable core on s
  | .coreHaltReq core on => Sys2Proof.Machine.execCoreHaltReq core on s
  | .passBoundaryStop core => Sys2Proof.Machine.execPassBoundaryStop core s
  | .loopLengthLatch core => Sys2Proof.Machine.execLoopLengthLatch core s
  | .slotSpill core slot => Sys2Proof.Machine.execSlotSpill core slot s
  | .slotReload core slot => Sys2Proof.Machine.execSlotReload core slot s
  | .addModeReload core slot source sourceSlot => Sys2Proof.Machine.execAddModeReload core slot source sourceSlot s
  | .boundaryGateClose gate packets => Sys2Proof.Machine.execBoundaryGateClose gate packets s
  | .tileArrive core ep => Sys2Proof.Machine.execTileArrive core ep s
  | .endOfStepMarker core ep => Sys2Proof.Machine.execEndOfStepMarker core ep s
  | .externalEventRelease core ep arrived => Sys2Proof.Machine.execExternalEventRelease core ep arrived s
  | .creditReceive core ep => Sys2Proof.Machine.execCreditReceive core ep s
  | .steerSwitch core node => Sys2Proof.Machine.execSteerSwitch core node s
  | .steerSelect core node => Sys2Proof.Machine.execSteerSelect core node s
  | .steerMerge core node => Sys2Proof.Machine.execSteerMerge core node s
  | .stallTimerExpire core eps => Sys2Proof.Machine.execStallTimerExpire core eps s
  | .queueMoveBack core ep => Sys2Proof.Machine.execQueueMoveBack core ep s
  | .stallSuspect core engine operator => Sys2Proof.Machine.execStallSuspect core engine operator s
  | .stepStart core wait => Sys2Proof.Machine.execStepStart core wait s
  | .stepEnd core idleArrays idleDrain idleVector => Sys2Proof.Machine.execStepEnd core idleArrays idleDrain idleVector s
  | .reportCompare tower => Sys2Proof.Machine.execReportCompare tower s
  | .variantChange part => Sys2Proof.Machine.execVariantChange part s
  | .strArm ctx addr => Sys2Proof.Machine.execStrArm ctx addr s
  | .descriptorActivate ctx => Sys2Proof.Machine.execDescriptorActivate ctx s
  | .strEnable ctx => Sys2Proof.Machine.execStrEnable ctx s
  | .strDisableReq ctx abandon => Sys2Proof.Machine.execStrDisableReq ctx abandon s
  | .strResume ctx => Sys2Proof.Machine.execStrResume ctx s
  | .endProgram ctx => Sys2Proof.Machine.execEndProgram ctx s
  | .loopb ctx => Sys2Proof.Machine.execLoopb ctx s
  | .loope ctx => Sys2Proof.Machine.execLoope ctx s
  | .strStride ctx => Sys2Proof.Machine.execStrStride ctx s
  | .strAdd ctx => Sys2Proof.Machine.execStrAdd ctx s
  | .emit ctx => Sys2Proof.Machine.execEmit ctx s
  | .strSkip ctx => Sys2Proof.Machine.execStrSkip ctx s
  | .plfetch ctx => Sys2Proof.Machine.execPlfetch ctx s
  | .bfetch ctx => Sys2Proof.Machine.execBfetch ctx s
  | .twait ctx => Sys2Proof.Machine.execTwait ctx s
  | .mergeHoldExpire ctx => Sys2Proof.Machine.execMergeHoldExpire ctx s
  | .requestRetire ctx now arrived => Sys2Proof.Machine.execRequestRetire ctx now arrived s
  | .requestTimeout ctx request => Sys2Proof.Machine.execRequestTimeout ctx request s
  | .streamFault ctx request code addr => Sys2Proof.Machine.execStreamFault ctx request code addr s
  | .haltSettleDone settle => Sys2Proof.Machine.execHaltSettleDone settle s
  | .settleTimeout ctx => Sys2Proof.Machine.execSettleTimeout ctx s
  | .saveAreaWritten ctx ok => Sys2Proof.Machine.execSaveAreaWritten ctx ok s
  | .ringPeriodEnd core passed => Sys2Proof.Machine.execRingPeriodEnd core passed s
  | .tensorShiftUpdate part managed => Sys2Proof.Machine.execTensorShiftUpdate part managed s
  | .adamwUpdate core io => Sys2Proof.Machine.execAdamwUpdate core io s
  | .reductionAdd core => Sys2Proof.Machine.execReductionAdd core s
  | .redrain core => Sys2Proof.Machine.execRedrain core s
  | .slotRelease core slot => Sys2Proof.Machine.execSlotRelease core slot s
  | .memsideOp core addr code mask operand found => Sys2Proof.Machine.execMemsideOp core addr code mask operand found s
  | .tileCloseReport core => Sys2Proof.Machine.execTileCloseReport core s
  | .segmentReceive part index => Sys2Proof.Machine.execSegmentReceive part index s
  | .noticeReceive part index => Sys2Proof.Machine.execNoticeReceive part index s
  | .rescaleReceive part index => Sys2Proof.Machine.execRescaleReceive part index s
  | .memberRemoval part group member => Sys2Proof.Machine.execMemberRemoval part group member s
  | .withdrawStep part => Sys2Proof.Machine.execWithdrawStep part s
  | .paramPartReceive part index => Sys2Proof.Machine.execParamPartReceive part index s
  | .channelRequest arrival found => Sys2Proof.Machine.execChannelRequest arrival found s
  | .retryResend channel source found => Sys2Proof.Machine.execRetryResend channel source found s
  | .frameCopied tower frame bad => Sys2Proof.Machine.execFrameCopied tower frame bad s
  | .frameTableWrite tower frame value => Sys2Proof.Machine.execFrameTableWrite tower frame value s
  | .refreshSlot channel temp => Sys2Proof.Machine.execRefreshSlot channel temp s
  | .scrubSlot channel corrected bad onDie => Sys2Proof.Machine.execScrubSlot channel corrected bad onDie s
  | .farFaultResolve ctx => Sys2Proof.Machine.execFarFaultResolve ctx s
  | .farFillComplete part port page host => Sys2Proof.Machine.execFarFillComplete part port page host s
  | .farEvict part addr => Sys2Proof.Machine.execFarEvict part addr s
  | .evictComplete part => Sys2Proof.Machine.execEvictComplete part s
  | .cxlLinkDown port => Sys2Proof.Machine.execCxlLinkDown port s
  | .flitSend port => Sys2Proof.Machine.execFlitSend port s
  | .flitReceive port flit corrected uncorr => Sys2Proof.Machine.execFlitReceive port flit corrected uncorr s
  | .nakReceive port => Sys2Proof.Machine.execNakReceive port s
  | .replayTimeout port => Sys2Proof.Machine.execReplayTimeout port s
  | .signalDetect port lanes => Sys2Proof.Machine.execSignalDetect port lanes s
  | .equalisationDone port trained => Sys2Proof.Machine.execEqualisationDone port trained s
  | .fecLockDone port => Sys2Proof.Machine.execFecLockDone port s
  | .exchangeBlockReceive port block check => Sys2Proof.Machine.execExchangeBlockReceive port block check s
  | .trainingAttemptTimeout port => Sys2Proof.Machine.execTrainingAttemptTimeout port s
  | .signalLoss port => Sys2Proof.Machine.execSignalLoss port s
  | .linkRetrain port seen => Sys2Proof.Machine.execLinkRetrain port seen s
  | .packetSend index => Sys2Proof.Machine.execPacketSend index s
  | .packetReceive port vc => Sys2Proof.Machine.execPacketReceive port vc s
  | .klpCredit part index => Sys2Proof.Machine.execKlpCredit part index s
  | .unreachablePacket part index => Sys2Proof.Machine.execUnreachablePacket part index s
  | .memberUnreachable part => Sys2Proof.Machine.execMemberUnreachable part s
  | .epochAhead port vc => Sys2Proof.Machine.execEpochAhead port vc s
  | .ldEpochWrite die epoch => Sys2Proof.Machine.execLdEpochWrite die epoch s
  | .klpEnable port on => Sys2Proof.Machine.execKlpEnable port on s
  | .klpRetrain port => Sys2Proof.Machine.execKlpRetrain port s
  | .klpCtrClr port => Sys2Proof.Machine.execKlpCtrClr port s
  | .functionLevelReset unsent => Sys2Proof.Machine.execFunctionLevelReset unsent s
  | .bar2Access offset act found => Sys2Proof.Machine.execBar2Access offset act found s
  | .hostMaxVersionWrite value => Sys2Proof.Machine.execHostMaxVersionWrite value s
  | .partCfgWrite qpart => Sys2Proof.Machine.execPartCfgWrite qpart s
  | .layoutDone => Sys2Proof.Machine.execLayoutDone s
  | .jobStart part image => Sys2Proof.Machine.execJobStart part image s
  | .jobEnableComplete part => Sys2Proof.Machine.execJobEnableComplete part s
  | .jobPause part => Sys2Proof.Machine.execJobPause part s
  | .jobResume part => Sys2Proof.Machine.execJobResume part s
  | .jobStop part => Sys2Proof.Machine.execJobStop part s
  | .stopStepReached part => Sys2Proof.Machine.execStopStepReached part s
  | .endStepWrite part write => Sys2Proof.Machine.execEndStepWrite part write s
  | .jobAbort part => Sys2Proof.Machine.execJobAbort part s
  | .abortComplete part => Sys2Proof.Machine.execAbortComplete part s
  | .jobClear part => Sys2Proof.Machine.execJobClear part s
  | .clearComplete part => Sys2Proof.Machine.execClearComplete part s
  | .epochWrite part value => Sys2Proof.Machine.execEpochWrite part value s
  | .eventEnableWrite part value => Sys2Proof.Machine.execEventEnableWrite part value s
  | .swEnable window => Sys2Proof.Machine.execSwEnable window s
  | .swDisable window abandon unsent => Sys2Proof.Machine.execSwDisable window abandon unsent s
  | .sergeSegmentWrite part => Sys2Proof.Machine.execSergeSegmentWrite part s
  | .persistAckWrite part write => Sys2Proof.Machine.execPersistAckWrite part write s
  | .latTolWrite part value => Sys2Proof.Machine.execLatTolWrite part value s
  | .farQuotaWrite part port value => Sys2Proof.Machine.execFarQuotaWrite part port value s
  | .snapshotPoint part => Sys2Proof.Machine.execSnapshotPoint part s
  | .snapOpen part index => Sys2Proof.Machine.execSnapOpen part index s
  | .pageData part index => Sys2Proof.Machine.execPageData part index s
  | .snapManifest part index => Sys2Proof.Machine.execSnapManifest part index s
  | .fetchData part index => Sys2Proof.Machine.execFetchData part index s
  | .rideData part index => Sys2Proof.Machine.execRideData part index s
  | .rideDigest part index => Sys2Proof.Machine.execRideDigest part index s
  | .snapSeal part index => Sys2Proof.Machine.execSnapSeal part index s
  | .snapCommitted part index => Sys2Proof.Machine.execSnapCommitted part index s
  | .snapDone part index => Sys2Proof.Machine.execSnapDone part index s
  | .snapAbort part index => Sys2Proof.Machine.execSnapAbort part index s
  | .copyBudgetExpire part begun => Sys2Proof.Machine.execCopyBudgetExpire part begun s
  | .snapFetch part index => Sys2Proof.Machine.execSnapFetch part index s
  | .fetchEnd part index => Sys2Proof.Machine.execFetchEnd part index s
  | .flashWriteComplete part => Sys2Proof.Machine.execFlashWriteComplete part s
  | .rejoin part index => Sys2Proof.Machine.execRejoin part index s
  | .rejoinLate part index => Sys2Proof.Machine.execRejoinLate part index s
  | .snapRestore part muslin flashSig serge => Sys2Proof.Machine.execSnapRestore part muslin flashSig serge s
  | .restoreComplete part => Sys2Proof.Machine.execRestoreComplete part s
  | .powerOn v12 => Sys2Proof.Machine.execPowerOn v12 s
  | .brownOut input => Sys2Proof.Machine.execBrownOut input s
  | .mrstN lowNs => Sys2Proof.Machine.execMrstN lowNs s
  | .watchdogExpire cluster cycles => Sys2Proof.Machine.execWatchdogExpire cluster cycles s
  | .watchdogRestart cluster => Sys2Proof.Machine.execWatchdogRestart cluster s
  | .rstSwRequest request => Sys2Proof.Machine.execRstSwRequest request s
  | .debugRequest request => Sys2Proof.Machine.execDebugRequest request s
  | .clockFailure clock unsent => Sys2Proof.Machine.execClockFailure clock unsent s
  | .controlCoreLockup unit => Sys2Proof.Machine.execControlCoreLockup unit s
  | .sourceRelease src reach inputs => Sys2Proof.Machine.execSourceRelease src reach inputs s
  | .managementStart => Sys2Proof.Machine.execManagementStart s
  | .clockStart reach => Sys2Proof.Machine.execClockStart reach s
  | .strapSample boot clk => Sys2Proof.Machine.execStrapSample boot clk s
  | .optionLoading passes ok => Sys2Proof.Machine.execOptionLoading passes ok s
  | .hubStart => Sys2Proof.Machine.execHubStart s
  | .configurationRead config => Sys2Proof.Machine.execConfigurationRead config s
  | .bringUp die => Sys2Proof.Machine.execBringUp die s
  | .islandExit island => Sys2Proof.Machine.execIslandExit island s
  | .moduleReady cxl0 cxl1 => Sys2Proof.Machine.execModuleReady cxl0 cxl1 s
  | .recSnapAck => Sys2Proof.Machine.execRecSnapAck s
  | .bootGo supply => Sys2Proof.Machine.execBootGo supply s
  | .writeSlot key supply cut => Sys2Proof.Machine.execWriteSlot key supply cut s
  | .activateQuad key => Sys2Proof.Machine.execActivateQuad key s
  | .fwuConfirm key => Sys2Proof.Machine.execFwuConfirm key s
  | .svnCommit key => Sys2Proof.Machine.execSvnCommit key s
  | .mgmtWrite key supply cut => Sys2Proof.Machine.execMgmtWrite key supply cut s
  | .ownerClaim key token => Sys2Proof.Machine.execOwnerClaim key token s
  | .ownerTransfer key token => Sys2Proof.Machine.execOwnerTransfer key token s
  | .revokeImage key token => Sys2Proof.Machine.execRevokeImage key token s
  | .ownerRelease key token => Sys2Proof.Machine.execOwnerRelease key token s
  | .debugUnlock key token => Sys2Proof.Machine.execDebugUnlock key token s
  | .lifecycleToken key token => Sys2Proof.Machine.execLifecycleToken key token s
  | .attGo => Sys2Proof.Machine.execAttGo s
  | .ginghamTest cluster => Sys2Proof.Machine.execGinghamTest cluster s
  | .ginghamTestComplete cluster ended => Sys2Proof.Machine.execGinghamTestComplete cluster ended s
  | .cePoll poll => Sys2Proof.Machine.execCePoll poll s
  | .suppressionWindowExpire cluster => Sys2Proof.Machine.execSuppressionWindowExpire cluster s
  | .ghReq key kind unit => Sys2Proof.Machine.execGhReq key kind unit s
  | .ghClrCounts => Sys2Proof.Machine.execGhClrCounts s
  | .fenceAdd key => Sys2Proof.Machine.execFenceAdd key s
  | .fenceRemove key index => Sys2Proof.Machine.execFenceRemove key index s
  | .pstateEntryComplete part => Sys2Proof.Machine.execPstateEntryComplete part s
  | .wakeComplete part => Sys2Proof.Machine.execWakeComplete part s
  | .bankPrechargeComplete bank => Sys2Proof.Machine.execBankPrechargeComplete bank s
  | .thermalEvaluation tower sensors power => Sys2Proof.Machine.execThermalEvaluation tower sensors power s
  | .coolantRead flow inlet outlet v48 i48 v12 i12 => Sys2Proof.Machine.execCoolantRead flow inlet outlet v48 i48 v12 i12 s
  | .dieThermalTrip die temp => Sys2Proof.Machine.execDieThermalTrip die temp s
  | .pwrCapWrite value => Sys2Proof.Machine.execPwrCapWrite value s
  | .pwrCalGo key go bytes cut => Sys2Proof.Machine.execPwrCalGo key go bytes cut s
  | .meterSample ch12 volts amps selfFail => Sys2Proof.Machine.execMeterSample ch12 volts amps selfFail s
  | .meterBroadcast => Sys2Proof.Machine.execMeterBroadcast s
  | .holdupCommit held => Sys2Proof.Machine.execHoldupCommit held s
  | .meterStart fwSum => Sys2Proof.Machine.execMeterStart fwSum s
  | .sealBroken => Sys2Proof.Machine.execSealBroken s
  | .getInfo tag => Sys2Proof.Machine.execGetInfo tag s
  | .meterRead tag nonce => Sys2Proof.Machine.execMeterRead tag nonce s
  | .readLog tag nonce first count => Sys2Proof.Machine.execReadLog tag nonce first count s
  | .getCert tag => Sys2Proof.Machine.execGetCert tag s
  | .frameGapTimeout => Sys2Proof.Machine.execFrameGapTimeout s
  | .meterRecordReceive crcOk sigOk => Sys2Proof.Machine.execMeterRecordReceive crcOk sigOk s
  | .meterStale ms => Sys2Proof.Machine.execMeterStale ms s
  | .registerWrite reg wide value hwSet => Sys2Proof.Machine.execRegisterWrite reg wide value hwSet s
  | .fwuSelect key => Sys2Proof.Machine.execFwuSelect key s
  | .fetchResend part => Sys2Proof.Machine.execFetchResend part s
  | .meterError header rest => Sys2Proof.Machine.execMeterError header rest s
  | .pldmRequest request => Sys2Proof.Machine.execPldmRequest request s
  | .dieTripClear die temp => Sys2Proof.Machine.execDieTripClear die temp s
  | .cxlLinkRetrain port pages => Sys2Proof.Machine.execCxlLinkRetrain port pages s
  | .refclkReturn => Sys2Proof.Machine.execRefclkReturn s
  | .trstN low => Sys2Proof.Machine.execTrstN low s

end Sys2Proof.Machine
end

