-- ==== Sys2Proof/Machine/Pins.lean ====
section
/-! DEFINITION. The pads of the dies (13 R368) and the contacts of the connectors (13 R369, 19 R463, R464, R465, R471, R473), as they
stand in a state. -/

namespace Sys2Proof.Machine

/-- 13 R368: the state of a pad group; `live`: the island that drives it does. -/
inductive PadState where
  | highZ | pullDown | pullUp | low | live
  deriving DecidableEq, Repr

/-- R368: the state that a 2-bit code of the pad fuse map gives. -/
def padCode (c : Nat) : PadState :=
  match c with
  | 0 => .highZ | 1 => .pullDown | 2 => .pullUp | _ => .low

/-- R368: pad group `g` of logic die `d` (36 the hub), which an island drives: from a reset of the island until its exit completes, its
code in the fuse map; from power-on until the first option load completes, high-Z. -/
def State.padGroup (s : State) (d g : Nat) (i : ClockIsland) : PadState :=
  let reset : Bool := match i with
    | .die x => s.rst.episodes.any (fun e => e.holds x)
    | .hub .management => s.rst.episodes.any (fun e => e.reach.hasCluster 38) && !s.rst.mgmtUp
    | .hub h => s.rst.episodes.any (fun e => e.holdsHub h)
  if !s.rst.padsLoaded then .highZ
  else if reset then padCode (bitsAt (s.fw.loaded.pads.get (factoryPads d) d).toNat (2 * g) 2)
  else .live

/-- 13 R369: the groups of connector signals, by their bit of RST.CONNECTOR_EN. -/
inductive PinGroup where
  /-- I3C_SCL, I3C_SDA, ALERT_N, TDO -/
  | management
  /-- the host sideband and PCIe lanes -/
  | host
  | cxl (i : Fin 2)
  /-- the link connectors of quadrant q -/
  | link (q : QuadId)
  deriving DecidableEq, Repr

/-- Table 13.12: the bit of a group. -/
def PinGroup.bit : PinGroup → Nat
  | .management => 0 | .host => 1 | .cxl i => 2 + i.val | .link q => 4 + q.val

/-- R369: whether the signals of a group are driven: else they are high-Z. -/
def State.pinsEnabled (s : State) (g : PinGroup) : Bool := s.rst.connectorEn.getLsbD g.bit

/-- What an output contact does. -/
inductive PinState where
  | highZ | low | high
  /-- driven with the bits that a protocol of the contact gives -/
  | data
  deriving DecidableEq, Repr

/-- 19 R465: ALERT_N is asserted, low, while a notice has not been read; open-drain, it is high-Z otherwise and until its group is
enabled. -/
def State.alertN (s : State) : PinState :=
  if s.pinsEnabled .management && s.present12 && !s.notices.isEmpty then .low else .highZ

/-- 19 Table 19.3: TDO: high-Z until its group is enabled, without 12 V, and whenever the TAP is not shifting. -/
def State.tdo (s : State) : PinState :=
  if s.pinsEnabled .management && s.present12 && s.rst.tapShifting then .data else .highZ

/-- 19 R465: whether the management controller offers a notice as an in-band interrupt, which an I3C target does with its dynamic address. -/
def State.inBandInterrupt (s : State) : Bool :=
  s.rst.mgmtUp && s.pinsEnabled .management && s.rst.i3cAddr.isSome && !s.notices.isEmpty

/-- 14 R383, Table 14.4: whether JTAG reaches control cores, stores and debug halts; else the boundary scan and the reset-request register
alone. -/
def State.jtagFull (s : State) : Bool := s.debugOpen

/-- 19 Table 19.3: MGMT_1V8 is present whenever 12 V is good. -/
def State.mgmt1v8 (s : State) : Bool := s.power12

/-- 19 Table 19.3, 13 R369: METER_TX is driven, idle high, whenever 12 V is present, whatever is in reset. -/
def State.meterTxIdle (s : State) : PinState := if s.present12 then .high else .highZ

/-- 19 R471: CXL_PERST_N of a root port: high-Z in a reset of the hub and with the hub off; low until the port is ready to train, high
afterwards. A port is ready to train when its group is enabled, which is as it trains (13 Table 13.5); log 102. -/
def State.cxlPerstN (s : State) (i : Fin 2) : PinState :=
  if s.hubOff || s.rst.episodes.any (fun e => e.reach.hub && decide (e.phase ≠ .ready)) then .highZ
  else if s.pinsEnabled (.cxl i) then .high else .low

/-- 19 R473: whether the two cable-power contacts of link connector P = 0 to 23 are powered: the bank of its quadrant is in regulation
and its group is enabled; off in Retain and Standby, and in a reset that contains the quadrant. -/
def State.cablePower (s : State) (p : PortId) : Bool :=
  let q := p.val / 6
  !s.banksOff.getLsbD q && s.rst.connectorEn.getLsbD (4 + q) &&
    decide ((s.part (s.partOfQuad q)).power.state.code < 3) && !s.rst.episodes.any (fun e => e.reach.hasQuad q)

/-- 13 R369, 19 R473: what the far end of a cable finds on a link connector: a signal, or its loss (10 R275). An active assembly carries
none without its power. -/
def State.linkSignal (s : State) (p : PortId) (active : Bool) : Bool :=
  s.rst.connectorEn.getLsbD (4 + p.val / 6) && !s.portStopped p.val && (!active || s.cablePower p)

end Sys2Proof.Machine
end

