-- ==== Sys2Proof/Machine/RegisterRead.lean ====
section
/-! DEFINITION. What a read of a register returns (00 R11 to R14): BAR0 (11 Table 11.2), with its read-only views (R298), and the
control spaces that firmware reads: the core window (03 Table 03.9), bulk mover contexts (06 R163), channels (09 R256), ports and
link dies (10 R294). The table of commands has no read of a register: these are functions of the state, and the state that a clearing
read leaves. -/

namespace Sys2Proof.Machine

/-- A register of a block: its offset, its width in bytes, its bits. -/
structure Reg where
  off : Nat
  width : Nat
  bits : Nat

/-- R12, R13: the word at an offset of a block; reserved offsets read as zero. -/
def readBlock (regs : List Reg) (off : Nat) : BitVec 32 :=
  match regs.find? (fun r => decide (r.off ≤ off) && decide (off < r.off + r.width)) with
  | some r => BitVec.ofNat 32 (bitsAt r.bits (8 * (off - r.off)) 32)
  | none => 0

/-- The number whose bits, the lowest first, are given from a bit up. -/
def flagsFrom (lo : Nat) : List Bool → Nat
  | [] => 0
  | b :: t => bitOf b * 2 ^ lo + flagsFrom (lo + 1) t

-- The core window -----------------------------------------------------------------------------------------------------------

/-- Table 03.10: CORE.ID of core `c`: its tower, its number in the die, stepping 1. -/
def coreId (c : Nat) : Nat := c / 16 * 2 ^ 16 + c % 16 * 2 ^ 8 + 1

/-- Table 03.11: CORE.CTRL as it reads: the values in force. -/
def Core.ctrlWord (k : Core) : Nat := flagsFrom 0 [k.ctrl.enable, k.ctrl.haltReq, k.ctrl.gateDis, k.halted]

/-- Table 02.6: CORE.ARITH_STATUS. -/
def ArithStatus.word (a : ArithStatus) : Nat := flagsFrom 0 [a.nan, a.inf, a.sat, a.wuf, a.miss, a.nonfinite]

/-- Table 03.13: CORE.ACC_SLOT_STATE. -/
def Core.slotWord (k : Core) : Nat := placeFields 0 2 ((List.range 32).map (fun j => (k.slot j).state.code))

/-- Table 06.8: STR.STATE's code. -/
def StrState.code : StrState → Nat
  | .idle => 0 | .running => 1 | .serialWait => 2 | .halting => 3 | .halted => 4 | .disabling => 5 | .disabled => 6

/-- Tables 06.6 to 06.9: the five registers of a context at an offset; STR.RESUME and STR.ARM are write-only. -/
def Ctx.regs (x : Ctx) (off : Nat) : List Reg :=
  [⟨off, 4, bitOf x.enable + bitOf x.disableReq * 2 ^ 6 + bitOf x.disableMode * 2 ^ 7⟩,
   ⟨off + 4, 4, x.issued.length % 64 + bitOf (decide (x.shadow ≠ 0)) * 2 ^ 8 + bitOf x.rearmRefused * 2 ^ 9 +
     x.lastResult.toNat * 2 ^ 10 + x.state.code * 2 ^ 12 + x.faultCode.toNat * 2 ^ 16⟩,
   ⟨off + 8, 8, x.active.toNat⟩, ⟨off + 16, 8, x.shadow.toNat⟩]

/-- Table 05.7: QEPn. -/
def Endpoint.word (e : Endpoint) : Nat :=
  let seq := match e.dir.toNat with
    | 1 => match e.tiles with | t :: _ => t.seq.toNat | [] => match e.lastFreed with | some q => q.toNat | none => 2 ^ 32 - 1
    | 2 => e.nextSeq.toNat
    | _ => 0
  let count := match e.dir.toNat with
    | 1 => e.tiles.length
    | 2 => (e.edges.map (fun d => d.credits)).foldl min ((e.edges.map (fun d => d.credits)).headD 0)
    | _ => 0
  bitOf e.stuckSeen * 2 ^ 10 + bitOf e.spilled * 2 ^ 11 + e.kind.toNat * 2 ^ 12 + e.dir.toNat * 2 ^ 14 + e.depth.toNat * 2 ^ 16 +
    count % 256 * 2 ^ 24 + seq * 2 ^ 32

/-- Table 05.8: STEER.KIND's code. -/
def SteerKind.code : SteerKind → Nat
  | .unused => 0 | .switch => 1 | .select => 2 | .merge => 3

/-- Table 05.8: STEERn. -/
def Steer.word (x : Steer) : Nat :=
  x.kind.code + x.inA.toNat * 2 ^ 15 + x.inB.toNat * 2 ^ 20 + x.token.toNat * 2 ^ 25 + x.outA.toNat * 2 ^ 30 + x.outB.toNat * 2 ^ 35 +
    x.fired.toNat * 2 ^ 64

/-- Table 05.12: RPT.STATUS; OFF_REPORT is the OR of bits 9 to 1. -/
def RptStatus.word (x : RptStatus) : Nat :=
  let causes := [x.error, x.queueSpill, x.accSpill, x.streamFault, x.late, x.snapshot, x.resend, x.clock, x.debug]
  bitOf (causes.any id) + flagsFrom 1 (causes ++ [x.unpredicted, x.unverified])

/-- Table 05.11: the report registers. -/
def Report.regs (r : Report) : List Reg :=
  [⟨0x400, 4, r.status.word⟩, ⟨0x404, 4, bitOf r.logEn + r.logSize.toNat * 16⟩, ⟨0x408, 8, r.logBase.toNat⟩, ⟨0x410, 4, r.logWr.toNat⟩,
   ⟨0x414, 4, r.logRd.toNat⟩, ⟨0x418, 4, r.logDropped.toNat⟩, ⟨0x41C, 4, r.lateTiles.toNat⟩, ⟨0x420, 8, r.step.toNat⟩,
   ⟨0x428, 8, r.gateWait.toNat⟩] ++
  (List.range 12).map (fun i => ⟨0x430 + 8 * i, 8, (r.totals.get 0 i).toNat⟩)

/-- Table 03.9: the registers of core `c`'s window. -/
def State.coreRegs (s : State) (c : Nat) : List Reg :=
  let k := s.core c
  [⟨0x00, 4, coreId c⟩, ⟨0x04, 4, k.ctrlWord⟩, ⟨0x08, 4, k.arith.word⟩, ⟨0x0C, 4, k.sramCe.toNat⟩, ⟨0x10, 8, k.wufCount.toNat⟩,
   ⟨0x18, 8, k.slotWord⟩, ⟨0x20, 8, k.passCount.toNat⟩, ⟨0x28, 8, k.drainCount.toNat⟩] ++
  (List.range 4).map (fun n => ⟨0x30 + 8 * n, 8, (k.gated.get 0 n).toNat⟩) ++
  (List.range 6).flatMap (fun n => (s.ctx (6 * c + n)).regs (0x100 + 0x20 * n)) ++
  (List.range 8).map (fun n => ⟨0x1C0 + 4 * n, 4, (k.bnd.get 0 n).toNat⟩) ++
  [⟨0x1E0, 4, k.bndValid.toNat⟩,
   ⟨0x1E4, 4, bitOf k.ring.en + bitOf k.ring.half * 2 ^ 9 + k.ring.pos.toNat * 2 ^ 16 + k.ring.size.toNat * 2 ^ 24⟩,
   ⟨0x1E8, 8, k.ring.periods.toNat⟩, ⟨0x1F0, 8, k.mergeCount.toNat⟩] ++
  (List.range 32).map (fun n => ⟨0x200 + 8 * n, 8, (k.ep n).word⟩) ++
  (List.range 8).map (fun n => ⟨0x300 + 32 * n, 32, (k.node n).word⟩) ++ k.report.regs

-- Die, channel and port control spaces --------------------------------------------------------------------------------------

/-- R163: the registers of the bulk mover contexts of tower `t`, at 0x0001_0000 + 0x80 m + 0x20 c of its die's control space. -/
def State.moverRegs (s : State) (t : Nat) : List Reg :=
  (List.range 16).flatMap (fun i => (s.ctx (4096 + 16 * t + i)).regs (0x10000 + 0x80 * (i / 4) + 0x20 * (i % 4)))

/-- 09 R256, Table 09.6: the registers of a channel. -/
def Channel.regs (c : Channel) : List Reg :=
  [⟨0x00, 4, bitOf c.poisonSeen + bitOf c.ref2x * 2 + bitOf c.selfRef * 4 + c.temp.toNat * 2 ^ 8⟩, ⟨0x04, 4, c.ceCount.toNat⟩,
   ⟨0x08, 4, c.odeccCount.toNat⟩, ⟨0x0C, 4, c.ueCount.toNat⟩, ⟨0x10, 4, c.retryCount.toNat⟩, ⟨0x18, 8, c.scrubPasses.toNat⟩,
   ⟨0x20, 8, c.lastUeAddr.toNat⟩]

/-- 10 R294, Tables 10.11 to 10.13: the registers of a port's block; KLP.CTR_CLR is write-only. -/
def Port.regs (x : Port) : List Reg :=
  [⟨0x00, 4, flagsFrom 0 [x.enable, x.retrainReq, x.fwdEn, x.degradeEn] + x.loopback.toNat * 2 ^ 4 + x.maxVer.toNat * 2 ^ 6 +
     x.snapFloor.toNat * 2 ^ 8⟩,
   ⟨0x04, 4, x.state.code + bitOf x.degraded * 2 ^ 4 + x.ver.toNat * 2 ^ 8 + x.peerPort.toNat * 2 ^ 12 + x.lanes.toNat * 2 ^ 24⟩,
   ⟨0x08, 8, x.peerId.toNat⟩, ⟨0x10, 4, x.replayTo.toNat⟩, ⟨0x14, 4, x.aheadLimit.toNat⟩] ++
  (List.range 14).map (fun i => ⟨0x20 + 8 * i, 8, (x.counters.get 0 i).toNat⟩)

/-- Table 10.8's 64 bits. -/
def Route.toNat (r : Route) : Nat :=
  bitOf r.self * 2 ^ 12 + r.route.toNat * 2 ^ 13 + r.first.toNat * 2 ^ 53 + r.hops.toNat * 2 ^ 58 + bitOf r.live * 2 ^ 62 +
    bitOf r.valid * 2 ^ 63

/-- 10 R294: the word at an offset of a link die's control space: LD.EPOCH, the blocks of its ports, its route memory. -/
def State.linkDieWord (s : State) (d off : Nat) : BitVec 32 :=
  if off = 0x10 then (s.linkDie d).epoch
  else if 0x20000 ≤ off ∧ off < 0x20600 then readBlock (s.port (6 * d + (off - 0x20000) / 0x100)).regs (off % 0x100)
  else if 0x1000000 ≤ off ∧ off < 0x1800000 then
    readBlock [⟨0, 8, ((s.linkDie d).routes.get {} ((off - 0x1000000) / 8)).toNat⟩] (off % 8)
  else if 0x1800000 ≤ off ∧ off < 0x1B00000 then readBlock [⟨0, 8, (s.linkDie d).runWord ((off - 0x1800000) / 8)⟩] (off % 8)
  else 0

/-- The word at an offset of tower `t`'s control space: its movers' contexts, its channels, its address map (Table 09.2), its
frame tables (09 R244), of which that of pair p stands at 0x6000p. -/
def State.dieWord (s : State) (t off : Nat) : BitVec 32 :=
  if 0x30000 ≤ off ∧ off < 0x34000 then readBlock [⟨0, 16, (s.amaps.get {} (1024 * t + (off - 0x30000) / 16)).bits⟩] (off % 16)
  else if 0x40000 ≤ off ∧ off < 0xA0000 then readBlock [⟨0, 8, (s.frame t ((off - 0x40000) / 8)).bits⟩] (off % 8)
  else if 0x20000 ≤ off ∧ off < 0x20800 then readBlock (s.chan (32 * t + (off - 0x20000) / 0x40)).regs (off % 0x40)
  else readBlock (s.moverRegs t) off

-- BAR0: hub blocks ----------------------------------------------------------------------------------------------------------

/-- Tables 11.5, 11.6: the registers of a job control page. -/
def Jcp.regs (j : Jcp) : List Reg :=
  let l := j.latch
  [⟨0x004, 4, j.state.code + j.lastCmd.toNat * 2 ^ 4 + flagsFrom 8 [j.cmdRefused, j.ackRefused, j.quotaRefused, j.epochRefused] +
     j.reason.toNat * 2 ^ 16⟩,
   ⟨0x008, 8, j.step.toNat⟩, ⟨0x010, 8, l.seed.toNat⟩, ⟨0x018, 4, j.epoch.toNat⟩, ⟨0x01C, 4, j.epochAck.toNat⟩,
   ⟨0x020, 8, l.imageMpa.toNat⟩, ⟨0x028, 4, l.imageLen.toNat⟩, ⟨0x02C, 4, l.reportLen.toNat⟩, ⟨0x030, 8, l.reportMpa.toNat⟩,
   ⟨0x038, 8, l.routeMpa.toNat⟩, ⟨0x040, 8, l.peerMpa.toNat⟩, ⟨0x048, 8, l.farTable.toNat⟩, ⟨0x050, 4, l.ident.toNat⟩,
   ⟨0x054, 4, l.modes.toNat⟩, ⟨0x058, 8, j.endStep.toNat⟩, ⟨0x060, 8, l.startStep.toNat⟩, ⟨0x068, 8, l.restoreId.toNat⟩,
   ⟨0x070, 4, l.snapA.toNat⟩, ⟨0x074, 4, l.snapB.toNat⟩, ⟨0x078, 4, l.partner.toNat⟩, ⟨0x07C, 4, j.latTolUs.toNat⟩,
   ⟨0x080, 4, j.eventStatus.toNat⟩, ⟨0x084, 4, j.eventEn.toNat⟩, ⟨0x088, 4, j.stepIrqEvery.toNat⟩, ⟨0x090, 8, j.segWritten.toNat⟩,
   ⟨0x098, 8, j.persistAck.toNat⟩, ⟨0x0A0, 4, j.farQuota0.toNat⟩, ⟨0x0A4, 4, j.farQuota1.toNat⟩, ⟨0x0B0, 4, j.evictStatus.toNat⟩,
   ⟨0x0B8, 8, j.imageId.toNat⟩, ⟨0x0C0, 8, j.failRec.toNat⟩]

/-- 11 Table 11.1: the configuration header: vendor and device ID, class code. The vendor ID is a fixed number that the spec does not
state. -/
def configHeader : List Reg := [⟨0x00, 4, Config.vendorId.toNat + 0x3296 * 2 ^ 16⟩, ⟨0x08, 4, 0x120000 * 2 ^ 8⟩]

/-- 13 R371: what the endpoint answers to a configuration request: nothing without the host link; Retry Status until the configuration read of
an exit ends, while an exit waits for its image too; then the header. -/
inductive ConfigAnswer where
  | none | retry
  | header (l : List Reg)

/-- 13 R371: the answer to a read of the configuration header. -/
def State.configAnswer (s : State) : ConfigAnswer :=
  if !s.rst.hostLink then .none
  else if s.rst.episodes.any (fun e => e.reach.hub && (decide (e.phase = .configRead) || (decide (e.phase = .hubStart) && e.waiting))) then .retry
  else .header configHeader

/-- Table 11.3: capability and version words. -/
def State.capRegs (s : State) : List Reg :=
  [⟨0x00, 4, 0x4D543296⟩, ⟨0x04, 4, Config.vendorId.toNat + 0x3296 * 2 ^ 16⟩, ⟨0x08, 8, s.fw.loaded.moduleId.toNat⟩, ⟨0x10, 4, 0x0101⟩,
   ⟨0x14, 4, 0x0100⟩, ⟨0x18, 4, 0x0100⟩, ⟨0x1C, 4, 0x0100⟩, ⟨0x20, 4, 0x0100⟩, ⟨0x24, 4, 0x0102⟩,
   ⟨0x28, 4, s.fw.loaded.usable.toNat + s.fw.loaded.fencedQuads.toNat * 2 ^ 4⟩, ⟨0x40, 4, s.mod.hostMaxVersion.toNat⟩,
   ⟨0x44, 4, s.mod.jcpVersion.toNat⟩]

/-- Table 11.4: module status. -/
def State.modRegs (s : State) : List Reg :=
  let m := s.mod
  [⟨0x00, 4, bitOf m.ready + m.inReset.toNat * 2 ^ 4 + m.fenced.toNat * 2 ^ 8 + m.quiesced.toNat * 2 ^ 12⟩,
   ⟨0x04, 4, m.qpart.toNat + bitOf m.cfgRefused * 2 ^ 8 + bitOf m.cfgBusy * 2 ^ 9⟩] ++
  (List.range 4).map (fun p => ⟨0x10 + 8 * p, 8, (m.stepResult.get 0 p).toNat⟩) ++
  [⟨0x30, 4, m.eventStatus.toNat⟩, ⟨0x34, 4, m.eventEn.toNat⟩, ⟨0x38, 8, m.bar2Base.toNat⟩,
   ⟨0x40, 4, bitOf m.bar2En + m.bar2Part.toNat * 2⟩, ⟨0x44, 4, m.bar2Refused.toNat⟩] ++
  (List.range 2).map (fun i => ⟨0x48 + 8 * i, 8, if (s.cxlPort i).linkUp then (s.cxlPort i).pages else 0⟩)

/-- Tables 13.6 to 13.14: the reset block; RST.CTRL's request fields are write-only. -/
def RstRegs.regs (x : RstRegs) : List Reg :=
  [⟨0x00, 4, x.sources.toNat + x.lastReach.toNat * 2 ^ 28⟩,
   ⟨0x04, 4, flagsFrom 0 [x.optBusy, x.optValid, x.clkStrapBad, x.loadFail] + x.loadPasses.toNat * 2 ^ 8 + x.loadRestarts.toNat * 2 ^ 16⟩,
   ⟨0x08, 4, x.strapBoot.toNat + x.strapClk.toNat * 2 ^ 2 + x.bootSrc.toNat * 2 ^ 4 + flagsFrom 6 [x.fallback, x.recoveryWait] +
     x.bootFail.toNat * 2 ^ 8⟩,
   ⟨0x0C, 4, x.wdtReach.toNat * 2 ^ 9⟩, ⟨0x10, 8, placeFields 0 16 ((List.range 4).map (fun q => (x.qcount.get 0 q).toNat))⟩,
   ⟨0x18, 4, x.connectorEn.toNat⟩, ⟨0x20, 8, x.recSnapId.toNat⟩,
   ⟨0x28, 4, bitOf x.recFwSlot * 2 ^ 17 + x.recPart.toNat * 2 ^ 18 + x.recFlashSlot.toNat * 2 ^ 20 + x.recFwReach.toNat * 2 ^ 24 +
     x.recSnapReach.toNat * 2 ^ 27 + flagsFrom 30 [x.recFwValid, x.recSnapValid]⟩,
   ⟨0x40, 8, x.bootAddr.toNat⟩, ⟨0x48, 4, x.bootLen.toNat⟩, ⟨0x4C, 4, bitOf (decide (x.bootStatus = 1)) + x.bootStatus.toNat * 2⟩]

/-- Table 14.12a: FWU.STATE's code. -/
def FwuState.code : FwuState → Nat
  | .idle => 0 | .busy => 1 | .done => 2 | .refused => 3 | .failed => 4

/-- 14 R393, R402: the update and attestation registers. -/
def Firmware.regs (f : Firmware) : List Reg :=
  [⟨0x00, 8, f.addr.toNat⟩, ⟨0x08, 4, f.len.toNat⟩,
   ⟨0x10, 4, f.state.code + f.lastCmd.toNat * 2 ^ 4 + bitOf f.staged.isSome * 2 ^ 8 + f.error.toNat * 2 ^ 16⟩, ⟨0x14, 4, f.arg.toNat⟩,
   ⟨0x18, 8, f.challenge.toNat⟩, ⟨0x20, 32, f.attNonce.toNat⟩, ⟨0x40, 8, f.attAddr.toNat⟩, ⟨0x48, 4, f.attStatus.toNat * 2⟩]

/-- Table 15.6: a fence table entry's 64 bits. -/
def FenceEntry.toNat (e : FenceEntry) : Nat :=
  bitOf e.valid + e.cause.toNat * 2 ^ 8 + e.code.toNat * 2 ^ 16 + e.index.toNat * 2 ^ 32 + e.kind.toNat * 2 ^ 60

/-- Table 15.7: the Gingham and fence registers. -/
def Gingham.word (g : Gingham) (off : Nat) : BitVec 32 :=
  let n := (g.fences.filter (fun e => e.2.valid)).length
  if 0x800 ≤ off then readBlock [⟨0, 8, (g.fences.get {} ((off - 0x800) / 8)).toNat⟩] (off % 8)
  else readBlock
    [⟨0x04, 4, g.reqState.toNat * 2 ^ 4 + bitOf g.reqRefused * 2 ^ 7 + g.running.length % 2 ^ 16 * 2 ^ 16⟩,
     ⟨0x08, 4, g.repeatLimit.toNat + g.divLimit.toNat * 2 ^ 8⟩, ⟨0x10, 8, g.tests.toNat⟩, ⟨0x18, 8, g.transient.toNat⟩,
     ⟨0x24, 4, n % 1024 + bitOf g.fenceRefused * 2 ^ 10 + bitOf (decide (n = 512)) * 2 ^ 11⟩, ⟨0x28, 8, g.fenceArg.toNat⟩] off

/-- 16 R426, R427: PWR.PSTATE of a partition. -/
def State.pstateWord (s : State) (p : Nat) : Nat :=
  let w := (s.part p).power
  w.state.code + w.target.code * 2 ^ 4 +
    (match w.moving with | some .run => 2 ^ 11 | some _ => 2 ^ 10 | none => 0) + w.limit.code * 2 ^ 12

/-- Table 16.11: THM.TOWER. -/
def TowerThermal.word (x : TowerThermal) : Nat :=
  x.logic.toNat + x.dram.toNat * 2 ^ 8 + x.cause.toNat * 2 ^ 23 + x.op.toNat * 2 ^ 25 + bitOf x.meshHalf * 2 ^ 28 + x.stop.toNat * 2 ^ 29 +
    bitOf x.trip * 2 ^ 31

/-- Tables 16.10, 16.11: the power and thermal registers; PWR.CAL_GO reads 1 while it is busy. -/
def State.pwrRegs (s : State) : List Reg :=
  let w := s.pwr
  (List.range 4).map (fun p => ⟨4 * p, 4, s.pstateWord p⟩) ++
  [⟨0x10, 4, w.capW.toNat + w.capEff.toNat * 2 ^ 16⟩,
   ⟨0x14, 4, bitOf w.hubOffEn + bitOf (decide (w.calStatus = 1)) * 2 ^ 8 + w.calStatus.toNat * 2 ^ 9⟩,
   ⟨0x18, 4, w.voltage48.toNat + w.current48.toNat * 2 ^ 16⟩, ⟨0x1C, 4, w.voltage12.toNat + w.current12.toNat * 2 ^ 16⟩,
   ⟨0x20, 4, w.inlet.toNat + w.outlet.toNat * 2 ^ 10 + w.flow.toNat * 2 ^ 20⟩, ⟨0x28, 8, w.calAddr.toNat⟩, ⟨0x30, 4, w.calLen.toNat⟩] ++
  (List.range 32).map (fun t => ⟨0x100 + 4 * t, 4, (w.towers.get {} t).word⟩) ++
  (List.range 32).map (fun t =>
    let x := w.towers.get {} t
    ⟨0x180 + 8 * t, 8, x.stepsDown.toNat + x.trips.toNat * 2 ^ 32⟩) ++
  (List.range 4).map (fun d => ⟨0x280 + 4 * d, 4, (w.links.get {} d).temp.toNat + bitOf (w.links.get {} d).trip * 2 ^ 8⟩) ++
  [⟨0x290, 4, w.hub.temp.toNat + bitOf w.hub.trip * 2 ^ 8⟩]

/-- 17 Table 17.6: the meter view. -/
def MeterView.regs (v : MeterView) : List Reg :=
  [⟨0x00, 4, flagsFrom 0 [v.sigBad, v.stale, v.sealBroken] + v.gen.toNat * 2 ^ 8 + v.age.toNat * 2 ^ 16⟩, ⟨0x04, 4, v.rejected.toNat⟩,
   ⟨0x100, 192, ofBytes (v.record.take 192)⟩, ⟨0x200, 1472, ofBytes (v.signature.take 1472)⟩]

/-- 15 Table 15.1: an error record's 32 bytes. -/
def ErrRec.toNat (e : ErrRec) : Nat :=
  e.suppressed.toNat + (match e.part with | some p => p.toNat * 2 ^ 23 + 2 ^ 25 | none => 0) + e.action.toNat * 2 ^ 26 +
    e.cls.toNat * 2 ^ 29 + e.unit.toNat * 2 ^ 32 + e.unitKind.toNat * 2 ^ 44 + e.code.toNat * 2 ^ 48 + e.detail.toNat * 2 ^ 64 +
    e.step.toNat * 2 ^ 96 + e.info.toNat * 2 ^ 128 + e.imageId.toNat * 2 ^ 192

/-- R403, R11: the bytes of an error record as they lie in the log ring. -/
def ErrRec.bytes (e : ErrRec) : List Byte := bytesOf e.toNat 32

/-- R313: the words of the error log, and its ring of 1,984 records. -/
def ErrLog.word (e : ErrLog) (off : Nat) : BitVec 32 :=
  if 0x800 ≤ off then readBlock [⟨0, 32, (e.ring.get {} ((off - 0x800) / 32)).toNat⟩] (off % 32)
  else readBlock [⟨0, 4, e.wr.toNat⟩, ⟨4, 4, e.rd.toNat⟩, ⟨8, 4, e.dropped.toNat⟩] off

/-- Table 11.10: SW.STATE's code. -/
def SwState.code : SwState → Nat
  | .disabled => 0 | .enabled => 1 | .disabling => 2

/-- Table 11.10: a store window's descriptor. -/
def State.windowRegs (s : State) (w : Nat) : List Reg :=
  let x := s.window w
  [⟨0, 32, x.hostAddr.toNat + x.size.toNat * 2 ^ 64 + x.part.toNat * 2 ^ 130 + flagsFrom 132 [x.enable, x.mode] +
     x.state.code * 2 ^ 134 + s.windowInflight w % 256 * 2 ^ 136⟩]

/-- R311: the MSI-X table, with the mask bit of each vector, and the pending-bit array. -/
def State.msixWord (s : State) (off : Nat) : BitVec 32 :=
  if off < 0x800 then
    let v := off / 16
    if 36 ≤ v then 0
    else if off % 16 < 12 then s.msixTable.get 0 (4 * v + off % 16 / 4)
    else BitVec.ofNat 32 (bitOf (s.msixMask.getLsbD v))
  else readBlock [⟨0x800, 8, s.msixPend.toNat⟩] off

-- BAR0 ----------------------------------------------------------------------------------------------------------------------

/-- R298: whether a unit of a view reads as all ones: its quadrant is in reset, or its island in Retain or Standby. -/
def State.viewOff (s : State) (q : Nat) : Bool :=
  s.mod.inReset.getLsbD q || decide (3 ≤ (s.part (s.partOfQuad q)).power.state.code)

/-- R298: a word of a view of a unit in quadrant `q`. -/
def State.viewWord (s : State) (q : Nat) (v : BitVec 32) : BitVec 32 := if s.viewOff q then BitVec.allOnes 32 else v

/-- R297, R12, Table 11.2: the word that a read of an offset of BAR0 returns; it has no side effect (R298). -/
def State.bar0Word (s : State) (off : Nat) : BitVec 32 :=
  if off < 0x4000 then readBlock (s.part (off / 0x1000)).jcp.regs (off % 0x1000)
  else if off < 0xE000 then 0
  else if off < 0xF000 then s.msixWord (off - 0xE000)
  else if off < 0x10000 then readBlock s.capRegs (off - 0xF000)
  else if off < 0x10100 then readBlock s.modRegs (off - 0x10000)
  else if off < 0x10200 then readBlock s.rst.regs (off - 0x10100)
  else if off < 0x10400 then readBlock s.fw.regs (off - 0x10200)
  else if off < 0x11C00 then s.gh.word (off - 0x10400)
  else if off < 0x12000 then 0
  else if off < 0x13000 then readBlock s.pwrRegs (off - 0x12000)
  else if off < 0x14000 then readBlock s.meterView.regs (off - 0x13000)
  else if off < 0x20000 then 0
  else if off < 0x30000 then s.err.word (off - 0x20000)
  else if off < 0x30200 then readBlock (s.windowRegs ((off - 0x30000) / 32)) (off % 32)
  else if off < 0x40000 then 0
  else if off < 0x240000 then
    let c := (off - 0x40000) / 0x1000
    s.viewWord (c / 128) (readBlock (s.coreRegs c) (off % 0x1000))
  else if off < 0x250000 then
    let t := (off - 0x240000) / 0x800
    s.viewWord (t / 8) (readBlock (s.chan (32 * t + off % 0x800 / 0x40)).regs (off % 0x40))
  else if off < 0x251800 then
    let i := (off - 0x250000) / 0x100
    s.viewWord (i / 6) (readBlock (s.port i).regs (off % 0x100))
  else 0

/-- R13, R297: a read of BAR0: a word at a 4-byte-aligned offset, or (`wide`) two words at an 8-byte-aligned one, read at once; none where
the access completes as Unsupported Request. -/
def State.bar0Read (s : State) (off : BitVec 26) (wide : Bool) : Option (BitVec 64) :=
  let n := off.toNat
  if wide then (if n % 8 = 0 then some (s.bar0Word (n + 4) ++ s.bar0Word n) else none)
  else if n % 4 = 0 then some ((s.bar0Word n).setWidth 64) else none

-- Clearing reads ------------------------------------------------------------------------------------------------------------

/-- Table 03.9, R14: the word that a control core reads at an offset of a core window, and the state after: CORE.SRAM_CE_COUNT is
cleared but for the `now` errors corrected in the read's own cycle. -/
def State.coreRead (s : State) (c off now : Nat) : BitVec 32 × State :=
  (readBlock (s.coreRegs c) off, if off = 0x0C then s.modCore c (fun k => { k with sramCe := rcRead k.sramCe now }) else s)

/-- 09 R256, R14: the word that a control core reads at an offset of a channel's block, and the state after: CHN.CE_COUNT, ODECC_COUNT
and RETRY_COUNT are cleared but for the `now` advances of the read's own cycle. -/
def State.chanRead (s : State) (k off now : Nat) : BitVec 32 × State :=
  let c := s.chan k
  (readBlock c.regs off,
    match off with
    | 0x04 => s.setChan k { c with ceCount := rcRead c.ceCount now }
    | 0x08 => s.setChan k { c with odeccCount := rcRead c.odeccCount now }
    | 0x10 => s.setChan k { c with retryCount := rcRead c.retryCount now }
    | _ => s)

end Sys2Proof.Machine
end

