-- ==== Sys2Proof/Safety.lean ====
section
/-! DEFINITION. What a claim means by a sound state of the module, and which commands can reach which memory. -/

namespace Sys2Proof

/-- The meter's own events (17): those through which the meter unit changes. -/
def Instr.actsOnMeter (c : Instr) : Bool :=
  match c with
  | .meterSample .. | .meterBroadcast .. | .holdupCommit .. | .meterStart .. | .sealBroken .. | .meterRead ..
  | .meterRecordReceive .. => true
  | _ => false

/-- Commands that store into far-tier device memory: a request that carries a far-tier write there (09 R239, R263) and a fill (09 R263). -/
def Instr.writesFar (c : Instr) : Bool :=
  match c with
  | .channelRequest .. | .farFillComplete .. => true
  | _ => false

/-- Commands that store into the NAND flash: those of a flash snapshot (12 R341) and the acknowledgement of an interrupted one (13 R373). -/
def Instr.writesFlash (c : Instr) : Bool :=
  match c with
  | .fetchData .. | .flashWriteComplete .. | .recSnapAck .. => true
  | _ => false

/-- Commands through which the partition layout changes: MOD.PART_CFG (11 R302) and those through which a reset can assert or run (13 R355). -/
def Instr.changesLayout (c : Instr) : Bool :=
  match c with
  | .partCfgWrite .. | .powerOn .. | .brownOut .. | .mrstN .. | .watchdogExpire .. | .rstSwRequest ..
  | .debugRequest .. | .clockFailure .. | .controlCoreLockup .. | .sourceRelease .. | .activateQuad ..
  | .dieThermalTrip .. | .pldmRequest .. => true
  | _ => false

/-- Commands that can store into tower DRAM, log into a ring there, or begin a reset that loses it (09 R237, 13 R355). -/
def Instr.storesDram (c : Instr) : Bool :=
  match c with
  | .passIssue .. | .drainIssue .. | .drainComplete .. | .vectorIssue .. | .sramUe .. | .loopLengthLatch ..
  | .slotSpill .. | .slotReload .. | .addModeReload .. | .tileArrive .. | .endOfStepMarker .. | .steerSwitch ..
  | .steerSelect .. | .steerMerge .. | .stallTimerExpire .. | .stepStart .. | .stepEnd .. | .reportCompare ..
  | .variantChange .. | .saveAreaWritten .. | .strResume .. | .tensorShiftUpdate .. | .adamwUpdate .. | .reductionAdd ..
  | .redrain .. | .memsideOp .. | .tileCloseReport .. | .segmentReceive .. | .noticeReceive ..
  | .rescaleReceive .. | .memberRemoval .. | .withdrawStep .. | .paramPartReceive .. | .channelRequest ..
  | .retryResend .. | .frameCopied .. | .frameTableWrite .. | .scrubSlot .. | .farFaultResolve ..
  | .farFillComplete .. | .farEvict .. | .evictComplete .. | .cxlLinkDown .. | .packetSend ..
  | .memberUnreachable .. | .functionLevelReset .. | .bar2Access .. | .jobStart .. | .jobPause ..
  | .jobResume .. | .jobStop .. | .stopStepReached .. | .jobAbort .. | .jobClear .. | .clearComplete ..
  | .epochWrite .. | .persistAckWrite .. | .snapshotPoint .. | .snapOpen .. | .pageData .. | .snapManifest ..
  | .fetchData .. | .rideData .. | .snapSeal .. | .snapCommitted .. | .snapDone .. | .snapAbort ..
  | .copyBudgetExpire .. | .fetchEnd .. | .flashWriteComplete .. | .snapRestore .. | .restoreComplete ..
  | .powerOn .. | .brownOut .. | .mrstN .. | .watchdogExpire .. | .rstSwRequest .. | .debugRequest ..
  | .clockFailure .. | .controlCoreLockup .. | .sourceRelease .. | .bringUp .. | .islandExit ..
  | .moduleReady .. | .activateQuad .. | .ginghamTest .. | .ginghamTestComplete .. | .wakeComplete ..
  | .dieThermalTrip .. | .pldmRequest .. => true
  | _ => false

end Sys2Proof

namespace Sys2Proof.Machine

/-- The three memories are in canonical form. -/
def State.memoryOk (s : State) : Bool := Memory.wf s.dram && Memory.wf s.far && Memory.wf s.flash

/-- The partition map is one of the legal layouts (11 R302, 01 R26). -/
def State.layoutOk (s : State) : Bool := layoutLegal s.mod.qpart

end Sys2Proof.Machine
end

