-- ==== Sys2Proof/Certificates/Slice0/Obligations.lean ====
section
/-! DEFINITION. The statements for the provers, each from the numbered rules of the spec that OBLIGATIONS.json cites. -/

open Sys2Proof Sys2Proof.Machine

/-- For every command and every state: a step of the state with that command at the front of its queue is exec of the
command on the state with the rest of the queue. The queue is the model's own (log 1); the commands act in the order
in which they come. A step of a state whose queue is empty answers that state. This is the model's own choice, log 3:
everything that happens at a tick is a command of the table. -/
def Obligations.StepRunsFrontCommand : Prop :=
  (∀ (c : Instr) (rest : List Instr) (s : State),
    step { s with pending := c :: rest } = exec c { s with pending := rest }) ∧
  (∀ s : State, s.pending = [] → step s = .next s)

/-- For every state, whatever stands at the front of its queue, a step answers a next state, never a fault or a
refusal, and the queue of that state is the tail of the queue before: no command adds, drops or reorders waiting
commands. -/
def Obligations.StepTakesOneCommand : Prop :=
  ∀ s : State, ∃ t, step s = .next t ∧ t.pending = s.pending.tail

/-- For every state whose three memories are in canonical form (addresses strictly rising, no byte listed that equals
what an unlisted address reads as), the state that a step answers has them in canonical form, whatever the command:
equal memories stay equal data. -/
def Obligations.StepKeepsMemoriesCanonical : Prop :=
  ∀ s t : State, s.memoryOk = true → step s = .next t → t.memoryOk = true

/-- For every state whose partition layout is legal (each partition bears the number of its lowest quadrant, and no
diagonal pair and no three quadrants form one), the state that a step answers has a legal layout, whatever the
command. -/
def Obligations.StepKeepsLayoutLegal : Prop :=
  ∀ s t : State, s.layoutOk = true → step s = .next t → t.layoutOk = true

/-- At reset no command waits and MOD.READY is 0, every quadrant is in reset and its own partition (MOD.QPART is
0xE4), no version is negotiated, every job page reads IDLE with JCP.STEP and JCP.END_STEP all ones and its epoch 0, no
connector group is enabled, and both invariants hold: the three memories are in canonical form and the layout is
legal. -/
def Obligations.ResetState : Prop :=
  State.reset.pending = [] ∧ State.reset.mod.ready = false ∧ State.reset.mod.inReset = 0xF ∧
  State.reset.mod.qpart = 0xE4 ∧ State.reset.mod.jcpVersion = 0 ∧
  (∀ p : Nat, (State.reset.part p).jcp.state = .idle ∧ (State.reset.part p).jcp.step = BitVec.allOnes 64 ∧
    (State.reset.part p).jcp.endStep = BitVec.allOnes 64 ∧ (State.reset.part p).jcp.epoch = 0) ∧
  State.reset.rst.connectorEn = 0 ∧ State.reset.memoryOk = true ∧ State.reset.layoutOk = true

/-- Where every condition of Table 03.2 holds, PASS_ISSUE runs the head pass, records NaN, frees the tiles and moves the
region bytes it names, and reports the slots with an anchor violation. ANCHOR_COMPUTE appends the anchor of the next
output tile (R47). SHADOW_LOAD fills the array's shadow tile (R74). Where the core's clock runs, SRAM_UE counts
corrected errors, or at an uncorrectable one stops the core's issue, marks the slots of the interrupted pass and reports
(R82). Each result is the whole next state. -/
def Obligations.ArrayCommandsComplete : Prop :=
  (∀ (c : CoreId) (io : PassIo) (s : State) (i : Instance) (p : Pass) (rest : List Pass),
    (s.core c.val).lists.inst = some i → i.passes = p :: rest → s.coreIssues c.val = true →
    (s.core c.val).pendCtrl = none →
    (s.core c.val).inputReady i p = true → (s.core c.val).weightsReady c.val i p io = true →
    (p.named i).all ((s.core c.val).tileReady i) = true →
    (i.fresh = true → (s.core c.val).tokensReady i.op = true) →
    exec (.passIssue c io) s = .next
      (let r := (s.core c.val).runPass c.val i p rest io
       let s1 := (s.setCore c.val r.1).setArith c.val { nan := r.2.1.nan }
       let s2 := (s1.freeTiles c.val io.frees).moveRegions c.val io.moves
       (r.2.2.foldl (fun a j => a.hwError (a.coreReport c.val 0x0302 j i.op.reportOp.toNat 0)) s2).commitLog c.val)) ∧
  (∀ (c : CoreId) (xOff wOff : Nat) (s : State) (i : Instance) (at' a mb nt : Nat),
    (s.core c.val).lists.nextAnchor = some (at', a, mb, nt) → (s.core c.val).lists.insts[at']? = some i →
    s.coreIssues c.val = true → (s.core c.val).anchors.length < 32 →
    (s.core c.val).rangeReady .input xOff (kBlocks (i.op.fullK.getD i.lenK)) = true →
    (s.core c.val).rangeReady .weights wOff (kBlocks (i.op.fullK.getD i.lenK)) = true →
    exec (.anchorCompute c xOff wOff) s = .next
      (let k := s.core c.val
       let n := kBlocks (i.op.fullK.getD i.lenK)
       let r := anchorOf (List.zip ((k.stores.bytes c.val .input xOff n).map BitVec.toNat)
         ((k.stores.bytes c.val .weights wOff n).map BitVec.toNat))
       s.setCore c.val { k with
         anchors := k.anchors ++ [{ tile := { inst := i.serial, mb := mb, nt := nt }, array := a,
                                    anchor := anchorField (r.getD 0), allNan := r.isNone }]
         lists := { k.lists with insts := listSet k.lists.insts at' { i with anchored := i.anchored + 1 } } })) ∧
  (∀ (c : CoreId) (a : Fin 4) (off : Nat) (tw : List TwillMove) (s : State) (i : Instance) (p : Pass),
    (s.core c.val).lists.inst = some i → i.passes.find? (fun p => !((s.core c.val).activeTile a.val).isFor i p) = some p →
    s.coreIssues c.val = true → i.op.tiling.arrays.contains a.val = true → i.covers a.val p.mb = true →
    tw.all ((s.core c.val).twillReady i.op.xFmt i.op.xPlane) = true →
    ((s.core c.val).twillMoves c.val i.op.xFmt i.op.xPlane .input tw).rangeReady .input off
      (opBytes i.op.xFmt i.op.xPlane 64 (tileK i.op.xFmt)) = true →
    exec (.shadowLoad c a off tw) s = .next
      (let k := (s.core c.val).twillMoves c.val i.op.xFmt i.op.xPlane .input tw
       let tk := tileK i.op.xFmt
       let read := readOpVec k.stores c.val .input i.op.xFmt i.op.xPlane off 64 tk (i.kCount p.kt)
       let t : InTile := { inst := i.serial, mb := p.mb, kt := p.kt, cols := (List.range (i.mCount a.val p.mb)).map read }
       s.setCore c.val { k with shadow := k.shadow.set {} a.val t })) ∧
  (∀ (c : CoreId) (store : Fin 5) (bank : BitVec 8) (n : BitVec 32) (s : State), s.coreStopped c.val = false →
    exec (.sramUe c store bank (.corrected n)) s = .next (s.setCore c.val ((s.core c.val).countCe n))) ∧
  (∀ (c : CoreId) (store : Fin 5) (bank : BitVec 8) (off : BitVec 32) (s : State), s.coreStopped c.val = false →
    exec (.sramUe c store bank (.uncorrectable off)) s = .next
      (let k := s.core c.val
       let slots := match k.pass with | some r => r.slots | none => []
       (s.setCore c.val (slots.foldl (fun q j => q.setSlot j (q.slot j).allNan) { k with faultStop := true })).hwError
         (s.coreReport c.val 0x0301 (store.val + 256 * bank.toNat) off.toNat 0)))

/-- Where the head drain's tile has had its last pass and its space is reserved (R72), DRAIN_ISSUE opens a FREE slot
as the empty sum, converts the tile, writes its bytes to the core store, the queue or the reduction port, and sets the
flags and the marks of an INT24 drain. Where the scaling record that the drain posts to may be written, DRAIN_COMPLETE
leaves the slot OPEN with DRAIN.KEEP, HELD for the reduction path, else FREE, counts the drain, posts to the record,
sends the end-of-step marker that DRAIN.EOS asks for, notes the bytes that the drain wrote and moves the region bytes (R78, R129, R154,
R191). A drain whose tile is never opened sends its endpoint's marker alone (R129). Each result is the whole next state. -/
def Obligations.DrainCommandsComplete : Prop :=
  (∀ (c : CoreId) (io : IssueIo) (s : State) (d : DrainItem) (rest : List DrainItem) (f : Fmt),
    (s.core c.val).lists.drains = d :: rest → d.markerOnly = false → Fmt.ofCode d.desc.format.toNat = some f →
    (s.core c.val).issuesDrains = true → s.coreStopped c.val = false →
    (s.core c.val).drain = none → (s.core c.val).drainable d f = true → (s.core c.val).passesLeft d = false →
    d.desc.destKind.toNat < 5 →
    (d.desc.destKind.toNat < 3 → d.at' + drainBytes f ≤ (destStore d.desc.destKind.toNat).size ∧
      s.placeFree c.val (destStore d.desc.destKind.toNat) d.at' (drainBytes f) = true) →
    (d.desc.destKind.toNat = 3 → (s.core c.val).canSend d.desc.destQueue.toNat = true ∧
      s.edgeRefused c.val d.desc.destQueue.toNat = false) →
    (d.desc.destKind.toNat = 4 → f = .int24 ∧ s.takesTerm c.val (bitsAt d.at' 0 30) = true) →
    exec (.drainIssue c io) s = .next
      (let k := s.core c.val
       let kind := d.desc.destKind.toNat
       let x := k.drainSlot d
       let shift := sint8 d.desc.tensorShift + (k.lists.shifts.get 0 d.desc.tensorId.toNat : Nat)
       let s24 := if kind = 4 then (s.cr (s.partOfCore c.val) (bitsAt d.at' 0 30)).termScale
         else d.desc.int24Scale.toNat
       let o := drainTile x d.desc f shift s24 (s.rounding c.val (d.desc.round && f.stochastic) d.desc.tensorId)
       let kd : Core := { k.setSlot d.slot x with
         drain := some { slot := d.slot, item := d, post := if f.blockScaled then some (o.sat, o.amax) else none
                         moves := io.moves
                         place := if kind < 3 then some (BitVec.ofNat 2 (destStore kind).code, d.at', drainBytes f) else none }
         scaleMiss := if f = Fmt.int24 then missRows o.rows else k.scaleMiss
         nonfinite := if f = Fmt.int24 then nonfiniteRows o.rows else k.nonfinite }
       let kh := (kd.countCe io.sramCe).engineHead 1 d.op.reportOp
       let k2 := (((kh.setEngine 1 { kh.engine 1 with lastInst := d.tile.inst }).charge 1 (drainCycles d.desc f)
         io.waitIn.toNat io.waitOut.toNat 0 (bitOf (decide ((kh.engine 1).lastInst ≠ d.tile.inst)))).modLists
         (fun l => { l with drains := rest })).drainHead
       let k3 := if kind < 3 then k2.writeStore (destStore kind) d.at' (o.bytes f)
         else if kind = 4 then { k2 with red := k2.red ++ [redTermOf d x s24 k.report.step o] } else k2
       let s1 := (s.setCore c.val k3).setArith c.val o.flags.arith
       (if kind = 3 then s1.sendTile c.val d.desc.destQueue.toNat (BitVec.ofNat 32 d.at') (o.bytes f) else s1).commitLog
         c.val)) ∧
  (∀ (c : CoreId) (io : IssueIo) (s : State) (d : DrainItem) (rest : List DrainItem),
    (s.core c.val).lists.drains = d :: rest → d.markerOnly = true → (s.core c.val).issuesDrains = true →
    s.coreStopped c.val = false → (s.core c.val).drain = none → s.edgeRefused c.val d.desc.destQueue.toNat = false →
    exec (.drainIssue c io) s = .next
      (((s.setCore c.val ((((s.core c.val).countCe io.sramCe).modLists (fun l => { l with drains := rest })).drainHead)).sendMarker
        c.val d.desc.destQueue.toNat).commitLog c.val)) ∧
  (∀ (c : CoreId) (s : State) (r : RunningDrain), (s.core c.val).drain = some r → s.coreStopped c.val = false →
    (r.post ≠ none → ∀ m, (s.body (s.partOfCore c.val)).managed.find? (fun m => m.tensor = r.item.desc.tensorId) = some m →
      s.mayAccess (s.partOfCore c.val) [(m.addr.toNat, 256)] = true ∧
      s.rangesRefused (s.partOfCore c.val) c.tower [(m.addr.toNat, 256)] = false) →
    exec (.drainComplete c) s = .next
      (let k := s.core c.val
       let x := k.slot r.slot
       let d := r.item.desc
       let st : SlotState := if d.keep then .opened else if d.destKind = 4 then .held else .free
       let y : Slot := if st = .free then {} else { x with state := st }
       let k1 : Core := { k.setSlot r.slot y with
         drain := none
         drainCount := k.drainCount + 1 }
       let s1 := s.setCore c.val k1
       let s2 := match r.post with
         | some (sat, amax) => s1.postScaling (s.partOfCore c.val) d.tensorId k.report.step.toNat sat amax
         | none => s1
       ((if d.eos && d.destKind = 3 then s2.sendMarker c.val d.destQueue.toNat else s2).noteWritten c.val
         r.place.toList).moveRegions c.val r.moves))

/-- Where the head entry of the vector list has its operands and its space, VECTOR_ISSUE computes its result, writes
it to the core store, the queue or the reduction port, sets the flags, posts the scaling record, frees the tiles,
sends the marker where the entry ends its step, and moves the region bytes. An entry that only marks its step's end
takes the cycle of its issue and sends the marker (R129, R142). Each result is the whole next state. -/
def Obligations.VectorIssueCompletes : Prop :=
  (∀ (c : CoreId) (io : IssueIo) (s : State) (e : VecEntry) (rest : List VecEntry),
    (s.core c.val).lists.vecs = e :: rest → s.coreIssues c.val = true → e.markerOnly = false →
    (s.core c.val).vecReady e = true →
    (∀ q n, e.dest = .queue q n → (s.core c.val).canSend q.val = true ∧ s.edgeRefused c.val q.val = false) →
    (∀ w, e.dest = .reduction w → s.takesTerm c.val (bitsAt w.toNat 0 30) = true) →
    (∀ off, e.dest = .scratch off → off + e.outBytes ≤ StoreId.scratch.size ∧
      s.placeFree c.val .scratch off e.outBytes = true) →
    (∀ off, e.dest = .input off → off + e.outBytes ≤ StoreId.input.size ∧
      s.placeFree c.val .input off e.outBytes = true) →
    (∀ off, e.dest = .weights off → off + e.outBytes ≤ StoreId.weights.size ∧
      s.placeFree c.val .weights off e.outBytes = true) →
    (e.op.posts = true → ∀ m, (s.body (s.partOfCore c.val)).managed.find? (fun m => m.tensor = e.op.tensor) = some m →
      s.mayAccess (s.partOfCore c.val) [(m.addr.toNat, 256)] = true ∧
      s.rangesRefused (s.partOfCore c.val) c.tower [(m.addr.toNat, 256)] = false) →
    exec (.vectorIssue c io) s = .next
      (let k := s.core c.val
       let p := s.partOfCore c.val
       let o := vecResult s c.val e
       let kc := ((k.countCe io.sramCe).engineHead 2 e.reportOp).charge 2 (vecCycles e o.bytes.length)
         io.waitIn.toNat io.waitOut.toNat 0 1
       let k1 := ({ kc with lists := { kc.lists with vecs := rest } } : Core).vecHead
       let k2 := match e.dest with
         | .scratch off => k1.writeStore .scratch off o.bytes
         | .input off => k1.writeStore .input off o.bytes
         | .weights off => k1.writeStore .weights off o.bytes
         | .queue _ _ => k1
         | .reduction w => { k1 with red := k1.red ++
             [{ word := w, scale := (s.cr p (bitsAt w.toNat 0 30)).termScale, step := k.report.step.setWidth 32,
                rows := if o.rows.isEmpty then partialRows (byteWords o.bytes) else o.rows }] }
       let s1 := (s.setCore c.val k2).setArith c.val o.flags
       let s2 := match e.dest with
         | .queue q n => s1.sendTile c.val q.val n o.bytes
         | _ => s1
       let s3 := match o.post with
         | some (t, sat, amax) => s2.postScaling p t k.report.step.toNat sat amax
         | none => s2
       let s4 := s3.freeTiles c.val e.frees
       let s5 := match e.dest with
         | .queue q _ => if e.eos then s4.sendMarker c.val q.val else s4
         | _ => s4
       ((s5.noteWritten c.val (e.written o.bytes.length)).moveRegions c.val io.moves).commitLog c.val)) ∧
  (∀ (c : CoreId) (io : IssueIo) (s : State) (e : VecEntry) (rest : List VecEntry) (q : EpId) (n : BitVec 32),
    (s.core c.val).lists.vecs = e :: rest → s.coreIssues c.val = true → e.markerOnly = true → e.dest = .queue q n →
    exec (.vectorIssue c io) s = .next
      (let kh := (((s.core c.val).countCe io.sramCe).engineHead 2 e.reportOp).charge 2 1 io.waitIn.toNat io.waitOut.toNat 0 1
       ((s.setCore c.val ({ kh with lists := { kh.lists with vecs := rest } } : Core).vecHead).sendMarker c.val
         q.val).commitLog c.val))

/-- With no pass running in a partition in Run, a write of CORE.ENABLE takes effect at once; otherwise it waits for
the next pass boundary. A halt request that the module's lifecycle permits does the same and lets the power target be
evaluated. PASS_BOUNDARY_STOP ends the pass, and a change that waits takes effect in a partition in Run (R90). Each
result is the whole next state. -/
def Obligations.CoreControlCompletes : Prop :=
  (∀ (c : CoreId) (on : Bool) (s : State),
    (on = true → (s.core c.val).wantCtrl.enable = true ∨ ((s.core c.val).pass = none ∧ (s.core c.val).drain = none)) →
    exec (.coreEnable c on) s = .next
      (let k := s.core c.val
       let q : CoreCtrl := { k.wantCtrl with enable := on }
       if k.pass = none ∧ (s.part (s.partOfCore c.val)).power.state = .run then
         s.setCore c.val (k.applyCtrl q)
       else s.setCore c.val { k with pendCtrl := some q })) ∧
  (∀ (c : CoreId) (on : Bool) (s : State), (on = true → s.fw.production = false ∨ s.fw.unlocked = true) →
    exec (.coreHaltReq c on) s = .next
      (let k := s.core c.val
       let q : CoreCtrl := { k.wantCtrl with haltReq := on }
       (if k.pass = none ∧ (s.part (s.partOfCore c.val)).power.state = .run then
         s.setCore c.val (k.applyCtrl q)
       else s.setCore c.val { k with pendCtrl := some q }).retarget (s.partOfCore c.val))) ∧
  (∀ (c : CoreId) (s : State) (q : CoreCtrl), (s.core c.val).pendCtrl = some q → s.coreStopped c.val = false →
    (s.part (s.partOfCore c.val)).power.state = .run →
    exec (.passBoundaryStop c) s = .next (s.setCore c.val (({ s.core c.val with pass := none } : Core).applyCtrl q))) ∧
  (∀ (c : CoreId) (s : State), (s.core c.val).pendCtrl = none → s.coreStopped c.val = false →
    exec (.passBoundaryStop c) s = .next (s.setCore c.val { s.core c.val with pass := none }))

/-- Where the core issues, the passes of earlier instances have issued or the head operator's lengths are static, the
tokens a bound word waits on are present, the entry of a pointer list is legal and its length sources are ready, with
lengths within their maxima and M and N not 0, LOOP_LENGTH_LATCH makes the instance: its lengths, its passes, its
drains, its serial number, the bound registers it used cleared. An overcommitted instance needs spill mode and enough
spill slots (R110 to R112). Where M or N is 0 the instance is passed over, and the markers of its endpoints go out (R104, R129). A dynamic
length that the trace does not hold sets RPT.UNPREDICTED (R147). Each result is the whole next state. -/
def Obligations.LoopLengthLatchCompletes : Prop :=
  ∀ (c : CoreId) (s : State) (o : OpEntry) (os : List OpEntry) (lm ln lk : Nat),
    s.coreIssues c.val = true → (s.core c.val).lists.ops = o :: os →
    (s.core c.val).lists.mayLatch o.tiling = true → (o.tiling.plMax ≠ 0 → (s.core c.val).lists.plPending ≠ none) →
    (o.tiling.m.src = 3 ∨ o.tiling.n.src = 3 ∨ o.tiling.k.src = 3 → (s.core c.val).tokensReady o = true) →
    s.rangesRefused (s.partOfCore c.val) c.tower
      ((if o.tiling.m.src = 3 then [(o.tiling.m.wordAddr.toNat, 4)] else []) ++
       (if o.tiling.n.src = 3 then [(o.tiling.n.wordAddr.toNat, 4)] else []) ++
       (if o.tiling.k.src = 3 then [(o.tiling.k.wordAddr.toNat, 4)] else [])) = false →
    (∀ e, (s.core c.val).lists.plPending = some e →
      e.valid = true ∧ plFault o (s.core c.val).lists.plIndex e = none) →
    latchLen s c.val (s.core c.val) o.tiling.m (s.core c.val).lists.plPending = some lm →
    latchLen s c.val (s.core c.val) o.tiling.n (s.core c.val).lists.plPending = some ln →
    latchLen s c.val (s.core c.val) o.tiling.k (s.core c.val).lists.plPending = some lk →
    (o.tiling.m.src ≠ 0 → lm ≤ o.tiling.m.max.toNat) → (o.tiling.n.src ≠ 0 → ln ≤ o.tiling.n.max.toNat) →
    (o.tiling.k.src ≠ 0 → lk ≤ o.tiling.k.max.toNat) →
    (lm ≠ 0 → ln ≠ 0 →
      o.tiling.slotBudget.toNat < demandOf o.tiling (o.tiling.m.demandLen lm) (o.tiling.n.demandLen ln) →
      (s.core c.val).lists.overcommitSpill = true ∧
      spillPositions (demandOf o.tiling (o.tiling.m.demandLen lm) (o.tiling.n.demandLen ln)) o.tiling.slotBudget.toNat *
        o.tiling.arrays.length ≤ o.tiling.spillSlots.toNat) →
    exec (.loopLengthLatch c) s = .next
      ((let k := s.core c.val
       let t := o.tiling
       let e := k.lists.plPending
       let last := match e with | some x => x.last | none => true
       let bnd := clearBnd (clearBnd (clearBnd k.bndValid t.m) t.n) t.k
       let dyn := decide (t.m.src ≠ 0) || decide (t.n.src ≠ 0) || decide (t.k.src ≠ 0)
       let k0 : Core := { k with bndValid := bnd }
       let k1 := if dyn && (s.part (s.partOfCore c.val)).job.reportLoaded && !s.predicted c.val then
         k0.rptSet (fun r => { r with unpredicted := true }) else k0
       if lm = 0 ∨ ln = 0 then
         s.setCore c.val ((k1.modLists (fun l => { l.advance last with
           drains := l.drains ++ markerItems o last })).arrayHead.drainHead)
       else
         let d := demandOf t (t.m.demandLen lm) (t.n.demandLen ln)
         let ovr := decide (t.slotBudget.toNat < d)
         let i : Instance :=
           { op := o, serial := k.lists.nextSerial, lenM := lm, lenN := ln, lenK := lk, demand := d, spilling := ovr,
             outBase := match e with | some x => x.outputBase.toNat | none => 0, passes := passesFor o lm ln lk ovr }
         s.setCore c.val ((k1.modLists (fun l => { l.advance last with
           insts := l.insts ++ [i], nextSerial := l.nextSerial + 1, drains := l.drains ++ drainItems i last })).arrayHead.drainHead)).commitLog
         c.val)

/-- Where its position may be accessed, SLOT_SPILL writes a resident tile's wide form to its own position in
tower DRAM where another tile of its group needs the slot, and marks the step off-report (R111, R112). SLOT_RELOAD
brings a needed tile's wide form back from its position, or opens the slot for a tile never opened, once no tile of an
earlier group with that home slot waits in the spill region. ADD_MODE_RELOAD writes the sender's wide form to a free
spill-form place of the receiver and adds it entry by entry; anchors that differ set every entry to ACC.NAN and report
0x0302 (R115). Each result is the whole next state. -/
def Obligations.SlotCommandsComplete : Prop :=
  (∀ (c : CoreId) (j : Fin 32) (s : State) (r : Needed),
    (s.core c.val).resident j.val = some r → ((s.core c.val).slot j.val).state = .opened →
    (∃ n ∈ (s.core c.val).needed, n.spilling = true ∧ n.home = j.val ∧ n.tile ≠ ((s.core c.val).slot j.val).tile ∧
      n.tile.inst = ((s.core c.val).slot j.val).tile.inst ∧ n.group = r.group) →
    (s.core c.val).drain = none → s.coreStopped c.val = false →
    s.mayAccess (s.partOfCore c.val) [(r.place, 65536)] = true →
    exec (.slotSpill c j) s = .next
      (let k := s.core c.val
       let x := k.slot j.val
       let k1 : Core := { k with spilled := k.spilled ++ [(r.array, x.tile)] }
       let k2 := (k1.setSlot j.val { state := .spilled, tile := x.tile }).rptSet (fun y => { y with accSpill := true })
       ((s.writeWide c.val r.place x).setCore c.val (k2.drainHead.charge 1 64 0 0 0 0)).commitLog c.val)) ∧
  (∀ (c : CoreId) (j : Fin 32) (s : State) (n : Needed),
    (((s.core c.val).slot j.val).state = .spilled ∨ (s.core c.val).openable j.val = true) →
    s.coreStopped c.val = false → (s.core c.val).drain = none →
    (s.core c.val).needed.find? (fun n => n.spilling && decide (n.home = j.val)) = some n →
    (s.core c.val).earlierWaits j.val n.tile.inst n.group = false →
    (s.core c.val).spilled.contains (n.array, n.tile) = true →
    s.placeFault (s.partOfCore c.val) [(n.place, 65536)] false = none →
    s.poisonedIn (s.partOfCore c.val) [(n.place, 65536)] = [] →
    (s.cowPlaces (s.partOfCore c.val) [(n.place, 65536)]).any (fun pl => s.frameHeld pl.tower pl.g) = false →
    exec (.slotReload c j) s = .next
      (let k := s.core c.val
       let w := Slot.ofWide n.op n.tile (s.jobBytes (c.val / 16) n.place 65536)
       let k1 : Core := { k with spilled := k.spilled.filter (fun y => !decide (y = (n.array, n.tile))) }
       (s.setCore c.val ((k1.setSlot j.val w).drainHead.charge 1 64 0 0 0 0)).commitLog c.val)) ∧
  (∀ (c : CoreId) (j : Fin 32) (s : State) (n : Needed),
    ((s.core c.val).slot j.val).state = .spilled → s.coreStopped c.val = false →
    (s.core c.val).needed.find? (fun n => n.spilling && decide (n.home = j.val)) = some n →
    (s.core c.val).earlierWaits j.val n.tile.inst n.group = false →
    (s.core c.val).spilled.contains (n.array, n.tile) = false →
    ((s.core c.val).anchorFor n.array n.tile ≠ none ∨ n.op.xFmt = .bf16) →
    exec (.slotReload c j) s = .next
      (let k := s.core c.val
       let k1 := k.setSlot j.val (openSlot n.op n.tile (k.anchorFor n.array n.tile))
       (s.setCore c.val { k1 with
         anchors := k.anchors.filter (fun y => !(decide (y.array = n.array) && decide (y.tile = n.tile))) }).commitLog
         c.val)) ∧
  (∀ (c : CoreId) (j : Fin 32) (src : CoreId) (sj : Fin 32) (s : State) (r r' : Needed) (place : Nat),
    (s.core c.val).resident j.val = some r → (s.core src.val).resident sj.val = some r' →
    ((s.core c.val).slot j.val).state = .opened → ((s.core src.val).slot sj.val).state = .opened →
    ((s.core c.val).slot j.val).tile.mb = ((s.core src.val).slot sj.val).tile.mb →
    ((s.core c.val).slot j.val).tile.nt = ((s.core src.val).slot sj.val).tile.nt →
    r.op.reportOp = r'.op.reportOp → j.val / 8 = sj.val / 8 →
    (s.core c.val).drain = none → (s.core src.val).drain = none →
    ((s.core c.val).slot j.val).bf16 = false → ((s.core src.val).slot sj.val).bf16 = false →
    s.coreStopped c.val = false → s.coreStopped src.val = false →
    s.gateRefuses (src.val / 16) (c.val / 16) = false →
    (s.core c.val).partialPlace r = some place → s.mayAccess (s.partOfCore c.val) [(place, 65536)] = true →
    exec (.addModeReload c j src sj) s = .next
      (((let x := (s.core c.val).slot j.val
       let s1 := (s.writeWide c.val place ((s.core src.val).slot sj.val)).setCore src.val
         ((s.core src.val).drainHead.charge 1 64 0 0 0 0)
       let k1 := s1.core c.val
       let w := Slot.ofWide r.op x.tile (s1.jobBytes (c.val / 16) place 65536)
       if (x.entry 0).anchor = (w.entry 0).anchor then
         s1.setCore c.val ((k1.setSlot j.val ((List.range 4096).foldl (fun b i =>
           b.setEntry i ((b.entry i).addWide (w.entry i))) x)).drainHead.charge 1 64 0 0 0 0)
       else
         (s1.setCore c.val ((k1.setSlot j.val x.allNan).drainHead.charge 1 64 0 0 0 0)).hwError
           (s.coreReport c.val 0x0302 j.val r.op.reportOp.toNat 0)).commitLog c.val).commitLog src.val))

/-- At an input endpoint a tile in order enters the lowest free slot of its queue's store, or the spill region where the
queue is spilled or full (R128, R136). A step's first marker is held for a steering node or behind tiles, else discarded
(R129). A release makes the oldest hidden external tile of the queue or of its spill region visible, and counts a late
one (R143). A credit adds one to its edge (R127). A spilled tile moves back into a free slot without a credit (R136).
Each result is the whole next state. -/
def Obligations.QueueArrivalsComplete : Prop :=
  (∀ (c : CoreId) (e : EpId) (s : State) (a : Arrival) (k0 : Core),
    (s.core c.val).nextArrival (BitVec.ofNat 5 e.val) = some (a, k0) → a.marker = false →
    s.coreStopped c.val = false → ((s.core c.val).ep e.val).dir = 1 →
    ((s.core c.val).ep e.val).seqBad a.seq a.step = false →
    exec (.tileArrive c e) s = .next
      (let x := (s.core c.val).ep e.val
       let x1 : Endpoint := { x with lastSeq := some (a.step, a.seq) }
       let k1 := k0.setEp e.val x1
       match x.spilled, x.freeSlot with
       | false, some i =>
         let t : QTile := { seq := a.seq, step := a.step, slot := i, len := a.bytes.length, visible := decide (x.kind ≠ 2) }
         (s.setCore c.val k1).setCore c.val ((k1.setEp e.val { x1 with tiles := x.tiles ++ [t] }).writeStore
           (StoreId.ofCode x.store.toNat) (x.slotOff i) a.bytes)
       | _, _ => (s.setCore c.val k1).spillTile c.val e.val a.seq a.step (decide (x.kind ≠ 2)) a.bytes true)) ∧
  (∀ (c : CoreId) (e : EpId) (s : State) (a : Arrival) (k1 : Core),
    (s.core c.val).nextArrival (BitVec.ofNat 5 e.val) = some (a, k1) → a.marker = true →
    ((s.core c.val).ep e.val).closed.contains a.step = false → s.coreStopped c.val = false → ((s.core c.val).ep e.val).dir = 1 →
    exec (.endOfStepMarker c e) s = .next
      (let k := s.core c.val
       let x := k.ep e.val
       let keep := k.steered e.val || x.tiles.any (fun y => decide (y.step = a.step)) ||
         x.spill.any (fun y => decide (y.step = a.step))
       s.setCore c.val (k1.setEp e.val
         { x with closed := x.closed ++ [a.step], markers := if keep then x.markers ++ [a.step] else x.markers }))) ∧
  (∀ (c : CoreId) (e : EpId) (arrived : Nat) (i : BitVec 32) (s : State) (x : Endpoint),
    ((s.core c.val).ep e.val).hiddenSeq = some i →
    ((s.core c.val).ep e.val).reveal = some x → s.coreStopped c.val = false →
    exec (.externalEventRelease c e arrived) s = .next
      (let k1 := (s.core c.val).setEp e.val x
       let y := (s.core c.val).ep e.val
       s.setCore c.val (if y.releaseBase + i.toNat * y.releasePeriod < arrived then
         (k1.modReport (fun r => { r with lateTiles := satAdd r.lateTiles 1 })).rptSet (fun r => { r with late := true })
         else k1))) ∧
  (∀ (c : CoreId) (e : EpId) (s : State) (i : Nat) (k1 : Core),
    (s.core c.val).nextCredit e.val = some (i, k1) → s.coreStopped c.val = false →
    exec (.creditReceive c e) s = .next
      (s.setCore c.val (k1.setEp e.val
         { (s.core c.val).ep e.val with edges := addCredit ((s.core c.val).ep e.val).edges i }))) ∧
  (∀ (c : CoreId) (e : EpId) (s : State) (t : SpillTile) (rest : List SpillTile) (i : Nat),
    ((s.core c.val).ep e.val).spill = t :: rest → ((s.core c.val).ep e.val).freeSlot = some i →
    s.coreStopped c.val = false →
    exec (.queueMoveBack c e) s = .next
      (let k := s.core c.val
       let x := k.ep e.val
       let q : QTile := { seq := t.seq, step := t.step, slot := i, len := t.bytes.length, credit := false,
                          visible := t.visible }
       s.setCore c.val ((k.setEp e.val { x with spill := rest, tiles := x.tiles ++ [q], spilled := !rest.isEmpty }).writeStore
         (StoreId.ofCode x.store.toNat) (x.slotOff i) t.bytes)))

/-- While the die's stall watch runs, the endpoints whose timers expire are dealt with one after another, the lowest
first; one that is full while its engine waits elsewhere has its tiles spilled oldest first and an event recorded, or,
under JCP.STALL_MODE = 1, stops its core with QUEUE_STUCK (R135 to R137). A wait that involves no full queue is
recorded as event 0x0505 (R138). -/
def Obligations.StallCommandsComplete : Prop :=
  (∀ (c : CoreId) (eps : BitVec 32) (s : State), s.stallWatchStopped c.tower = false →
    exec (.stallTimerExpire c eps) s = .next
      ((List.range 32).foldl (fun a e => if eps.getLsbD e then a.unstick c.val e else a) s)) ∧
  (∀ (c e : Nat) (s : State), ((s.core c).ep e).full = true → (s.core c).waitsElsewhere e = true →
    s.unstick c e =
      (let k := s.core c
       let x := k.ep e
       if bitAt (s.part (s.partOfCore c)).job.latched.modes 1 then s.coreFault c 0x0503 e 0
       else ((s.setCore c (k.setEp e { x with stuckSeen := true })).spillAll c e x.tiles.length).logError
         (s.coreReport c 0x0504 e x.tiles.length 0))) ∧
  (∀ (c : CoreId) (engine : Fin 3) (operator : BitVec 24) (s : State), s.stallWatchStopped c.tower = false →
    exec (.stallSuspect c engine operator) s = .next (s.logError (s.coreReport c.val 0x0505 engine.val operator.toNat 0)))

/-- A SWITCH sends the data tile of its token's number to output A or B, or frees it, and at its data input's marker
sends a marker to each output. A SELECT sends the tile of the input that its token names, leaves a gap at TOK.SEL = 2,
and sends one marker at both markers. A MERGE sends the older of its two oldest tiles, or the one whose other input is
at its marker, and one marker at both. Each result is the whole next state. -/
def Obligations.SteeringCommandsComplete : Prop :=
  (∀ (c : CoreId) (n : Fin 8) (s : State) (tk d : QTile), let k := s.core c.val
    let x := k.node n.val
    let tok := tokenOf (k.tileBytes c.val x.token.toNat tk)
    x.kind = .switch → x.stopped = false → s.coreStopped c.val = false → k.present x.token.toNat = some tk → k.present x.inA.toNat = some d →
    tok.1 = d.seq.toNat → tok.2 ≠ 3 →
    (tok.2 = 0 → k.canSend x.outA.toNat = true ∧ s.edgeRefused c.val x.outA.toNat = false) →
    (tok.2 = 1 → k.canSend x.outB.toNat = true ∧ s.edgeRefused c.val x.outB.toNat = false) →
    exec (.steerSwitch c n) s = .next
      (let bs := k.tileBytes c.val x.inA.toNat d
       let s1 := if tok.2 = 0 then s.sendTile c.val x.outA.toNat d.seq bs
         else if tok.2 = 1 then s.sendTile c.val x.outB.toNat d.seq bs else s
       ((s1.freeTile c.val x.token.toNat).freeTile c.val x.inA.toNat).fired c.val n.val)) ∧
  (∀ (c : CoreId) (n : Fin 8) (s : State), let k := s.core c.val
    let x := k.node n.val
    x.kind = .switch → x.stopped = false → s.coreStopped c.val = false → k.present x.inA.toNat = none → k.atMarker x.inA.toNat = true →
    exec (.steerSwitch c n) s = .next
      (((s.sendMarker c.val x.outA.toNat).sendMarker c.val x.outB.toNat).dropMarker c.val x.inA.toNat)) ∧
  (∀ (c : CoreId) (n : Fin 8) (s : State) (tk d : QTile), let k := s.core c.val
    let x := k.node n.val
    let tok := tokenOf (k.tileBytes c.val x.token.toNat tk)
    let e := if tok.2 = 0 then x.inA.toNat else x.inB.toNat
    x.kind = .select → x.stopped = false → s.coreStopped c.val = false → k.present x.token.toNat = some tk → tok.2 < 2 → k.present e = some d →
    d.seq.toNat = tok.1 → k.canSend x.outA.toNat = true → s.edgeRefused c.val x.outA.toNat = false →
    exec (.steerSelect c n) s = .next
      ((((s.sendTile c.val x.outA.toNat d.seq (k.tileBytes c.val e d)).freeTile c.val x.token.toNat).freeTile c.val e).fired
        c.val n.val)) ∧
  (∀ (c : CoreId) (n : Fin 8) (s : State) (tk : QTile), let k := s.core c.val
    let x := k.node n.val
    x.kind = .select → x.stopped = false → s.coreStopped c.val = false → k.present x.token.toNat = some tk →
    (tokenOf (k.tileBytes c.val x.token.toNat tk)).2 = 2 →
    exec (.steerSelect c n) s = .next ((s.freeTile c.val x.token.toNat).fired c.val n.val)) ∧
  (∀ (c : CoreId) (n : Fin 8) (s : State), let k := s.core c.val
    let x := k.node n.val
    x.kind = .select → x.stopped = false → s.coreStopped c.val = false → k.present x.token.toNat = none → k.atMarker x.inA.toNat = true →
    k.atMarker x.inB.toNat = true →
    exec (.steerSelect c n) s = .next
      (((s.sendMarker c.val x.outA.toNat).dropMarker c.val x.inA.toNat).dropMarker c.val x.inB.toNat)) ∧
  (∀ (c : CoreId) (n : Fin 8) (s : State) (a b : QTile), let k := s.core c.val
    let x := k.node n.val
    x.kind = .merge → x.stopped = false → s.coreStopped c.val = false → k.present x.inA.toNat = some a → k.present x.inB.toNat = some b →
    a.seq ≠ b.seq → k.canSend x.outA.toNat = true → s.edgeRefused c.val x.outA.toNat = false →
    exec (.steerMerge c n) s = .next
      (let e := if a.seq < b.seq then x.inA.toNat else x.inB.toNat
       let d := if a.seq < b.seq then a else b
       ((s.sendTile c.val x.outA.toNat d.seq (k.tileBytes c.val e d)).freeTile c.val e).fired c.val n.val)) ∧
  (∀ (c : CoreId) (n : Fin 8) (s : State) (a : QTile), let k := s.core c.val
    let x := k.node n.val
    x.kind = .merge → x.stopped = false → s.coreStopped c.val = false → k.present x.inA.toNat = some a → k.present x.inB.toNat = none →
    k.atMarker x.inB.toNat = true → k.canSend x.outA.toNat = true → s.edgeRefused c.val x.outA.toNat = false →
    exec (.steerMerge c n) s = .next
      (((s.sendTile c.val x.outA.toNat a.seq (k.tileBytes c.val x.inA.toNat a)).freeTile c.val x.inA.toNat).fired c.val
        n.val)) ∧
  (∀ (c : CoreId) (n : Fin 8) (s : State), let k := s.core c.val
    let x := k.node n.val
    x.kind = .merge → x.stopped = false → s.coreStopped c.val = false → k.present x.inA.toNat = none → k.present x.inB.toNat = none →
    k.atMarker x.inA.toNat = true → k.atMarker x.inB.toNat = true →
    exec (.steerMerge c n) s = .next
      (((s.sendMarker c.val x.outA.toNat).dropMarker c.val x.inA.toNat).dropMarker c.val x.inB.toNat))

/-- A core that issues, between steps, whose job lets the next step begin and whose gate tile and shifts are present,
begins it: its registers and lists as R141 and R147 say, a ride's mark, the rejoins due (R346), the group status blocks
(R232), once a step, and its owner records (R223); an island off OP0 marks the step (R431). A core whose three engines
are done ends its step: the engines' records, the step-end record, the step's status into the partition's; the last core
of the job ends it for the partition (R148). Each result is the whole next state. REPORT_COMPARE takes the 16 cores of
the tower in order. With a report loaded, the steps of a core that its partition has ended are compared one after
another and their records marked read (R146, R151); where a step is predicted and verified, a divergence is recorded
with its limit (R420), and agreement clears the core's count of divergences. -/
def Obligations.StepAndReportCommandsComplete : Prop :=
  ((∀ (c : CoreId) (wait : BitVec 32) (s : State), let k := s.core c.val
    let p := s.partOfCore c.val
    let step := k.report.next
    k.ctrl.enable = true → k.ctrl.haltReq = false → k.faultStop = false → k.passFault = false →
    k.pendCtrl = none → s.coreStopped c.val = false → k.report.inStep = false → (s.part p).lets step = true → (s.part p).snapLets k.report = true → k.gateReady step = true →
    s.shiftsReady c.val step.toNat = true →
    exec (.stepStart c wait) s = .next
      (let shifts : FMap Nat := (s.body p).managed.foldl (fun m x => m.set 0 x.tensor.toNat
         (if s.tscStep p x ≤ step.toNat then s.tscShift p x else k.lists.shifts.get 0 x.tensor.toNat)) []
       let s1 := s.setCore c.val (k.beginStep step wait.toNat shifts)
       let s2 := (List.range 6).foldl (fun a i => a.modCtx (6 * c.val + i) (fun x => { x with stepIndex := 0 })) s1
       let s3 := if (s.part p).job.rideStep = some step then
           s2.modCore c.val (fun q => q.rptSet (fun r => { r with snapshot := true })) else s2
       let s3c := if s.offOp0 p then s3.modCore c.val (fun q => q.rptSet (fun r => { r with clock := true })) else s3
       let s4 : State := match (s.part p).job.withdrawn with
         | some j => if j ≤ step then s3c.modJob p (fun x => { x with withdrawn := none }) else s3c
         | none => s3c
       let s4' := s4.applyRejoins p step
       let s5 := if (s4'.part p).job.opened = some step then s4'
         else ((s4'.body p).groups.foldl (fun a d => a.openGroup p step.toNat d) s4').modJob p (fun j => { j with opened := some step })
       (s.body p).groups.foldl (fun a d => (s.ownedBy p c.val d).foldl (fun b t => b.openOwned p step.toNat d t) a) s5)) ∧
  (∀ (c : CoreId) (i0 i1 i2 : BitVec 32) (s : State), (s.core c.val).stepDone = true → s.coreStopped c.val = false →
    exec (.stepEnd c i0 i1 i2) s = .next
      (let k := s.core c.val
       let p := s.partOfCore c.val
       let k1 := ((k.closeEngine 0 i0.toNat).closeEngine 1 i1.toNat).closeEngine 2 i2.toNat
       let k2 := (k1.writeLog k1.stepEndRecord).modReport (fun r => { r with
         status := {}, inStep := false, ended := true, ends := r.ends ++ [{ k.stepCounts with variant := (s.part p).job.variant }] })
       let s1 := ((s.setCore c.val k2).commitLog c.val).modJob p (fun x => { x with
         stepStatus := x.stepStatus.mod 0 k.report.step.toNat (fun y => y ||| k1.report.status.bits) })
       let ended (q : Core) : Bool := (q.report.ended && decide (k.report.step ≤ q.report.step)) ||
         decide (k.report.step < q.report.step)
       if (s1.jobCores p).all (fun n => ended (s1.core n)) then s1.partStepEnd p k.report.step else s1))) ∧
  ((∀ (t : TowerId) (s : State),
    exec (.reportCompare t) s = .next ((List.range 16).foldl (fun a n => a.compareCore (16 * t.val + n)) s)) ∧
  (∀ (s : State) (c : Nat), let k := s.core c
    let last := (s.part (s.partOfCore c)).jcp.step
    let ended := k.report.ends.filter (fun n => decide (n.step ≤ last) && !decide (last = BitVec.allOnes 64))
    (s.part (s.partOfCore c)).job.reportLoaded = true → ended ≠ [] →
    s.compareCore c =
      (let recs := s.logUnread c
       let read := (recs.filter (fun e => ended.any (fun n => e.step = n.step.setWidth 32))).length
       ended.foldl (fun a n => a.compareStep c recs n) (s.modCore c (fun q => q.modReport (fun r => { r with
         logRd := r.logRd + BitVec.ofNat 32 read, ends := r.ends.filter (fun n => !ended.contains n) }))))) ∧
  (∀ (s : State) (c : Nat) (recs : List LogRec) (n : StepCounts) (e : ReportStep),
    let job := (s.part (s.partOfCore c)).job
    let mine := recs.filter (fun e => e.step = n.step.setWidth 32)
    job.report.find? (fun e => decide (e.step = n.step) && decide (e.core.toNat = logicalCore job.quads c) &&
      decide (e.variant = n.variant)) = some e →
    e.predicted = true → mine.any (fun r => r.status.getLsbD 11) = false → mine.any (fun r => decide (r.engine = 3)) = true →
    s.compareStep c recs n =
      (match divergence ((job.stepStatus.get 0 n.step.toNat).getLsbD 0) n
           (fun q => job.portSent.get 0 (2 ^ 16 * q + n.step.toNat % 2 ^ 16)) e mine with
       | some x => s.diverge c n.step x
       | none => { s with gh := { s.gh with diverged := s.gh.diverged.set 0 c 0 } })))

/-- A write of STR.ARM activates the descriptor of an idle enabled context, or enters the shadow of an active one (R164,
R165). The core's sequencer arms the context that the next entry of its arm list names once that takes the descriptor
(R152). A shadow descriptor becomes active once the active one has completed. STR.ENABLE enables, and takes a DISABLED
context to IDLE; it is refused while DISABLING. A disable request drains or abandons as its mode says (R166). STR.RESUME
reloads a save area that reads without a fault, of a context HALTED on a resumable fault, and issues the remainder first
(R169). Each result is the whole next state. -/
def Obligations.StreamControlCompletes : Prop :=
  (∀ (k : CtxKey) (addr : BitVec 64) (s : State), (s.ctx k.val).state = .idle → (s.ctx k.val).enable = true →
    (s.ctx k.val).active = 0 → (s.ctx k.val).shadow = 0 → s.ctxStopped k.val = false →
    exec (.strArm k (some addr)) s = .next (s.activate k.val addr)) ∧
  (∀ (k : CtxKey) (addr : BitVec 64) (s : State), (s.ctx k.val).active ≠ 0 → (s.ctx k.val).shadow = 0 →
    (s.ctx k.val).state ≠ .disabling → (s.ctx k.val).state ≠ .disabled →
    exec (.strArm k (some addr)) s = .next (s.setCtx k.val { s.ctx k.val with shadow := addr })) ∧
  (∀ (k : CtxKey) (c : Nat) (i : Fin 6) (addr : BitVec 64) (rest : List (Fin 6 × BitVec 64)) (s : State),
    ctxCore k.val = some c → (s.core c).lists.arms = (i, addr) :: rest → 6 * c + i.val = k.val → s.coreIssues c = true →
    (s.ctx k.val).takesArm = true →
    exec (.strArm k none) s = .next (armWrite k addr (s.modCore c (fun q => q.modLists (fun l => { l with arms := rest }))))) ∧
  (∀ (k : CtxKey) (s : State), (s.ctx k.val).state = .idle → (s.ctx k.val).enable = true → (s.ctx k.val).active = 0 →
    (s.ctx k.val).shadow ≠ 0 → s.ctxStopped k.val = false →
    exec (.descriptorActivate k) s = .next
      ((s.activate k.val (s.ctx k.val).shadow).modCtx k.val (fun y => { y with shadow := 0 }))) ∧
  (∀ (k : CtxKey) (s : State), (s.ctx k.val).state ≠ .disabling →
    exec (.strEnable k) s = .next
      (let x := s.ctx k.val
       if x.state = .disabled then s.setCtx k.val { x with enable := true, state := .idle }
       else s.setCtx k.val { x with enable := true })) ∧
  (∀ (k : CtxKey) (abandon : Bool) (s : State),
    exec (.strDisableReq k abandon) s = .next
      (let x : Ctx := { s.ctx k.val with disableMode := abandon }
       (s.setCtx k.val (if abandon then x.abandon else x.drainReq)).settleWindows)) ∧
  (∀ (k : CtxKey) (s : State), (s.ctx k.val).state = .halted → resumable (s.ctx k.val).faultCode.toNat = true →
    (s.ctx k.val).saveTrusted = true → s.ctxStopped k.val = false →
    s.readFault (s.ctxPart k.val) (s.ctx k.val).desc.saveArea.toNat 256 = none →
    exec (.strResume k) s = .next
      (let x := s.ctx k.val
       let v := SaveArea.ofNat (ofBytes (s.jobBytes (ctxTower k.val) x.desc.saveArea.toNat 256))
       let after := x.deliverPos + (if v.mergeValid then v.mergeLen else 0)
       let s1 := s.setCtx k.val { x with
         state := .running, gen := v.gen, issued := [], merge := none, settled := false,
         emitPos := after, covers := coversOf after v.doneMask v.issuedLen }
       if v.mergeValid then
         s1.issueReq k.val { addr := BitVec.ofNat 64 v.mergeAddr, dst := x.copyDst, len := v.mergeLen, pos := x.deliverPos,
                             after := v.gen }
       else s1))

/-- While its clock runs, and once the responses that waited for the clock are in (R33), a running context whose next
word is one of these executes it. LOOPB sets its counter's index to 0 and its limit
by mode, and jumps past its LOOPE where the limit is 0. LOOPE counts and jumps back below its limit. STRIDE adds the
shifted immediate to its address register. ADD writes the mode's sum. SKIP passes over k words where the shifted index
has reached the length. The generator then
stands at its new word; a program that has ended so has its merge buffer issued, and the context completes once its
requests have retired (R158). Each result is the whole next state. -/
def Obligations.GeneratorInstructionsComplete : Prop :=
  (∀ (k : CtxKey) (s u : State), u = s.wake k.val → s.ctxStopped k.val = false → (u.ctx k.val).at 1 = true →
    exec (.loopb k) s = .next
      (let x := u.ctx k.val
       let w := x.word
       let d := bitsAt w 25 3
       let lim := match bitsAt w 23 2 with
         | 0 => bitsAt w 0 19
         | 1 => lenShift x.gen.len (bitsAt w 19 4)
         | _ => lenShift x.gen.plen (bitsAt w 19 4)
       let g : Gen := { x.gen with dims := listSet x.gen.dims d (0, BitVec.ofNat 32 lim) }
       let g1 := if lim = 0 then (match x.loopeAfter x.gen.pc d with | some i => g.goto (i + 1) | none => g.goto 16)
         else g.goto (x.gen.pc + 1)
       u.genTo k.val g1)) ∧
  (∀ (k : CtxKey) (s u : State), u = s.wake k.val → s.ctxStopped k.val = false → (u.ctx k.val).at 2 = true →
    exec (.loope k) s = .next
      (let x := u.ctx k.val
       let w := x.word
       let d := bitsAt w 25 3
       let i1 := (x.gen.dim d).1 + 1
       let l := (x.gen.dim d).2
       let g : Gen := { x.gen with dims := listSet x.gen.dims d (i1, l) }
       let g1 := if i1 < l && !(w.testBit 24 && x.gen.plLast) then g.goto (bitsAt w 0 4) else g.goto (x.gen.pc + 1)
       u.genTo k.val g1)) ∧
  (∀ (k : CtxKey) (s u : State), u = s.wake k.val → s.ctxStopped k.val = false → (u.ctx k.val).at 3 = true →
    exec (.strStride k) s = .next
      (let x := u.ctx k.val
       let a := bitsAt x.word 25 3
       let v := x.gen.reg a + (BitVec.ofInt 64 (signedOf 21 x.word) <<< bitsAt x.word 21 4)
       u.genTo k.val ((x.gen.setReg a v).goto (x.gen.pc + 1)))) ∧
  (∀ (k : CtxKey) (s u : State), u = s.wake k.val → s.ctxStopped k.val = false → (u.ctx k.val).at 4 = true →
    exec (.strAdd k) s = .next
      (let x := u.ctx k.val
       let w := x.word
       let b := x.gen.reg (bitsAt w 22 3)
       let c := x.gen.reg (bitsAt w 19 3)
       let m := bitsAt w 17 2
       let v := if m = 0 then b + c else if m = 1 then b - c
         else if m = 2 then b + c * ((x.gen.dim (bitsAt w 14 3)).1.setWidth 64) else b
       u.genTo k.val ((x.gen.setReg (bitsAt w 25 3) v).goto (x.gen.pc + 1)))) ∧
  (∀ (k : CtxKey) (s u : State), u = s.wake k.val → s.ctxStopped k.val = false → (u.ctx k.val).at 6 = true →
    exec (.strSkip k) s = .next
      (let x := u.ctx k.val
       let w := x.word
       let l := if bitsAt w 23 2 = 1 then x.gen.len else x.gen.plen
       let n := if l.toNat ≤ (x.gen.dim (bitsAt w 25 3)).1.toNat * 2 ^ bitsAt w 19 4 then bitsAt w 0 4 else 0
       u.genTo k.val (x.gen.goto (x.gen.pc + 1 + n))))

/-- With nothing outstanding and an empty merge buffer, END ends the program. PLFETCH and BFETCH first issue one read at
their address register, in any space, for which the context waits (R157). With its bytes there, PLFETCH loads the entry
into the bases, PLEN and the flags, skips where the entry is invalid, and the lead context hands the entry to the
sequencer where its operator is at the head of the pass list; BFETCH loads the word into LEN, a bound register with its
valid bit, or both. TWAIT consumes its token and goes on, or ends the program at TOK.SEL 1. Each result is the whole
next state. -/
def Obligations.SerialisingInstructionsComplete : Prop :=
  (∀ (k : CtxKey) (s u : State), u = s.wake k.val → s.ctxStopped k.val = false →
    (u.ctx k.val).at 0 = true → (u.ctx k.val).drained = true →
    exec (.endProgram k) s = .next
      (let x := u.ctx k.val
       (u.setCtx k.val (x.stepTo { x.gen with ended := true })).settleWindows)) ∧
  (∀ (k : CtxKey) (s u : State) (r : StrReq), let x := u.ctx k.val
    u = s.wake k.val → s.ctxStopped k.val = false → (x.at 7 = true ∨ x.at 8 = true) → x.issued = [] → x.merge = none →
    r = { addr := x.gen.reg (bitsAt x.word 25 3), len := if x.at 7 then 32 else 4, pos := x.emitPos, serial := true,
          after := x.gen } →
    (if x.at 7 then exec (.plfetch k) s else exec (.bfetch k) s) = .next
      (let s1 := u.issueReq k.val r
       if x.state = .running then s1.modCtx k.val (fun y => { y with state := .serialWait }) else s1)) ∧
  (∀ (k : CtxKey) (s u : State) (bs : List Byte), let x := u.ctx k.val
    let a := bitsAt x.word 25 3
    let adr := x.gen.reg a
    let e := PlEntry.ofBytes bs
    u = s.wake k.val → s.ctxStopped k.val = false → x.at 7 = true → x.fetched = some bs →
    (∀ c, ctxCore k.val = some c → x.desc.plLead = true → (u.core c).lists.plPending = none ∧
      ∃ o os, (u.core c).lists.ops = o :: os ∧ o.reportOp = x.desc.operator) →
    exec (.plfetch k) s = .next
      (let b := bitsAt x.word 22 3
       let g1 := (((x.gen.setReg a (adr + 32)).setReg b e.inputBase).setReg (b + 1) e.weightBase).setReg (b + 2) e.outputBase
       let g2 : Gen := { g1 with plen := e.length, plLast := e.last, plValid := e.valid }
       let y : Ctx := { x with issued := [] }
       let s1 := (u.setCtx k.val (y.stepTo (g2.goto (x.gen.pc + 1 + (if e.valid then 0 else bitsAt x.word 0 4))))).settleWindows
       match ctxCore k.val, x.desc.plLead with
       | some c, true => s1.modCore c (fun z => z.modLists (fun l => { l with plPending := some e }))
       | _, _ => s1)) ∧
  (∀ (k : CtxKey) (s u : State) (bs : List Byte), let x := u.ctx k.val
    u = s.wake k.val → s.ctxStopped k.val = false → x.at 8 = true → x.fetched = some bs →
    exec (.bfetch k) s = .next
      (let v : BitVec 32 := BitVec.ofNat 32 (ofBytes bs)
       let n := bitsAt x.word 20 3
       let g : Gen := if bitsAt x.word 23 2 = 1 then x.gen else { x.gen with len := v }
       let y : Ctx := { x with issued := [] }
       let s1 := (u.setCtx k.val (y.stepTo (g.goto (x.gen.pc + 1)))).settleWindows
       match ctxCore k.val with
       | some c =>
         if bitsAt x.word 23 2 = 0 then s1
         else s1.modCore c (fun q => { q with bnd := q.bnd.set 0 n v, bndValid := q.bndValid ||| BitVec.ofNat 8 (2 ^ n) })
       | none => s1)) ∧
  (∀ (k : CtxKey) (s u : State) (c : Nat) (t : QTile), let x := u.ctx k.val
    let e := bitsAt x.word 23 5
    let sel := (tokenOf ((u.core c).tileBytes c e t)).2
    u = s.wake k.val → s.ctxStopped k.val = false →
    x.at 9 = true → x.drained = true → ctxCore k.val = some c → (u.core c).present e = some t → sel < 2 →
    exec (.twait k) s = .next
      (let g := if sel = 1 then { x.gen with ended := true } else x.gen.goto (x.gen.pc + 1)
       ((u.freeTile c e).modCtx k.val (fun y => y.stepTo g)).settleWindows))

/-- EMIT forms one request at its address register, advances the register where asked, and: a small request of a core
context enters an empty merge buffer, joins the one it continues (counted in the merge count), or has the buffer issue
first and starts a new one; any other request issues, after the buffer where that holds one. A program that has so
moved past its last word has the buffer issued (R158). A hold that expires issues the buffer. Each result is the whole
next state. -/
def Obligations.EmitCompletes : Prop :=
  (∀ (k : CtxKey) (s u : State), let x := u.ctx k.val
    let a := bitsAt x.word 25 3
    let len := bitsAt x.word 0 12 + 1
    let adr := x.gen.reg a
    let dst := if x.desc.kind.isCopy then x.gen.reg (a + 1) else 0
    let n64 : BitVec 64 := BitVec.ofNat 64 len
    let g0 := if x.word.testBit 24 then
        (let g1 := x.gen.setReg a (adr + n64)
         if x.desc.kind.isCopy then g1.setReg (a + 1) (dst + n64) else g1)
      else x.gen
    let g := g0.goto (x.gen.pc + 1)
    let r : StrReq := { addr := adr, dst := dst, len := len, pos := x.emitPos, after := g }
    let small := decide (len < 256) && decide (0 < x.desc.mergeHold) && (ctxCore k.val).isSome &&
      x.covers.all (fun c => decide (c.stop ≤ x.emitPos))
    let moved (y : Ctx) : Ctx := { y with gen := g, emitPos := x.emitPos + len }
    u = s.wake k.val → s.ctxStopped k.val = false →
    x.at 5 = true → (x.merge = none → small = false → u.mayIssue k.val r = true) →
    (∀ m, x.merge = some m → (small = false ∨ joins m r = false) → u.mayIssue k.val m = true) →
    exec (.emit k) s = .next
      (let s1 := match small, x.merge with
         | true, none => u.setCtx k.val (moved { x with merge := some r })
         | true, some m =>
           if joins m r then
             let s1 := u.setCtx k.val (moved { x with merge := some { m with len := m.len + len, after := g } })
             match ctxCore k.val with
             | some c => s1.modCore c (fun q => { q with mergeCount := q.mergeCount + 1 })
             | none => s1
           else (u.flushMerge k.val).modCtx k.val (fun y => moved { y with merge := some r })
         | false, some _ =>
           let s1 := u.flushMerge k.val
           let y := s1.ctx k.val
           if s1.mayIssue k.val r then (s1.setCtx k.val (moved y)).issueReq k.val r else s1
         | false, none => (u.setCtx k.val (moved x)).issueReq k.val r
       if (s1.ctx k.val).gen.ended then s1.pastEnd k.val else s1)) ∧
  (∀ (k : CtxKey) (s u : State), u = s.wake k.val → s.ctxStopped k.val = false →
    ((u.ctx k.val).runs = true ∨ (u.ctx k.val).gen.ended = true) →
    exec (.mergeHoldExpire k) s = .next (u.flushMerge k.val))

/-- The oldest request that may retire does so once its bytes have arrived or its writes are acknowledged, and, for the
last write of a descriptor to a host window, once the hub has read back (R177), with DESC.RELEASE = 1 no earlier than
cycle DESC.REL_BASE + i × DESC.REL_PERIOD of its step (R161, R175): its bytes enter the region and the delivery position
moves on, bytes of a core context that came after that cycle count as late (R161), a merge buffer that has waited for it
issues (R158), and the context may complete. The result is the whole next state. -/
def Obligations.RequestRetireCompletes : Prop :=
  ∀ (k : CtxKey) (now arrived : Nat) (s u : State) (r : StrReq) (rest : List StrReq),
    let x := u.ctx k.val
    u = s.wake k.val → s.ctxStopped k.val = false →
    x.issued = r :: rest → x.mayRetire r = true →
    (x.desc.release = true → x.desc.relBase + r.index * x.desc.relPeriod ≤ now) →
    (x.state = .running ∨ x.state = .serialWait ∨ x.state = .disabling) →
    exec (.requestRetire k now arrived) s = .next
      (let s1 := (u.retireOne k.val r rest).countLate k.val (decide (x.desc.relBase + r.index * x.desc.relPeriod < arrived))
       let s2 := if x.gen.ended then s1.flushMerge k.val else s1
       (s2.modCtx k.val Ctx.complete).settleWindows)

/-- A timeout marks its far-tier or host request TIMEOUT and halts the context (R178); a fault response marks its
request with the refusal it met on its way, else with its code, and halts the context (R167). Once every request has
completed or faulted, the completed ones before the oldest fault retire with its delivered part. A settle that lasts
too long counts what is outstanding as TIMEOUT. The save area written, the context is HALTED and its fault acts by its
class (R170). Each result is the whole next state. At a member of an enabled ring of two or more whose pass list has
passed the last pass that reads the current half, and whose chunk is sent and received, RING.HALF inverts, RING.PERIODS
advances by 1, a chunk is taken off what was sent and received, and nothing else changes (R174). -/
def Obligations.StreamFaultsAndRingPeriodComplete : Prop :=
  ((∀ (k : CtxKey) (i : Fin 32) (s u : State) (r : StrReq), let x := u.ctx k.val
    u = s.wake k.val → s.ctxStopped k.val = false →
    x.issued[i.val]? = some r → r.fault = none → r.completed x.desc.kind = false →
    (r.addr.toNat / 2 ^ 60 = 1 ∨ r.addr.toNat / 2 ^ 60 = 2 ∨
      (x.desc.kind.isCopy = true ∧ (r.dst.toNat / 2 ^ 60 = 1 ∨ r.dst.toNat / 2 ^ 60 = 2))) →
    exec (.requestTimeout k i) s = .next
      (let e := r.lateSide x.desc.kind
       ((u.setCtx k.val { x with issued := listSet x.issued i.val { r with
         fault := some 0x0604, faultAddr := BitVec.ofNat 64 e.1, faultDst := e.2, refused := none } }).haltCtx
         k.val 0x0604 e.1).settleWindows)) ∧
  (∀ (k : CtxKey) (i : Fin 32) (code : Fin 8) (addr : BitVec 64) (s u : State) (r : StrReq), let x := u.ctx k.val
    u = s.wake k.val → s.ctxStopped k.val = false →
    x.issued[i.val]? = some r → r.fault = none → r.completed x.desc.kind = false → r.refused = none → code.val ≠ 0 →
    exec (.streamFault k i code addr) s = .next
      (let r1 : StrReq := { r with fault := some (BitVec.ofNat 16 (0x0600 + code.val)), faultAddr := addr,
                                   faultDst := false }
       ((u.setCtx k.val { x with issued := listSet x.issued i.val r1 }).haltCtx k.val (0x0600 + code.val) addr.toNat).settleWindows)) ∧
  (∀ (k : CtxKey) (i : Fin 32) (code : Fin 8) (addr : BitVec 64) (s u : State) (r : StrReq) (q : BitVec 16)
    (a : BitVec 64) (d : Bool), let x := u.ctx k.val
    u = s.wake k.val → s.ctxStopped k.val = false →
    x.issued[i.val]? = some r → r.fault = none → r.completed x.desc.kind = false → r.refused = some (q, a, d) →
    exec (.streamFault k i code addr) s = .next
      (let r1 : StrReq := { r with fault := some q, faultAddr := a, faultDst := d, refused := none }
       ((u.setCtx k.val { x with issued := listSet x.issued i.val r1 }).haltCtx k.val q.toNat a.toNat).settleWindows)) ∧
  (∀ (k : CtxKey) (now : Nat) (arrived : List Nat) (s u : State), let x := u.ctx k.val
    u = s.wake k.val → s.ctxStopped k.val = false →
    x.state = .halting → x.settled = false →
    x.issued.all (fun r => r.fault.isSome || r.completed x.desc.kind) = true →
    x.settling.any (fun r => x.beforeRelease r now) = false → x.partEarly now = false →
    x.settleBack x.settling.length = false →
    exec (.haltSettleDone ⟨k, now, arrived⟩) s = .next
      (let s1 := u.retirePrefix k.val ((List.range x.issued.length).map (fun i => arrived.getD i 0))
       let y := s1.ctx k.val
       let s2 := match y.issued with
         | r :: _ =>
           let d := r.delivered y.desc.kind
           let s2 := match ctxCore k.val with
             | some c => if y.desc.kind.isIn && !r.serial then s1.deliverTo c y.desc r.pos (r.bytes.take d) else s1
             | none => s1
           (s2.countLate k.val (decide (0 < d) && decide (y.releaseOf r < arrived.getD x.settling.length 0))).modCtx k.val
             (fun z => { z with deliverPos := r.pos + d, copyDst := r.dst + BitVec.ofNat 64 d })
         | [] => s1
       s2.modCtx k.val (fun z => { z with settled := true }))) ∧
  (∀ (k : CtxKey) (s u : State), let x := u.ctx k.val
    u = s.wake k.val → s.ctxStopped k.val = false →
    x.state = .halting → x.settled = false →
    exec (.settleTimeout k) s = .next
      (u.setCtx k.val { x with issued := x.issued.map (fun r =>
        if r.fault.isSome || r.completed x.desc.kind then r
        else { r with fault := some 0x0604, faultAddr := BitVec.ofNat 64 (r.lateSide x.desc.kind).1,
                      faultDst := (r.lateSide x.desc.kind).2, refused := none }) })) ∧
  (∀ (k : CtxKey) (ok : Bool) (s u : State), let x := u.ctx k.val
    let p := u.ctxPart k.val
    let t := ctxTower k.val
    let area := x.desc.saveArea.toNat
    let meets := match u.translate t area with
      | some pl => (u.frame pl.tower pl.g).access (BitVec.ofNat 2 p) (BitVec.ofNat 27 (area / 2 ^ 21)) true
      | none => .protection
    u = s.wake k.val → s.ctxStopped k.val = false →
    x.state = .halting → x.settled = true → (ok = true → meets ≠ .held) →
    exec (.saveAreaWritten k ok) s = .next
      (let ok' := ok && decide (meets = .served)
       let step := match ctxCore k.val with | some c => (u.core c).report.step.toNat | none => ((u.part p).jcp.step + 1).toNat
       let s1 := if ok' then ((u.poisonedIn p [(area, 256)]).foldl (fun a b => a.writeOver [(area, 256)] b) u).jobWrite t area
           (bytesOf (x.saveArea step).toNat 256) else u
       let code := x.faultCode.toNat
       let lost := !ok' || !resumable code
       let y : Ctx := { x with state := .halted, saveTrusted := ok', issued := [], placed := x.placedBytes,
                               lastResult := if lost then 3 else x.lastResult }
       let s2 := (s1.setCtx k.val (if x.disableReq then y.abandon else y)).settleWindows
       let v := ctxUnit k.val
       let r : Report1 := { code := code, kind := v.1, unit := v.2.1, detail := v.2.2, info := x.faultAddr.toNat, part := some p }
       if code = 0x0607 then s2.hwError r (u.inPlan p (x.faultAddr.toNat / 2 ^ 21) || u.ownerPage p (x.faultAddr.toNat / 2 ^ 21))
       else if lost then s2.programFault r else s2.logError r))) ∧
  (∀ (c : CoreId) (s : State), let k := s.core c.val
    s.coreStopped c.val = false →
    k.ring.en = true → 2 ≤ k.ring.size.toNat → k.ring.chunk ≤ k.ring.sent → k.ring.chunk ≤ k.ring.got →
    k.lists.halfPassed k.ring.half = true → exec (.ringPeriodEnd c true) s = .next
      (s.setCore c.val { k with ring := { k.ring with half := !k.ring.half, periods := k.ring.periods + 1,
                                                      sent := k.ring.sent - k.ring.chunk, got := k.ring.got - k.ring.chunk } }))

/-- With no snapshot point due, TENSOR_SHIFT_UPDATE computes a managed tensor's shift for the step after next from its
saturation counts (one that it owes for the step before comes first), clears that step's entries and last writes
TSC.STEP, where its page is writable (R192). ADAMW_UPDATE at an issuing core, for a COMPLETE tile whose gradients are
formed, whose memory is writable and beside which no gradient of a stopping region is missing or bad, updates the tile
(its finite blocks, working copies, broadcast and ride data, and the owner record DONE, as State.updateTile says),
charges the vector unit and removes the entry and the gradients (R204 to R207, R235). Where a stopping region's gradient
is not finite it stops the job instead, with nothing written (R206). Each result is the whole next state. -/
def Obligations.TrainingCommandsComplete : Prop :=
  (∀ (p : PartId) (k : Nat) (s : State) (m : Managed), (s.body p.val).managed[k]? = some m →
    let ended := (s.part p.val).jcp.step
    let behind := decide (s.tscStep p.val m = ended.toNat) && decide (ended + 1 ≠ (s.part p.val).job.latched.startStep)
    let last := if behind then ended - 1 else ended
    let next := (last + 2).toNat
    (s.part p.val).jcp.state.inJob = true → (s.part p.val).job.snapDue = none → s.tscStep p.val m < next →
    s.mayAccess p.val [(m.addr.toNat, 192)] = true →
    exec (.tensorShiftUpdate p k) s = .next
      (let a := m.addr.toNat
       let sat := (List.range 16).map (fun n => s.jobNat p.val (a + 128 + 4 * n) 4)
       let shift := nextShift (s.tscShift p.val m) sat last.toNat (s.jobNat p.val (a + 52) 4)
       ((((s.readShifts p.val m).setJobNat p.val a 1 (s.jobNat p.val a 1 / 4 * 4 + shift)).setJobNat p.val (a + 128 + 4 * (next % 16)) 4
         0).setJobNat p.val (a + 64 + 4 * (next % 16)) 4 0).setJobNat p.val (a + 56) 8 next)) ∧
  (∀ (c : CoreId) (io : IssueIo) (s : State) (e : VecEntry) (rest : List VecEntry) (g : BitVec 8) (tile : BitVec 32)
    (d : GroupDesc) (gr : Grad) (n : Nat) (r : Region) (tl : Nat),
    let k := s.core c.val
    let p := s.partOfCore c.val
    let t := tile.toNat
    let step := k.report.step.setWidth 32
    k.lists.vecs = e :: rest → e.op = .adamw g tile → s.groupOf p g.toNat = some d →
    k.grads.find? (fun x => decide (x.group = g.toNat) && decide (x.tile = t)) = some gr →
    regionOf d.regions 0 t = some (n, r, tl) → s.coreIssues c.val = true → (s.orec p d t).state = 1 →
    (∀ y ∈ s.stopTiles p, s.tileBad p step y = some false) →
    s.rangesRefused p c.tower (r.opt.ranges (4096 * tl) (r.opt.elems tl) ++ [(d.orAddr t, 32)]) = false →
    s.mayAccess p (r.opt.ranges (4096 * tl) (r.opt.elems tl) ++ [(d.orAddr t, 32)]) = true →
    exec (.adamwUpdate c io) s = .next
      (((((s.released c.val).updateTile p c.val d r t tl step (r.opt.blocks tl (s.gradWords c.val gr))).modCore c.val (fun q =>
        let k1 := ((q.countCe io.sramCe).engineHead 2 e.reportOp).charge 2 (16 * (if r.opt.wtBwd = 2 then 36 else 32))
          io.waitIn.toNat io.waitOut.toNat 0 1
        Core.vecHead { k1 with
          lists := { k1.lists with vecs := rest }
          grads := k1.grads.filter (fun y => !(decide (y.group = g.toNat) && decide (y.tile = t))) })).moveRegions c.val
            io.moves).commitLog c.val)) ∧
  (∀ (c : CoreId) (io : IssueIo) (s : State) (e : VecEntry) (rest : List VecEntry) (g : BitVec 8) (tile : BitVec 32)
    (d : GroupDesc) (gr : Grad) (n : Nat) (r : Region) (tl : Nat) (y : GroupDesc × Nat × Region × Nat)
    (before after : List (GroupDesc × Nat × Region × Nat)),
    let k := s.core c.val
    let p := s.partOfCore c.val
    let t := tile.toNat
    let step := k.report.step.setWidth 32
    k.lists.vecs = e :: rest → e.op = .adamw g tile → s.groupOf p g.toNat = some d →
    k.grads.find? (fun x => decide (x.group = g.toNat) && decide (x.tile = t)) = some gr →
    regionOf d.regions 0 t = some (n, r, tl) → s.coreIssues c.val = true → (s.orec p d t).state = 1 →
    s.stopTiles p = before ++ y :: after → s.tileBad p step y = some true →
    (∀ x ∈ before, s.tileBad p step x ≠ some true) →
    exec (.adamwUpdate c io) s = .next
      ((s.programFault (s.coreReport (s.ownerCore p y.1 y.2.1) 0x0702 0 y.2.1 4) 0x26).commitLog c.val))

/-- REDUCTION_ADD adds the oldest drained term into its combine tile, counts it, and opens its record (R213). REDRAIN
drains the outstanding rows at a byte 8 higher, or sets them non-finite beyond offset 24 or byte 254 (R214).
SLOT_RELEASE frees a HELD slot whose terms are all added (R78). TILE_CLOSE_REPORT reports the first closed tile that
has no term outstanding, unless the step is abandoned (R216, R221, R234). REDUCTION_ADD acts where no gate
on the way to the combine tile is closed, and each where its pages are writable and hold no poisoned line.
Each acts where the core's clock runs (R33), and a re-drain
where the drain port is free (R79). Each result is the whole next state. -/
def Obligations.ReductionPortCompletes : Prop :=
  (∀ (c : CoreId) (s : State) (i : Nat) (t : RedTerm) (d : GroupDesc), let p := s.partOfCore c.val
    let r := s.cr p t.record
    firstWhere (fun t => !t.applied) (s.core c.val).red = some (i, t) → s.groupOf p r.group = some d →
    s.coreStopped c.val = false →
    s.rangesRefused p c.tower [(s.crAddr p t.record, 16), (d.combineAddr r.tile 0, 32768), (d.headerAddr r.tile, 64)] = false →
    s.mayAccess p [(s.crAddr p t.record, 16), (d.combineAddr r.tile 0, 32768), (d.headerAddr r.tile, 64)] = true →
    exec (.reductionAdd c) s = .next
      (let s1 := s.addRows p (d.combineAddr r.tile 0) t.offset t.rows
       let h := s.ch p d r.tile
       let s2 := s1.setCh p d r.tile
         { count := h.count + bitOf (t.count && !t.counted)
           nonfinite := if t.rows.any (fun x => x.nonfinite && !x.done) && decide (h.nonfinite = 0) then 1 else h.nonfinite
           widened := max h.widened t.offset }
       let s3 := if r.state = 0 then s2.setCr p t.record { r with state := 1 } else s2
       s3.modCore c.val (fun q => q.putTerm i { t with
         applied := true, counted := true, rows := t.rows.map (fun x => { x with done := x.done || !x.miss }) }))) ∧
  (∀ (c : CoreId) (s : State) (i : Nat) (t : RedTerm) (j : Nat),
    firstWhere (fun t => t.applied && !t.done) (s.core c.val).red = some (i, t) → t.slot = some j →
    s.coreStopped c.val = false → (s.core c.val).drain = none →
    t.offset + 8 ≤ 24 → t.scale + (t.offset + 8) ≤ 254 →
    exec (.redrain c) s = .next
      (let k := s.core c.val
       let x := k.slot j
       let o := convertTile .int24 (fun m n => (x.entry (64 * m + n)).value t.bf16 (sint8 t.valueShift)) t.rowAxis false 0
         (t.scale + (t.offset + 8)) {} (fun _ _ => 0)
       let t1 : RedTerm := { t with offset := t.offset + 8, applied := false, rows := mergeRows t.rows o.rows }
       ((s.setCore c.val ((k.drainHead.charge 1 64 0 0 0 0).putTerm i t1)).setArith c.val o.flags.arith).markResend c.val)) ∧
  (∀ (c : CoreId) (s : State) (i : Nat) (t : RedTerm) (d : GroupDesc), let p := s.partOfCore c.val
    let r := s.cr p t.record
    firstWhere (fun t => t.applied && !t.done) (s.core c.val).red = some (i, t) →
    s.coreStopped c.val = false → (s.core c.val).drain = none →
    (t.slot = none ∨ 24 < t.offset + 8 ∨ 254 < t.scale + (t.offset + 8)) → s.groupOf p r.group = some d →
    s.rangesRefused p c.tower [(d.headerAddr r.tile, 64)] = false → s.mayAccess p [(d.headerAddr r.tile, 64)] = true →
    exec (.redrain c) s = .next
      (let h := s.ch p d r.tile
       (s.setCh p d r.tile { h with nonfinite := max h.nonfinite 1 }).modCore c.val (fun q =>
         q.putTerm i { t with rows := t.rows.map (fun x => { x with done := true }) }))) ∧
  (∀ (c : CoreId) (j : Fin 32) (s : State), let k := s.core c.val
    let mine := k.red.filter (fun t => decide (t.slot = some j.val))
    mine ≠ [] → (∀ t ∈ mine, t.done = true) → (k.slot j.val).state = .held → s.coreStopped c.val = false →
    exec (.slotRelease c j) s = .next
      (s.setCore c.val { k.setSlot j.val {} with red := k.red.filter (fun t => !decide (t.slot = some j.val)) })) ∧
  (∀ (c : CoreId) (s : State) (i : Nat) (step : BitVec 32) (rest : List (Nat × BitVec 32)), let k := s.core c.val
    let p := s.partOfCore c.val
    k.closes = (i, step) :: rest → (∀ t ∈ k.red, t.record = i → t.done = true) → s.coreStopped c.val = false →
    s.rangesRefused p c.tower [(s.crAddr p i, 16), (s.combineRange p i).1, (s.combineRange p i).2] = false →
    s.mayAccess p [(s.crAddr p i, 16), (s.combineRange p i).1, (s.combineRange p i).2] = true →
    exec (.tileCloseReport c) s = .next
      (let s1 := s.setCore c.val { k with closes := rest }
       if (s.part p).job.withdrawn.isSome || (s.part p).job.hold then s1 else s1.report p i step))

/-- An accepted SEGMENT is added into the owner's sum, its counts into the owner record, and the tile decided (R224). An
accepted NOTICE above the record's scale counts and raises the needed byte. At a member that has not withdrawn a RESCALE
reports a SENT or NOTICED tile again, or sets an OPEN record's scale and round (R225). MEMBER_REMOVAL applies a
membership change to a job (R229). WITHDRAW_STEP clears the reduction path (R234). A packet acts at the core that its
link die's run table names, where that core's clock runs. Each result is the whole next state. -/
def Obligations.OwnerAndMemberCommandsComplete : Prop :=
  (∀ (p : PartId) (i : Nat) (s : State) (pkt : Packet) (d : GroupDesc), let rc := Rc.ofBytes pkt.payload
    let t := rc.tile.toNat
    let o := s.orec p.val d t
    s.rxAt p.val i 2 = some pkt → s.groupOf p.val rc.group.toNat = some d → rc.kind = 0 → d.owns t = true →
    s.coreStopped (s.runAt p.val (s.linkDie (s.rxDie i)).ownerRuns rc.group.toNat t) = false →
    s.rangesRefused p.val (s.runAt p.val (s.linkDie (s.rxDie i)).ownerRuns rc.group.toNat t / 16) (State.ownerRanges d t) = false →
    s.mayAccess p.val (State.ownerRanges d t) = true → o.accepts rc = true →
    exec (.segmentReceive p i) s = .next
      (let zs := (List.range 1024).map (fun n => int24Of (elemOf .int24 (pkt.payload.drop 32) n))
       let k := rc.seg.toNat
       (((s.dropRx i).addRow p.val (d.sumAddr t (1024 * k)) 0 zs).setOrec p.val d t
         { o with seg := listSet o.seg k (o.seg.getD k 0 + rc.count.toNat), maxb := max o.maxb (maxBits zs),
                  nonfinite := o.nonfinite || rc.nonfinite, complete := o.complete + bitOf rc.last }).decideTile p.val d t)) ∧
  (∀ (p : PartId) (i : Nat) (s : State) (pkt : Packet) (d : GroupDesc), let rc := Rc.ofBytes pkt.payload
    let t := rc.tile.toNat
    let o := s.orec p.val d t
    s.rxAt p.val i 2 = some pkt → s.groupOf p.val rc.group.toNat = some d → rc.kind = 1 → d.owns t = true →
    s.coreStopped (s.runAt p.val (s.linkDie (s.rxDie i)).ownerRuns rc.group.toNat t) = false →
    s.rangesRefused p.val (s.runAt p.val (s.linkDie (s.rxDie i)).ownerRuns rc.group.toNat t / 16) (State.ownerRanges d t) = false →
    s.mayAccess p.val (State.ownerRanges d t) = true → o.accepts rc = true → o.scale < rc.scale.toNat →
    exec (.noticeReceive p i) s = .next
      (((s.dropRx i).setOrec p.val d t { o with notices := o.notices + 1, need := max o.need rc.scale.toNat }).decideTile
        p.val d t)) ∧
  (∀ (p : PartId) (i : Nat) (s : State) (pkt : Packet) (d : GroupDesc) (j : Nat), let rc := Rc.ofBytes pkt.payload
    let r := s.cr p.val j
    s.rxAt p.val i 2 = some pkt → rc.kind = 2 → s.groupOf p.val rc.group.toNat = some d →
    s.crOf p.val rc.group.toNat rc.tile.toNat = some j →
    s.rangesRefused p.val (s.homeCore p.val d rc.tile.toNat / 16)
      [(s.crAddr p.val j, 16), (s.combineRange p.val j).1, (s.combineRange p.val j).2] = false →
    s.mayAccess p.val [(s.crAddr p.val j, 16), (s.combineRange p.val j).1, (s.combineRange p.val j).2] = true →
    (s.part p.val).job.withdrawn = none → (s.part p.val).job.hold = false →
    s.coreStopped (s.homeCore p.val d rc.tile.toNat) = false →
    (r.state = 1 ∨ r.state = 2 ∨ r.state = 3) →
    exec (.rescaleReceive p i) s = .next
      (let s1 := ((s.dropRx i).released (s.homeCore p.val d rc.tile.toNat)).setCr p.val j { r with sendScale := rc.scale.toNat, round := rc.round.toNat }
       if r.state = 1 then s1
       else (s1.report p.val j rc.step).markResend (s.homeCore p.val d rc.tile.toNat))) ∧
  (∀ (p : PartId) (g : BitVec 8) (m : BitVec 12) (s : State) (d : GroupDesc), (s.part p.val).jcp.state.inJob = true →
    s.groupOf p.val g.toNat = some d → (s.route p.val g.toNat m.toNat).live = true →
    exec (.memberRemoval p g m) s = .next
      (let s1 := (s.logError { code := 0x0802, detail := m.toNat, info := g.toNat, part := some p.val }).jobEvent p.val 8
       if s.ownsAny p.val g.toNat m.toNat || decide (bitsAt (s.part p.val).job.latched.modes.toNat 2 2 = 1) then
         s1.rollbackHold p.val s.err.wr.toNat
       else
         let g0 := s1.gs p.val d
         let s2 := (s1.clearLive p.val g.toNat m.toNat).setGs p.val d { g0 with live := g0.live - 1 }
         ((List.range d.ownCount.toNat).map (fun i => d.ownFirst.toNat + i)).foldl (fun a t => a.afterRemoval p.val d t) s2)) ∧
  (∀ (p : PartId) (s : State), ((s.part p.val).job.withdrawn ≠ none ∨ (s.part p.val).job.hold = true) →
    exec (.withdrawStep p) s = .next (s.clearReduction p.val))

/-- A part of the step after its core's, or of that one while its generation is not complete, is written into the
generation of its step, with its scales; part 0 of the forward copy acknowledges the tile (R226); a backward copy that
is recast is formed at the last part; when the region's generation is complete its tokens are posted (R181). The core is
the one that the link die's run table names (R236), and its clock runs. The result is the whole next state. -/
def Obligations.ParamPartReceiveCompletes : Prop :=
  ∀ (p : PartId) (i : Nat) (s : State) (pkt : Packet) (d : GroupDesc) (n : Nat) (r : Region) (tl : Nat),
    let pb := Pb.ofBytes pkt.payload
    let t := pb.tile.toNat
    let c := s.runAt p.val (s.linkDie (s.rxDie i)).homeRuns pb.group.toNat t
    let step := (s.core c).report.step.setWidth 32
    let e := r.place (pb.step.toNat % 2) tl pb.part.toNat pb.copy
    let first := !pb.copy && decide (pb.part = 0)
    let cr := match s.crOf p.val d.id.toNat t with | some j => [(s.crAddr p.val j, 16)] | none => []
    s.rxAt p.val i 3 = some pkt → s.groupOf p.val pb.group.toNat = some d → regionOf d.regions 0 t = some (n, r, tl) →
    s.coreStopped c = false → (pb.step = step + 1 ∨ (pb.step = step ∧
      (s.part p.val).job.genParts.get 0 ((d.id.toNat * 2 ^ 16 + n) * 2 ^ 32 + step.toNat) ≠ r.partsOfGen)) →
    s.rangesRefused p.val (c / 16) ((if first then cr else []) ++ [] ++
      ([(e.1, 2048)] ++ (if r.opt.workFmt = 1 then [] else [(e.2, 64)]) ++
        (if first && !cr.isEmpty then [(d.combineAddr t 0, 32768), (d.headerAddr t, 64)] else []) ++
        r.recastRanges (pb.step.toNat % 2) tl pb)) = false →
    s.mayAccess p.val ((if first then cr else []) ++ [] ++
      ([(e.1, 2048)] ++ (if r.opt.workFmt = 1 then [] else [(e.2, 64)]) ++
        (if first && !cr.isEmpty then [(d.combineAddr t 0, 32768), (d.headerAddr t, 64)] else []) ++
        r.recastRanges (pb.step.toNat % 2) tl pb)) = true →
    exec (.paramPartReceive p i) s = .next
      (let body := pkt.payload.drop 32
       let s0 := if first then (s.dropRx i).released c else s.dropRx i
       let s1 := s0.jobWrite (s.someTower p.val) e.1 (body.take 2048)
       let s2 := if r.opt.workFmt = 1 then s1 else s1.jobWrite (s.someTower p.val) e.2 ((body.drop 2048).take 64)
       let s3 := if first then s2.ackTile p.val d t pb.nextScale.toNat else s2
       let s4 := if r.recasts pb then s3.recast p.val c r (pb.step.toNat % 2) tl else s3
       let key := (d.id.toNat * 2 ^ 16 + n) * 2 ^ 32 + pb.step.toNat
       let got := (s4.part p.val).job.genParts.get 0 key + 1
       if got < r.partsOfGen then s4.modJob p.val (fun j => { j with genParts := j.genParts.set 0 key got })
       else
         r.tokens.foldl (fun a k => a.sendToken p.val c (pb.step.setWidth 16) k)
           (s4.modJob p.val (fun j => { j with
             genParts := FMap.set 0 (j.genParts.filter (fun e => decide (pb.step.toNat ≤ e.1 % 2 ^ 32 + 1))) key got })))

/-- CHANNEL_REQUEST of a stream piece or of a core's line request, from a source with no refused request at the channel,
is served where the frame's outcome is served (R239, R245), the piece then being with its channel; a part of a request
in the far tier or a host window is written and acknowledged, or read (R175 to R177), the hub sends a request to the
host (R315), and its read back behind a request's last write ends (R177). A port's request and MEMSIDE_OP reach a
channel whose clock runs by a route that crosses no closed gate (R28, R33). MEMSIDE_OP, in space 0 on a line neither
poisoned nor uncorrectable writes the operation's line and nothing else but the line's corrected count (R257, R258).
RETRY_RESEND of the oldest refused request, where it is now served, serves it and removes it from the refused requests
(R248). Each result is the whole next state. -/
def Obligations.RequestsServed : Prop :=
  (∀ (k : CtxKey) (i : Fin 32) (o : Nat) (w : Bool) (f : LineFound) (s : State) (c : Nat) (r : MemReq),
    let s1 := s.modCtx k.val (fun x => x.reached i.val o w)
    s.pieceOf k.val i.val o w = some (c, r) → (s1.chan c).refused.filter (fun x => decide (x.src.source = r.src.source)) = [] →
    s1.outcome (chanTower c) r = .served → exec (.channelRequest (.stream k i o w) f) s = .next (s1.serve c r f)) ∧
  (∀ (k : CtxKey) (i : Fin 32) (second w : Bool) (host : List Byte) (f : LineFound) (s : State) (r : StrReq),
    let x := s.ctx k.val
    let p := s.ctxPart k.val
    let dst := x.onDst r w
    let cut := partCut (r.side dst) r.len
    let off := if second then cut else 0
    let n := if second then r.len - cut else cut
    let b := r.side dst + off
    let sent := if b / 2 ^ 60 = 2 then s.hostSend k.val i.val else s
    x.issued[i.val]? = some r → n ≠ 0 → (b / 2 ^ 60 = 1 ∨ b / 2 ^ 60 = 2) → r.already = false → r.dead dst off = false →
    x.sends r w = true → s.ctxHolds k.val i.val = false → (b / 2 ^ 60 = 1 → s.farFault p b w = none ∧ (w = false → f ≠ .bad)) →
    (w = true → r.acked.any (fun q => decide (q.1 = off)) = false → x.externalTurn i.val off dst = true →
      (x.desc.kind.isCopy = true → ∀ j < n, (r.data.get none (off + j)).isSome = true) →
      exec (.channelRequest (.external k i second w host) f) s = .next
        (((sent.extWrite p b (if x.desc.kind.isCopy then (r.bytes.drop off).take n else match ctxCore k.val with
          | some c => (s.core c).regionBytes c x.desc (r.pos + off) n
          | none => [])).respond k.val { pos := r.pos, off := off, answer := .ack n }).settleWindows)) ∧
    (w = false → r.data.get none off = none → (b / 2 ^ 60 = 2 → host.length = n) →
      exec (.channelRequest (.external k i second w host) f) s = .next
        ((sent.respond k.val { pos := r.pos, off := off, answer := .data (s.extRead p b n host) }).settleWindows))) ∧
  (∀ (k : CtxKey) (i : Fin 32) (f : LineFound) (s : State) (r : StrReq), let x := s.ctx k.val
    x.issued[i.val]? = some r → x.writesHost r = true → (r.acked.map Prod.snd).sum = r.len → s.ctxStopped k.val = false →
    exec (.channelRequest (.readBack k i) f) s = .next
      (s.setCtx k.val { x with issued := listSet x.issued i.val { r with backed := true } })) ∧
  (∀ (k : CtxKey) (i : Fin 32) (f : LineFound) (s : State) (r : StrReq), (s.ctx k.val).issued[i.val]? = some r →
    exec (.channelRequest (.hostSend k i) f) s = .next (s.modCtx k.val (fun x =>
      match x.issued[i.val]? with
      | some r => { x with issued := listSet x.issued i.val { r with sent := true } }
      | none => x))) ∧
  (∀ (c : CoreId) (a : BitVec 48) (act : MemAct) (f : LineFound) (s : State) (k : Nat) (r : MemReq),
    s.reqFor c.tower (s.partOfCore c.val) a.toNat (.port c.val) act = some (k, r) →
    s.chanStopped k = false → s.coreStopped c.val = false → s.gateRefuses c.tower (chanTower k) = false →
    (s.chan k).refused.filter (fun x => decide (x.src.source = r.src.source)) = [] →
    s.outcome (chanTower k) r = .served → exec (.channelRequest (.port c a act) f) s = .next (s.serve k r f)) ∧
  (∀ (c : CoreId) (a : BitVec 64) (code : BitVec 4) (mask : BitVec 64) (v : BitVec 512) (f : LineFound) (s : State) (pl : Place),
    let p := s.partOfCore c.val
    let r : MemReq :=
      { src := .port c.val, part := BitVec.ofNat 2 p, page := BitVec.ofNat 27 (a.toNat / 64 * 64 / 2 ^ 21), frame := pl.g,
        addr := pl.chanAddr, act := .memside code mask (bytesOf v.toNat 64) }
    let base := dramKey pl.channel (pl.chanAddr / 64 * 64)
    a.toNat < 2 ^ 48 → s.translate c.tower (a.toNat / 64 * 64) = some pl →
    s.chanStopped pl.channel = false → s.coreStopped c.val = false → s.gateRefuses c.tower (chanTower pl.channel) = false →
    (s.chan pl.channel).refused.filter (fun x => decide (x.src.source = c.val)) = [] →
    s.outcome (chanTower pl.channel) r = .served →
    (s.chan pl.channel).poisoned.contains (pl.chanAddr / 64 * 64) = false → f ≠ .bad →
    exec (.memsideOp c a code mask v f) s = .next ((s.countCe pl.channel f).setDramBytes base
      (memsideLine code mask (s.dramBytes base 64) (bytesOf v.toNat 64)))) ∧
  (∀ (k : ChannelId) (src : Fin 1026) (f : LineFound) (s : State) (i : Nat) (r : MemReq),
    s.chanStopped k.val = false → (s.chan k.val).refused.findIdx? (fun x => decide (x.src.source = src.val)) = some i →
    (s.chan k.val).refused[i]? = some r → s.outcome (chanTower k.val) r = .served →
    exec (.retryResend k src f) s = .next
      (let s1 := s.serve k.val r f
       let s2 := s1.setChan k.val { s1.chan k.val with refused := (s1.chan k.val).refused.eraseIdx i }
       if src.val = 1024 then s2.drainHost s2.hostWait else s2))

/-- FRAME_TABLE_WRITE replaces a frame's entry, FT.TOUCHED being W1C, and applies what the frame held where it becomes
RW (R244, R246). REFRESH_SLOT, in a tower whose DRAM runs, at a channel whose clock runs (R33), takes the die's sensor, halves or restores the period, and
advances the row (R250, R432). SCRUB_SLOT reads the 32 lines of the next row, counts the die's corrections and advances the
scrub row, counting a pass at the last (R251, R254). Each result is the whole next state. -/
def Obligations.ChannelUpkeepCompletes : Prop :=
  (∀ (t : TowerId) (g : Fin 49152) (v : BitVec 64) (s : State),
    exec (.frameTableWrite t g v) s = .next (s.writeFrame t.val g.val
      { jobPage := BitVec.ofNat 27 (bitsAt v.toNat 37 27), prot := Prot.ofCode (bitsAt v.toNat 35 2),
        present := v.toNat.testBit 34, touched := (s.frame t.val g.val).touched && !v.toNat.testBit 33,
        part := BitVec.ofNat 2 (bitsAt v.toNat 31 2) })) ∧
  (∀ (k : ChannelId) (temp : BitVec 8) (s : State), s.dramRuns (chanTower k.val) = true → s.chanStopped k.val = false →
    exec (.refreshSlot k temp) s = .next
      (let c := s.chan k.val
       let limit := s.pwr.fac.limits.refresh
       let seen := temp.toNat + s.pwr.dramCut (chanTower k.val)
       let two := if limit < seen then true else if seen + 5 < limit then false else c.ref2x
       let s1 := s.setChan k.val { c with temp := temp, ref2x := two, refreshSlot := (c.refreshSlot + 1) % 8192 }
       if two || c.ref2x then s1.modCoresOf (s.partOfTower (chanTower k.val)) (fun q => q.rptSet (fun x => { x with clock := true }))
       else s1)) ∧
  (∀ (k : ChannelId) (corrected bad : BitVec 32) (odecc : Nat) (s : State), s.dramRuns (chanTower k.val) = true →
    s.chanStopped k.val = false →
    exec (.scrubSlot k corrected bad odecc) s = .next
      (let row := (s.chan k.val).scrubRow
       let s1 := (List.range 32).foldl (fun a i =>
         a.scrubLine k.val (2048 * row + 64 * i) (corrected.getLsbD i) (bad.getLsbD i)) s
       let c := s1.chan k.val
       if row = 1572863 then
         s1.setChan k.val { c with odeccCount := satAdd c.odeccCount odecc, scrubRow := 0, scrubPasses := c.scrubPasses + 1 }
       else s1.setChan k.val { c with odeccCount := satAdd c.odeccCount odecc, scrubRow := row + 1 }))

/-- For a present COW_PENDING frame whose page heads its copier's queue and has no poisoned or uncorrectable line,
FRAME_COPIED sends the page's bytes to the partner in pieces, takes the page's digest and removes it from the queue,
makes the frame RW with its held requests applied, vacates it where it has been retired meanwhile (R249), and seals the copy if nothing
else is outstanding. A frame
COW_PENDING for no copy becomes RW. Each result is the whole next state. -/
def Obligations.FrameCopiedCompletes : Prop :=
  (∀ (t : TowerId) (g : Fin 49152) (s : State) (r : SnapRun) (x : SnapPlan) (i : Nat), let f := s.frame t.val g.val
    let p := f.part.toNat
    let chan := 32 * t.val + 2 * (g.val / 3072)
    f.prot = .cowPending → f.present = true → (s.part p).job.snap = some r → s.plan p = some x →
    r.queue.find? (fun i => decide ((x.pages.getD i {}).page = f.jobPage)) = some i → r.queue.head? = some i →
    (∀ b ∈ [0, 1], ∀ a ∈ (s.chan (chan + b)).poisoned, a / 2 ^ 20 ≠ g.val % 3072) →
    exec (.frameCopied t g none) s = .next
      (let bs := s.pageBytes p f.jobPage.toNat
       let h : Sn := { id := r.id, index := BitVec.ofNat 27 i, slot := BitVec.ofNat 1 r.slot, member := s.selfOf p }
       let s1 := s.sendPieces (BitVec.ofNat 2 (quadOfTower t.val)) (s.partnerOf p) h false bs
       let s2 := s1.modSnap p (fun q => { q with
         queue := q.queue.filter (fun n => decide (n ≠ i)), digests := FMap.set [] q.digests i (shake256 bs) })
       ((s2.writeFrame t.val g.val { s2.frame t.val g.val with prot := .rw }).vacate (49152 * t.val + g.val)).trySeal p)) ∧
  (∀ (t : TowerId) (g : Fin 49152) (bad : Option (Fin 32768)) (s : State), let f := s.frame t.val g.val
    f.prot = .cowPending → f.present = true → (s.part f.part.toNat).job.snap = none →
    exec (.frameCopied t g bad) s = .next ((s.writeFrame t.val g.val { f with prot := .rw }).vacate (49152 * t.val + g.val)))

/-- Where the page's far-tier table entry may be accessed (R240, R245): FAR_FAULT_RESOLVE starts the fill of an absent
mapped page, with FAR_QUOTA's record and event where no page may be taken (R263). FAR_FILL_COMPLETE writes the filled
page, marks the entry and resumes halted contexts. FAR_EVICT starts an eviction, and EVICT_COMPLETE ends it (R319,
R264). CXL_LINK_DOWN times out the port's requests and returns its pages, and CXL_LINK_RETRAIN brings it back (R265).
Each result is the whole next state. -/
def Obligations.FarTierCommandsComplete : Prop :=
  (∀ (k : CtxKey) (s : State) (port page : Nat), let x := s.ctx k.val
    let p := s.ctxPart k.val
    let f := s.ftt p port page
    x.state = .halted → x.faultCode = 0x0601 → farPageOf x.faultAddr.toNat = some (port, page) →
    (∀ r ∈ (s.part p).far, ¬ (r.port = port ∧ r.page = page)) → (s.part p).evict ≠ some (port, page) → f.present = false →
    (f.fill ≠ 0 ∧ f.fill ≠ 3) → (s.cxlPort port).linkUp = true → s.mayAccess p [(s.fttAddr p port page, 8)] = true →
    exec (.farFaultResolve k) s = .next
      (let s1 := s.startFill p { port := port, page := page }
       if (s.takePage p port).isSome then s1
       else (s1.logError { code := 0x0903, kind := 10, unit := port, detail := port, part := some p }).jobEvent p 5)) ∧
  (∀ (p : PartId) (port : Fin 2) (page : Fin 2097152) (host : List Byte) (s : State) (r : FarRes),
    let f := s.ftt p.val port.val page.val
    (s.part p.val).far.find? (fun r => decide (r.port = port.val) && decide (r.page = page.val) && r.dpa.isSome) = some r →
    (f.fill = 2 → (s.window f.window).takes p.val (2 ^ 21 * f.srcPage) (2 ^ 21) = true ∧ host.length = 2 ^ 21) →
    s.mayAccess p.val [(s.fttAddr p.val port.val page.val, 8)] = true →
    exec (.farFillComplete p port page host) s = .next
      (let d := r.dpa.getD 0
       let bs := if f.fill = 2 then host else List.replicate (2 ^ 21) 0
       let s1 : State := { s with far := dramWrite s.far (farKey port.val d 0) bs }
       ((s1.setFtt p.val port.val page.val { f with present := true, dirty := false, dpaPage := d }).modPart p.val (fun k =>
         { k with far := k.far.filter (fun q => !(decide (q.port = port.val) && decide (q.page = page.val))) })).resumeFar p.val
           port.val page.val)) ∧
  (∀ (p : PartId) (a : BitVec 64) (s : State) (port page : Nat), let f := s.ftt p.val port page
    s.hostBlocked = false → (s.part p.val).jcp.evictStatus ≠ 1 → farPageOf a.toNat = some (port, page) → f.present = true →
    (f.dirty = true → f.fill = 2) → s.readFault p.val (s.fttAddr p.val port page) 8 = none → s.fttHeld p.val port page = false →
    exec (.farEvict p a) s = .next
      (((s.setFtt p.val port page { f with present := false }).modPart p.val (fun k => { k with evict := some (port, page) })).modJcp
        p.val (fun x => { x with evictStatus := 1 }))) ∧
  (∀ (p : PartId) (s : State) (port page : Nat), (s.part p.val).evict = some (port, page) → s.farBusy p.val port page = false →
    s.farHeld p.val port page = true → (s.ftt p.val port page).present = false →
    ((s.ftt p.val port page).dirty = true → (s.ftt p.val port page).fill = 2 →
      (s.window (s.ftt p.val port page).window).takes p.val (2 ^ 21 * (s.ftt p.val port page).srcPage) (2 ^ 21) = true) →
    s.mayAccess p.val [(s.fttAddr p.val port page, 8)] = true →
    exec (.evictComplete p) s = .next
      (let f := s.ftt p.val port page
       let s1 : State := if f.dirty && f.fill = 2 then
         { s with out := s.out ++ [.hostWrite f.window (2 ^ 21 * f.srcPage) (farPageBytes s.far (farKey port f.dpaPage 0))] }
         else s
       let s2 := (s1.setFtt p.val port page { f with present := false, dirty := false }).returnPage p.val port page
       (((s2.modPart p.val (fun k => { k with evict := none })).modJcp p.val (fun x => { x with evictStatus := 2 })).jobEvent
         p.val 6).retryAllFar)) ∧
  (∀ (port : Fin 2) (s : State), let x := s.cxlPort port.val
    x.linkUp = true → exec (.cxlLinkDown port) s = .next
      (let s2 := x.used.foldl (fun a u => if (a.ftt u.part port.val u.page).present then
           a.setFtt u.part port.val u.page { a.ftt u.part port.val u.page with present := false, dirty := false } else a)
         (s.timeoutPort port.val)
       let s3 := s2.setCxlPort port.val { x with linkUp := false, used := [] }
       let s4 := (List.range 4).foldl (fun a p => a.modPart p (fun k =>
         { k with far := k.far.filter (fun r => decide (r.port ≠ port.val)) })) s3
       s4.logError { code := 0x0904, kind := 10, unit := port.val, detail := port.val, info := x.used.length })) ∧
  (∀ (port : Fin 2) (pages : Fin 2097153) (s : State), let x := s.cxlPort port.val
    x.linkUp = false → exec (.cxlLinkRetrain port pages) s = .next
      (s.setCxlPort port.val { x with linkUp := true, pages := pages.val }).retryAllFar)

/-- At a port whose clock runs: FLIT_SEND on a port that is UP resends the next flit of a replay; else, with room in the
replay buffer, it builds one from the payload under way and up to three packets, with credits and acknowledgement, and
keeps it for replay; with the replay buffer full it sends a copy of the last link control word without headers, which asks for no second
NAK (R269 to R272); in the exchange phase, with no acknowledged block from its peer, it sends its block (R273). FLIT_RECEIVE of a
flit with a right CRC accepts the next in order, with its acknowledgement, credits and data, takes only the
acknowledgement of one already received, and asks for a NAK where a codeword is uncorrectable or the CRC is wrong
(R270). NAK_RECEIVE and REPLAY_TIMEOUT replay from the oldest unacknowledged flit (R270). Each result is the whole next
state. -/
def Obligations.FlitCommandsComplete : Prop :=
  (∀ (i : PortId) (s : State) (f : Flit) (rest : List Flit), let x := s.port i.val
    x.state = .up → s.portStopped i.val = false → x.resend = f :: rest → exec (.flitSend i) s = .next
      (let g : Flit := { f with ack := x.rxSeq - 1, nak := x.nakPending }
       let s1 := s.setPort i.val (({ x with
         resend := rest, nakPending := false, resent := x.resent.mod 0 f.seq.toNat (· + 1), lastSent := g.word } : Port).count 6 1)
       { s1 with out := s1.out ++ [.flit i.val g.sealed] })) ∧
  (∀ (i : PortId) (s : State), let x := s.port i.val
    x.state = .up → s.portStopped i.val = false → x.resend = [] → x.replay.length < 256 → exec (.flitSend i) s = .next
      (let y := ({ x with rest := x.rest.drop 2048 } : Port).fill (if x.rest.length < 2048 then 3 else 0) [] (x.rest.take 2048)
       let give := (List.range 5).map (fun v => min (x.returns.getD v 0) 255)
       let f : Flit :=
         { seq := x.txSeq, ack := x.rxSeq - 1, nak := x.nakPending, credits := give, heads := y.2.1, data := y.2.2 }
       let s1 := s.setPort i.val { y.1 with
         txSeq := x.txSeq + 1, replay := y.1.replay ++ [f], lastSent := f.word, nakPending := false, unacked := endIn x.txSeq (!y.1.rest.isEmpty) y.1.unacked
         returns := (List.range 5).map (fun v => x.returns.getD v 0 - give.getD v 0) }
       { s1 with out := s1.out ++ [.flit i.val f.sealed] })) ∧
  (∀ (i : PortId) (s : State), let x := s.port i.val
    x.state = .up → s.portStopped i.val = false → x.resend = [] → 256 ≤ x.replay.length → exec (.flitSend i) s = .next
      { s with out := s.out ++ [.flit i.val x.lastSent.sealed] }) ∧
  (∀ f : Flit, f.word.heads = [] ∧ f.word.data = [] ∧ f.word.nak = false ∧ f.word.seq = f.seq ∧ f.word.ack = f.ack) ∧
  (∀ (i : PortId) (s : State), let x := s.port i.val
    (x.state = .exchange ∨ (x.state = .retrain ∧ x.phase = 2)) → s.portStopped i.val = false → x.peerAcked = false → exec (.flitSend i) s = .next
      (let s1 := s.setPort i.val { x with sentAcked := x.sentAcked || x.acked }
       { s1 with out := s1.out ++ [.exchange i.val (x.block i.val s.fw.loaded.moduleId)] })) ∧
  (∀ (i : PortId) (f : Flit) (n : Nat) (s : State), let x := if n = 0 then s.port i.val else (s.port i.val).count 2 n
    (s.port i.val).state = .up → s.portStopped i.val = false → f.crc = f.crcOf → f.seq = x.rxSeq →
    exec (.flitReceive i f n 0) s = .next
      (let y := x.takeAck f.ack
       s.setPort i.val (({ y with
         rxSeq := x.rxSeq + 1, nakSent := false, nakPending := false, nakRead := x.nakRead || f.nak
         txCredits := (List.range 5).map (fun v => y.txCredits.getD v 0 + f.credits.getD v 0) } : Port).takeData f))) ∧
  (∀ (i : PortId) (f : Flit) (n : Nat) (s : State), let x := if n = 0 then s.port i.val else (s.port i.val).count 2 n
    (s.port i.val).state = .up → s.portStopped i.val = false → f.crc = f.crcOf → f.seq ≠ x.rxSeq →
    (x.rxSeq - f.seq).toNat < 2048 → exec (.flitReceive i f n 0) s = .next
      (s.setPort i.val (if x.nakSent then x else { (x.takeAck f.ack) with nakRead := x.nakRead || f.nak }))) ∧
  (∀ (i : PortId) (f : Flit) (n u : Nat) (s : State),
    let x := if n = 0 then s.port i.val else (s.port i.val).count 2 n
    let y := if u = 0 then x.count 4 1 else x.count 3 u
    (s.port i.val).state = .up → s.portStopped i.val = false → (u ≠ 0 ∨ f.crc ≠ f.crcOf) → exec (.flitReceive i f n u) s = .next
      (s.setPort i.val (if y.nakSent then y else { y with nakSent := true, nakPending := true }))) ∧
  (∀ (i : PortId) (s : State), let x := s.port i.val
    x.nakRead = true → s.portStopped i.val = false → exec (.nakReceive i) s = .next
      (s.setPort i.val { (if x.replay.isEmpty then x else x.replayAll) with nakRead := false })) ∧
  (∀ (i : PortId) (s : State), let x := s.port i.val
    x.state = .up → x.replay ≠ [] → s.portStopped i.val = false →
    exec (.replayTimeout i) s = .next (s.setPort i.val x.replayAll))

/-- At a port whose clock runs: SIGNAL_DETECT on at least 4 lanes of an enabled port begins equalisation;
EQUALISATION_DONE with usable lanes begins FEC lock, and takes a retraining port without them DOWN; FEC_LOCK_DONE begins
the exchange; the third identical block of EXCHANGE_BLOCK_RECEIVE, with an acknowledged block sent and received, takes
the port UP, one of another major version DOWN (R273, R274), and a flit with codewords that FEC could not correct, or with a wrong FL.CRC,
counts them and gives no block (R270, R294). TRAINING_ATTEMPT_TIMEOUT starts an attempt again, and takes the port DOWN after three
(R273). SIGNAL_LOSS takes a port that trains or is UP DOWN (R275). LINK_RETRAIN retrains it (R290). Each result is the
whole next state. -/
def Obligations.PortTrainingCompletes : Prop :=
  (∀ (i : PortId) (lanes : BitVec 8) (s : State), let x := s.port i.val
    x.enable = true → (x.state = .signal ∨ x.state = .down) → 4 ≤ laneCount lanes → s.portStopped i.val = false →
    exec (.signalDetect i lanes) s = .next (s.setPort i.val { x with
      state := .equalise, retraining := false, attempts := if x.state = .down then 0 else x.attempts, offer := x.maxVer
      keepCoefs := false, coefs := if x.keepCoefs then x.coefs else (List.range 8).map (s.pwr.startCoef i.val) })) ∧
  (∀ (i : PortId) (t : BitVec 8) (s : State), let x := s.port i.val
    (x.state = .equalise ∨ (x.state = .retrain ∧ x.phase = 0)) → x.lanesFor t ≠ 0 → s.portStopped i.val = false →
    exec (.equalisationDone i t) s = .next (s.setPort i.val { x with
      lanes := x.lanesFor t, phase := 1, state := if x.state = .retrain then .retrain else .lock, trainings := x.trainings + 1
      coefs := (List.range 8).map (fun n => Config.trainedCoef (8 * i.val + n) x.trainings (x.coefs.getD n 0)) })) ∧
  (∀ (i : PortId) (t : BitVec 8) (s : State), let x := s.port i.val
    x.state = .retrain → x.phase = 0 → x.lanesFor t = 0 → s.portStopped i.val = false →
    exec (.equalisationDone i t) s = .next (s.portDown i.val)) ∧
  (∀ (i : PortId) (s : State), let x := s.port i.val
    (x.state = .lock ∨ (x.state = .retrain ∧ x.phase = 1)) → s.portStopped i.val = false → exec (.fecLockDone i) s = .next (s.setPort i.val
      { x with phase := 2, state := if x.state = .retrain then .retrain else .exchange, lastBlock := none, sameBlocks := 0,
               acked := false, sentAcked := false, peerAcked := false })) ∧
  (∀ (i : PortId) (b : ExBlock) (s : State), let x := s.port i.val
    (x.state = .exchange ∨ (x.state = .retrain ∧ x.phase = 2)) → b.crc = b.crcOf → b.magic = 0x4B4C5058 → b.major = 1 →
    x.lastBlock = some b → 2 ≤ x.sameBlocks → x.sentAcked = true →
    (x.peerAcked = true ∨ b.acked = true) → (x.lanes = 0xFF ∨ (2 ≤ x.minor ∧ 2 ≤ b.maxMinor.toNat)) →
    s.portStopped i.val = false → exec (.exchangeBlockReceive i b {}) s = .next
      ((s.setPort i.val { x with sameBlocks := x.sameBlocks + 1, acked := true, peerAcked := true }).portUp i.val b)) ∧
  (∀ (i : PortId) (b : ExBlock) (n : Nat) (s : State), let x := if n = 0 then s.port i.val else (s.port i.val).count 2 n
    (s.port i.val).state = .exchange → b.crc = b.crcOf → b.magic = 0x4B4C5058 →
    b.major ≠ 1 → s.portStopped i.val = false →
    exec (.exchangeBlockReceive i b { corrected := n }) s = .next ((s.setPort i.val x).portDown i.val 0x0A09)) ∧
  (∀ (i : PortId) (b : ExBlock) (c : FlitCheck) (s : State),
    let x := if c.corrected = 0 then s.port i.val else (s.port i.val).count 2 c.corrected
    ((s.port i.val).state = .exchange ∨ ((s.port i.val).state = .retrain ∧ (s.port i.val).phase = 2)) → s.portStopped i.val = false →
    (c.uncorr ≠ 0 ∨ c.crcWrong = true) →
    exec (.exchangeBlockReceive i b c) s = .next
      (s.setPort i.val { (if c.uncorr ≠ 0 then x.count 3 c.uncorr else x.count 4 1) with lastBlock := none, sameBlocks := 0 })) ∧
  (∀ (i : PortId) (s : State), let x := s.port i.val
    (x.state = .equalise ∨ x.state = .lock ∨ x.state = .exchange ∨ x.state = .retrain) → s.portStopped i.val = false →
    exec (.trainingAttemptTimeout i) s = .next
      (if 3 ≤ x.attempts + 1 then s.portDown i.val
       else s.setPort i.val { x with attempts := x.attempts + 1, phase := 0, lastBlock := none, sameBlocks := 0, acked := false,
                                     peerAcked := false, lanes := if x.state = .retrain then x.lanes else 0
                                     state := if x.state = .retrain then .retrain else .signal })) ∧
  (∀ (i : PortId) (s : State), (s.port i.val).state ≠ .disabled → (s.port i.val).state ≠ .down →
    (s.port i.val).state ≠ .loopback → s.portStopped i.val = false → exec (.signalLoss i) s = .next (s.portDown i.val)) ∧
  (∀ (i : PortId) (s : State), let x := s.port i.val
    x.state = .up → s.portStopped i.val = false → exec (.linkRetrain i true) s = .next
      (let s1 := s.setPort i.val { x with state := .retrain, retraining := true, phase := 0, attempts := 0, lastBlock := none,
                                          sameBlocks := 0, acked := false, sentAcked := false, peerAcked := false,
                                          resent := [], offer := x.maxVer }
       (s1.linkError i.val 0x0A01 0 1).schedule
         { target := { kind := 7, index := BitVec.ofNat 28 i.val }, deferred := true, cause := s.err.wr, code := 0x0A01,
           part := some (BitVec.ofNat 2 (s.partOfPort i.val)) }))

/-- At a port whose clock runs: KLP_ENABLE of a disabled port starts its training, or its loopback (R273); a write of 0
disables a port, an active link going DOWN first, and takes it out of the routes and bonds, to which its enabling returns it (R292,
15 R421). KLP_RETRAIN on an UP port sets the request and begins a retrain, recorded, with a deferred test (R290); a port that is not UP
holds the request (R294, log 113). KLP_CTR_CLR zeroes the port's counters (R294). LD_EPOCH_WRITE writes the
link die's epoch, and nothing else where no port of the die holds a packet; held packets are checked again in arrival
order (R287, R288). The conditions are on the state and operands alone, and each result is the whole next state. -/
def Obligations.PortRegisterCommandsComplete : Prop :=
  (∀ (i : PortId) (s : State), (s.port i.val).enable = false → s.portStopped i.val = false → exec (.klpEnable i true) s = .next
    ((s.setPort i.val { s.port i.val with
      enable := true, state := if (s.port i.val).loopback = 0 then .signal else .loopback }).returnPort (s.partOfPort i.val) i.val)) ∧
  (∀ (i : PortId) (s : State), (s.port i.val).state ≠ .up → (s.port i.val).state ≠ .retrain →
    s.portStopped i.val = false → exec (.klpEnable i false) s = .next
      ((s.dropPort (s.partOfPort i.val) i.val).modPort i.val (fun y => { y.off .disabled with enable := false }))) ∧
  (∀ (i : PortId) (s : State), ((s.port i.val).state = .up ∨ (s.port i.val).state = .retrain) →
    s.portStopped i.val = false → exec (.klpEnable i false) s = .next
      (((s.portDown i.val).dropPort (s.partOfPort i.val) i.val).modPort i.val (fun y => { y.off .disabled with enable := false }))) ∧
  (∀ (i : PortId) (s : State), (s.port i.val).state ≠ .up → s.portStopped i.val = false → exec (.klpRetrain i) s = .next
    (s.setPort i.val { s.port i.val with retrainReq := true })) ∧
  (∀ (i : PortId) (s : State), (s.port i.val).state = .up → s.portStopped i.val = false → exec (.klpRetrain i) s = .next
    (let s0 := s.setPort i.val { s.port i.val with retrainReq := true }
     let s1 := s0.setPort i.val { s.port i.val with
       retrainReq := true, state := .retrain, retraining := true, phase := 0, attempts := 0, lastBlock := none, sameBlocks := 0,
       acked := false, sentAcked := false, peerAcked := false, resent := [], offer := (s.port i.val).maxVer }
     (s1.linkError i.val 0x0A01 0 1).schedule
       { target := { kind := 7, index := BitVec.ofNat 28 i.val }, deferred := true, cause := s.err.wr, code := 0x0A01,
         part := some (BitVec.ofNat 2 (s.partOfPort i.val)) })) ∧
  (∀ (i : PortId) (s : State), s.portStopped i.val = false → exec (.klpCtrClr i) s = .next (s.setPort i.val { s.port i.val with counters := [] })) ∧
  (∀ (d : LinkDieId) (v : BitVec 32) (s : State),
    (∀ j < 6, ∀ q ∈ (s.port (6 * d.val + j)).received, q.2 = false) →
    exec (.ldEpochWrite d v) s = .next (s.setLinkDie d.val { s.linkDie d.val with epoch := v })) ∧
  (∀ (d : LinkDieId) (v : BitVec 32) (s : State), exec (.ldEpochWrite d v) s = .next
    ((List.range 6).foldl (fun a j => ((a.port (portOf (6 * d.val + j)).val).received.filter (fun q => q.2)).foldl (fun b q =>
      if h : q.1.cls.toNat < 5 then packetReceive (portOf (6 * d.val + j)) ⟨q.1.cls.toNat, h⟩ b else b) a)
      (s.setLinkDie d.val { s.linkDie d.val with epoch := v })))

/-- With the clocks of the die's mesh and of the port running (01 R33): PACKET_SEND puts a packet that heads its flow, and whose route is live, at its output port, with the header that its
link die builds, counted in its step's packets of that port (05 R140), or delivers it here; the holder's pin goes with its FETCH_END (R282, R341). PACKET_RECEIVE takes the
oldest packet of a VC, returning its credits: one of the current epoch is forwarded by its route, or delivered where it
has reached its member over a live route; one of an older epoch is discarded and counted (R283, R287). The conditions
are on the state and operands alone, and each result is the whole next state. -/
def Obligations.PacketCommandsComplete : Prop :=
  (∀ (i : Nat) (s : State) (x : OutPkt) (q : Nat),
    let e := (s.linkDie x.quad.toNat).routes.get {} (4096 * x.group.toNat + x.dst.toNat)
    s.txq[i]? = some x → (∀ a ∈ s.txq.take i, a.sameFlow x = false) → s.islandStopped (.die (linkIsland x.quad.toNat)) = false →
    e.valid = true → e.live = true → e.self = false → s.outPort x.quad.toNat e.first.toNat x.flow = some q →
    exec (.packetSend i) s = .next
      (((({ s with txq := s.txq.eraseIdx i } : State).modPort q (fun z =>
        { z with queue := z.queue ++ [s.buildPacket (s.partOfQuad x.quad.toNat) x e z.ver] })).countPacket
          (s.partOfQuad x.quad.toNat) q x).unpinSent (s.partOfQuad x.quad.toNat) x)) ∧
  (∀ (i : Nat) (s : State) (x : OutPkt),
    let e := (s.linkDie x.quad.toNat).routes.get {} (4096 * x.group.toNat + x.dst.toNat)
    s.txq[i]? = some x → (∀ a ∈ s.txq.take i, a.sameFlow x = false) → s.islandStopped (.die (linkIsland x.quad.toNat)) = false →
    e.valid = true → e.live = true → e.self = true →
    exec (.packetSend i) s = .next
      ((({ s with txq := s.txq.eraseIdx i } : State).deliver (s.partOfQuad x.quad.toNat) x.quad.toNat none
        (s.buildPacket (s.partOfQuad x.quad.toNat) x e 0)).unpinSent (s.partOfQuad x.quad.toNat) x)) ∧
  (∀ (i : PortId) (v : Fin 5) (s : State) (pkt : Packet) (h : Bool) (rest : List (Packet × Bool)),
    takeFirst (fun q => decide (q.1.cls.toNat = v.val)) (s.port i.val).received = some ((pkt, h), rest) →
    pkt.epoch < (s.linkDie (i.val / 6)).epoch → s.portStopped i.val = false →
    s.islandStopped (.die (linkIsland (i.val / 6))) = false →
    exec (.packetReceive i v) s = .next ((s.setPort i.val
      (({ s.port i.val with received := rest } : Port).giveBack v.val pkt.units)).portCount i.val 9)) ∧
  (∀ (i : PortId) (v : Fin 5) (s : State) (pkt : Packet) (h : Bool) (rest : List (Packet × Bool)) (q : Nat),
    let out := bitsAt pkt.route.toNat (5 * pkt.hop.toNat) 5
    takeFirst (fun q => decide (q.1.cls.toNat = v.val)) (s.port i.val).received = some ((pkt, h), rest) →
    pkt.epoch = (s.linkDie (i.val / 6)).epoch → ((s.port i.val).ver = 0 → pkt.hops.toNat ≤ 4) →
    pkt.hop.toNat < pkt.hops.toNat → (s.port i.val).fwdEn = true →
    (∀ z ∈ s.outPorts (i.val / 6) out, s.partOfPort z = s.partOfPort i.val) →
    s.outPort (i.val / 6) out pkt.flow = some q → s.portStopped i.val = false →
    s.islandStopped (.die (linkIsland (i.val / 6))) = false →
    exec (.packetReceive i v) s = .next
      ((s.setPort i.val (({ s.port i.val with received := rest } : Port).giveBack v.val pkt.units)).modPort q (fun z =>
        { z with queue := z.queue ++ [{ pkt with hop := pkt.hop + 1 }] }))) ∧
  (∀ (i : PortId) (v : Fin 5) (s : State) (pkt : Packet) (h : Bool) (rest : List (Packet × Bool)),
    takeFirst (fun q => decide (q.1.cls.toNat = v.val)) (s.port i.val).received = some ((pkt, h), rest) →
    pkt.epoch = (s.linkDie (i.val / 6)).epoch → ((s.port i.val).ver = 0 → pkt.hops.toNat ≤ 4) →
    pkt.hops.toNat ≤ pkt.hop.toNat → s.isMember (s.partOfPort i.val) pkt.group.toNat pkt.dst = true →
    ((s.linkDie (i.val / 6)).routes.get {} (4096 * pkt.group.toNat + pkt.src.toNat)).live = true →
    s.portStopped i.val = false → s.islandStopped (.die (linkIsland (i.val / 6))) = false →
    exec (.packetReceive i v) s = .next
      ((s.setPort i.val (({ s.port i.val with received := rest } : Port).giveBack v.val pkt.units)).deliver
        (s.partOfPort i.val) (i.val / 6) (some i.val) pkt))

/-- CREDIT returns the queue credits of a delivered CREDIT packet to the producer's endpoint (R280, R127). UNREACHABLE
puts the member that a delivered packet names into its partition's reports (R286). MEMBER_UNREACHABLE takes the oldest
report and records it with the peer of the member's route: a member of group 0 is lost to the job, one of a reduction
group is removed from it in a job (R286). EPOCH_AHEAD, in a port whose clock runs, discards and records a held packet
whose epoch is still ahead, returning its credits (R288). The conditions are on the state and operands alone, and each
result is the whole next state. -/
def Obligations.ControlPacketCommandsComplete : Prop :=
  (∀ (p : PartId) (i : Nat) (s : State) (x : Packet), s.rxAt p.val i 0 = some x → (Ctl.ofBytes x.payload).kind = 1 →
    exec (.klpCredit p i) s = .next ((s.dropRx i).modCore
      (physCore ((s.dropRx i).part p.val).job.quads x.dstCore.toNat) (fun k => k.modEp x.dstEp.toNat (fun e =>
        { e with edges := e.edges.map (fun d => if d.link.isSome && d.edgeId = (Ctl.ofBytes x.payload).edge then
            { d with credits := d.credits + (Ctl.ofBytes x.payload).count.toNat } else d) })))) ∧
  (∀ (p : PartId) (i : Nat) (s : State) (x : Packet), s.rxAt p.val i 0 = some x → (Ctl.ofBytes x.payload).kind = 2 →
    exec (.unreachablePacket p i) s = .next
      ((s.dropRx i).modPart p.val (fun k => { k with
        unreach := k.unreach ++ [((Ctl.ofBytes x.payload).group.toNat, (Ctl.ofBytes x.payload).member.toNat)] }))) ∧
  (∀ (p : PartId) (s : State) (g m : Nat) (rest : List (Nat × Nat)), (s.part p.val).unreach = (g, m) :: rest →
    exec (.memberUnreachable p) s = .next
      (let die := (s.quadsOf p.val).headD 0
       let out := ((s.linkDie die).routes.get {} (4096 * g + m)).first.toNat
       let peer := (s.port ((s.outPorts die out).headD (6 * die))).peerId
       let s1 := (s.modPart p.val (fun k => { k with unreach := rest })).logError
         { code := 0x0A07, kind := 8, unit := die, info := peer.toNat, part := some p.val }
       if g = 0 then s1.loseJobMember p.val m s.err.wr.toNat
       else if (s1.part p.val).jcp.state.inJob then s1.removeMember p.val g m else s1)) ∧
  (∀ (i : PortId) (v : Fin 5) (s : State) (pkt : Packet) (rest : List (Packet × Bool)),
    takeFirst (fun q => decide (q.1.cls.toNat = v.val)) (s.port i.val).received = some ((pkt, true), rest) →
    (s.linkDie (i.val / 6)).epoch < pkt.epoch → s.portStopped i.val = false →
    exec (.epochAhead i v) s = .next
      (((s.setPort i.val (({ s.port i.val with received := rest } : Port).giveBack v.val pkt.units)).portCount i.val 10).linkError
        i.val 0x0A06 pkt.cls.toNat))

/-- Where MOD is ready, no access of the host waits before it (R297) and the command is accepted in JCP.STATE (PAUSE and RESUME also need a
minor version), nothing makes it wait (R318; for a RESUME also a rollback hold, log 34) and no accepted command waits before it, JCP.LAST_CMD takes the code and:
START with every check passed loads the job (R305); PAUSE and STOP set the stop step (R307); RESUME enables the cores, and the contexts that a passed test left disabled (15 R413),
for the step after it (R306), and stops a job that has reached JCP.END_STEP (R307); ABORT abandons the job (R308); CLEAR
invalidates the frame tables and maps (R309). Each result is the whole next state. -/
def Obligations.JobCommandsComplete : Prop :=
  ∀ (p : PartId) (s : State), s.mod.ready = true → s.hostBlocked = false → (s.part p.val).job.waitingCmds = [] →
    let st := (s.part p.val).jcp.state
    let cmd (c : JobCmd) := s.modJcp p.val (fun j => { j with lastCmd := c.code })
    (∀ (img : StartImage) (t v : Nat), let s0 := (cmd .start).setJobState p.val .loading
      st = .idle → (cmd .start).cmdWaits p.val .start = false → s0.startCheck p.val img = .ok (t, v) →
      exec (.jobStart p img) s = .next
        (let j := s0.newJob p.val img t
         let s1 := s0.modPart p.val (fun k => { k with
           job := j, jcp := { k.jcp with imageId := j.header.imageId, step := j.latched.startStep - 1, reason := 0 } })
         let s2 := ((((s1.loadVariant p.val v j.latched.startStep true).initCrs p.val).placeContents p.val).recastFrozen p.val).openCatalogue p.val
         if j.latched.restoreId = 0 then s2 else s2.applyEpoch p.val)) ∧
    (st = .running → s.mod.jcpVersion &&& 0xFF ≠ 0 → (cmd .pause).cmdWaits p.val .pause = false →
      exec (.jobPause p) s = .next ((cmd .pause).stopAt p.val .pausing)) ∧
    (st = .paused → s.mod.jcpVersion &&& 0xFF ≠ 0 → (cmd .resume).cmdWaits p.val .resume = false →
      exec (.jobResume p) s = .next
        (let s1 := if (cmd .resume).catHold p.val = 3 then (cmd .resume).setCatHold p.val 0 else cmd .resume
         let s2 := (((s1.modJob p.val (fun j => { j with stopStep := none })).enableCores p.val).returnCtxs p.val).setJobState p.val .running
         let e := (s.part p.val).jcp.endStep
         if (cmd .resume).highBegun p.val = some e ∧ (cmd .resume).allEnded p.val e = true then s2.stopAt p.val .stopping else s2)) ∧
    (st = .running ∨ st = .pausing ∨ st = .paused → (cmd .stop).cmdWaits p.val .stop = false →
      exec (.jobStop p) s = .next ((cmd .stop).stopAt p.val .stopping)) ∧
    (st = .loading ∨ st = .running ∨ st = .pausing ∨ st = .paused ∨ st = .stopping → (cmd .abort).cmdWaits p.val .abort = false →
      exec (.jobAbort p) s = .next
        (let s1 := ((((cmd .abort).abandonPart p.val).clearReduction p.val).abandonSnap p.val 0).abandonFlash p.val
         let s2 := s1.modJob p.val (fun j => { j with waitingCmds := [], restore := none, serge := [], snapDue := none })
         (s2.dropEpoch p.val).setJobState p.val .aborting)) ∧
    (st = .done ∨ st = .failed ∨ st = .refused → (cmd .clear).cmdWaits p.val .clear = false →
      exec (.jobClear p) s = .next
        (let mine (t : Nat) : Bool := decide ((cmd .clear).partOfTower t = p.val)
         let s1 : State := { cmd .clear with
           amaps := s.amaps.filter (fun x => !mine (x.1 / 1024 % 32))
           frames := s.frames.filter (fun x => !mine (x.1 / 49152 % 32)) }
         (s1.dropEpoch p.val).setJobState p.val .clearing))

/-- JOB_ENABLE_COMPLETE of a LOADING partition with no restore writes the epoch, enables the cores and enters RUNNING
(R305). STOP_STEP_REACHED, with every core past the stop step and no copy in flight, enters PAUSED, or DONE (R307).
END_STEP_WRITE stores JCP.END_STEP, or one of its words (R13), and stops a job that has begun a later step (R307).
ABORT_COMPLETE fails the job with ABORTED (R308). CLEAR_COMPLETE empties the partition's page and memory (R309).
VARIANT_CHANGE, where every core has ended the partition's step and begun none after it and no unit that returns from a fence has
yet to pass its test, takes the variant of the fences (R125, 15 R418). -/
def Obligations.JobProgressCompletes : Prop :=
  (∀ (p : PartId) (s : State), (s.part p.val).jcp.state = .loading → (s.part p.val).job.restore = none →
    exec (.jobEnableComplete p) s = .next (((s.applyEpoch p.val).enableCores p.val).setJobState p.val .running)) ∧
  (∀ (p : PartId) (s : State) (h : BitVec 64), let k := s.part p.val
    k.job.stopStep = some h → s.allEnded p.val h = true → k.job.snapDue = none → k.job.snap = none →
    (k.jcp.state = .pausing → exec (.stopStepReached p) s = .next (s.setJobState p.val .paused)) ∧
    (k.jcp.state = .stopping → k.job.latched.modes.getLsbD 4 = false →
      exec (.stopStepReached p) s = .next (s.setJobState p.val .done))) ∧
  (∀ (p : PartId) (half : Option Bool) (w : BitVec 64) (s : State), let v := write64 (s.part p.val).jcp.endStep half w
    let s1 := s.modJcp p.val (fun j => { j with endStep := v })
    s.hostBlocked = false →
    (s.highBegun p.val = none → exec (.endStepWrite p ⟨half, w⟩) s = .next s1) ∧
    (∀ h, s.highBegun p.val = some h → (s.part p.val).jcp.state = .running →
      exec (.endStepWrite p ⟨half, w⟩) s = .next
        (if v < h ∨ (v = h ∧ s.allEnded p.val h = true) then s1.stopAt p.val .stopping else s1)) ∧
    (∀ h, s.highBegun p.val = some h → ((s.part p.val).jcp.state = .pausing ∨ (s.part p.val).jcp.state = .paused) →
      exec (.endStepWrite p ⟨half, w⟩) s = .next (if v < h then s1.stopAt p.val .stopping else s1))) ∧
  (∀ (p : PartId) (s : State), (s.part p.val).jcp.state = .aborting → s.partBusy p.val = false →
    exec (.abortComplete p) s = .next ((s.modJcp p.val (fun x => { x with reason := 0x20 })).setJobState p.val .failed)) ∧
  (∀ (p : PartId) (s : State), (s.part p.val).jcp.state = .clearing →
    exec (.clearComplete p) s = .next
      (let mine (chan : Nat) : Bool := decide (s.partOfTower (chan / 32) = p.val)
       let s1 : State := { s with
         dram := s.dram.filter (fun x => !mine (x.1 / 2 ^ 32) || decide (3070 ≤ x.1 % 2 ^ 32 / 2 ^ 20))
         channels := s.channels.foldl (fun m x => if mine x.1 then FMap.set {} m x.1 { x.2 with
           poisoned := x.2.poisoned.filter (fun a => decide (3070 ≤ a / 2 ^ 20)) } else m) s.channels
         cxl := s.cxl.foldl (fun m x => FMap.set {} m x.1 { x.2 with
           used := x.2.used.filter (fun u => decide (u.part ≠ p.val)) }) s.cxl }
       let s2 := s1.modPart p.val (fun q => { q with
         jcp := { state := .clearing, eventEn := q.jcp.eventEn, latTolUs := q.jcp.latTolUs }
         job := {}, partner := [], far := [], evict := none, unreach := [] })
       (s2.settleMsix.setJobState p.val .idle).retryAllFar)) ∧
  (∀ (p : PartId) (s : State) (cause : BitVec 32), let k := s.part p.val
    k.job.reselect = some cause → (k.jcp.state = .running ∨ k.jcp.state = .pausing ∨ k.jcp.state = .paused ∨ k.jcp.state = .stopping) →
    k.job.hold = false → s.returnTest p.val = false →
    (∀ c ∈ s.jobCores p.val, (s.core c).report.inStep = false ∧ (s.core c).report.next = k.jcp.step + 1) →
    exec (.variantChange p) s = .next (s.changeVariant p.val cause (k.jcp.step + 1)))

/-- FUNCTION_LEVEL_RESET gives every partition that is not IDLE an ABORT and resets the host-side registers and windows
(R296). BAR2_ACCESS sends an access of the enabled partition's memory to its channel, with no access of the host
refused, or waiting, before it (R297, R299, R300). HOST_MAX_VERSION_WRITE with every partition idle negotiates
CAP.JCP_VERSION (R301). PART_CFG_WRITE of a legal layout of free partitions with one firmware set writes MOD.QPART
(R302); a partition whose quadrants change takes the deepest power state of those that join it (log 112). LAYOUT opens the gates and clears CFG_BUSY (R302). Each result is the whole next state. An open gate whose
conditions do not hold closes (R27). Where exactly one of its quadrants is in reset, the packets on the bridge are
discarded and counted on the surviving side in a CROSSING_DISCARD record; otherwise they are delivered. A gate whose
conditions hold, or that is closed, stays as it is. -/
def Obligations.HostFunctionAndGateCommandsComplete : Prop :=
  ((∀ (u : List (Fin 16 × CtxKey)) (s : State), exec (.functionLevelReset u) s = .next
    (let s1 := (List.range 4).foldl (fun a p =>
       if (a.part p).jcp.state = .idle ∨ (a.part p).jcp.state = .notLead then a else a.jobCommand p .abort {}) s
     let s2 := (List.range 4).foldl (fun a p => a.modJcp p (fun j => { j with eventEn := 0 })) s1
     let s3 := ({ s2 with mod := { s2.mod with
       bar2Base := 0, bar2Part := 0, bar2En := false, hostMaxVersion := 0, eventEn := 0 } } : State).settleMsix
     (List.range 16).foldl (fun a w =>
       a.disableWindow w true ((u.filter (fun u => decide (u.1.val = w))).map Prod.snd)) s3)) ∧
  (∀ (off : BitVec 36) (act : MemAct) (f : LineFound) (s : State) (pl : Place), s.bar2Held off = false →
    mpaPlace (s.mod.bar2Base.toNat / 2 ^ 21 * 2 ^ 21 + off.toNat) = some pl → s.mod.bar2En = true →
    s.partOfTower pl.tower = s.mod.bar2Part.toNat → s.memoryOn (quadOfTower pl.tower) = true → pl.frame < 3070 →
    s.hostBlocked = false →
    exec (.bar2Access off act f) s = .next (s.arrive pl.channel
      { src := .host, part := BitVec.ofNat 2 s.mod.bar2Part.toNat, page := (s.frame pl.tower pl.g).jobPage, frame := pl.g,
        addr := pl.chanAddr, act := act } f)) ∧
  (∀ (v : BitVec 32) (s : State), (∀ p < 4, (s.part p).jcp.state = .idle ∨ (s.part p).jcp.state = .notLead) → s.hostBlocked = false →
    exec (.hostMaxVersionWrite v) s = .next
      { s with mod := { s.mod with
          hostMaxVersion := v
          jcpVersion := if bitsAt v.toNat 8 8 = 1 then (if bitsAt v.toNat 0 8 = 0 then 0x100 else 0x101) else 0 } }) ∧
  (∀ (v : BitVec 8) (s : State), layoutLegal v = true →
    (∀ p < 4, layoutQuads v p ≠ s.quadsOf p →
      s.testing p = false ∧ ((s.part p).jcp.state = .idle ∨ (s.part p).jcp.state = .notLead)) →
    s.setsDiffer v = false → s.hostBlocked = false → exec (.partCfgWrite v) s = .next
      (((List.range 4).filter (fun p => layoutQuads v p ≠ s.quadsOf p)).foldl
        (fun a p => a.joinPower p ((layoutQuads v p).map (fun q => s.quadPower q)))
        ((List.range 4).foldl (fun a p => a.setLead p (!(layoutQuads v p).isEmpty))
          { s with mod := { s.mod with qpart := v, cfgBusy := true } }))) ∧
  (∀ (s : State), s.mod.cfgBusy = true → s.gatesToClose = false →
    exec .layoutDone s = .next
      (let s1 := s.openGates
       ({ s1 with mod := { s1.mod with cfgBusy := false } } : State).modEvent 2))) ∧
  ((∀ (i : Fin 12) (n : Fin 129) (s : State), s.gateMayOpen i.val = false → s.gate i.val = true →
    exec (.boundaryGateClose i n) s = .next
      (let a := (gateQuads i.val).1
       let b := (gateQuads i.val).2
       let s1 : State := { s with gates := s.gates.set false i.val false }
       if s.mod.inReset.getLsbD a = true ∧ s.mod.inReset.getLsbD b = false then
         s1.closeBeside i.val b n.val true
       else if s.mod.inReset.getLsbD b = true ∧ s.mod.inReset.getLsbD a = false then
         s1.closeBeside i.val a n.val false
       else s1)) ∧
  (∀ (i : Fin 12) (n : Fin 129) (s : State), (s.gateMayOpen i.val = true ∨ s.gate i.val = false) →
    exec (.boundaryGateClose i n) s = .next s))

/-- With no access of the host waiting before it (R297): EPOCH_WRITE above JCP.EPOCH is stored, and in a running job written in every link die and acknowledged; one not
above it is refused (R310). EVENT_ENABLE_WRITE stores the enables and sends where a vector's OR rises, and a pending bit
whose OR falls clears (R311). SW_ENABLE and SW_DISABLE change a window (R314, R315). PERSIST_ACK_WRITE stores an
acknowledgement in range, written whole or as one word (R317, R13). LAT_TOL_WRITE retargets the partition (R318).
FAR_QUOTA_WRITE stores a quota that fits (R319). Each result is the whole next state. -/
def Obligations.HostPageWritesComplete : Prop :=
  (∀ (p : PartId) (v : BitVec 32) (s : State), s.hostBlocked = false → let k := s.part p.val
    let s1 := s.modJcp p.val (fun j => { j with epoch := v })
    (v ≤ k.jcp.epoch → exec (.epochWrite p v) s = .next (s.modJcp p.val (fun j => { j with epochRefused := true }))) ∧
    (k.jcp.epoch < v → (k.jcp.state = .idle ∨ k.jcp.state = .done ∨ k.jcp.state = .failed ∨ k.jcp.state = .refused) →
      exec (.epochWrite p v) s = .next
        (if k.power.state = .retain ∨ k.power.state = .standby then s1.modJob p.val (fun j => { j with raised := true }) else s1)) ∧
    (k.jcp.epoch < v → k.jcp.state = .running → k.power.state = .run → exec (.epochWrite p v) s = .next (s1.applyEpoch p.val))) ∧
  (∀ (p : PartId) (v : BitVec 11) (s : State), s.hostBlocked = false → exec (.eventEnableWrite (some p) v) s = .next
    (let j := (s.part p.val).jcp
     let j1 : Jcp := { j with eventEn := v }
     ((List.range 8).foldl (fun (a : State) i =>
       if jcpOr j p.val (8 * p.val + i) = false && jcpOr j1 p.val (8 * p.val + i) = true then a.sendMsix (8 * p.val + i) else a)
       (s.modJcp p.val (fun _ => j1))).settleMsix)) ∧
  (∀ (v : BitVec 11) (s : State), s.hostBlocked = false → exec (.eventEnableWrite none v) s = .next
    (((List.range 4).foldl (fun (a : State) i =>
      if s.mod.eventStatus.getLsbD i && !s.mod.eventEn.getLsbD i && v.getLsbD i then a.sendMsix (32 + i) else a)
      { s with mod := { s.mod with eventEn := v.setWidth 4 } }).settleMsix)) ∧
  (∀ (w : Fin 16) (s : State), let x := s.window w.val
    x.state = .disabled → s.hostBlocked = false → exec (.swEnable w) s = .next (s.setWindow w.val { x with state := .enabled, enable := true })) ∧
  (∀ (w : Fin 16) (abandon : Bool) (unsent : List CtxKey) (s : State), let x := s.window w.val
    x.state = .enabled → s.hostBlocked = false → exec (.swDisable w abandon unsent) s = .next
      (let s1 := s.setWindow w.val { x with state := .disabling, enable := false, abandon := abandon, mode := abandon }
       (if abandon then (unsent.foldl (fun a k => a.abandonWindowReq w.val k) s1).sendOthers w.val unsent else s1).settleWindows)) ∧
  (∀ (p : PartId) (half : Option Bool) (w : BitVec 64) (s : State), let j := (s.part p.val).jcp
    let v := write64 j.persistAck half w
    ¬ v < j.persistAck → ¬ j.segWritten < v → s.hostBlocked = false → exec (.persistAckWrite p ⟨half, w⟩) s = .next
      ((s.modJcp p.val (fun x => { x with persistAck := v })).commitSerge p.val)) ∧
  (∀ (p : PartId) (v : BitVec 32) (s : State), s.hostBlocked = false → exec (.latTolWrite p v) s = .next
    ((s.modJcp p.val (fun j => { j with latTolUs := v })).retarget p.val)) ∧
  (∀ (p : PartId) (port : Fin 2) (v : BitVec 32) (s : State), let x := s.cxlPort port.val
    ((List.range 4).map (fun q => if q = p.val then 0 else (s.part q).jcp.quota port.val)).sum + v.toNat ≤
      (if x.linkUp then x.pages else 0) → s.hostBlocked = false →
    exec (.farQuotaWrite p port v) s = .next
      ((s.modJcp p.val (fun j => if port.val = 0 then { j with farQuota0 := v } else { j with farQuota1 := v })).retryFar p.val))

/-- SNAPSHOT_POINT, with the reductions at rest (R220), opens the snapshot that is due, or skips it (R323, R328).
COPY_BUDGET_EXPIRE hands the pages not begun to the ride (R334). RIDE_DIGEST enters a ride page's digest (R335).
SNAP_COMMITTED of the sealed copy makes it the newest, tells every member and begins a flash snapshot where one is due
(R333, R320). A budget counts while its module-controller core is not debug-halted (log 103). SNAP_DONE notes a member (R333). SNAP_ABORT from the partner ends the copy (R332). Each result is the
whole next state. -/
def Obligations.SnapshotCommandsComplete : Prop :=
  (∀ (p : PartId) (s : State) (step : BitVec 64) (x : SnapPlan), let j := (s.part p.val).job
    let page0 := (x.pages.headD {}).page.toNat
    let s1 := s.modJob p.val (fun y => { y with snapDue := none, stopSnap := y.stopSnap || decide (y.stopStep = some step) })
    s.reductionsRest p.val = true → j.snapDue = some step → s.plan p.val = some x →
    (j.skipReason = none → s.mayAccess p.val [(2 ^ 21 * page0, 2 ^ 18)] = true →
      exec (.snapshotPoint p) s = .next (s1.openSnap p.val x page0 step)) ∧
    (∀ r, j.skipReason = some r → exec (.snapshotPoint p) s = .next (s1.skipSnap p.val r step))) ∧
  (∀ (p : PartId) (begun : List Nat) (s : State), s.ctlHalted (72 + p.val) = false →
    exec (.copyBudgetExpire p begun) s = .next ((s.handOver p.val begun).trySeal p.val)) ∧
  (∀ (p : PartId) (i : Nat) (s : State) (x : Packet), let h := Sn.ofBytes x.payload
    let n := h.index.toNat
    s.rxAt p.val i 4 = some x → h.kind = 4 → exec (.rideDigest p i) s = .next
      (((s.dropRx i).modSnap p.val (fun r =>
        if r.id = h.id ∧ n ∈ r.ride then
          { r with ride := r.ride.filter (fun q => decide (q ≠ n)), rode := r.rode ++ [n],
                   digests := FMap.set [] r.digests n ((x.payload.drop 32).take 32) }
        else r)).trySeal p.val)) ∧
  (∀ (p : PartId) (i : Nat) (s : State) (x : Packet) (r : SnapRun), let c := Ctl.ofBytes x.payload
    let j := (s.part p.val).job
    s.rxAt p.val i 0 = some x → c.kind = 0x12 → j.snap = some r → r.id = c.id → r.sealed = true →
    exec (.snapCommitted p i) s = .next
      (let s1 := (s.dropRx i).modJob p.val (fun y =>
         { y with snap := none, newest := some { id := r.id, step := r.step, slot := r.slot } })
       let s2 := (s1.setCatEntry p.val r.slot r.id r.step 1 r.slot 2).jobEvent p.val 10
       let s3 := (s2.jobMembers p.val).foldl (fun a m => a.sendCtl p.val (BitVec.ofNat 12 m) (Ctl.snap 0x14 r.id 0)) s2
       let s4 := s3.checkComplete p.val
       let mu := if j.latched.interval = 0 then 0 else (r.step.toNat + 1) / j.latched.interval
       if j.latched.flashEvery ≠ 0 && decide (mu % j.latched.flashEvery = 0) && j.snapStep r.step then
         s4.beginFlash p.val r (mu / j.latched.flashEvery)
       else s4)) ∧
  (∀ (p : PartId) (i : Nat) (s : State) (x : Packet), let c := Ctl.ofBytes x.payload
    s.rxAt p.val i 0 = some x → c.kind = 0x14 → exec (.snapDone p i) s = .next
      (((s.dropRx i).modJob p.val (fun j => { j with snapDone := j.snapDone ++ [(c.id, x.src)] })).checkComplete p.val)) ∧
  (∀ (p : PartId) (i : Nat) (s : State) (x : Packet) (r : SnapRun), let c := Ctl.ofBytes x.payload
    let s1 := ((s.dropRx i).modJob p.val (fun j => { j with snap := none })).setCatEntry p.val r.slot r.id r.step 1 r.slot 0
    s.rxAt p.val i 0 = some x → c.kind = 0x13 → (s.part p.val).job.snap = some r → r.id = c.id → x.src = s.partnerOf p.val →
    s1.openSlot p.val c.id x.src = none → exec (.snapAbort p i) s = .next s1)

/-- SNAP_OPEN from the partner, with room and no pin, zeroes the slot's commit record and opens the slot (R322, R333).
For the slot opened, PAGE_DATA places a piece of a page (R331), MANIFEST a piece of the manifest that fits the header
area (R331), RIDE_DATA a piece of a ride page, answering the page's digest when it is whole (R335), and SNAP_SEAL
names the manifest's length; each commits the slot once all is written (R339). Each result is the whole next state. -/
def Obligations.HolderCommandsComplete : Prop :=
  (∀ (p : PartId) (i : Nat) (s : State) (x : Packet) (y : SnapPlan), let c := Ctl.ofBytes x.payload
    let n := bitsAt c.rest 113 27
    let k := bitsAt c.rest 112 1
    s.rxAt p.val i 0 = some x → c.kind = 0x10 → s.plan p.val = some y → x.src = s.partnerOf p.val → n ≤ y.partnerPages.toNat →
    (s.held p.val k).pinned = false → exec (.snapOpen p i) s = .next
      ((((s.dropRx i).putBytes p.val (y.slotBase k) (List.replicate 64 0)).setHeld p.val k
        { opened := true, id := c.id, member := x.src, pages := n, seq := (s.held p.val k).seq }).setCatEntry p.val (11 + k) c.id
          ((c.id.setWidth 32).setWidth 64) 4 k 1)) ∧
  (∀ (p : PartId) (i : Nat) (s : State) (x : Packet) (k : Nat) (y : SnapPlan), let h := Sn.ofBytes x.payload
    let a := s.dropRx i
    let bs := x.payload.drop 32
    s.rxAt p.val i 4 = some x → s.openSlot p.val h.id x.src = some k → s.plan p.val = some y →
    (h.kind = 0 → exec (.pageData p i) s = .next ((a.placePiece p.val k y h false bs).tryCommit p.val k)) ∧
    (h.kind = 1 → let at' := manifestOff + (2 ^ 21 * h.index.toNat + h.offset.toNat)
      at' + bs.length ≤ headerArea → exec (.snapManifest p i) s = .next
        (((a.putBytes p.val (y.slotBase k + at') bs).setHeld p.val k
          { a.held p.val k with manifestGot := (a.held p.val k).manifestGot + bs.length }).tryCommit p.val k)) ∧
    (h.kind = 3 → exec (.rideData p i) s = .next
      (let a1 := a.placePiece p.val k y h true bs
       let n := h.index.toNat
       if (a1.held p.val k).got.get 0 n = 2 ^ 21 then
         (a1.sendSn (a1.homeQuad p.val) x.src { h with kind := 4, offset := 0 }
           (shake256 (a1.jobBytes (a1.someTower p.val) (y.slotBase k + headerArea + 2 ^ 21 * n) (2 ^ 21)))).tryCommit p.val k
       else a1))) ∧
  (∀ (p : PartId) (i : Nat) (s : State) (x : Packet) (k : Nat), let c := Ctl.ofBytes x.payload
    let a := s.dropRx i
    s.rxAt p.val i 0 = some x → c.kind = 0x11 → a.openSlot p.val c.id x.src = some k → exec (.snapSeal p i) s = .next
      ((a.setHeld p.val k { a.held p.val k with sealLen := some (bitsAt c.rest 108 32) }).tryCommit p.val k))

/-- FETCH of a slot whose commit record names the snapshot of the sender sends the pages asked for that are not frozen,
then FETCH_END (R341, R345). FETCH_DATA of a flash snapshot keeps a piece, and writes a whole page that matches its
digest to flash (R341). FETCH_END notes status 0 (R341). FETCH_RESEND sends FETCH again (R352). FLASH_WRITE_COMPLETE
writes the manifest and the commit record, raises the SNAPSHOT event and begins a Serge snapshot where due (R341, R320).
SERGE_SEGMENT_WRITE writes the next segment (R342). Each result is the whole next state. -/
def Obligations.FetchCommandsComplete : Prop :=
  (∀ (p : PartId) (i : Nat) (s : State) (x : Packet) (k : Nat) (y : SnapPlan), let c := Ctl.ofBytes x.payload
    let h := s.held p.val k
    s.rxAt p.val i 0 = some x → c.kind = 0x18 →
    s.plan p.val = some y →
    [0, 1].find? (fun k => (s.held p.val k).committed &&
      (Cm.ofNat (s.jobNat p.val (y.slotBase k) 64)).any (fun x => decide (x.id = c.id))) = some k →
    h.member = x.src → c.rest.testBit 85 = false → exec (.snapFetch p i) s = .next
      (let base := y.slotBase k
       let pages := ((List.range (bitsAt c.rest 86 27)).map (fun n => bitsAt c.rest 113 27 + n)).filter (fun n => decide (n < h.pages) &&
         !(Me.ofNat (s.jobNat p.val (base + manifestOff + 128 + 48 * n) 48)).frozen)
       (pages.foldl (fun a n =>
         let sn : Sn := { id := c.id, index := BitVec.ofNat 27 n, kind := 2, slot := BitVec.ofNat 1 k, member := h.member }
         a.sendPieces (a.homeQuad p.val) x.src sn false (a.jobBytes (a.someTower p.val) (base + headerArea + 2 ^ 21 * n) (2 ^ 21)))
         (s.dropRx i)).sendCtl p.val x.src (Ctl.snap 0x19 c.id (0 * 2 ^ 136)))) ∧
  (∀ (p : PartId) (i : Nat) (s : State) (x : Packet) (f : FlashRun) (ft : FetchRun), let h := Sn.ofBytes x.payload
    let n := h.index.toNat
    s.rxAt p.val i 4 = some x → h.kind = 2 → (s.part p.val).job.flash = some f →
    (∀ r, (s.part p.val).job.restore = some r → r.fetch.begun = false ∨ r.fetch.id ≠ h.id) → f.fetch.id = h.id →
    (f.fetch.take n h.offset.toNat (x.payload.drop 32) = (ft, none) → exec (.fetchData p i) s = .next
      ((s.dropRx i).modJob p.val (fun y => { y with flash := some { f with fetch := ft } }))) ∧
    (∀ pg, f.fetch.take n h.offset.toNat (x.payload.drop 32) = (ft, some pg) → (manifestEntry f.fetch.manifest n).fits pg = true →
      exec (.fetchData p i) s = .next
        ((((s.dropRx i).openFlash p.val f).setFlash f.slot (headerArea + 2 ^ 21 * n) pg).modJob p.val (fun y =>
          { y with flash := some { f with opened := true, fetch := { ft with placed := ft.placed ++ [n] } } })))) ∧
  (∀ (p : PartId) (i : Nat) (s : State) (x : Packet) (f : FlashRun), let c := Ctl.ofBytes x.payload
    s.rxAt p.val i 0 = some x → c.kind = 0x19 → (s.part p.val).job.flash = some f →
    (∀ r, (s.part p.val).job.restore = some r → r.fetch.begun = false ∨ r.fetch.id ≠ c.id) → f.fetch.id = c.id → BitVec.ofNat 4 (bitsAt c.rest 136 4) = 0 → exec (.fetchEnd p i) s = .next
      ((s.dropRx i).modJob p.val (fun y => { y with flash := some { f with fetch := { f.fetch with ended := some 0 } } }))) ∧
  (∀ (p : PartId) (s : State) (r : Restore), let f := r.fetch
    (s.part p.val).job.restore = some r → f.begun = true → f.ended = none →
    f.resends < 64 → exec (.fetchResend p) s = .next
      ((s.modJob p.val (fun j => { j with restore := some { r with fetch := { f with resends := f.resends + 1 } } })).sendCtl p.val
        (s.partnerOf p.val) (Ctl.snap 0x18 f.id (manifestPages f.manifest * 2 ^ 86)))) ∧
  (∀ (p : PartId) (s : State) (f : FlashRun) (m : Mf), let j := (s.part p.val).job
    j.flash = some f → Mf.ofBytes f.fetch.manifest = some m → f.fetch.all = true → f.fetch.ended ≠ none →
    exec (.flashWriteComplete p) s = .next
      (let ride := (List.range m.pages.toNat).any (fun i => (manifestEntry f.fetch.manifest i).ride)
       let c : Cm := { id := f.fetch.id, step := f.step, digest := digestOf f.fetch.manifest, pages := m.pages, seq := s.flashSeq + 1,
                       tier := 2, slot := BitVec.ofNat 4 f.slot, signed := decide (m.sigLen ≠ 0), ride := ride }
       let s1 := ((s.openFlash p.val f).setFlash f.slot manifestOff f.fetch.manifest).setFlash f.slot 0 (bytesOf c.toNat 64)
       let s2 : State := { s1 with flashSeq := s.flashSeq + 1 }
       let s3 := ((s2.modJob p.val (fun y => { y with flash := none })).setCatEntry p.val (2 + f.slot) c.id c.step 2 f.slot 2).jobEvent
         p.val 10
       if j.latched.sergeEvery ≠ 0 && decide (f.number % j.latched.sergeEvery = 0) then s3.beginSerge p.val f m.pages.toNat
       else s3)) ∧
  (∀ (p : PartId) (s : State) (r : SergeRun), let k := s.part p.val
    let n := k.jcp.segWritten
    let w := k.job.latched.sergeWindow
    let slots := (s.window w).size.toNat / 32
    k.job.serge.find? (fun r => decide (r.first ≤ n) && decide (n < r.first + BitVec.ofNat 64 r.total)) = some r →
    slots ≠ 0 → n.toNat < k.jcp.persistAck.toNat + slots → (s.window w).takes p.val 0 (2 ^ 26) = true →
    exec (.sergeSegmentWrite p) s = .next
      (let i := (n - r.first).toNat
       let s1 : State := { s with out := s.out ++ [.hostWrite w (2 ^ 26 * (n.toNat % slots)) (s.segmentBytes r i)],
                                  sergeSeq := if i + 1 = r.total then s.sergeSeq + 1 else s.sergeSeq }
       (s1.modJcp p.val (fun x => { x with segWritten := n + 1 })).jobEvent p.val 4))

/-- REJOIN of a member notes the step from which it is live, or answers REJOIN_LATE from an owner that has broadcast
that step (R346). REJOIN_LATE makes a withdrawn module rejoin one step later (R346). RESTORE of a START's restore checks
the Muslin header and asks for its pages, and, the fetch ended, puts the other pages in place (R350, R351).
RESTORE_COMPLETE sets the partition to the step after the snapshot's and enters in the catalogue the Muslin copy that
the module now stands on (R343, R352, R353, R457). Each result is the whole next state. -/
def Obligations.RejoinAndRestoreComplete : Prop :=
  (∀ (p : PartId) (i : Nat) (s : State) (x : Packet), let c := Ctl.ofBytes x.payload
    s.rxAt p.val i 0 = some x → c.kind = 0x20 → exec (.rejoin p i) s = .next
      (if (s.body p.val).groups.any (fun d => decide (d.ownCount ≠ 0)) && decide (c.id ≤ s.broadcastStep p.val) then
         (s.dropRx i).sendCtl p.val x.src (Ctl.snap 0x21 (s.broadcastStep p.val) 0)
       else (s.dropRx i).modJob p.val (fun j =>
         { j with rejoins := j.rejoins.filter (fun r => decide (r.1 ≠ x.src)) ++ [(x.src, c.id)] }))) ∧
  (∀ (p : PartId) (i : Nat) (s : State) (x : Packet) (st : BitVec 64), let c := Ctl.ofBytes x.payload
    s.rxAt p.val i 0 = some x → c.kind = 0x21 → (s.part p.val).job.withdrawn = some st → st ≤ c.id →
    exec (.rejoinLate p i) s = .next
      (((s.dropRx i).modJob p.val (fun j => { j with withdrawn := some (c.id + 1) })).rejoinNow p.val)) ∧
  (∀ (p : PartId) (h : HeaderArea) (flashSig : Option (List Byte)) (serge : Option SergeCopy) (s : State) (r : Restore) (m : Mf),
    (s.part p.val).job.restore = some r → r.done = false → r.rollback = false → r.fetch.begun = false →
    (s.part p.val).job.partnerLost = false → s.restoreWaits p.val r = false → h.good s.fw r.fetch.id 1 = some m → s.restoreFits p.val r m = true →
    exec (.snapRestore p (some h) flashSig serge) s = .next
      (let slot := match Cm.ofNat h.commit.toNat with | some c => some c.slot.toNat | none => none
       (s.modJob p.val (fun j => { j with restore := some { r with
         slot := slot, fetch := { r.fetch with begun := true, manifest := h.manifest } } })).sendCtl p.val (s.partnerOf p.val)
         (Ctl.snap 0x18 r.fetch.id (m.pages.toNat * 2 ^ 86)))) ∧
  (∀ (p : PartId) (muslin : Option HeaderArea) (flashSig : Option (List Byte)) (serge : Option SergeCopy) (s s1 : State) (r : Restore)
    (m : Mf),
    let slot := s.flashOf p.val r.fetch.id flashSig
    let takes (n : Nat) : Bool := (s.window (s.part p.val).job.latched.sergeWindow).takes p.val 0 ((ceilDiv n 32 + 1) * 2 ^ 26)
    let store := match serge with
      | some c => (match c.header.good s.fw r.fetch.id 3 with
        | some q => if takes q.pages.toNat then c.pages else []
        | none => [])
      | none => []
    (s.part p.val).job.restore = some r → r.done = false → r.fetch.begun = true → r.fetch.all = true → r.fetch.manifest ≠ [] →
    Mf.ofBytes r.fetch.manifest = some m → s.restoreFits p.val r m = true →
    s.restorePages p.val r.fetch.placed slot store r.fetch.manifest (List.range m.pages.toNat) = .ok s1 →
    exec (.snapRestore p muslin flashSig serge) s = .next
      (s1.modJob p.val (fun j => { j with restore := some { r with done := true } }))) ∧
  (∀ (p : PartId) (s : State) (r : Restore) (x : SnapPlan), let j := (s.part p.val).job
    j.restore = some r → s.plan p.val = some x → r.done = true → r.rollback = false →
    exec (.restoreComplete p) s = .next
      (let page0 := (x.pages.headD {}).page.toNat
       let a := 2 ^ 21 * page0
       let t := BitVec.ofNat 64 (s.jobNat p.val a 8)
       let s1 := s.clearReduction p.val
       let s2 := (s1.body p.val).groups.foldl (fun b d =>
         ((List.range d.ownCount.toNat).map (fun i => d.ownFirst.toNat + i)).foldl (fun c n =>
           c.openOwned p.val (t + 1).toNat d n) b) s1
       let s3 := s2.modCoresOf p.val (fun k => { k with
         bndValid := 0
         report := { logSize := k.report.logSize, logEn := k.report.logEn, logBase := k.report.logBase,
                     logLocked := k.report.logLocked, baseLocked := k.report.baseLocked } })
       let s4 := ((s3.restoreRoutes p.val page0 (t + 1)).rebroadcast p.val (t + 1)).setStep p.val (t + 1)
       let newest : Option Newest := match r.slot with
         | some n => if r.fetch.bad.isEmpty && r.fetch.all then some { id := r.fetch.id, step := t, slot := n % 2, complete := true } else none
         | none => none
       let s5 := s4.modPart p.val (fun k => { k with
         jcp := { k.jcp with step := t }
         job := { k.job with
           restore := none, cursor := BitVec.ofNat 64 (s.jobNat p.val (a + 8) 8), newest := newest, updateBegun := false,
           withdrawn := none, rejoins := [], snapDue := none, rideStep := none, stopStep := none, stepIrqBase := t } })
       let s6 := match newest, r.slot with
         | some n, some _ => (s5.setCatEntry p.val n.slot n.id n.step 1 n.slot 2).postJobNat p.val x.catalogue.toNat 8 t.toNat
         | _, _ => s5
       (s6.clearFar p.val).retryAllFar))

/-- POWER_ON, the 12 V input absent or below 10.5 V, asserts power-on reach, and the meter loses its supply (R358, R375, R423, R441);
BROWN_OUT with 12 V good, the 48 V input below 40.0 V, absent, or above 58.0 V, which opens the input switch, asserts cold reach; MRST_N low for 1 µs or
longer, with 12 V present, asserts warm reach, and less than 100 ns does nothing (R469). WATCHDOG_EXPIRE asserts its
cluster's reach (R379), WATCHDOG_RESTART clears its count. RST_SW_REQUEST, and with 12 V present DEBUG_REQUEST, assert
the reach they name (R359, R360, R467). CONTROL_CORE_LOCKUP of a core that is not debug-halted asserts a die's or warm reach. SOURCE_RELEASE releases, an input's source once
the input is good (R362, R423). DEBUG_REQUEST also halts a control core while debug is open, and lets it go on (14 R401, 18 R453). TRST_N sets the TAP's reset (R466). Each result is the whole next state. -/
def Obligations.ResetSourcesComplete : Prop :=
  (∀ (v12 : InputVolts) (s : State), v12.below 1050 = true → exec (.powerOn v12) s = .next
    (let s1 := ({ s with banksOff := s.banksOff ||| 0xF, hubOff := false, meter := s.meter.loseSupply } : State).assertReset .powerOn .powerOn
     s1.setRst { s1.rst with absent12 := s1.rst.absent12 || v12.isNone, tapRequest := 4, padsLoaded := false })) ∧
  (∀ (x : Input48) (s : State), s.power12 = true → (x.volts.below 4000 = true ∨ x.volts.below 5801 = false) →
    exec (.brownOut x) s = .next
      (({ s with banksOff := s.banksOff ||| x.off.setWidth 5, hubOff := false, switchOver := s.switchOver || !x.volts.below 5801 } :
        State).assertReset .brownOut .cold)) ∧
  (∀ (n : Nat) (s : State), s.present12 = true → let d : State := { s with freeCounter := s.freeCounter + 1 }
    (1000 ≤ n → exec (.mrstN n) s = .next ((d.assertReset .mrst .warm).markHubWake s.hubOff)) ∧
    (n < 100 → exec (.mrstN n) s = .next d)) ∧
  (∀ (u : Fin 39) (cycles : Nat) (s : State), let n := s.rst.wdt.get 0 u.val + cycles
    s.clusterStopped u.val = false → s.clusterHalted u.val = false → exec (.watchdogExpire u cycles) s = .next
      (if n < 2 ^ s.rst.wdtLog.toNat then s.setRst { s.rst with wdt := s.rst.wdt.set 0 u.val n }
       else (s.setRst { s.rst with wdt := s.rst.wdt.set 0 u.val 0 }).assertReset .watchdog (s.watchdogReach u))) ∧
  (∀ (u : Fin 39) (s : State), exec (.watchdogRestart u) s = .next (s.setRst { s.rst with wdt := s.rst.wdt.set 0 u.val 0 })) ∧
  (∀ (w : BitVec 32) (x : Reach) (s : State), bitsAt w.toNat 24 8 = 0x5A → bitsAt w.toNat 13 3 ≤ 4 →
    reachOf (bitsAt w.toNat 18 6) (bitsAt w.toNat 16 2) (bitsAt w.toNat 13 3) = some x →
    s.hostBlocked = false → exec (.rstSwRequest (.host w)) s = .next (s.assertReset .software x)) ∧
  (∀ (x : Reach) (s : State), x.code ≤ 2 → exec (.rstSwRequest (.control x)) s = .next (s.assertReset .software x)) ∧
  (∀ (n : Nat) (x : Reach) (s : State), s.present12 = true → 1000 ≤ n →
    reachOf (bitsAt s.rst.tapRequest.toNat 5 6) (bitsAt s.rst.tapRequest.toNat 3 2) (bitsAt s.rst.tapRequest.toNat 0 3) = some x →
    exec (.debugRequest (.pin n)) s = .next (({ s with freeCounter := s.freeCounter + 1 } : State).assertReset .dbgreq x)) ∧
  (∀ (v : BitVec 11) (x : Reach) (s : State), s.present12 = true → s.rst.trstLow = false →
    reachOf (bitsAt v.toNat 5 6) (bitsAt v.toNat 3 2) (bitsAt v.toNat 0 3) = some x →
    exec (.debugRequest (.jtag v)) s = .next ((s.setRst { s.rst with tapRequest := v }).assertReset .jtag x)) ∧
  (∀ (low : Bool) (s : State), exec (.trstN low) s = .next (s.setRst { s.rst with trstLow := low, tapShifting := s.rst.tapShifting && !low })) ∧
  (∀ (u : Fin 78) (s : State), s.ctlHalted u.val = false → (u.val < 64 → s.clusterStopped (u.val / 2) = false →
      ∀ h : u.val / 2 < 36, exec (.controlCoreLockup u) s = .next (s.assertReset .lockup (.die ⟨u.val / 2, h⟩))) ∧
    (64 ≤ u.val → u.val < 72 → s.clusterStopped (32 + (u.val - 64) / 2) = false →
      ∀ h : 32 + (u.val - 64) / 2 < 36, exec (.controlCoreLockup u) s = .next (s.assertReset .lockup (.die ⟨32 + (u.val - 64) / 2, h⟩))) ∧
    (72 ≤ u.val → u.val < 77 → s.clusterStopped 36 = false → s.clusterStopped 37 = false →
      exec (.controlCoreLockup u) s = .next (s.assertReset .lockup .warm)) ∧
    (u.val = 77 → s.clusterStopped 38 = false → exec (.controlCoreLockup u) s = .next (s.assertReset .lockup .powerOn))) ∧
  (∀ (src : RstSource) (r : Reach) (x : InputPair) (s : State), src ≠ .powerOn → src ≠ .brownOut →
    exec (.sourceRelease src r x) s = .next (s.releaseReset src r)) ∧
  (∀ (r : Reach) (x : InputPair) (s : State), s.switchOpen = false → x.good48 = true →
    exec (.sourceRelease .brownOut r x) s = .next (({ s with switchOver := false } : State).releaseReset .brownOut .cold)) ∧
  (∀ (k : Fin 78) (on : Bool) (s : State), s.present12 = true → s.rst.trstLow = false → (on = true → s.debugOpen = true) →
    exec (.debugRequest (.halt k on)) s = .next (s.haltCtl k.val on)) ∧
  (∀ (on : Bool) (s : State), s.present12 = true → s.rst.trstLow = false →
    exec (.debugRequest (.shift on)) s = .next (s.setRst { s.rst with tapShifting := on })) ∧
  (∀ (r : Reach) (x : InputPair) (s : State), s.power12 = false → s.rst.absent12 = false → x.good12 = true →
    x.v48.below 4000 = false → s.switchOpen = false → s.switchOver = false →
    exec (.sourceRelease .powerOn r x) s = .next (s.setRst { s.rst with absent12 := false } |>.restamp |>.releaseReset .powerOn .powerOn))

/-- MANAGEMENT_START starts the management controller once 12 V is good (R370, R398). CLOCK_START, STRAP_SAMPLE and
OPTION_LOADING advance the exit in their phase (R370, R365, R366, R363, R381). HUB_START under STRAP_BOOT = 00, the
root key record good and the selector not on trial, runs the slot that the selector names where it passes its checks
(R367, R392). Each result is the whole next state. Failure of the oscillator or of REFCLK as the strapped source, or
of the hub's PLL, asserts warm reach; of an island's PLL its island; of the management clock power-on reach; under
STRAP_CLK = 10 REFCLK's failure resets the function and takes the host link down, and REFCLK_RETURN brings it back
(R366). Each result is the whole next state. -/
def Obligations.ExitSequenceBeginsAndClockCommands : Prop :=
  ((∀ (s : State), s.power12 = true → (∀ e ∈ s.rst.episodes, ∀ x ∈ e.asserted, x.2 ≠ .powerOn) → s.rst.mgmtUp = false →
    exec .managementStart s = .next
      (({ s with fw := { s.fw with mgmtSet := s.fw.mgmtImage } } : State).setRst
        { s.rst with mgmtUp := true, connectorEn := s.rst.connectorEn ||| 1 })) ∧
  (∀ (r : Reach) (s : State) (e : Episode), s.exiting .clockStart (fun x => decide (x = r)) = some e →
    exec (.clockStart r) s = .next (s.enterPhase e r.firstPhase)) ∧
  (∀ (boot clk : BitVec 2) (s : State) (e : Episode), s.exiting .strapSample Reach.hub = some e →
    exec (.strapSample boot clk) s = .next
      ((s.setRst { s.rst with
                         strapBoot := boot, strapClk := clk, clkStrapBad := s.rst.clkStrapBad || decide (clk = 3),
                         refclkLost := s.rst.refclkLost && decide (clk = 2) }).enterPhase e
        .optionLoading)) ∧
  (∀ (n : Fin 3) (s : State) (e : Episode), s.exiting .optionLoading Reach.hub = some e → s.rst.loadFail = false →
    (s.fw.fuses.readable = true → exec (.optionLoading n true) s = .next
      (let s1 := s.setRst { s.rst with
                                       optBusy := false, loadPasses := BitVec.ofNat 8 (n.val + 1), optValid := true, loadFail := false,
                                       padsLoaded := true }
       let s2 : State := ({ s1 with fw := { s1.fw with loaded := s1.fw.fuses }, pwr := { s1.pwr with vf := { points := 1, entries := s1.fw.fuses.vf } } } :
         State).takeTrims (fun k => decide (k / 4096 = 36))
       ({ s2 with mod := { s2.mod with fenced := s2.fencedQuads } } : State).enterPhase e .hubStart)) ∧
    (s.fw.fuses.readable = false → exec (.optionLoading n true) s = .next
      (s.setRst { s.rst with optBusy := false, loadPasses := 3, optValid := false, loadFail := true })) ∧
    exec (.optionLoading n false) s = .next
      (s.setRst { s.rst with optBusy := false, loadPasses := 3, optValid := false, loadFail := true })) ∧
  (∀ (s : State) (e : Episode), let s1 := s.setRst { s.rst with bootFail := 0, fallback := false, recoveryWait := false }
    let x := s1.fw.slots.get {} (slotKey s1.fw.selector.slot)
    s.exiting .hubStart Reach.hub = some e → e.waiting = false → s.hubPowered e = true → e.tried = [] →
    digestOf s.fw.rootKey = s.fw.loaded.rootHash → s.rst.strapBoot = 0 → s1.fw.selector.trial = false → s1.fw.slotCheck x = none →
    exec .hubStart s = .next (s1.hubRuns e x.image (BitVec.ofNat 2 (slotKey s1.fw.selector.slot)) false))) ∧
  ((∀ (u : List (Fin 16 × CtxKey)) (s : State),
    (s.rst.strapClk ≠ 1 → exec (.clockFailure .oscillator u) s = .next (s.assertReset .clock .warm)) ∧
    (s.rst.strapClk = 1 → exec (.clockFailure .refclk u) s = .next (s.assertReset .clock .warm)) ∧
    (s.rst.strapClk = 2 → exec (.clockFailure .refclk u) s = .next
      (let s1 := functionLevelReset u s
       s1.setRst { s1.rst with hostLink := false, refclkLost := true })) ∧
    exec (.clockFailure .management u) s = .next (s.assertReset .clock .powerOn) ∧
    exec (.clockFailure .hubPll u) s = .next (s.assertReset .clock .warm) ∧
    (∀ i, exec (.clockFailure (.islandPll i) u) s = .next (s.assertReset .clock (.island i)))) ∧
  (∀ (s : State), s.rst.strapClk = 2 → s.rst.refclkLost = true → exec .refclkReturn s = .next
    (s.setRst { s.rst with refclkLost := false, hostLink := s.rst.connectorEn.getLsbD 1 })))

/-- CONFIGURATION_READ with a good control region and factory block takes the watchdogs' configuration and the user
calibration (R372, R389, R437). BRING_UP of a powered die brings up its DRAM, its quadrant with its last die, and the
exit with its last (R370). ISLAND_EXIT ends an island's exit. READY sets MOD.READY (R371). REC_SNAP_ACK acknowledges
an interrupted snapshot (R373). BOOT_GO in recovery wait runs an image that passes its checks (R367, R369). Each
result is the whole next state. -/
def Obligations.ExitSequenceEnds : Prop :=
  (∀ (x : ConfigNor) (s : State) (e : Episode), s.exiting .configRead Reach.hub = some e →
    (s.rst.bootSrc.toNat < 2 → s.fw.hub.ctlCheck = none) → s.fw.sigCheck .factory s.fw.factory [2] s.fw.factorySig = none →
    exec (.configurationRead x) s = .next
      (let f : Firmware := { s.fw with quadSets := [0, 1, 2, 3].foldl (fun m q => FMap.set {} m q s.fw.hub) [] }
       let pw : Power := ({ s.pwr with
         cal := s.userCal, calCopy := s.userCalCopy, fac := s.fw.factoryCal, vf := { points := 8, entries := s.fw.factoryCal.vf } } : Power).derated
       (({ s with fw := f, pwr := pw } : State).setRst
         { s.rst with
           wdtLog := if 20 ≤ x.wdtLog.toNat ∧ x.wdtLog.toNat ≤ 32 then x.wdtLog else 28
           wdtReach := if s.rst.wdtLocked then s.rst.wdtReach else if x.wdtReach = 2 ∨ x.wdtReach = 3 then x.wdtReach else 4
           wdtLocked := true }).enterPhase e .bringUp)) ∧
  (∀ (d : Fin 36) (s : State) (e : Episode), let e1 : Episode := { e with dies := e.dies ++ [d.val] }
    s.exiting .bringUp (fun r => r.hasDie d.val) = some e → s.banksOff.getLsbD (dieQuad d.val) = false → d.val ∉ e.dies →
    exec (.bringUp d) s = .next
      (let s1 := ((if d.val < 32 then s.wakeDram d.val else s).takeTrims (fun k => decide (k / 4096 = d.val))).setEpisode e (some e1)
       let s2 := if 3 ≤ e.reach.code ∧ quadIn e1.dies (dieQuad d.val) = true then s1.quadUp (dieQuad d.val) else s1
       if (List.range 36).all (fun x => !e.reach.hasDie x || e1.dies.contains x) then
         (if e.reach.hub then s2.enterPhase e1 .ready else s2.endEpisode e1)
       else s2)) ∧
  (∀ (i : Island) (s : State) (e : Episode), s.exiting .islandExit (fun r => decide (r = .island i)) = some e →
    (∀ k, i = .channel k → exec (.islandExit i) s = .next
        (((s.setChan k.val { s.chan k.val with selfRef := s.tripped (chanTower k.val) }).takeTrims (fun n => decide (n = i.number))).endEpisode e)) ∧
    ((∀ k, i ≠ .channel k) → exec (.islandExit i) s = .next ((s.takeTrims (fun n => decide (n = i.number))).endEpisode e))) ∧
  (∀ (s : State) (e : Episode), s.exiting .ready Reach.hub = some e → exec (.moduleReady none none) s = .next
    (({ s with mod := { s.mod with ready := !s.gh.notReady }, rst := { s.rst with connectorEn := s.rst.connectorEn ||| 0 } } :
      State).endEpisode e)) ∧
  (∀ (n m : Fin 2097153) (s : State) (e : Episode), s.exiting .ready Reach.hub = some e →
    exec (.moduleReady (some n) (some m)) s = .next
      (let a := s.setCxlPort 0 { s.cxlPort 0 with linkUp := true, pages := n.val }
       let b := a.setCxlPort 1 { a.cxlPort 1 with linkUp := true, pages := m.val }
       ({ b with mod := { b.mod with ready := !b.gh.notReady }, rst := { b.rst with connectorEn := b.rst.connectorEn ||| 12 } } :
         State).endEpisode e)) ∧
  (∀ (s : State), s.rst.recSnapValid = true → s.hostBlocked = false → exec .recSnapAck s = .next
    ((s.setFlash s.rst.recFlashSlot.toNat 2048 (List.replicate 64 0)).setRst { s.rst with recSnapValid := false })) ∧
  (∀ (x : FwSupply) (s : State) (e : Episode), (s.rst.strapBoot = 2 ∨ s.rst.recoveryWait = true) → s.rst.bootLen ≠ 0 →
    s.rst.bootLen.toNat ≤ 33554432 → s.hostBlocked = false →
    s.fw.supplyCheck (x.upTo s.rst.bootLen.toNat) = none → s.exiting .hubStart Reach.hub = some e → e.waiting = true →
    exec (.bootGo x) s = .next
      (let s1 := s.hubRuns e (x.upTo s.rst.bootLen.toNat).image 2 false
       s1.setRst { s1.rst with bootStatus := 2 }))

/-- With the key, no command in progress and no access of the host waiting (R297): WRITE_SLOT of an image that passes writes the slot not booted (R394);
FWU_SELECT of the committed slot written last puts it on trial (R395); CONFIRM of the trial slot ends the trial
(R395); SVN_COMMIT raises FUSE.FW_SVN (R382, R395); MGMT_WRITE writes the other management slot and selects it (R398);
ACTIVATE_QUAD of a fitting staged image resets the quadrant's dies (R396). Each result is the whole next state. -/
def Obligations.UpdateCommandsComplete : Prop :=
  ∀ (key : BitVec 8) (s : State), s.hostBlocked = false → s.fwuTakes key = true →
    (∀ (x : FwSupply), let y := x.upTo s.fw.len.toNat
      s.fw.len.toNat ≤ 33554432 → s.fw.supplyCheck y = none → bitsAt y.image.bits 32 32 ≤ s.fw.len.toNat →
      exec (.writeSlot key x none) s = .next
        (let b := s.updateSlot
         let slots := s.fw.slots.set {} (slotKey b) ((s.fw.slots.get {} (slotKey b)).write y.image none)
         (s.setFw { s.fw with staged := some y.image, lastSlot := some b, slots := slots, state := .busy, lastCmd := 1 }).fwuDone 1)) ∧
    (∀ b, s.fw.lastSlot = some b → (s.fw.slots.get {} (slotKey b)).committed ≠ none →
      exec (.fwuSelect key) s = .next
        ((s.setFw (s.fw.writeSelector { s.fw.selector with slot := b, trial := true, trialLeft := 3 })).fwuDone 3)) ∧
    (s.fw.bootedTrial = true → s.rst.bootSrc.toNat = slotKey s.fw.selector.slot →
      exec (.fwuConfirm key) s = .next
        ((s.setFw { s.fw.writeSelector { s.fw.selector with trial := false } with confirmed := true }).fwuDone 4)) ∧
    (s.fw.production = true → (s.fw.bootedTrial = false ∨ s.fw.confirmed = true) →
      exec (.svnCommit key) s = .next
        ((s.setFw { s.fw with fuses := { s.fw.fuses with
          fwSvn := s.fw.fuses.fwSvn.raise (raiseCount 64 s.fw.hub.svn s.fw.fuses.fwSvn.value) } }).fwuDone 5)) ∧
    (∀ (x : FwSupply), let y := x.upTo s.fw.len.toNat
      s.fw.len.toNat ≤ 4194304 →
      s.fw.mgmtCheck { y.image with readError := y.image.readError || y.readError } (fcDigest y.commit) = none →
      exec (.mgmtWrite key x none) s = .next
        (let i : FwImage := { y.image with readError := y.image.readError || y.readError }
         let b := !s.fw.selector.mgmtSlot
         let s1 := s.setFw { s.fw with
           mgmt := s.fw.mgmt.set {} (slotKey b) ((s.fw.mgmt.get {} (slotKey b)).write i none), state := .busy, lastCmd := 7 }
         (s1.setFw (s1.fw.writeSelector { s.fw.selector with mgmtSlot := b })).fwuDone 7)) ∧
    (∀ i, let q := bitsAt s.fw.arg.toNat 0 2
      s.fw.staged = some i → ifaceFits i.iface s.fw.hub.iface = true → (s.part (s.partOfQuad q)).jcp.state = .idle →
      exec (.activateQuad key) s = .next
        (let s1 := (s.setFw { s.fw with activating := some q, state := .busy, lastCmd := 2, error := 0 }).settleQuiesced.closeGatesOf q
         (List.range 36).foldl (fun a d => if h : d < 36 then (if dieQuad d = q then a.activateDie d h else a) else a) s1))

/-- With the key, no command in progress and no access of the host waiting (R297): CLAIM over I3C of an empty owner record, unsigned, takes
the token's key (R399, R400); TRANSFER, REVOKE_IMAGE and RELEASE, whose token passes its checks at the sequence of the record, replace the
key, revoke image keys, and empty the record (R399); DEBUG_UNLOCK with the boot's challenge unlocks debug (R401);
LIFECYCLE in development programs FUSE.LIFECYCLE (R383). Each writes the owner record that it leaves to the copy not in force, with
OWN.SEQ one higher (R399). Each result is the whole next state.
-/
def Obligations.TokenCommandsComplete : Prop :=
  ∀ (key : BitVec 8) (t : Token) (s : State), s.hostBlocked = false → s.fwuTakes key = true →
    let done (f : Firmware) (r : OwnerRec) : State := (s.setFw (f.writeOwner r)).fwuDone 6
    let own := s.fw.owner
    (t.i3c = true → t.bytes.length = 10112 → t.op = 1 → t.moduleId = s.fw.loaded.moduleId → t.subjectHash = digestOf t.key →
      allZero t.block = true → own.key = [] → exec (.ownerClaim key t) s = .next (done s.fw { own with key := t.key })) ∧
    ((s.fw.tokenCheck t 2 5 true).1 = true → t.seq = own.seq →
      exec (.ownerTransfer key t) s = .next (done s.fw { own with key := t.key })) ∧
    ((s.fw.tokenCheck t 3 5 false).1 = true → t.seq = own.seq →
      exec (.revokeImage key t) s = .next (done s.fw { own with revoke := own.revoke ||| t.arg.setWidth 16 })) ∧
    ((s.fw.tokenCheck t 4 2 false).1 = true → t.seq = own.seq →
      exec (.ownerRelease key t) s = .next (done s.fw { own with key := [], revoke := 0 })) ∧
    ((s.fw.tokenCheck t 5 5 false).1 = true → t.challenge = s.fw.challenge →
      exec (.debugUnlock key t) s = .next (done { s.fw with unlocked := true } own)) ∧
    ((s.fw.tokenCheck t 6 2 false).1 = true → s.fw.production = false →
      exec (.lifecycleToken key t) s = .next
        (done { s.fw with fuses := { s.fw.fuses with lifecycle := s.fw.fuses.lifecycle.raise 0xFF } } own))

/-- ATT_GO, with no access of the host waiting (R297), unless busy, writes the report for the nonce to the address given and marks it done (R402). PLDM_REQUEST,
with the management controller up and its I3C address taken (19 R465): a wake request wakes a module whose hub is off (R428); the meter's record and the
queued notices are answered (R452, R465); an attestation request is answered with a report (R402). A target without an address takes one by SETDASA or ENTDAA (19 R465). Each result is the
whole next state. -/
def Obligations.AttestationAndRequestsComplete : Prop :=
  (∀ (s : State), s.fw.attStatus ≠ 1 → s.hostBlocked = false → exec .attGo s = .next
    (let s1 := s.attestDrawn.setFw { s.fw with attStatus := 2 }
     { s1 with out := s1.out ++ [OutMsg.hubWrite s.fw.attAddr.toNat (s.attestReport s.fw.attNonce)] })) ∧
  (∀ (s : State), s.rst.mgmtUp = true → s.rst.i3cAddr = none →
    (∀ a, exec (.pldmRequest (.setdasa 0x3A a)) s = .next (s.setRst { s.rst with i3cAddr := some a }) ∧
      exec (.pldmRequest (.entdaa a)) s = .next (s.setRst { s.rst with i3cAddr := some a }))) ∧
  (∀ (s : State), s.rst.mgmtUp = true → s.rst.i3cAddr.isSome = true →
    (s.hubOff = true → exec (.pldmRequest .wake) s = .next s.wakeHub) ∧
    (s.hubOff = false → exec (.pldmRequest .meterRecord) s = .next
      { s with out := s.out ++ [OutMsg.mctp (padTo 192 s.meterView.record ++ padTo 1472 s.meterView.signature)] }) ∧
    (s.hubOff = false → exec (.pldmRequest .notices) s = .next
      { s with out := s.out ++ [OutMsg.notices s.notices], notices := [] }) ∧
    (∀ nonce, s.hubOff = false → exec (.pldmRequest (.attest nonce)) s = .next
      { s.attestDrawn with out := s.out ++ [OutMsg.mctp (s.attestReport nonce)] }))

/-- GINGHAM_TEST of an idle cluster whose first scheduled test that may begin writes a frame that still holds a page clears FT.PRESENT of
the frame, so that the page moves first (R411, 09 R249); else it takes that test, disables its unit and begins the test (R410, R411). Of a
cluster that runs a test it begins a port's second half (R411, log 100). GINGHAM_TEST_COMPLETE of a test that passes whole below
the repeat limit counts a transient and returns the unit; one that fails is a lasting fault (R413, R415). CE_POLL reads
the corrected counts of a tower's units and leaves in each what hardware counts in the read's own cycle (R409, R14);
that cluster's clock, and the one below, runs. SUPPRESSION_WINDOW_EXPIRE ends the windows of a writer outside a job:
with no suppressed record in them nothing else changes, and one with suppressed records writes its summary (R405). Each
result is the whole next state. -/
def Obligations.TestCommandsComplete : Prop :=
  (∀ (cl : Fin 39) (s : State) (i : Nat), let t := s.gh.queue.getD i {}
    let s1 := if s.gh.disabled.contains t.target then s else s.disableUnit t.target
    let row := s.testFrame t
    let was := s.found t.target || t.was
    (∀ x ∈ s.gh.running, x.1 ≠ cl.val) → s.gh.queue.findIdx? (s.testReady cl.val) = some i →
    (∀ n, row = some n → (s.frame (n / 49152) (n % 49152)).present = true → exec (.ginghamTest cl) s = .next
      (({ s with gh := { s.gh with queue := listSet s.gh.queue i { t with was := true, row := row } } } : State).setFrame (n / 49152)
        (n % 49152) { s.frame (n / 49152) (n % 49152) with present := false })) ∧
    (s1.unitFree t.target = true → (∀ n, row = some n → (s.frame (n / 49152) (n % 49152)).present = false) →
    exec (.ginghamTest cl) s = .next
      (let s2 := s1.prepare t
       let g : Gingham := { s2.gh with
         queue := s2.gh.queue.eraseIdx i, running := s2.gh.running ++ [(cl.val, { t with was := was, row := row })]
         reqState := if t.host then 2 else s2.gh.reqState }
       (({ s2 with gh := g } : State).settleQuiesced).closeGatesIn t.target.quads))) ∧
  (∀ (cl : Fin 39) (s : State) (k : Nat) (t : Test), s.gh.running.find? (fun x => decide (x.1 = cl.val)) = some (k, t) →
    exec (.ginghamTest cl) s = .next (s.nextHalf t.target)) ∧
  (∀ (cl : Fin 39) (s : State) (k : Nat) (t : Test), let g := s.gh
    let n := g.counts.get 0 t.target.key + 1
    let left (q : Gingham) : State := ((({ s with gh := { q with
      running := g.running.filter (fun x => decide (x.1 ≠ cl.val)), disabled := g.disabled.filter (fun x => decide (x ≠ t.target))
      tests := g.tests + 1 } } : State).settleQuiesced).restoreUnit t).openGates
    g.running.find? (fun x => decide (x.1 = cl.val)) = some (k, t) →
    (n < g.repeatLimit.toNat → s.wholeTest t = true → exec (.ginghamTestComplete cl .pass) s = .next
      ((((left { g with transient := g.transient + 1, counts := g.counts.set 0 t.target.key n
                        reqState := if t.host then 3 else g.reqState }).logError (t.report 0x0F01 t.kind t.cause.toNat 0)).comesBack
          t.target).afterTest t)) ∧
    (∀ a, exec (.ginghamTestComplete cl (.fail a)) s = .next
      (((left { g with reqState := if t.host then 4 else g.reqState }).lasting t 0 a.toNat false).afterTest t))) ∧
  (∀ (t : TowerId) (coreNow chanNow : List Nat) (s : State), s.clusterStopped t.val = false → exec (.cePoll ⟨t, coreNow, chanNow⟩) s = .next
    (let p := s.partOfTower t.val
     let s1 := (List.range 16).foldl (fun a n =>
       (a.modCore (16 * t.val + n) (fun k => { k with sramCe := rcRead k.sramCe (coreNow.getD n 0) })).ceStorm 1
         (16 * t.val + n) (a.core (16 * t.val + n)).sramCe.toNat p) s
     ((List.range 32).foldl (fun a n =>
       (a.setChan (32 * t.val + n) { a.chan (32 * t.val + n) with
         ceCount := rcRead (a.chan (32 * t.val + n)).ceCount (chanNow.getD n 0) }).ceStorm 2 (32 * t.val + n)
           (a.chan (32 * t.val + n)).ceCount.toNat p) s1).retarget p)) ∧
  (∀ (cl : Fin 39) (s : State),
    let outside (x : Suppress) : Bool := decide (s.windowOf x = cl.val) &&
      (match x.part with | none => true | some p => !(s.part p.toNat).jcp.state.inJob)
    let s1 : State := { s with err := { s.err with suppress := s.err.suppress.filter (fun x => !outside x) } }
    s.clusterStopped cl.val = false →
    ((∀ x ∈ s.err.suppress, outside x = true → x.count = 0) → exec (.suppressionWindowExpire cl) s = .next s1) ∧
    (∀ x, s.err.suppress.filter outside = [x] → x.count ≠ 0 → exec (.suppressionWindowExpire cl) s = .next
      (let r : Report1 := {
         code := x.code.toNat, kind := x.unitKind.toNat, unit := x.unit.toNat, part := x.part.map BitVec.toNat
         info := if x.unitKind = 13 then x.frame else 0, frame := x.frame }
       s1.writeRecord (s1.record r x.count))))

/-- With no access of the host waiting (R297): GH_REQ with the key, of a unit with a test in a partition with no job in progress, schedules
a test of it, which GH.REQ_STATE then follows in place of any before it (R419, R422).
GH_CLR_COUNTS clears the transient counts (R413). FENCE_ADD with the key, of a kind that is fenced, in a table with
room and with no test of the unit, fences it with cause 2 (R415, R419). FENCE_REMOVE with the key removes a valid
entry, records it, and schedules a test of the unit (R418). Each result is the whole next state.
-/
def Obligations.FenceCommandsComplete : Prop :=
  (∀ (kind : BitVec 4) (unit : BitVec 12) (s : State) (p : Nat), let x : UnitRef := { kind := kind, index := unit.setWidth 28 }
    kind ≠ 13 → x.test ≠ 0 → s.unitPart x = some p → (s.part p).jcp.state.testable = true → s.hostBlocked = false →
    exec (.ghReq 0x47 kind unit) s = .next
      (((({ s with gh := { s.gh with
             reqState := 1, queue := s.gh.queue.map (fun y => { y with host := false })
             running := s.gh.running.map (fun y => (y.1, { y.2 with host := false })) }
                   freeCounter := s.freeCounter + 1 } : State).schedule
        { target := x, cause := (Config.freeWord64 s.freeCounter).setWidth 32, host := true, part := some (BitVec.ofNat 2 p) })).retarget p)) ∧
  (∀ (s : State), s.hostBlocked = false → exec .ghClrCounts s = .next { s with gh := { s.gh with counts := [] } }) ∧
  (∀ (s : State), let e := FenceEntry.ofBits s.gh.fenceArg
    let x : UnitRef := { kind := e.kind, index := e.index }
    s.hostBlocked = false → (∃ i < 512, (s.gh.fences.get {} i).valid = false) → fenceable x = true →
    (∀ t ∈ s.gh.running, t.2.target ≠ x ∧ t.2.target.fences ≠ some (x.kind.toNat, x.index.toNat)) →
    exec (.fenceAdd 0x46) s = .next (s.fenceUnit x.kind.toNat x.index.toNat e.code 2 (s.unitPart x))) ∧
  (∀ (i : Fin 512) (s : State), let e := s.gh.fences.get {} i.val
    let x : UnitRef := { kind := e.kind, index := e.index }
    let p := s.unitPart x
    let s0 : State := { s with gh := { s.gh with fences := s.gh.fences.set {} i.val {} } }
    let s2 := ({ s0 with mod := { s0.mod with fenced := s0.fencedQuads } } : State).logError
      { code := 0x0F06, kind := e.kind.toNat, unit := if e.kind = 13 then e.index.toNat / 49152 else e.index.toNat, info := i.val,
        frame := if e.kind = 13 then e.index.toNat % 49152 else 0, part := p }
    e.valid = true → s.hostBlocked = false → x.test ≠ 0 →
    (e.kind = 13 → exec (.fenceRemove 0x46 i) s = .next
      (let s3 := s2.schedule { target := x, cause := s.err.wr, code := 0x0F06, part := p.map (BitVec.ofNat 2) }
       match p with | some n => s3.retarget n | none => s3)) ∧
    (∀ k j, e.kind ≠ 13 → fenceHome e.kind.toNat e.index.toNat = some (k, j) → exec (.fenceRemove 0x46 i) s = .next
      (let u := if k = 3 then j else 32 + j
       let s3 := ({ s2 with fromFence := if s2.fromFence.contains u then s2.fromFence else s2.fromFence ++ [u] } : State).schedule
         { target := x, cause := s.err.wr, code := 0x0F06, part := p.map (BitVec.ofNat 2) }
       match p with | some n => s3.retarget n | none => s3)))

/-- PSTATE_ENTRY_COMPLETE of a partition entering a deeper state stops what Retain and Standby stop, takes what
Standby loses, sets the state, raises THERMAL, and evaluates the target, or, where a command came meanwhile, begins its wake, and then the
hub's bank (R425 to R428, 11 R318).
WAKE_COMPLETE of a wake whose banks are on brings the partition back to Run (R427). BANK_PRECHARGE_COMPLETE puts a
wanted bank in regulation (R424). Each result is the whole next state. -/
def Obligations.PowerStateCommandsComplete : Prop :=
  (∀ (p : PartId) (s : State) (d : PState), (s.part p.val).power.moving = some d → d ≠ .run →
    exec (.pstateEntryComplete p) s = .next
      (let s1 := if 3 ≤ d.code then s.stopPart p.val else s
       let s2 := if d = .standby then (s1.losePart p.val).retryAllFar else s1
       let s3 := (s2.modPart p.val (fun k => { k with power := { k.power with state := d, moving := none } })).modEvent 3
       (if (s3.part p.val).job.nextCmd = none then s3.retarget p.val else s3.wakeFor p.val).maybeHubOff)) ∧
  (∀ (p : PartId) (s : State), let w := (s.part p.val).power
    w.moving = some .run → (w.state = .standby → ∀ q ∈ s.quadsOf p.val, s.banksOff.getLsbD q = false) →
    exec (.wakeComplete p) s = .next
      (let s1 := if 3 ≤ w.state.code then s.startPart p.val (decide (w.state = .standby)) else s
       let s2 := s1.modPart p.val (fun k => { k with power := { k.power with state := .run, moving := none } })
       let s3 := s2.modCoresOf p.val (fun k => match k.pendCtrl with
         | some q => if k.pass.isNone && k.drain.isNone then k.applyCtrl q else k
         | none => k)
       let s4 := if 3 ≤ w.state.code then s3.wakeEpoch p.val else s3
       ((s4.modEvent 3).retryCmds).retarget p.val)) ∧
  (∀ (b : Fin 5) (s : State), s.banksOff.getLsbD b.val = true → s.bankWanted b.val = true →
    exec (.bankPrechargeComplete b) s = .next { s with banksOff := s.banksOff &&& ~~~(BitVec.ofNat 5 (2 ^ b.val)) })

/-- THERMAL_EVALUATION of a tower takes its readings, sets its step to what the demands and the derates give, counts,
trips or resumes the tower, raises THERMAL where the step changes and marks the steps of cores off OP0 (R431 to R433).
COOLANT_READ takes the readings, sets the cap in force and trips every tower under an alarm (R434). PWR_CAP_WRITE
with no access of the host waiting (R297), stores the cap clamped to 4,000 to 10,400 W and sets the cap in force (R434). Each result is the whole next state. -/
def Obligations.ThermalCommandsComplete : Prop :=
  (∀ (t : TowerId) (sensors : List (BitVec 8)) (power : Nat) (s : State), exec (.thermalEvaluation t sensors power) s = .next
    (let x := s.pwr
     let y := x.towers.get {} t.val
     let m := x.meshCap t.val
     let cap := x.topLevel t.val
     let logic := x.logicReading t.val sensors
     let dt := if y.meshHalf then 65536 else 32768
     let dram := s.dramReading t.val
     let n := if y.level m < cap then cap else y.level m
     let y1 : TowerThermal := { y with
       logic := logic, dram := BitVec.ofNat 8 dram, sinceStep := y.sinceStep + dt
       coolLogic := if logic.toNat + x.logicCut t.val + 5 ≤ x.fac.limits.logicThrottle then y.coolLogic + dt else 0
       coolDram := if dram + x.dramCut t.val + 5 ≤ x.fac.limits.dramThrottle then y.coolDram + dt else 0 }
     let k := x.nextLevel t.val y1 n power
     let y3 : TowerThermal := { y1.atLevel k (x.lowPoint t.val) m with
       sinceStep := if k = n then y1.sinceStep else 0
       cause := if k ≤ cap then 0 else (x.demands t.val y1 n power).cause y.cause
       trips := if k = 9 ∧ n ≠ 9 then satAdd y.trips 1 else y.trips
       stepsDown := if n < k ∧ k ≠ 9 then satAdd y.stepsDown 1 else y.stepsDown }
     let s1 := s.setPwr { x with towers := x.towers.set {} t.val y3 }
     let s2 := if k = 9 ∧ n ≠ 9 then s1.tripTower t.val true else if k ≠ 9 ∧ n = 9 then s1.tripTower t.val false else s1
     let s3 := if k = n then s2 else s2.modEvent 3
     if k = 0 ∧ m = false then s3 else s3.markClock t.val)) ∧
  (∀ (flow : BitVec 12) (inlet outlet : BitVec 10) (v48 i48 v12 i12 : BitVec 16) (s : State),
    let cap := coolantCap flow.toNat inlet.toNat
    let read (alarm : Bool) : State := (s.setPwr { s.pwr with
      flow := flow, inlet := inlet, outlet := outlet, voltage48 := v48, current48 := i48, voltage12 := v12, current12 := i12
      alarm := alarm }).setCap s.pwr.capW.toNat cap
    (4000 ≤ cap → 600 ≤ flow.toNat → inlet.toNat ≤ 500 →
      exec (.coolantRead flow inlet outlet v48 i48 v12 i12) s = .next (read false)) ∧
    (cap < 4000 ∨ flow.toNat < 600 ∨ 500 < inlet.toNat →
      exec (.coolantRead flow inlet outlet v48 i48 v12 i12) s = .next (read true).alarmTrip)) ∧
  (∀ (v : BitVec 16) (s : State), s.hostBlocked = false → exec (.pwrCapWrite v) s = .next
    (s.setCap (if v.toNat < 4000 then 4000 else if 10400 < v.toNat then 10400 else v.toNat) s.pwr.coolantCap))

/-- A reading of 110 degrees or more trips a link die, whose ports are disabled, or the hub, which opens the input
switch: brown-out asserts where 12 V is good (R435, R375). A reading below 95 degrees clears a trip, and the hub
closes the switch (R435). PWR_CAL_GO with the key and PWR.CAL_GO = 1, no access of the host waiting (R297) and an image that passes its checks writes the copy not in force
(R437, R438). Each result is the whole next state. -/
def Obligations.TripAndCalibrationComplete : Prop :=
  (∀ (temp : BitVec 8) (s : State), 110 ≤ temp.toNat →
    (∀ d : LinkDieId, (s.pwr.links.get {} d.val).trip = false → exec (.dieThermalTrip (some d) temp) s = .next
      (let s1 := s.setPwr { s.pwr with links := s.pwr.links.set {} d.val { trip := true, temp := temp } }
       ((List.range 6).foldl (fun a i => klpEnable (portOf (6 * d.val + i)) false a) s1).modEvent 3)) ∧
    (s.switchOpen = false → exec (.dieThermalTrip none temp) s = .next
      (let s2 := ({ s with pwr := { s.pwr with hub := { trip := true, temp := temp } }, switchOpen := true } : State).modEvent 3
       if s2.power12 then s2.assertReset .brownOut .cold else s2))) ∧
  (∀ (temp : BitVec 8) (s : State), temp.toNat < 95 →
    (∀ d : LinkDieId, (s.pwr.links.get {} d.val).trip = true → exec (.dieTripClear (some d) temp) s = .next
      ((s.setPwr { s.pwr with links := s.pwr.links.set {} d.val { trip := false, temp := temp } }).modEvent 3)) ∧
    (s.switchOpen = true → exec (.dieTripClear none temp) s = .next
      (({ s with pwr := { s.pwr with hub := { trip := false, temp := temp } }, switchOpen := false } : State).modEvent 3))) ∧
  (∀ (bytes : List Byte) (s : State) (entries : List (BitVec 64)), s.hostBlocked = false → let img := bytes.take s.pwr.calLen.toNat
    s.pwr.calStatus ≠ 1 → s.pwr.calLen.toNat ≤ 1048576 → s.pwr.ucParse img = some entries →
    exec (.pwrCalGo 0x50 true bytes false) s = .next
      (let new := ucWrite img ((s.pwr.cal.map UserCal.seq).getD 0 + 1) entries
       let s1 := s.setPwr { s.pwr with calStatus := 2 }
       if s.pwr.cal.isSome && !s.pwr.calCopy then { s1 with userCal1 := some new }
       else { s1 with userCal0 := some new }))

/-- On a running meter: METER_SAMPLE in range adds a sample's energy to its channel and takes its readings (R442); one of the 48 V channel
also lets a signature under way go on, and ends it after its 160 samples (R445, log 12). METER_BROADCAST advances the seconds, and an idle
signing engine begins a broadcast record, whose values and MR.SEQ it takes now; to a busy one the record waits in order (R443, R445). HOLDUP_COMMIT commits and logs the
loss of supply, or notes the failed commit, and the meter stops, a response under way being cut and what waits being lost (R446, R451);
SEAL_BROKEN of a sealed meter is logged (R447). With 12 V good METER_START of a stopped meter with nothing to report
starts it from what it has committed (R442, R446). Each result is the whole next state. -/
def Obligations.MeterRunsComplete : Prop :=
  (∀ (v i : BitVec 16) (s : State), let m := s.meter
    m.running = true → i.toNat ≤ 800 → 2 ≤ i.toNat → exec (.meterSample true v i false) s = .next
      (let x := integrate m.regs.e12 m.rest12 (v.toNat * i.toNat) 288000000
       s.setMeter { m with
         regs := { m.regs with e12 := x.1 }, rest12 := x.2, v12 := v, i12 := BitVec.ofNat 16 i.toNat, over12 := false })) ∧
  (∀ (v i : BitVec 16) (s : State), let m := s.meter
    let x := integrate m.regs.e48 m.rest48 (v.toNat * i.toNat) 28800000
    let m1 : Meter := { m with
      regs := { m.regs with e48 := x.1 }, rest48 := x.2, v48 := v, i48 := BitVec.ofNat 16 i.toNat, over48 := false }
    m.running = true → i.toNat ≤ 3000 → 5 ≤ i.toNat →
    (m.signing = none → exec (.meterSample false v i false) s = .next (s.setMeter m1)) ∧
    (∀ y, m.signing = some y → y.ticks + 1 < 160 → exec (.meterSample false v i false) s = .next
      (s.setMeter { m1 with signing := some { y with ticks := y.ticks + 1 } })) ∧
    (∀ y, m.signing = some y → 160 ≤ y.ticks + 1 → exec (.meterSample false v i false) s = .next
      ((s.setMeter m1).endSigning y))) ∧
  (∀ (s : State), let m := s.meter
    m.running = true →
    (m.signing = none → exec .meterBroadcast s = .next
      (let m1 := ({ m with regs := { m.regs with seconds := m.regs.seconds + 1, seq := m.regs.seq + 1 } } : Meter).commit
       s.setMeter { m1 with signing := some { ask := .broadcast, bytes := m1.body 0 0 } })) ∧
    (m.signing ≠ none → exec .meterBroadcast s = .next
      (s.setMeter { m with regs := { m.regs with seconds := m.regs.seconds + 1 }, waiting := m.waiting ++ [.broadcast] })) ∧
    (∀ cut, exec (.holdupCommit ⟨true, cut⟩) s = .next
      ((s.cutResponse cut).setMeter
        { ((({ m with
              signing := none, waiting := [], holdup := false
              regs := { m.regs with interruptions := satAdd m.regs.interruptions 1 } } : Meter).logEvent 1 0).commit) with
          running := false })) ∧
    (∀ cut, exec (.holdupCommit ⟨false, cut⟩) s = .next ((s.cutResponse cut).setMeter
      { m with signing := none, waiting := [], holdup := false, running := false, commitLost := true })) ∧
    (m.sealed = true → exec .sealBroken s = .next (s.setMeter (({ m with sealed := false } : Meter).logEvent 3 0)))) ∧
  (∀ (fwSum : BitVec 256) (s : State), let m := s.meter
    m.running = false → s.power12 = true → m.commitLost = false → m.holdup = false → m.fwLogged = some fwSum → m.log.length < 65536 → (m.cell = false ∨ m.sealed = false) →
    exec (.meterStart fwSum) s = .next
      (s.setMeter (({ m with
        running := true, holdup := false, signing := none, waiting := [], regs := m.committed, rest48 := 0, rest12 := 0, selfCheckFail := false, over48 := false, over12 := false
        fwSum := fwSum, line := none } : Meter).logEvent 2 0).commit))

/-- A running meter to which fewer than two requests wait answers GET_INFO with its identity and firmware and GET_CERT with its certificate;
READ, with its nonce, and READ_LOG, of up to 32 entries, go to its signing engine, which begins them where it is idle and else lets them wait
in order; with two requests waiting each is answered with ERROR BUSY. A READ_LOG of another count, and a frame with a wrong sync, length, CRC
or code, is answered with ERROR; the bytes of a frame with nothing wrong are the command that they spell (R445, R449, R444, R450).
FRAME_GAP_TIMEOUT discards a frame and changes nothing (R449). With the management controller up, a
record on the meter's line that fails its CRC or its signature is counted and discarded; another replaces the view's
record, with a notice where the view was stale and one where the seal's state changes. Without an accepted record for
3,000 ms the view becomes stale, with a notice; its age only grows until the next (R452). Each result is the whole next state. -/
def Obligations.MeterPortAndViewComplete : Prop :=
  ((∀ (tag : BitVec 16) (s : State), let m := s.meter
    m.running = true → m.busy = false →
    exec (.getInfo tag) s = .next (s.answer 0x81 tag
      (bytesOf m.meterId.toNat 8 ++ (bytesOf m.moduleId.toNat 8 ++ (bytesOf m.fwVersion.toNat 4 ++ bytesOf m.fwSum.toNat 32)))) ∧
    exec (.getCert tag) s = .next (s.answer 0x84 tag m.cert) ∧
    (∀ nonce, m.signing = none → exec (.meterRead tag nonce) s = .next
      (let m1 := ({ m with regs := { m.regs with seq := m.regs.seq + 1 } } : Meter).commit
       s.setMeter { m1 with signing := some { ask := .read tag nonce, bytes := m1.body nonce 1 } })) ∧
    (∀ nonce, m.signing ≠ none → exec (.meterRead tag nonce) s = .next
      (s.setMeter { m with waiting := m.waiting ++ [.read tag nonce] })) ∧
    (∀ nonce first count, count ≠ 0 → count.toNat ≤ 32 →
      (m.signing = none → exec (.readLog tag nonce first count) s = .next
        (let head := bytesOf nonce.toNat 32 ++ (bytesOf m.regs.seq.toNat 8 ++ (bytesOf m.log.length 4 ++ (bytesOf first.toNat 4 ++
           (bytesOf count.toNat 1 ++ List.replicate 15 0))))
         let entries := ((m.log.drop first.toNat).take count.toNat).flatMap MeterEvent.bytes
         s.setMeter { m with signing := some { ask := .log tag nonce first count, bytes := head ++ entries } })) ∧
      (m.signing ≠ none → exec (.readLog tag nonce first count) s = .next
        (s.setMeter { m with waiting := m.waiting ++ [.log tag nonce first count] }))) ∧
    (∀ nonce first count, (count = 0 ∨ 32 < count.toNat) → exec (.readLog tag nonce first count) s = .next (s.answer 0xFE tag [1]))) ∧
  (∀ (tag : BitVec 16) (s : State), s.meter.running = true → s.meter.busy = true →
    ∀ c ∈ ([.getInfo tag, .getCert tag] : List Instr), exec c s = .next (s.answer 0xFE tag [3])) ∧
  (∀ (tag : BitVec 16) (nonce : BitVec 256) (first : BitVec 32) (count : BitVec 8) (s : State),
    s.meter.running = true → s.meter.busy = true →
    exec (.meterRead tag nonce) s = .next (s.answer 0xFE tag [3]) ∧
    exec (.readLog tag nonce first count) s = .next (s.answer 0xFE tag [3])) ∧
  (∀ (header rest : List Byte) (s : State), let bs := header ++ rest
    let tag := frameTag bs
    (∀ f, frameFault bs = some f → s.meter.running = true → exec (.meterError header rest) s = .next
      (s.answer 0xFE tag [match f with | .frame => 1 | .code => 2 | .busy => 3])) ∧
    (frameFault bs = none → (bs.getD 1 0).toNat = 1 → exec (.meterError header rest) s = exec (.getInfo tag) s) ∧
    (frameFault bs = none → (bs.getD 1 0).toNat = 2 → exec (.meterError header rest) s =
      exec (.meterRead tag (BitVec.ofNat 256 (ofBytes ((bs.drop 8).take 32)))) s) ∧
    (frameFault bs = none → (bs.getD 1 0).toNat = 4 → exec (.meterError header rest) s = exec (.getCert tag) s)) ∧
  (∀ (s : State), exec .frameGapTimeout s = .next s)) ∧
  ((∀ (crcOk sigOk : Bool) (s : State) (r : List Byte), let x := s.meterView
    let s1 := s.setMeter { s.meter with line := none }
    s.meter.line = some r → s.rst.mgmtUp = true →
    ((crcOk && sigOk) = false → exec (.meterRecordReceive crcOk sigOk) s = .next
      { s1 with meterView := { x with rejected := satAdd x.rejected 1, sigBad := true } }) ∧
    ((crcOk && sigOk) = true → exec (.meterRecordReceive crcOk sigOk) s = .next
      (let broken := (ofBytes (r.take 192)).testBit 459
       let s2 : State := { s1 with meterView := { x with
         age := 0, gen := x.gen + 2, sealBroken := broken, stale := false, sigBad := false, record := r.take 192, signature := r.drop 192 } }
       let s3 := if x.stale then s2.postNotice (.meterStale false) else s2
       if broken ≠ x.sealBroken then s3.postNotice .sealBroken else s3))) ∧
  (∀ (ms : Nat) (s : State), let x := s.meterView
    let age := max x.age.toNat (min ms 65535)
    let y (stale : Bool) : State := { s with meterView := { x with age := BitVec.ofNat 16 age, stale := stale } }
    s.rst.mgmtUp = true →
    (age < 3000 → exec (.meterStale ms) s = .next (y x.stale)) ∧
    (3000 ≤ age → x.stale = false → exec (.meterStale ms) s = .next ((y true).postNotice (.meterStale true)))))

/-- REGISTER_WRITE of every register, with every value in every state, completes: one of BAR0 behind an access of the host that a channel has
refused waits in the hub, after those that wait already (R297, R248); one of a register that firmware reaches in a control space
writes that register, and at an offset that holds none nothing (R12). A write of an aligned word of BAR0, with none
before it, or of two at an 8-byte-aligned offset, the low word first, writes those words and no other register; a
misaligned one changes nothing (R13, R297). Every other access of the host waits there in the same order. A latched word of a job control page in IDLE is stored, and ignored in any
other state (R303). ERR.RD takes a value that is not above ERR.WR (R313). A 1 written to a W1C bit of CHN.POISON_SEEN or
QEP.STUCK_SEEN clears it unless hardware sets it (R12). Each result is the whole next state. -/
def Obligations.RegisterWriteCompletes : Prop :=
  (∀ (r : RegRef) (wide : Bool) (v h : BitVec 64) (s : State), exec (.registerWrite r wide v h) s = .next
    (match r with
     | .bar0 off =>
       let s1 := s.bar0Write off.toNat (v.setWidth 32) (h.setWidth 32)
       if s.hostBlocked = true then { s with hostWait := s.hostWait ++ [.registerWrite (.bar0 off) wide v h] }
       else if wide = false then (if off.toNat % 4 = 0 then s1 else s)
       else if off.toNat % 8 = 0 then s1.bar0Write (off.toNat + 4) (v.extractLsb' 32 32) (h.extractLsb' 32 32)
       else s
     | r => match r.resolve with
       | some q => s.ctlWrite q v h
       | none => s)) ∧
  (∀ (off : BitVec 26) (wide : Bool) (v h : BitVec 64) (s : State), s.hostBlocked = true →
    exec (.registerWrite (.bar0 off) wide v h) s = .next
      { s with hostWait := s.hostWait ++ [.registerWrite (.bar0 off) wide v h] }) ∧
  (∀ (p : PartId) (img : StartImage) (w : WordWrite) (e : BitVec 32) (en : BitVec 11) (o : Option PartId) (n : Fin 16) (ab : Bool)
    (l : List CtxKey) (port : Fin 2) (s : State), s.hostBlocked = true →
    ∀ c ∈ ([.hostMaxVersionWrite e, .partCfgWrite (e.setWidth 8), .jobStart p img, .jobPause p, .jobResume p, .jobStop p, .jobAbort p,
        .jobClear p, .endStepWrite p w, .epochWrite p e, .eventEnableWrite o en, .swEnable n, .swDisable n ab l, .persistAckWrite p w,
        .latTolWrite p e, .farQuotaWrite p port e, .recSnapAck, .attGo, .ghClrCounts, .pwrCapWrite (e.setWidth 16)] : List Instr),
      exec c s = .next { s with hostWait := s.hostWait ++ [c] }) ∧
  (∀ (key : BitVec 8) (x : FwSupply) (cut : Option SlotCut) (t : Token) (kind : BitVec 4) (unit : BitVec 12) (i : Fin 512)
    (bytes : List Byte) (b : Bool) (p : PartId) (a : BitVec 64) (r : BitVec 32) (off : BitVec 36) (act : MemAct) (f : LineFound) (s : State),
    s.hostBlocked = true →
    ∀ c ∈ ([.writeSlot key x cut, .fwuSelect key, .fwuConfirm key, .svnCommit key, .mgmtWrite key x cut, .activateQuad key,
        .ownerClaim key t, .ownerTransfer key t, .revokeImage key t, .ownerRelease key t, .debugUnlock key t, .lifecycleToken key t,
        .ghReq key kind unit, .fenceAdd key, .fenceRemove key i, .pwrCalGo key b bytes b, .bootGo x, .farEvict p a, .rstSwRequest (.host r),
        .bar2Access off act f] : List Instr),
      exec c s = .next { s with hostWait := s.hostWait ++ [c] }) ∧
  (∀ (r : RegRef) (wide : Bool) (v h : BitVec 64) (s : State), (∀ off, r ≠ .bar0 off) →
    (∀ q, r.resolve = some q → exec (.registerWrite r wide v h) s = .next (s.ctlWrite q v h)) ∧
    (r.resolve = none → exec (.registerWrite r wide v h) s = .next s)) ∧
  (∀ (off : BitVec 26) (v h : BitVec 64) (s : State), s.hostBlocked = false →
    (off.toNat % 8 ≠ 0 → exec (.registerWrite (.bar0 off) true v h) s = .next s) ∧
    (off.toNat % 4 = 0 → exec (.registerWrite (.bar0 off) false v h) s = .next
      (s.bar0Write off.toNat (v.setWidth 32) (h.setWidth 32))) ∧
    (off.toNat % 8 = 0 → exec (.registerWrite (.bar0 off) true v h) s = .next
      ((s.bar0Write off.toNat (v.setWidth 32) (h.setWidth 32)).bar0Write (off.toNat + 4) (v.extractLsb' 32 32) (h.extractLsb' 32 32))) ∧
    (off.toNat % 4 ≠ 0 → exec (.registerWrite (.bar0 off) false v h) s = .next s)) ∧
  (∀ (p : PartId) (w : Fin 30) (v h : BitVec 64) (s : State), let off : Nat := 0x10 + 4 * w.val
    off ≠ 0x80 → s.hostBlocked = false → (exec (.registerWrite (.bar0 (BitVec.ofNat 26 (0x1000 * p.val + off))) false v h) s = .next
      (if (s.part p.val).jcp.state = .idle then s.modJcp p.val (fun x => { x with latch := x.latch.write off (v.setWidth 32) }) else s))) ∧
  (∀ (v h : BitVec 64) (s : State), s.hostBlocked = false → v.setWidth 32 ≤ s.err.wr →
    exec (.registerWrite (.bar0 0x20004) false v h) s = .next { s with err := { s.err with rd := v.setWidth 32 } }) ∧
  (∀ (k : ChannelId) (v h : BitVec 64) (s : State), exec (.registerWrite (.chanPoison k) false v h) s = .next
    (s.setChan k.val { s.chan k.val with
      poisonSeen := ((s.chan k.val).poisonSeen && !(v.setWidth 32).getLsbD 0) || (h.setWidth 32).getLsbD 0 })) ∧
  (∀ (c : CoreId) (e : EpId) (v h : BitVec 64) (s : State), exec (.registerWrite (.queueStuck c e) false v h) s = .next
    (s.setCore c.val ((s.core c.val).modEp e.val (fun x => { x with
      stuckSeen := (x.stuckSeen && !(v.setWidth 32).getLsbD 10) || (h.setWidth 32).getLsbD 10 }))))

/-- For every command but the meter's own (a sample, the broadcast, the hold-up commit, the start, a broken seal, READ
and the taking of the broadcast record off the internal line), the next state that exec answers has the meter unit
unchanged: every register, commit, event and identity of it. No reset reach contains it and no host or firmware access
writes it. -/
def Obligations.MeterOutOfReach : Prop :=
  ∀ (c : Instr) (s t : State), exec c s = .next t →
    (c.actsOnMeter = false → t.meter = s.meter)

/-- For every command but CHANNEL_REQUEST and FAR_FILL_COMPLETE, the far-tier device memory of the next state is that
of the state before. For every command but those of a flash snapshot and of the acknowledgement of an interrupted one
(FETCH_DATA, FLASH_WRITE_COMPLETE, REC_SNAP_ACK), the NAND flash is that of the state before. No
reset, however wide, changes either. For every command but PART_CFG_WRITE and the commands through which a reset can
assert, the layout of the next state is that of the state before. For every command outside the list (those whose
effect stores into tower DRAM, such as a drain, a memory-side operation or a snapshot page, those that log into a ring
there, and those through which a reset can lose it), the tower DRAM of the next state is that of the state before, byte
for byte. -/
def Obligations.MemoryAndLayoutFrame : Prop :=
  (∀ (c : Instr) (s t : State), exec c s = .next t →
    (c.writesFar = false → t.far = s.far) ∧ (c.writesFlash = false → t.flash = s.flash)) ∧
  (∀ (c : Instr) (s t : State), exec c s = .next t →
    (c.changesLayout = false → t.mod.qpart = s.mod.qpart)) ∧
  (∀ (c : Instr) (s t : State), exec c s = .next t →
    (c.storesDram = false → t.dram = s.dram))

/-- A PASS_ISSUE of a core does no more than put the log records that wait into the tower's DRAM wherever a condition of
Table 03.2 fails: no operator instance or no pass of it is left, the core does not issue or a CTRL write waits for the
pass boundary, an input tile, a weight tile or an output tile that the pass names is not ready, or a token that the
operator needs before its first pass has not been posted. In particular the arrays take no part of the pass. Where no
log record waits, the state is answered unchanged. Table 03.2's last condition needs no clause: one command stands for a
whole pass, so the last vector of the previous pass has entered whenever a next PASS_ISSUE acts (log 2). -/
def Obligations.PassIssueNeedsEveryCondition : Prop :=
  ∀ (c : CoreId) (io : PassIo) (s : State),
    (¬ ∃ (i : Instance) (p : Pass) (rest : List Pass), (s.core c.val).lists.inst = some i ∧ i.passes = p :: rest ∧
      s.coreIssues c.val = true ∧ (s.core c.val).pendCtrl = none ∧ (s.core c.val).inputReady i p = true ∧
      (s.core c.val).weightsReady c.val i p io = true ∧ (p.named i).all ((s.core c.val).tileReady i) = true ∧
      (i.fresh = true → (s.core c.val).tokensReady i.op = true)) →
    exec (.passIssue c io) s = .next (s.commitLog c.val) ∧
    ((s.core c.val).report.logOut = [] → exec (.passIssue c io) s = .next s)

/-- For every list of element patterns that fit their format, the bytes they are packed into read back, element by
element, as the patterns; an FP4 byte holds the element of the lower index in bits [3:0] and the next in bits [7:4];
an INT24 element takes three consecutive bytes, the low byte first, and every wider format its bytes low byte first.
-/
def Obligations.ElementPacking : Prop :=
  (∀ (f : Fmt) (l : List Nat), (∀ x ∈ l, x < 2 ^ f.bits) →
    ∀ i, i < l.length → elemOf f (packElems f l) i = l.getD i 0) ∧
  (∀ (b : Byte) (bs : List Byte), elemOf .fp4 (b :: bs) 0 = bitsAt b.toNat 0 4 ∧ elemOf .fp4 (b :: bs) 1 = bitsAt b.toNat 4 4) ∧
  (∀ (b0 b1 b2 : Byte) (bs : List Byte), elemOf .int24 (b0 :: b1 :: b2 :: bs) 0 = b0.toNat + 2 ^ 8 * b1.toNat + 2 ^ 16 * b2.toNat) ∧
  (∀ (f : Fmt), f = .bf16 → ∀ (b0 b1 : Byte) (bs : List Byte), elemOf f (b0 :: b1 :: bs) 0 = b0.toNat + 2 ^ 8 * b1.toNat) ∧
  (∀ (f : Fmt), f = .fp32 ∨ f = .int32 → ∀ (b0 b1 b2 b3 : Byte) (bs : List Byte),
    elemOf f (b0 :: b1 :: b2 :: b3 :: bs) 0 = b0.toNat + 2 ^ 8 * b1.toNat + 2 ^ 16 * b2.toNat + 2 ^ 24 * b3.toNat)
end

