-- ==== Sys2Proof/Laws/FMap.lean ====
section
/-! SUPPORT. Sparse maps: a read after a write, and the canonical form, which every operation keeps. -/

namespace Sys2Proof.Machine

theorem FMap.sorted_iff {α : Type} (m : FMap α) : FMap.sorted m = true ↔ m.Pairwise (fun a b => a.1 < b.1) := by
  induction m with
  | nil => simp [FMap.sorted]
  | cons a t ih =>
    cases t with
    | nil => simp [FMap.sorted]
    | cons b u =>
      simp only [FMap.sorted, Bool.and_eq_true, decide_eq_true_eq, ih, List.pairwise_cons, List.mem_cons]
      constructor
      · rintro ⟨h1, h2, h3⟩
        exact ⟨fun c hc => hc.elim (fun e => e ▸ h1) (fun e => Nat.lt_trans h1 (h2 c e)), h2, h3⟩
      · rintro ⟨h1, h2, h3⟩
        exact ⟨h1 b (Or.inl rfl), h2, h3⟩

theorem FMap.wf_iff {α : Type} [DecidableEq α] (d : α) (m : FMap α) :
    FMap.wf d m = true ↔ m.Pairwise (fun a b => a.1 < b.1) ∧ ∀ p ∈ m, p.2 ≠ d := by
  simp [FMap.wf, FMap.sorted_iff]

theorem FMap.mem_ins {α : Type} (k : Nat) (v : α) (m : FMap α) (p : Nat × α) :
    p ∈ FMap.ins k v m ↔ p = (k, v) ∨ p ∈ m := by
  induction m with
  | nil => simp [FMap.ins]
  | cons q t ih =>
    obtain ⟨k', v'⟩ := q
    simp only [FMap.ins]
    split
    · simp
    · simp only [List.mem_cons, ih]; exact or_left_comm

theorem FMap.wf_filter {α : Type} [DecidableEq α] (d : α) (m : FMap α) (q : Nat × α → Bool)
    (h : FMap.wf d m = true) : FMap.wf d (m.filter q) = true := by
  rw [FMap.wf_iff] at h ⊢
  exact ⟨h.1.filter _, fun p hp => h.2 p ((List.mem_filter.mp hp).1)⟩

theorem FMap.sorted_ins {α : Type} (k : Nat) (v : α) (m : FMap α) (h : m.Pairwise (fun a b => a.1 < b.1))
    (hk : ∀ p ∈ m, p.1 ≠ k) : (FMap.ins k v m).Pairwise (fun a b => a.1 < b.1) := by
  induction m with
  | nil => simp [FMap.ins]
  | cons q t ih =>
    obtain ⟨k', v'⟩ := q
    rw [List.pairwise_cons] at h
    have hk' : k' ≠ k := hk (k', v') (List.mem_cons_self ..)
    simp only [FMap.ins]
    split
    · rename_i hlt
      refine List.pairwise_cons.2 ⟨fun b hb => ?_, List.pairwise_cons.2 h⟩
      rcases List.mem_cons.1 hb with e | e
      · subst e; exact hlt
      · exact Nat.lt_trans hlt (h.1 b e)
    · rename_i hlt
      refine List.pairwise_cons.2 ⟨fun b hb => ?_, ih h.2 fun p hp => hk p (List.mem_cons_of_mem _ hp)⟩
      rcases (FMap.mem_ins k v t b).1 hb with e | e
      · subst e; dsimp only; omega
      · exact h.1 b e

/-- A write keeps the canonical form. -/
theorem FMap.wf_set {α : Type} [DecidableEq α] (d : α) (m : FMap α) (k : Nat) (v : α)
    (h : FMap.wf d m = true) : FMap.wf d (FMap.set d m k v) = true := by
  unfold FMap.set
  split
  · exact FMap.wf_filter d m _ h
  · rename_i hv
    have he := FMap.wf_filter d m (fun p => decide (p.1 ≠ k)) h
    rw [FMap.wf_iff] at he ⊢
    refine ⟨FMap.sorted_ins _ _ _ he.1 fun p hp => ?_, fun p hp => ?_⟩
    · simpa using (List.mem_filter.1 hp).2
    · rcases (FMap.mem_ins k v _ p).1 hp with e | e
      · subst e; exact hv
      · exact he.2 p e

theorem FMap.get_ins_ne {α : Type} (d : α) (k : Nat) (v : α) (m : FMap α) (j : Nat) (h : j ≠ k) :
    FMap.get d (FMap.ins k v m) j = FMap.get d m j := by
  induction m with
  | nil => simp [FMap.ins, FMap.get, Ne.symm h]
  | cons q t ih =>
    obtain ⟨k', v'⟩ := q
    simp only [FMap.ins]
    split
    · simp [FMap.get, Ne.symm h]
    · simp only [FMap.get, ih]

theorem FMap.get_ins_self {α : Type} (d : α) (k : Nat) (v : α) (m : FMap α) (h : ∀ p ∈ m, p.1 ≠ k) :
    FMap.get d (FMap.ins k v m) k = v := by
  induction m with
  | nil => simp [FMap.ins, FMap.get]
  | cons q t ih =>
    obtain ⟨k', v'⟩ := q
    have hk' : k' ≠ k := h (k', v') (List.mem_cons_self ..)
    simp only [FMap.ins]
    split
    · simp [FMap.get]
    · simp only [FMap.get, if_neg hk', ih fun p hp => h p (List.mem_cons_of_mem _ hp)]

theorem FMap.get_erase_ne {α : Type} (d : α) (k : Nat) (m : FMap α) (j : Nat) (h : j ≠ k) :
    FMap.get d (FMap.erase m k) j = FMap.get d m j := by
  induction m with
  | nil => rfl
  | cons q t ih =>
    obtain ⟨k', v'⟩ := q
    simp only [FMap.erase, List.filter_cons] at ih ⊢
    split
    · simp only [FMap.get, ih]
    · rename_i hk
      have : k' = k := by simpa using hk
      simp only [FMap.get, ih, this, if_neg (Ne.symm h)]

theorem FMap.get_absent {α : Type} (d : α) (k : Nat) (m : FMap α) (h : ∀ p ∈ m, p.1 ≠ k) : FMap.get d m k = d := by
  induction m with
  | nil => rfl
  | cons q t ih =>
    obtain ⟨k', v'⟩ := q
    simp only [FMap.get, if_neg (h (k', v') (List.mem_cons_self ..)), ih fun p hp => h p (List.mem_cons_of_mem _ hp)]

theorem FMap.erase_absent {α : Type} (m : FMap α) (k : Nat) : ∀ p ∈ FMap.erase m k, p.1 ≠ k := fun p hp => by
  simpa using (List.mem_filter.1 hp).2

/-- A read after a write to the same key gives the value written. -/
@[simp] theorem FMap.get_set_self {α : Type} [DecidableEq α] (d : α) (m : FMap α) (k : Nat) (v : α) :
    FMap.get d (FMap.set d m k v) k = v := by
  unfold FMap.set
  split
  · rename_i h; rw [FMap.get_absent d k _ (FMap.erase_absent m k), h]
  · exact FMap.get_ins_self d k v _ (FMap.erase_absent m k)

/-- A write leaves every other key alone. -/
theorem FMap.get_set_ne {α : Type} [DecidableEq α] (d : α) (m : FMap α) (k : Nat) (v : α) (j : Nat) (h : j ≠ k) :
    FMap.get d (FMap.set d m k v) j = FMap.get d m j := by
  unfold FMap.set
  split
  · exact FMap.get_erase_ne d k m j h
  · rw [FMap.get_ins_ne d k v _ j h, FMap.get_erase_ne d k m j h]

theorem FMap.get_set {α : Type} [DecidableEq α] (d : α) (m : FMap α) (k : Nat) (v : α) (j : Nat) :
    FMap.get d (FMap.set d m k v) j = if j = k then v else FMap.get d m j := by
  split
  · rename_i h; rw [h, FMap.get_set_self]
  · rename_i h; exact FMap.get_set_ne d m k v j h

end Sys2Proof.Machine
end

