-- ==== Sys2Proof/Laws/Kept.lean ====
section
/-! SUPPORT. The views of the state that the frame lemmas speak of, under names that no proof unfolds. -/

namespace Sys2Proof.Machine

theorem foldl_keep {α β γ : Type} (p : α → γ) (f : α → β → α) (h : ∀ a x, p (f a x) = p a) (l : List β) (s : α) :
    p (l.foldl f s) = p s := by
  induction l generalizing s with
  | nil => rfl
  | cons x t ih => simp [List.foldl, ih, h]

/-- What all but a few commands leave alone: the queue, the layout, the far tier, the flash and the meter. -/
structure Kept where
  queue : List Instr
  layout : BitVec 8
  far : List Host.Cell
  flash : List Host.Cell
  meter : Meter

@[irreducible] def State.kept (s : State) : Kept := ⟨s.pending, s.mod.qpart, s.far, s.flash, s.meter⟩

/-- The DRAM, under a name that no proof unfolds. -/
@[irreducible] def State.vDram (s : State) : List Host.Cell := s.dram

theorem State.kept_mk x0 x1 x2 x3 x4 x5 x6 x7 x8 x9 x10 x11 x12 x13 x14 x15 x16 x17 x18 x19 x20 x21 x22 x23 x24 x25 x26 x27 x28 x29 x30 x31 x32 x33 x34 x35 x36 x37 x38 x39 x40 x41 x42 x43 :
    State.kept ⟨x0, x1, x2, x3, x4, x5, x6, x7, x8, x9, x10, x11, x12, x13, x14, x15, x16, x17, x18, x19, x20, x21, x22, x23, x24, x25, x26, x27, x28, x29, x30, x31, x32, x33, x34, x35, x36, x37, x38, x39, x40, x41, x42, x43⟩ = ⟨x0, x5.qpart, x21, x23, x38⟩ := by
  unfold State.kept; rfl

theorem State.kept_eq (s : State) : Kept.mk s.pending s.mod.qpart s.far s.flash s.meter = s.kept := by unfold State.kept; rfl

theorem State.vDram_mk x0 x1 x2 x3 x4 x5 x6 x7 x8 x9 x10 x11 x12 x13 x14 x15 x16 x17 x18 x19 x20 x21 x22 x23 x24 x25 x26 x27 x28 x29 x30 x31 x32 x33 x34 x35 x36 x37 x38 x39 x40 x41 x42 x43 :
    State.vDram ⟨x0, x1, x2, x3, x4, x5, x6, x7, x8, x9, x10, x11, x12, x13, x14, x15, x16, x17, x18, x19, x20, x21, x22, x23, x24, x25, x26, x27, x28, x29, x30, x31, x32, x33, x34, x35, x36, x37, x38, x39, x40, x41, x42, x43⟩ = x20 := by
  unfold State.vDram; rfl

theorem State.vDram_eq (s : State) : s.dram = s.vDram := by unfold State.vDram; rfl
theorem State.queue_eq (s : State) : s.pending = s.kept.queue := by unfold State.kept; rfl
theorem State.layout_eq (s : State) : s.mod.qpart = s.kept.layout := by unfold State.kept; rfl
theorem State.far_eq (s : State) : s.far = s.kept.far := by unfold State.kept; rfl
theorem State.flash_eq (s : State) : s.flash = s.kept.flash := by unfold State.kept; rfl
theorem State.meter_eq (s : State) : s.meter = s.kept.meter := by unfold State.kept; rfl

theorem foldl_kept {β : Type} (f : State → β → State) (h : ∀ a x, (f a x).kept = a.kept) (l : List β) (s : State) :
    (l.foldl f s).kept = s.kept := foldl_keep State.kept f h l s
theorem ite_kept (c : Prop) [Decidable c] (a b : State) : (if c then a else b).kept = if c then a.kept else b.kept := by
  split <;> rfl
theorem both_kept (c : Prop) [Decidable c] (a b s : State) (ha : a.kept = s.kept) (hb : b.kept = s.kept) :
    (if c then a else b).kept = s.kept := by
  split <;> assumption

theorem foldl_vDram {β : Type} (f : State → β → State) (h : ∀ a x, (f a x).vDram = a.vDram) (l : List β) (s : State) :
    (l.foldl f s).vDram = s.vDram := foldl_keep State.vDram f h l s
theorem ite_vDram (c : Prop) [Decidable c] (a b : State) : (if c then a else b).vDram = if c then a.vDram else b.vDram := by
  split <;> rfl
theorem both_vDram (c : Prop) [Decidable c] (a b s : State) (ha : a.vDram = s.vDram) (hb : b.vDram = s.vDram) :
    (if c then a else b).vDram = s.vDram := by
  split <;> assumption

theorem foldl_queue {β : Type} (f : State → β → State) (h : ∀ a x, (f a x).kept.queue = a.kept.queue) (l : List β) (s : State) :
    (l.foldl f s).kept.queue = s.kept.queue := foldl_keep (fun s => s.kept.queue) f h l s

theorem foldl_layout {β : Type} (f : State → β → State) (h : ∀ a x, (f a x).kept.layout = a.kept.layout) (l : List β) (s : State) :
    (l.foldl f s).kept.layout = s.kept.layout := foldl_keep (fun s => s.kept.layout) f h l s

theorem foldl_far {β : Type} (f : State → β → State) (h : ∀ a x, (f a x).kept.far = a.kept.far) (l : List β) (s : State) :
    (l.foldl f s).kept.far = s.kept.far := foldl_keep (fun s => s.kept.far) f h l s

theorem foldl_flash {β : Type} (f : State → β → State) (h : ∀ a x, (f a x).kept.flash = a.kept.flash) (l : List β) (s : State) :
    (l.foldl f s).kept.flash = s.kept.flash := foldl_keep (fun s => s.kept.flash) f h l s

theorem foldl_meter {β : Type} (f : State → β → State) (h : ∀ a x, (f a x).kept.meter = a.kept.meter) (l : List β) (s : State) :
    (l.foldl f s).kept.meter = s.kept.meter := foldl_keep (fun s => s.kept.meter) f h l s

end Sys2Proof.Machine
end

