-- ==== Sys2Proof/Laws/FrameUnits.lean ====
section
/-! SUPPORT. What the definitions of clusters, queues, streams and the reduction block leave alone: one lemma per definition that answers a state. -/

namespace Sys2Proof.Machine

set_option linter.all false

theorem State.setCore_frame (s : State) (c : Nat) (k : Core) :
    (State.setCore s c k).kept = s.kept ∧ (State.setCore s c k).vDram = s.vDram := by
  simp only [State.setCore, ↓State.kept_mk, State.kept_eq, ↓foldl_kept, ↓ite_kept, ↓State.vDram_mk, State.vDram_eq, ↓foldl_vDram, ↓ite_vDram, ite_self, and_self, implies_true]

theorem State.modCore_frame (s : State) (c : Nat) (f : Core → Core) :
    (State.modCore s c f).kept = s.kept ∧ (State.modCore s c f).vDram = s.vDram := by
  simp only [State.modCore, ↓State.kept_mk, State.kept_eq, ↓foldl_kept, ↓ite_kept, ↓State.vDram_mk, State.vDram_eq, ↓foldl_vDram, ↓ite_vDram, ↓State.setCore_frame, ite_self, and_self, implies_true]

theorem State.setPart_frame (s : State) (p : Nat) (k : Part) :
    (State.setPart s p k).kept = s.kept ∧ (State.setPart s p k).vDram = s.vDram := by
  simp only [State.setPart, ↓State.kept_mk, State.kept_eq, ↓foldl_kept, ↓ite_kept, ↓State.vDram_mk, State.vDram_eq, ↓foldl_vDram, ↓ite_vDram, ite_self, and_self, implies_true]

theorem State.modPart_frame (s : State) (p : Nat) (f : Part → Part) :
    (State.modPart s p f).kept = s.kept ∧ (State.modPart s p f).vDram = s.vDram := by
  simp only [State.modPart, ↓State.kept_mk, State.kept_eq, ↓foldl_kept, ↓ite_kept, ↓State.vDram_mk, State.vDram_eq, ↓foldl_vDram, ↓ite_vDram, ↓State.setPart_frame, ite_self, and_self, implies_true]

theorem State.modJcp_frame (s : State) (p : Nat) (f : Jcp → Jcp) :
    (State.modJcp s p f).kept = s.kept ∧ (State.modJcp s p f).vDram = s.vDram := by
  simp only [State.modJcp, ↓State.kept_mk, State.kept_eq, ↓foldl_kept, ↓ite_kept, ↓State.vDram_mk, State.vDram_eq, ↓foldl_vDram, ↓ite_vDram, ↓State.modPart_frame, ite_self, and_self, implies_true]

theorem State.modJob_frame (s : State) (p : Nat) (f : Job → Job) :
    (State.modJob s p f).kept = s.kept ∧ (State.modJob s p f).vDram = s.vDram := by
  simp only [State.modJob, ↓State.kept_mk, State.kept_eq, ↓foldl_kept, ↓ite_kept, ↓State.vDram_mk, State.vDram_eq, ↓foldl_vDram, ↓ite_vDram, ↓State.modPart_frame, ite_self, and_self, implies_true]

theorem State.sendMsix_frame (s : State) (v : Nat) :
    (State.sendMsix s v).kept = s.kept ∧ (State.sendMsix s v).vDram = s.vDram := by
  simp only [State.sendMsix, ↓State.kept_mk, State.kept_eq, ↓foldl_kept, ↓ite_kept, ↓State.vDram_mk, State.vDram_eq, ↓foldl_vDram, ↓ite_vDram, ite_self, and_self, implies_true]

theorem State.settleMsix_frame (s : State) :
    (State.settleMsix s).kept = s.kept ∧ (State.settleMsix s).vDram = s.vDram := by
  simp only [State.settleMsix, ↓State.kept_mk, State.kept_eq, ↓foldl_kept, ↓ite_kept, ↓State.vDram_mk, State.vDram_eq, ↓foldl_vDram, ↓ite_vDram, ite_self, and_self, implies_true]

theorem State.jobEvent_frame (s : State) (p : Nat) (bit : Nat) :
    (State.jobEvent s p bit).kept = s.kept ∧ (State.jobEvent s p bit).vDram = s.vDram := by
  simp only [State.jobEvent, ↓State.kept_mk, State.kept_eq, ↓foldl_kept, ↓ite_kept, ↓State.vDram_mk, State.vDram_eq, ↓foldl_vDram, ↓ite_vDram, ↓State.modPart_frame, ↓State.sendMsix_frame, ite_self, and_self, implies_true]

theorem State.modEvent_frame (s : State) (bit : Nat) :
    (State.modEvent s bit).kept = s.kept ∧ (State.modEvent s bit).vDram = s.vDram := by
  simp only [State.modEvent, ↓State.kept_mk, State.kept_eq, ↓foldl_kept, ↓ite_kept, ↓State.vDram_mk, State.vDram_eq, ↓foldl_vDram, ↓ite_vDram, ↓State.sendMsix_frame, ite_self, and_self, implies_true]

theorem State.retarget_frame (s : State) (p : Nat) :
    (State.retarget s p).kept = s.kept ∧ (State.retarget s p).vDram = s.vDram := by
  simp only [State.retarget, ↓State.kept_mk, State.kept_eq, ↓foldl_kept, ↓ite_kept, ↓State.vDram_mk, State.vDram_eq, ↓foldl_vDram, ↓ite_vDram, ↓State.modPart_frame, ite_self, and_self, implies_true]

theorem State.setJobState_frame (s : State) (p : Nat) (st : JobState) :
    (State.setJobState s p st).kept = s.kept ∧ (State.setJobState s p st).vDram = s.vDram := by
  unfold State.setJobState
  (repeat' split) <;> simp only [↓State.kept_mk, State.kept_eq, ↓foldl_kept, ↓ite_kept, ↓State.vDram_mk, State.vDram_eq, ↓foldl_vDram, ↓ite_vDram, ↓State.retarget_frame, ↓State.modJcp_frame, ↓State.jobEvent_frame, ite_self, and_self, implies_true]

theorem State.writeRecord_frame (s : State) (e : ErrRec) :
    (State.writeRecord s e).kept = s.kept ∧ (State.writeRecord s e).vDram = s.vDram := by
  unfold State.writeRecord
  (repeat' split) <;> simp only [↓State.kept_mk, State.kept_eq, ↓foldl_kept, ↓ite_kept, ↓State.vDram_mk, State.vDram_eq, ↓foldl_vDram, ↓ite_vDram, ↓State.jobEvent_frame, ↓State.modEvent_frame, ite_self, and_self, implies_true]

theorem State.logError_frame (s : State) (r : Report1) :
    (State.logError s r).kept = s.kept ∧ (State.logError s r).vDram = s.vDram := by
  simp only [State.logError, ↓State.kept_mk, State.kept_eq, ↓foldl_kept, ↓ite_kept, ↓State.vDram_mk, State.vDram_eq, ↓foldl_vDram, ↓ite_vDram, ↓State.writeRecord_frame, ite_self, and_self, implies_true]

theorem State.summaries_frame (s : State) (part : Option Nat) :
    (State.summaries s part).kept = s.kept ∧ (State.summaries s part).vDram = s.vDram := by
  simp only [State.summaries, ↓State.kept_mk, State.kept_eq, ↓foldl_kept, ↓ite_kept, ↓State.vDram_mk, State.vDram_eq, ↓foldl_vDram, ↓ite_vDram, ↓State.writeRecord_frame, ite_self, and_self, implies_true]

theorem State.setDramByte_frame (s : State) (key : Nat) (b : Byte) :
    (State.setDramByte s key b).kept = s.kept := by
  simp only [State.setDramByte, ↓State.kept_mk, State.kept_eq, ↓foldl_kept, ↓ite_kept, ite_self, and_self, implies_true]

theorem State.setDramBytes_frame (s : State) (key : Nat) (bs : List Byte) :
    (State.setDramBytes s key bs).kept = s.kept := by
  simp only [State.setDramBytes, ↓State.kept_mk, State.kept_eq, ↓foldl_kept, ↓ite_kept, ite_self, and_self, implies_true]

theorem State.setFrame_frame (s : State) (t : Nat) (g : Nat) (f : Frame) :
    (State.setFrame s t g f).kept = s.kept ∧ (State.setFrame s t g f).vDram = s.vDram := by
  simp only [State.setFrame, ↓State.kept_mk, State.kept_eq, ↓foldl_kept, ↓ite_kept, ↓State.vDram_mk, State.vDram_eq, ↓foldl_vDram, ↓ite_vDram, ite_self, and_self, implies_true]

theorem State.setChan_frame (s : State) (k : Nat) (c : Channel) :
    (State.setChan s k c).kept = s.kept ∧ (State.setChan s k c).vDram = s.vDram := by
  simp only [State.setChan, ↓State.kept_mk, State.kept_eq, ↓foldl_kept, ↓ite_kept, ↓State.vDram_mk, State.vDram_eq, ↓foldl_vDram, ↓ite_vDram, ite_self, and_self, implies_true]

theorem State.setCtx_frame (s : State) (k : Nat) (x : Ctx) :
    (State.setCtx s k x).kept = s.kept ∧ (State.setCtx s k x).vDram = s.vDram := by
  simp only [State.setCtx, ↓State.kept_mk, State.kept_eq, ↓foldl_kept, ↓ite_kept, ↓State.vDram_mk, State.vDram_eq, ↓foldl_vDram, ↓ite_vDram, ite_self, and_self, implies_true]

theorem State.modCtx_frame (s : State) (k : Nat) (f : Ctx → Ctx) :
    (State.modCtx s k f).kept = s.kept ∧ (State.modCtx s k f).vDram = s.vDram := by
  simp only [State.modCtx, ↓State.kept_mk, State.kept_eq, ↓foldl_kept, ↓ite_kept, ↓State.vDram_mk, State.vDram_eq, ↓foldl_vDram, ↓ite_vDram, ↓State.setCtx_frame, ite_self, and_self, implies_true]

theorem State.jobWrite_frame (s : State) (t addr : Nat) (bs : List Byte) :
    (s.jobWrite t addr bs).kept = s.kept := by
  induction bs generalizing s addr with
  | nil => simp [State.jobWrite]
  | cons b l ih =>
    simp only [State.jobWrite]
    split <;> simp [ih, State.setDramByte_frame]

theorem State.setJobNat_frame (s : State) (p : Nat) (addr : Nat) (n : Nat) (v : Nat) :
    (State.setJobNat s p addr n v).kept = s.kept := by
  simp only [State.setJobNat, ↓State.kept_mk, State.kept_eq, ↓foldl_kept, ↓ite_kept, ↓State.jobWrite_frame, ite_self, and_self, implies_true]

theorem State.setLinkDie_frame (s : State) (d : Nat) (x : LinkDie) :
    (State.setLinkDie s d x).kept = s.kept ∧ (State.setLinkDie s d x).vDram = s.vDram := by
  simp only [State.setLinkDie, ↓State.kept_mk, State.kept_eq, ↓foldl_kept, ↓ite_kept, ↓State.vDram_mk, State.vDram_eq, ↓foldl_vDram, ↓ite_vDram, ite_self, and_self, implies_true]

theorem State.modCoresOf_frame (s : State) (p : Nat) (f : Core → Core) :
    (State.modCoresOf s p f).kept = s.kept ∧ (State.modCoresOf s p f).vDram = s.vDram := by
  simp only [State.modCoresOf, ↓State.kept_mk, State.kept_eq, ↓foldl_kept, ↓ite_kept, ↓State.vDram_mk, State.vDram_eq, ↓foldl_vDram, ↓ite_vDram, ite_self, and_self, implies_true]

theorem State.abandonPart_frame (s : State) (p : Nat) :
    (State.abandonPart s p).kept = s.kept ∧ (State.abandonPart s p).vDram = s.vDram := by
  simp only [State.abandonPart, ↓State.kept_mk, State.kept_eq, ↓foldl_kept, ↓ite_kept, ↓State.vDram_mk, State.vDram_eq, ↓foldl_vDram, ↓ite_vDram, ↓State.modCoresOf_frame, ite_self, and_self, implies_true]

theorem State.schedule_frame (s : State) (t : Test) :
    (State.schedule s t).kept = s.kept ∧ (State.schedule s t).vDram = s.vDram := by
  simp only [State.schedule, ↓State.kept_mk, State.kept_eq, ↓foldl_kept, ↓ite_kept, ↓State.vDram_mk, State.vDram_eq, ↓foldl_vDram, ↓ite_vDram, ite_self, and_self, implies_true]

theorem State.firstTouch_frame (s : State) (t : Nat) (g : Nat) :
    (State.firstTouch s t g).kept = s.kept ∧ (State.firstTouch s t g).vDram = s.vDram := by
  simp only [State.firstTouch, ↓State.kept_mk, State.kept_eq, ↓foldl_kept, ↓ite_kept, ↓State.vDram_mk, State.vDram_eq, ↓foldl_vDram, ↓ite_vDram, ↓State.modJob_frame, ↓State.setFrame_frame, ite_self, and_self, implies_true]

theorem State.touch_frame (s : State) (pl : Place) :
    (State.touch s pl).kept = s.kept ∧ (State.touch s pl).vDram = s.vDram := by
  simp only [State.touch, ↓State.kept_mk, State.kept_eq, ↓foldl_kept, ↓ite_kept, ↓State.vDram_mk, State.vDram_eq, ↓foldl_vDram, ↓ite_vDram, ↓State.firstTouch_frame, ite_self, and_self, implies_true]

theorem State.poisonSeen_frame (s : State) (k : Nat) (addr : Nat) :
    (State.poisonSeen s k addr).kept = s.kept ∧ (State.poisonSeen s k addr).vDram = s.vDram := by
  simp only [State.poisonSeen, ↓State.kept_mk, State.kept_eq, ↓foldl_kept, ↓ite_kept, ↓State.vDram_mk, State.vDram_eq, ↓foldl_vDram, ↓ite_vDram, ↓State.setChan_frame, ite_self, and_self, implies_true]

theorem State.writeOver_frame (s : State) (full : List (Nat × Nat)) (b : BadLine) :
    (State.writeOver s full b).kept = s.kept ∧ (State.writeOver s full b).vDram = s.vDram := by
  simp only [State.writeOver, ↓State.kept_mk, State.kept_eq, ↓foldl_kept, ↓ite_kept, ↓State.vDram_mk, State.vDram_eq, ↓foldl_vDram, ↓ite_vDram, ↓State.setChan_frame, ↓State.poisonSeen_frame, ite_self, and_self, implies_true]

theorem State.markRefused_frame (s : State) (src : ReqSrc) :
    (State.markRefused s src).kept = s.kept ∧ (State.markRefused s src).vDram = s.vDram := by
  refine ⟨?_, ?_⟩ <;> (unfold State.markRefused; repeat' (first | with_reducible rfl | extract_lets | split | simp +zetaDelta only [↓State.kept_mk, State.kept_eq, ↓foldl_kept, ↓ite_kept, ↓State.vDram_mk, State.vDram_eq, ↓foldl_vDram, ↓ite_vDram, ↓State.modCore_frame, ite_self, and_self, implies_true]))

theorem State.refuse_frame (s : State) (k : Nat) (r : MemReq) :
    (State.refuse s k r).kept = s.kept ∧ (State.refuse s k r).vDram = s.vDram := by
  unfold State.refuse
  (repeat' split) <;> simp only [↓State.kept_mk, State.kept_eq, ↓foldl_kept, ↓ite_kept, ↓State.vDram_mk, State.vDram_eq, ↓foldl_vDram, ↓ite_vDram, ↓State.markRefused_frame, ↓State.setChan_frame, ite_self, and_self, implies_true]

theorem State.holdWrite_frame (s : State) (pl : Place) (r : MemReq) :
    (State.holdWrite s pl r).kept = s.kept ∧ (State.holdWrite s pl r).vDram = s.vDram := by
  simp only [State.holdWrite, ↓State.kept_mk, State.kept_eq, ↓foldl_kept, ↓ite_kept, ↓State.vDram_mk, State.vDram_eq, ↓foldl_vDram, ↓ite_vDram, ↓State.touch_frame, ↓State.refuse_frame, ↓State.setChan_frame, ite_self, and_self, implies_true]

theorem State.writeLines_frame (s : State) (p : Nat) (addr : Nat) (bs : List Byte) :
    (State.writeLines s p addr bs).kept = s.kept := by
  simp only [State.writeLines, ↓State.kept_mk, State.kept_eq, ↓foldl_kept, ↓ite_kept, ↓State.jobWrite_frame, ↓State.writeOver_frame, ite_self, and_self, implies_true]

theorem State.postPiece_frame (s : State) (p : Nat) (addr : Nat) (bs : List Byte) (e : Nat × Nat) :
    (State.postPiece s p addr bs e).kept = s.kept := by
  (unfold State.postPiece; repeat' (first | with_reducible rfl | extract_lets | split | simp +zetaDelta only [↓State.kept_mk, State.kept_eq, ↓foldl_kept, ↓ite_kept, ↓State.writeLines_frame, ↓State.holdWrite_frame, ite_self, and_self, implies_true]))

theorem State.postLines_frame (s : State) (p : Nat) (addr : Nat) (bs : List Byte) :
    (State.postLines s p addr bs).kept = s.kept := by
  simp only [State.postLines, ↓State.kept_mk, State.kept_eq, ↓foldl_kept, ↓ite_kept, ↓State.writeLines_frame, ↓State.postPiece_frame, ite_self, and_self, implies_true]

theorem State.postQuiet_frame (s : State) (p : Nat) (addr : Nat) (bs : List Byte) :
    (State.postQuiet s p addr bs).kept = s.kept := by
  (unfold State.postQuiet; repeat' (first | with_reducible rfl | extract_lets | split | simp +zetaDelta only [↓State.kept_mk, State.kept_eq, ↓foldl_kept, ↓ite_kept, ↓State.logError_frame, ↓State.postLines_frame, ite_self, and_self, implies_true]))

theorem State.clearCatEntry_frame (s : State) (p : Nat) (r : SnapRun) :
    (State.clearCatEntry s p r).kept = s.kept := by
  (unfold State.clearCatEntry; repeat' (first | with_reducible rfl | extract_lets | split | simp +zetaDelta only [↓State.kept_mk, State.kept_eq, ↓foldl_kept, ↓ite_kept, ↓State.postQuiet_frame, ite_self, and_self, implies_true]))

theorem State.sendCtl_frame (s : State) (p : Nat) (dst : BitVec 12) (c : Ctl) :
    (State.sendCtl s p dst c).kept = s.kept ∧ (State.sendCtl s p dst c).vDram = s.vDram := by
  simp only [State.sendCtl, ↓State.kept_mk, State.kept_eq, ↓foldl_kept, ↓ite_kept, ↓State.vDram_mk, State.vDram_eq, ↓foldl_vDram, ↓ite_vDram, ite_self, and_self, implies_true]

theorem State.abandonSnap_frame (s : State) (p : Nat) (cause : Nat) :
    (State.abandonSnap s p cause).kept = s.kept := by
  unfold State.abandonSnap
  (repeat' split) <;> simp only [↓State.kept_mk, State.kept_eq, ↓foldl_kept, ↓ite_kept, ↓State.sendCtl_frame, ↓State.modJob_frame, ↓State.clearCatEntry_frame, ite_self, and_self, implies_true]

theorem State.reportSnap_frame (s : State) (id : BitVec 64) (slot : Nat) (part : Nat) (reach : Nat) :
    (State.reportSnap s id slot part reach).kept = s.kept ∧ (State.reportSnap s id slot part reach).vDram = s.vDram := by
  simp only [State.reportSnap, ↓State.kept_mk, State.kept_eq, ↓foldl_kept, ↓ite_kept, ↓State.vDram_mk, State.vDram_eq, ↓foldl_vDram, ↓ite_vDram, ite_self, and_self, implies_true]

theorem State.abandonFlash_frame (s : State) (p : Nat) :
    (State.abandonFlash s p).kept = s.kept ∧ (State.abandonFlash s p).vDram = s.vDram := by
  unfold State.abandonFlash
  (repeat' split) <;> simp only [↓State.kept_mk, State.kept_eq, ↓foldl_kept, ↓ite_kept, ↓State.vDram_mk, State.vDram_eq, ↓foldl_vDram, ↓ite_vDram, ↓State.modJob_frame, ↓State.reportSnap_frame, ite_self, and_self, implies_true]

theorem State.withdraw_frame (s : State) (p : Nat) :
    (State.withdraw s p).kept = s.kept := by
  unfold State.withdraw
  (repeat' split) <;> simp only [↓State.kept_mk, State.kept_eq, ↓foldl_kept, ↓ite_kept, ↓State.abandonSnap_frame, ↓State.modJob_frame, ite_self, and_self, implies_true]

theorem State.failJob_frame (s : State) (p : Nat) (reason : Nat) (recIndex : Nat) :
    (State.failJob s p reason recIndex).kept = s.kept := by
  simp only [State.failJob, ↓State.kept_mk, State.kept_eq, ↓foldl_kept, ↓ite_kept, ↓State.modJcp_frame, ↓State.modJob_frame, ↓State.abandonSnap_frame, ↓State.setJobState_frame, ite_self, and_self, implies_true]

theorem State.programFault_frame (s : State) (r : Report1) (reason : optParam Nat 33) :
    (State.programFault s r reason).kept = s.kept := by
  unfold State.programFault
  (repeat' split) <;> simp only [↓State.kept_mk, State.kept_eq, ↓foldl_kept, ↓ite_kept, ↓State.logError_frame, ↓State.failJob_frame, ↓State.abandonPart_frame, ite_self, and_self, implies_true]

theorem State.placeRefused_frame (s : State) (p : Nat) (e : Nat × Nat) :
    (State.placeRefused s p e).kept = s.kept := by
  simp only [State.placeRefused, ↓State.kept_mk, State.kept_eq, ↓foldl_kept, ↓ite_kept, ↓State.programFault_frame, ↓State.logError_frame, ite_self, and_self, implies_true]

theorem State.jobPost_frame (s : State) (p : Nat) (addr : Nat) (bs : List Byte) :
    (State.jobPost s p addr bs).kept = s.kept := by
  (unfold State.jobPost; repeat' (first | with_reducible rfl | extract_lets | split | simp +zetaDelta only [↓State.kept_mk, State.kept_eq, ↓foldl_kept, ↓ite_kept, ↓State.placeRefused_frame, ↓State.postLines_frame, ite_self, and_self, implies_true]))

theorem State.postJobNat_frame (s : State) (p : Nat) (addr : Nat) (n : Nat) (v : Nat) :
    (State.postJobNat s p addr n v).kept = s.kept := by
  simp only [State.postJobNat, ↓State.kept_mk, State.kept_eq, ↓foldl_kept, ↓ite_kept, ↓State.jobPost_frame, ite_self, and_self, implies_true]

theorem State.setCatHold_frame (s : State) (p : Nat) (v : Nat) :
    (State.setCatHold s p v).kept = s.kept := by
  unfold State.setCatHold
  (repeat' split) <;> simp only [↓State.kept_mk, State.kept_eq, ↓foldl_kept, ↓ite_kept, ↓State.postJobNat_frame, ite_self, and_self, implies_true]

theorem State.setCatEntry_frame (s : State) (p : Nat) (i : Nat) (id : BitVec 64) (step : BitVec 64) (kind : Nat) (slot : Nat) (state : Nat) :
    (State.setCatEntry s p i id step kind slot state).kept = s.kept := by
  unfold State.setCatEntry
  (repeat' split) <;> simp only [↓State.kept_mk, State.kept_eq, ↓foldl_kept, ↓ite_kept, ↓State.postJobNat_frame, ite_self, and_self, implies_true]

theorem State.rollbackHold_frame (s : State) (p : Nat) (cause : Nat) :
    (State.rollbackHold s p cause).kept = s.kept := by
  simp only [State.rollbackHold, ↓State.kept_mk, State.kept_eq, ↓foldl_kept, ↓ite_kept, ↓State.abandonSnap_frame, ↓State.abandonPart_frame, ↓State.withdraw_frame, ↓State.setCatHold_frame, ↓State.modJob_frame, ↓State.logError_frame, ↓State.failJob_frame, ↓State.setJobState_frame, ite_self, and_self, implies_true]

theorem State.hwError_frame (s : State) (r : Report1) (rollback : optParam Bool false) :
    (State.hwError s r rollback).kept = s.kept := by
  unfold State.hwError
  (repeat' split) <;> simp only [↓State.kept_mk, State.kept_eq, ↓foldl_kept, ↓ite_kept, ↓State.schedule_frame, ↓State.logError_frame, ↓State.modCoresOf_frame, ↓State.rollbackHold_frame, ↓State.withdraw_frame, ite_self, and_self, implies_true]

theorem State.dramUe_frame (s : State) (k : Nat) (addr : Nat) (page : Option (Nat × Nat)) :
    (State.dramUe s k addr page).kept = s.kept := by
  simp only [State.dramUe, ↓State.kept_mk, State.kept_eq, ↓foldl_kept, ↓ite_kept, ↓State.hwError_frame, ↓State.setChan_frame, ite_self, and_self, implies_true]

theorem State.holdPiece_frame (s : State) (p : Nat) (src : ReqSrc) (a : State) (x : Nat × Nat × Place) :
    (s.holdPiece p src a x).kept = a.kept := by
  simp only [State.holdPiece, ↓State.holdWrite_frame, ↓State.jobWrite_frame]

theorem State.accessCow_keep {γ : Type} (q : Kept → γ) (s : State) (p : Nat) (src : ReqSrc) (use merge full : List (Nat × Nat)) (l : List Place) (f : State → State)
    (h : ∀ a, q (f a).kept = q a.kept) : q (State.accessCow s p src use merge full l f).kept = q s.kept := by
  unfold State.accessCow
  extract_lets s1
  have h1 : s1.kept = s.kept := by simp only [s1, ↓foldl_kept, ↓State.touch_frame, implies_true]
  clear_value s1
  split
  · rw [h1]
  · rename_i a w hn
    have ha : q a.kept = q s.kept := by simp only [a, h, ↓foldl_kept, ↓State.writeOver_frame, implies_true, h1]
    clear_value w a
    split
    · simp only [↓foldl_kept, ↓State.holdPiece_frame, implies_true]; exact ha
    · split
      · simp only [↓State.markRefused_frame, ↓State.setChan_frame, h1]
      · rw [h1]

theorem State.accessCow_kept (s : State) (p : Nat) (src : ReqSrc) (use merge full : List (Nat × Nat)) (l : List Place) (f : State → State) (h : ∀ a, (f a).kept = a.kept) :
    (State.accessCow s p src use merge full l f).kept = s.kept := State.accessCow_keep id s p src use merge full l f h

theorem State.accessBy_keep {γ : Type} (q : Kept → γ) (s : State) (p : Nat) (src : ReqSrc) (use merge full : List (Nat × Nat)) (f : State → State)
    (h : ∀ a, q (f a).kept = q a.kept) : q (State.accessBy s p src use merge full f).kept = q s.kept := by
  unfold State.accessBy
  split
  · simp only [↓State.placeRefused_frame]
  · split
    · simp only [↓State.dramUe_frame]
    · split
      · simp only [h, ↓foldl_kept, ↓State.writeOver_frame, implies_true]
      · exact State.accessCow_keep q _ _ _ _ _ _ _ _ h

theorem State.accessBy_kept (s : State) (p : Nat) (src : ReqSrc) (use merge full : List (Nat × Nat)) (f : State → State) (h : ∀ a, (f a).kept = a.kept) :
    (State.accessBy s p src use merge full f).kept = s.kept := State.accessBy_keep id s p src use merge full f h

theorem State.whenAccess_keep {γ : Type} (q : Kept → γ) (s : State) (p : Nat) (use merge full : List (Nat × Nat)) (f : State → State)
    (h : ∀ a, q (f a).kept = q a.kept) : q (State.whenAccess s p use merge full f).kept = q s.kept := by
  exact State.accessBy_keep q _ _ _ _ _ _ _ h

theorem State.whenAccess_kept (s : State) (p : Nat) (use merge full : List (Nat × Nat)) (f : State → State) (h : ∀ a, (f a).kept = a.kept) :
    (State.whenAccess s p use merge full f).kept = s.kept := State.whenAccess_keep id s p use merge full f h

theorem State.whenWritable_keep {γ : Type} (q : Kept → γ) (s : State) (p : Nat) (rs : List (Nat × Nat)) (f : State → State)
    (h : ∀ a, q (f a).kept = q a.kept) : q (State.whenWritable s p rs f).kept = q s.kept := by
  exact State.whenAccess_keep q _ _ _ _ _ _ h

theorem State.whenWritable_kept (s : State) (p : Nat) (rs : List (Nat × Nat)) (f : State → State) (h : ∀ a, (f a).kept = a.kept) :
    (State.whenWritable s p rs f).kept = s.kept := State.whenWritable_keep id s p rs f h

theorem State.whenReadable_keep {γ : Type} (q : Kept → γ) (s : State) (p : Nat) (rs : List (Nat × Nat)) (f : State → State)
    (h : ∀ a, q (f a).kept = q a.kept) : q (State.whenReadable s p rs f).kept = q s.kept := by
  unfold State.whenReadable
  split
  · simp only [↓State.placeRefused_frame]
  · split
    · split
      · rfl
      · exact h s
    · simp only [↓State.dramUe_frame]

theorem State.whenReadable_kept (s : State) (p : Nat) (rs : List (Nat × Nat)) (f : State → State) (h : ∀ a, (f a).kept = a.kept) :
    (State.whenReadable s p rs f).kept = s.kept := State.whenReadable_keep id s p rs f h

theorem State.setGate_frame (s : State) (i : Nat) (g : Bool) :
    (State.setGate s i g).kept = s.kept ∧ (State.setGate s i g).vDram = s.vDram := by
  simp only [State.setGate, ↓State.kept_mk, State.kept_eq, ↓foldl_kept, ↓ite_kept, ↓State.vDram_mk, State.vDram_eq, ↓foldl_vDram, ↓ite_vDram, ite_self, and_self, implies_true]

theorem State.gateRefusal_frame (s : State) (c : Nat) :
    (State.gateRefusal s c).kept = s.kept ∧ (State.gateRefusal s c).vDram = s.vDram := by
  simp only [State.gateRefusal, ↓State.kept_mk, State.kept_eq, ↓foldl_kept, ↓ite_kept, ↓State.vDram_mk, State.vDram_eq, ↓foldl_vDram, ↓ite_vDram, ↓State.logError_frame, ite_self, and_self, implies_true]

theorem State.whenUnit_keep {γ : Type} (q : Kept → γ) (s : State) (p c : Nat) (use merge full : List (Nat × Nat)) (f : State → State)
    (h : ∀ a, q (f a).kept = q a.kept) : q (State.whenUnit s p c use merge full f).kept = q s.kept := by
  unfold State.whenUnit
  split
  · simp only [↓State.gateRefusal_frame]
  · exact State.accessBy_keep q _ _ _ _ _ _ _ h

theorem State.whenUnit_kept (s : State) (p c : Nat) (use merge full : List (Nat × Nat)) (f : State → State) (h : ∀ a, (f a).kept = a.kept) :
    (State.whenUnit s p c use merge full f).kept = s.kept := State.whenUnit_keep id s p c use merge full f h

theorem State.readUnit_keep {γ : Type} (q : Kept → γ) (s : State) (p c : Nat) (rs : List (Nat × Nat)) (f : State → State)
    (h : ∀ a, q (f a).kept = q a.kept) : q (State.readUnit s p c rs f).kept = q s.kept := by
  unfold State.readUnit
  split
  · simp only [↓State.gateRefusal_frame]
  · exact State.whenReadable_keep q _ _ _ _ h

theorem State.readUnit_kept (s : State) (p c : Nat) (rs : List (Nat × Nat)) (f : State → State) (h : ∀ a, (f a).kept = a.kept) :
    (State.readUnit s p c rs f).kept = s.kept := State.readUnit_keep id s p c rs f h

theorem State.openGates_frame (s : State) :
    (State.openGates s).kept = s.kept ∧ (State.openGates s).vDram = s.vDram := by
  simp only [State.openGates, ↓State.kept_mk, State.kept_eq, ↓foldl_kept, ↓ite_kept, ↓State.vDram_mk, State.vDram_eq, ↓foldl_vDram, ↓ite_vDram, ↓State.setGate_frame, ite_self, and_self, implies_true]

theorem State.discardRecord_frame (s : State) (kind : Nat) (unit : Nat) (n : Nat) (part : Option Nat) :
    (State.discardRecord s kind unit n part).kept = s.kept ∧ (State.discardRecord s kind unit n part).vDram = s.vDram := by
  simp only [State.discardRecord, ↓State.kept_mk, State.kept_eq, ↓foldl_kept, ↓ite_kept, ↓State.vDram_mk, State.vDram_eq, ↓foldl_vDram, ↓ite_vDram, ↓State.logError_frame, ite_self, and_self, implies_true]

theorem State.dropOver_frame (s : State) (i q n : Nat) :
    (State.dropOver s i q n).1.kept = s.kept ∧ (State.dropOver s i q n).1.vDram = s.vDram := by
  constructor
  · refine foldl_keep (fun z : State × Nat => z.1.kept) _ (fun a x => ?_) _ _
    dsimp only
    split <;> simp only [↓State.setCore_frame]
  · refine foldl_keep (fun z : State × Nat => z.1.vDram) _ (fun a x => ?_) _ _
    dsimp only
    split <;> simp only [↓State.setCore_frame]

theorem State.closeBeside_frame (s : State) (i : Nat) (q : Nat) (n : Nat) (sideB : Bool) :
    (State.closeBeside s i q n sideB).kept = s.kept ∧ (State.closeBeside s i q n sideB).vDram = s.vDram := by
  simp only [State.closeBeside, ↓State.kept_mk, State.kept_eq, ↓foldl_kept, ↓ite_kept, ↓State.vDram_mk, State.vDram_eq, ↓foldl_vDram, ↓ite_vDram, ↓State.discardRecord_frame, ↓State.dropOver_frame, ite_self, and_self, implies_true]

theorem boundaryGateClose_frame (i : Fin 12) (n : Fin 129) (s : State) :
    (boundaryGateClose i n s).kept = s.kept ∧ (boundaryGateClose i n s).vDram = s.vDram := by
  simp only [boundaryGateClose, ↓State.kept_mk, State.kept_eq, ↓foldl_kept, ↓ite_kept, ↓State.vDram_mk, State.vDram_eq, ↓foldl_vDram, ↓ite_vDram, ↓State.setGate_frame, ↓State.closeBeside_frame, ite_self, and_self, implies_true]

theorem State.setFlash_frame (s : State) (slot : Nat) (off : Nat) (bs : List Byte) :
    (State.setFlash s slot off bs).kept.queue = s.kept.queue ∧ (State.setFlash s slot off bs).kept.layout = s.kept.layout ∧ (State.setFlash s slot off bs).kept.far = s.kept.far ∧ (State.setFlash s slot off bs).kept.meter = s.kept.meter ∧ (State.setFlash s slot off bs).vDram = s.vDram := by
  simp only [State.setFlash, ↓State.kept_mk, State.queue_eq, State.layout_eq, State.far_eq, State.flash_eq, State.meter_eq, ↓foldl_queue, ↓foldl_layout, ↓foldl_far, ↓foldl_flash, ↓foldl_meter, ↓ite_kept, ↓State.vDram_mk, State.vDram_eq, ↓foldl_vDram, ↓ite_vDram, ite_self, and_self, implies_true]

theorem State.openCatalogue_frame (s : State) (p : Nat) :
    (State.openCatalogue s p).kept = s.kept := by
  (unfold State.openCatalogue; repeat' (first | with_reducible rfl | extract_lets | with_reducible refine (foldl_kept _ (fun a x => ?_) _ _).trans ?_ | with_reducible refine both_kept _ _ _ _ ?_ ?_ | split | simp +zetaDelta only [id_eq, ↓State.kept_mk, State.kept_eq, ↓foldl_kept, ↓ite_kept, ↓State.postQuiet_frame, ↓State.setCatEntry_frame, ite_self, and_self, implies_true]))

theorem State.returnCredit_frame (s : State) (c : Nat) (e : Nat) (seq : BitVec 32) :
    (State.returnCredit s c e seq).kept = s.kept ∧ (State.returnCredit s c e seq).vDram = s.vDram := by
  refine ⟨?_, ?_⟩ <;> (unfold State.returnCredit; repeat' (first | with_reducible rfl | extract_lets | split | simp +zetaDelta only [↓State.kept_mk, State.kept_eq, ↓foldl_kept, ↓ite_kept, ↓State.vDram_mk, State.vDram_eq, ↓foldl_vDram, ↓ite_vDram, ↓State.gateRefusal_frame, ↓State.modCore_frame, ite_self, and_self, implies_true]))

theorem State.freeTile_frame (s : State) (c : Nat) (e : Nat) :
    (State.freeTile s c e).kept = s.kept ∧ (State.freeTile s c e).vDram = s.vDram := by
  refine ⟨?_, ?_⟩ <;> (unfold State.freeTile; repeat' (first | with_reducible rfl | extract_lets | split | simp +zetaDelta only [↓State.kept_mk, State.kept_eq, ↓foldl_kept, ↓ite_kept, ↓State.vDram_mk, State.vDram_eq, ↓foldl_vDram, ↓ite_vDram, ↓State.setCore_frame, ↓State.returnCredit_frame, ite_self, and_self, implies_true]))

theorem State.freeTiles_frame (s : State) (c : Nat) (l : List EpId) :
    (State.freeTiles s c l).kept = s.kept ∧ (State.freeTiles s c l).vDram = s.vDram := by
  simp only [State.freeTiles, ↓State.kept_mk, State.kept_eq, ↓foldl_kept, ↓ite_kept, ↓State.vDram_mk, State.vDram_eq, ↓foldl_vDram, ↓ite_vDram, ↓State.freeTile_frame, ite_self, and_self, implies_true]

theorem State.sendEdge_frame (s : State) (c : Nat) (e : Nat) (d : Edge) (seq : BitVec 32) (step : BitVec 16) (marker : Bool) (bs : List Byte) :
    (State.sendEdge s c e d seq step marker bs).kept = s.kept ∧ (State.sendEdge s c e d seq step marker bs).vDram = s.vDram := by
  unfold State.sendEdge
  (repeat' split) <;> simp only [↓State.kept_mk, State.kept_eq, ↓foldl_kept, ↓ite_kept, ↓State.vDram_mk, State.vDram_eq, ↓foldl_vDram, ↓ite_vDram, ↓State.modCore_frame, ↓State.setCore_frame, ite_self, and_self, implies_true]

theorem State.sendTile_frame (s : State) (c : Nat) (e : Nat) (seq : BitVec 32) (bs : List Byte) :
    (State.sendTile s c e seq bs).kept = s.kept ∧ (State.sendTile s c e seq bs).vDram = s.vDram := by
  simp only [State.sendTile, ↓State.kept_mk, State.kept_eq, ↓foldl_kept, ↓ite_kept, ↓State.vDram_mk, State.vDram_eq, ↓foldl_vDram, ↓ite_vDram, ↓State.sendEdge_frame, ↓State.setCore_frame, ite_self, and_self, implies_true]

theorem State.sendMarker_frame (s : State) (c : Nat) (e : Nat) :
    (State.sendMarker s c e).kept = s.kept ∧ (State.sendMarker s c e).vDram = s.vDram := by
  simp only [State.sendMarker, ↓State.kept_mk, State.kept_eq, ↓foldl_kept, ↓ite_kept, ↓State.vDram_mk, State.vDram_eq, ↓foldl_vDram, ↓ite_vDram, ↓State.gateRefusal_frame, ↓State.sendEdge_frame, ite_self, and_self, implies_true]

theorem State.coreFault_frame (s : State) (c : Nat) (code : Nat) (detail : Nat) (info : Nat) :
    (State.coreFault s c code detail info).kept = s.kept := by
  simp only [State.coreFault, ↓State.kept_mk, State.kept_eq, ↓foldl_kept, ↓ite_kept, ↓State.programFault_frame, ↓State.modCore_frame, ite_self, and_self, implies_true]

theorem State.instFault_frame (s : State) (c : Nat) (code : Nat) (detail : Nat) (info : Nat) :
    (State.instFault s c code detail info).kept = s.kept := by
  simp only [State.instFault, ↓State.kept_mk, State.kept_eq, ↓foldl_kept, ↓ite_kept, ↓State.programFault_frame, ↓State.modCore_frame, ite_self, and_self, implies_true]

theorem State.spillTile_frame (s : State) (c : Nat) (e : Nat) (seq : BitVec 32) (step : BitVec 16) (visible : Bool) (bs : List Byte) (credit : Bool) :
    (State.spillTile s c e seq step visible bs credit).kept = s.kept := by
  simp only [State.spillTile, ↓State.kept_mk, State.kept_eq, ↓foldl_kept, ↓ite_kept, ↓State.coreFault_frame, ↓State.setCore_frame, ↓State.returnCredit_frame, ite_self, and_self, implies_true]

theorem tileArrive_frame (c : CoreId) (e : EpId) (s : State) :
    (tileArrive c e s).kept = s.kept := by
  (unfold tileArrive; repeat' (first | with_reducible rfl | extract_lets | split | simp +zetaDelta only [↓State.kept_mk, State.kept_eq, ↓foldl_kept, ↓ite_kept, ↓State.setCore_frame, ↓State.coreFault_frame, ↓State.spillTile_frame, ite_self, and_self, implies_true]))

theorem endOfStepMarker_frame (c : CoreId) (e : EpId) (s : State) :
    (endOfStepMarker c e s).kept = s.kept := by
  (unfold endOfStepMarker; repeat' (first | with_reducible rfl | extract_lets | split | simp +zetaDelta only [↓State.kept_mk, State.kept_eq, ↓foldl_kept, ↓ite_kept, ↓State.setCore_frame, ↓State.coreFault_frame, ite_self, and_self, implies_true]))

theorem State.released_frame (s : State) (c : Nat) :
    (State.released s c).kept = s.kept ∧ (State.released s c).vDram = s.vDram := by
  simp only [State.released, ↓State.kept_mk, State.kept_eq, ↓foldl_kept, ↓ite_kept, ↓State.vDram_mk, State.vDram_eq, ↓foldl_vDram, ↓ite_vDram, ↓State.modCore_frame, ite_self, and_self, implies_true]

theorem externalEventRelease_frame (c : CoreId) (e : EpId) (arrived : Nat) (s : State) :
    (externalEventRelease c e arrived s).kept = s.kept ∧ (externalEventRelease c e arrived s).vDram = s.vDram := by
  refine ⟨?_, ?_⟩ <;> (unfold externalEventRelease; repeat' (first | with_reducible rfl | extract_lets | split | simp +zetaDelta only [↓State.kept_mk, State.kept_eq, ↓foldl_kept, ↓ite_kept, ↓State.vDram_mk, State.vDram_eq, ↓foldl_vDram, ↓ite_vDram, ↓State.setCore_frame, ite_self, and_self, implies_true]))

theorem creditReceive_frame (c : CoreId) (e : EpId) (s : State) :
    (creditReceive c e s).kept = s.kept ∧ (creditReceive c e s).vDram = s.vDram := by
  refine ⟨?_, ?_⟩ <;> (unfold creditReceive; repeat' (first | with_reducible rfl | extract_lets | split | simp +zetaDelta only [↓State.kept_mk, State.kept_eq, ↓foldl_kept, ↓ite_kept, ↓State.vDram_mk, State.vDram_eq, ↓foldl_vDram, ↓ite_vDram, ↓State.setCore_frame, ite_self, and_self, implies_true]))

theorem State.spillAll_frame (s : State) (c e n : Nat) :
    (s.spillAll c e n).kept = s.kept := by
  induction n generalizing s with
  | zero => simp [State.spillAll]
  | succ n ih =>
    simp only [State.spillAll]
    split
    · simp
    · split
      · simp [State.coreFault_frame]
      · simp [ih, State.setCore_frame, State.spillTile_frame]

theorem queueMoveBack_frame (c : CoreId) (e : EpId) (s : State) :
    (queueMoveBack c e s).kept = s.kept ∧ (queueMoveBack c e s).vDram = s.vDram := by
  refine ⟨?_, ?_⟩ <;> (unfold queueMoveBack; repeat' (first | with_reducible rfl | extract_lets | split | simp +zetaDelta only [↓State.kept_mk, State.kept_eq, ↓foldl_kept, ↓ite_kept, ↓State.vDram_mk, State.vDram_eq, ↓foldl_vDram, ↓ite_vDram, ↓State.setCore_frame, ite_self, and_self, implies_true]))

theorem stallSuspect_frame (c : CoreId) (engine : Fin 3) (operator : BitVec 24) (s : State) :
    (stallSuspect c engine operator s).kept = s.kept ∧ (stallSuspect c engine operator s).vDram = s.vDram := by
  simp only [stallSuspect, ↓State.kept_mk, State.kept_eq, ↓foldl_kept, ↓ite_kept, ↓State.vDram_mk, State.vDram_eq, ↓foldl_vDram, ↓ite_vDram, ↓State.logError_frame, ite_self, and_self, implies_true]

theorem State.steerFault_frame (s : State) (c : Nat) (n : Nat) (seq : Nat) :
    (State.steerFault s c n seq).kept = s.kept := by
  simp only [State.steerFault, ↓State.kept_mk, State.kept_eq, ↓foldl_kept, ↓ite_kept, ↓State.coreFault_frame, ↓State.setCore_frame, ite_self, and_self, implies_true]

theorem State.fired_frame (s : State) (c : Nat) (n : Nat) :
    (State.fired s c n).kept = s.kept ∧ (State.fired s c n).vDram = s.vDram := by
  simp only [State.fired, ↓State.kept_mk, State.kept_eq, ↓foldl_kept, ↓ite_kept, ↓State.vDram_mk, State.vDram_eq, ↓foldl_vDram, ↓ite_vDram, ↓State.setCore_frame, ite_self, and_self, implies_true]

theorem State.dropMarker_frame (s : State) (c : Nat) (e : Nat) :
    (State.dropMarker s c e).kept = s.kept ∧ (State.dropMarker s c e).vDram = s.vDram := by
  simp only [State.dropMarker, ↓State.kept_mk, State.kept_eq, ↓foldl_kept, ↓ite_kept, ↓State.vDram_mk, State.vDram_eq, ↓foldl_vDram, ↓ite_vDram, ↓State.setCore_frame, ite_self, and_self, implies_true]

theorem steerSwitch_frame (c : CoreId) (n : Fin 8) (s : State) :
    (steerSwitch c n s).kept = s.kept := by
  (unfold steerSwitch; repeat' (first | with_reducible rfl | extract_lets | split | simp +zetaDelta only [↓State.kept_mk, State.kept_eq, ↓foldl_kept, ↓ite_kept, ↓State.steerFault_frame, ↓State.fired_frame, ↓State.freeTile_frame, ↓State.gateRefusal_frame, ↓State.sendTile_frame, ↓State.dropMarker_frame, ↓State.sendMarker_frame, ite_self, and_self, implies_true]))

theorem steerSelect_frame (c : CoreId) (n : Fin 8) (s : State) :
    (steerSelect c n s).kept = s.kept := by
  (unfold steerSelect; repeat' (first | with_reducible rfl | extract_lets | split | simp +zetaDelta only [↓State.kept_mk, State.kept_eq, ↓foldl_kept, ↓ite_kept, ↓State.steerFault_frame, ↓State.fired_frame, ↓State.freeTile_frame, ↓State.gateRefusal_frame, ↓State.sendTile_frame, ↓State.dropMarker_frame, ↓State.sendMarker_frame, ite_self, and_self, implies_true]))

theorem steerMerge_frame (c : CoreId) (n : Fin 8) (s : State) :
    (steerMerge c n s).kept = s.kept := by
  (unfold steerMerge; repeat' (first | with_reducible rfl | extract_lets | split | simp +zetaDelta only [↓State.kept_mk, State.kept_eq, ↓foldl_kept, ↓ite_kept, ↓State.gateRefusal_frame, ↓State.fired_frame, ↓State.freeTile_frame, ↓State.sendTile_frame, ↓State.steerFault_frame, ↓State.dropMarker_frame, ↓State.sendMarker_frame, ite_self, and_self, implies_true]))

theorem State.setArith_frame (s : State) (c : Nat) (f : ArithStatus) :
    (State.setArith s c f).kept = s.kept ∧ (State.setArith s c f).vDram = s.vDram := by
  simp only [State.setArith, ↓State.kept_mk, State.kept_eq, ↓foldl_kept, ↓ite_kept, ↓State.vDram_mk, State.vDram_eq, ↓foldl_vDram, ↓ite_vDram, ↓State.setCore_frame, ↓State.logError_frame, ite_self, and_self, implies_true]

theorem State.commitLog_frame (s : State) (c : Nat) :
    (State.commitLog s c).kept = s.kept := by
  simp only [State.commitLog, ↓State.kept_mk, State.kept_eq, ↓foldl_kept, ↓ite_kept, ↓State.accessBy_kept, ↓State.jobWrite_frame, ↓State.modCore_frame, ite_self, and_self, implies_true]

theorem State.noteWritten_frame (s : State) (c : Nat) (rs : List (BitVec 2 × Nat × Nat)) :
    (State.noteWritten s c rs).kept = s.kept ∧ (State.noteWritten s c rs).vDram = s.vDram := by
  simp only [State.noteWritten, ↓State.kept_mk, State.kept_eq, ↓foldl_kept, ↓ite_kept, ↓State.vDram_mk, State.vDram_eq, ↓foldl_vDram, ↓ite_vDram, ↓State.modCtx_frame, ite_self, and_self, implies_true]

theorem State.moveRegions_frame (s : State) (c : Nat) (m : Moves) :
    (State.moveRegions s c m).kept = s.kept ∧ (State.moveRegions s c m).vDram = s.vDram := by
  simp only [State.moveRegions, ↓State.kept_mk, State.kept_eq, ↓foldl_kept, ↓ite_kept, ↓State.vDram_mk, State.vDram_eq, ↓foldl_vDram, ↓ite_vDram, ↓State.modCore_frame, ↓State.setCtx_frame, ite_self, and_self, implies_true]

theorem State.deadCtx_frame (s : State) (k : Nat) (code : Nat) (addr : Nat) :
    (State.deadCtx s k code addr).kept = s.kept := by
  (unfold State.deadCtx; repeat' (first | with_reducible rfl | extract_lets | split | simp +zetaDelta only [↓State.kept_mk, State.kept_eq, ↓foldl_kept, ↓ite_kept, ↓State.modCtx_frame, ↓State.modCore_frame, ↓State.hwError_frame, ↓State.programFault_frame, ite_self, and_self, implies_true]))

theorem State.activateNow_frame (s : State) (k : Nat) (addr : BitVec 64) :
    (State.activateNow s k addr).kept = s.kept ∧ (State.activateNow s k addr).vDram = s.vDram := by
  simp only [State.activateNow, ↓State.kept_mk, State.kept_eq, ↓foldl_kept, ↓ite_kept, ↓State.vDram_mk, State.vDram_eq, ↓foldl_vDram, ↓ite_vDram, ↓State.modCtx_frame, ite_self, and_self, implies_true]

theorem State.activate_frame (s : State) (k : Nat) (addr : BitVec 64) :
    (State.activate s k addr).kept = s.kept := by
  (unfold State.activate; repeat' (first | with_reducible rfl | extract_lets | split | simp +zetaDelta only [↓State.kept_mk, State.kept_eq, ↓foldl_kept, ↓ite_kept, ↓State.deadCtx_frame, ↓State.activateNow_frame, ite_self, and_self, implies_true]))

theorem State.setFtt_frame (s : State) (p : Nat) (port : Nat) (page : Nat) (f : Ftt) :
    (State.setFtt s p port page f).kept = s.kept := by
  simp only [State.setFtt, ↓State.kept_mk, State.kept_eq, ↓foldl_kept, ↓ite_kept, ↓State.jobPost_frame, ite_self, and_self, implies_true]

theorem State.whenFtt_keep {γ : Type} (q : Kept → γ) (s : State) (p port page : Nat) (f : State → State)
    (h : ∀ a, q (f a).kept = q a.kept) : q (State.whenFtt s p port page f).kept = q s.kept := by
  exact State.whenWritable_keep q _ _ _ _ h

theorem State.whenFtt_kept (s : State) (p port page : Nat) (f : State → State) (h : ∀ a, (f a).kept = a.kept) :
    (State.whenFtt s p port page f).kept = s.kept := State.whenFtt_keep id s p port page f h

theorem State.setWindow_frame (s : State) (w : Nat) (x : StoreWindow) :
    (State.setWindow s w x).kept = s.kept ∧ (State.setWindow s w x).vDram = s.vDram := by
  simp only [State.setWindow, ↓State.kept_mk, State.kept_eq, ↓foldl_kept, ↓ite_kept, ↓State.vDram_mk, State.vDram_eq, ↓foldl_vDram, ↓ite_vDram, ite_self, and_self, implies_true]

theorem State.haltCtx_frame (s : State) (k : Nat) (code : Nat) (addr : Nat) :
    (State.haltCtx s k code addr).kept = s.kept ∧ (State.haltCtx s k code addr).vDram = s.vDram := by
  refine ⟨?_, ?_⟩ <;> (unfold State.haltCtx; repeat' (first | with_reducible rfl | extract_lets | split | simp +zetaDelta only [↓State.kept_mk, State.kept_eq, ↓foldl_kept, ↓ite_kept, ↓State.vDram_mk, State.vDram_eq, ↓foldl_vDram, ↓ite_vDram, ↓State.modCore_frame, ↓State.setCtx_frame, ite_self, and_self, implies_true]))

theorem State.issueReq_frame (s : State) (k : Nat) (r : StrReq) :
    (State.issueReq s k r).kept = s.kept ∧ (State.issueReq s k r).vDram = s.vDram := by
  refine ⟨?_, ?_⟩ <;> (unfold State.issueReq; repeat' (first | with_reducible rfl | extract_lets | split | simp +zetaDelta only [↓State.kept_mk, State.kept_eq, ↓foldl_kept, ↓ite_kept, ↓State.vDram_mk, State.vDram_eq, ↓foldl_vDram, ↓ite_vDram, ↓State.setCtx_frame, ite_self, and_self, implies_true]))

theorem State.flushMerge_frame (s : State) (k : Nat) :
    (State.flushMerge s k).kept = s.kept ∧ (State.flushMerge s k).vDram = s.vDram := by
  refine ⟨?_, ?_⟩ <;> (unfold State.flushMerge; repeat' (first | with_reducible rfl | extract_lets | split | simp +zetaDelta only [↓State.kept_mk, State.kept_eq, ↓foldl_kept, ↓ite_kept, ↓State.vDram_mk, State.vDram_eq, ↓foldl_vDram, ↓ite_vDram, ↓State.issueReq_frame, ↓State.setCtx_frame, ite_self, and_self, implies_true]))

theorem State.deliverTo_frame (s : State) (c : Nat) (d : Desc) (pos : Nat) (bs : List Byte) :
    (State.deliverTo s c d pos bs).kept = s.kept ∧ (State.deliverTo s c d pos bs).vDram = s.vDram := by
  simp only [State.deliverTo, ↓State.kept_mk, State.kept_eq, ↓foldl_kept, ↓ite_kept, ↓State.vDram_mk, State.vDram_eq, ↓foldl_vDram, ↓ite_vDram, ↓State.noteWritten_frame, ↓State.modCore_frame, ite_self, and_self, implies_true]

theorem State.retireOne_frame (s : State) (k : Nat) (r : StrReq) (rest : List StrReq) :
    (State.retireOne s k r rest).kept = s.kept ∧ (State.retireOne s k r rest).vDram = s.vDram := by
  unfold State.retireOne
  (repeat' split) <;> simp only [↓State.kept_mk, State.kept_eq, ↓foldl_kept, ↓ite_kept, ↓State.vDram_mk, State.vDram_eq, ↓foldl_vDram, ↓ite_vDram, ↓State.setCtx_frame, ↓State.modCore_frame, ↓State.deliverTo_frame, ite_self, and_self, implies_true]

theorem State.faultReq_frame (s : State) (k : Nat) (i : Nat) (code : Nat) (addr : Nat) (dst : optParam Bool false) :
    (State.faultReq s k i code addr dst).kept = s.kept ∧ (State.faultReq s k i code addr dst).vDram = s.vDram := by
  refine ⟨?_, ?_⟩ <;> (unfold State.faultReq; repeat' (first | with_reducible rfl | extract_lets | split | simp +zetaDelta only [↓State.kept_mk, State.kept_eq, ↓foldl_kept, ↓ite_kept, ↓State.vDram_mk, State.vDram_eq, ↓foldl_vDram, ↓ite_vDram, ↓State.haltCtx_frame, ↓State.setCtx_frame, ite_self, and_self, implies_true]))

theorem State.timeoutReq_frame (s : State) (k : Nat) (i : Nat) :
    (State.timeoutReq s k i).kept = s.kept ∧ (State.timeoutReq s k i).vDram = s.vDram := by
  refine ⟨?_, ?_⟩ <;> (unfold State.timeoutReq; repeat' (first | with_reducible rfl | extract_lets | split | simp +zetaDelta only [↓State.kept_mk, State.kept_eq, ↓foldl_kept, ↓ite_kept, ↓State.vDram_mk, State.vDram_eq, ↓foldl_vDram, ↓ite_vDram, ↓State.faultReq_frame, ite_self, and_self, implies_true]))

theorem State.takeAnswer_frame (s : State) (k : Nat) (p : Response) :
    (State.takeAnswer s k p).kept = s.kept ∧ (State.takeAnswer s k p).vDram = s.vDram := by
  refine ⟨?_, ?_⟩ <;> (unfold State.takeAnswer; repeat' (first | with_reducible rfl | extract_lets | split | simp +zetaDelta only [↓State.kept_mk, State.kept_eq, ↓foldl_kept, ↓ite_kept, ↓State.vDram_mk, State.vDram_eq, ↓foldl_vDram, ↓ite_vDram, ↓State.setCtx_frame, ↓State.faultReq_frame, ite_self, and_self, implies_true]))

theorem State.respond_frame (s : State) (k : Nat) (p : Response) :
    (State.respond s k p).kept = s.kept ∧ (State.respond s k p).vDram = s.vDram := by
  simp only [State.respond, ↓State.kept_mk, State.kept_eq, ↓foldl_kept, ↓ite_kept, ↓State.vDram_mk, State.vDram_eq, ↓foldl_vDram, ↓ite_vDram, ↓State.modCtx_frame, ↓State.takeAnswer_frame, ite_self, and_self, implies_true]

theorem State.wake_frame (s : State) (k : Nat) :
    (State.wake s k).kept = s.kept ∧ (State.wake s k).vDram = s.vDram := by
  simp only [State.wake, ↓State.kept_mk, State.kept_eq, ↓foldl_kept, ↓ite_kept, ↓State.vDram_mk, State.vDram_eq, ↓foldl_vDram, ↓ite_vDram, ↓State.takeAnswer_frame, ↓State.modCtx_frame, ite_self, and_self, implies_true]

theorem State.settleWindows_frame (s : State) :
    (State.settleWindows s).kept = s.kept ∧ (State.settleWindows s).vDram = s.vDram := by
  simp only [State.settleWindows, ↓State.kept_mk, State.kept_eq, ↓foldl_kept, ↓ite_kept, ↓State.vDram_mk, State.vDram_eq, ↓foldl_vDram, ↓ite_vDram, ↓State.setWindow_frame, ite_self, and_self, implies_true]

theorem State.hostSend_frame (s : State) (k : Nat) (i : Nat) :
    (State.hostSend s k i).kept = s.kept ∧ (State.hostSend s k i).vDram = s.vDram := by
  simp only [State.hostSend, ↓State.kept_mk, State.kept_eq, ↓foldl_kept, ↓ite_kept, ↓State.vDram_mk, State.vDram_eq, ↓foldl_vDram, ↓ite_vDram, ↓State.modCtx_frame, ite_self, and_self, implies_true]

theorem armWrite_frame (k : CtxKey) (addr : BitVec 64) (s : State) :
    (armWrite k addr s).kept = s.kept := by
  simp only [armWrite, ↓State.kept_mk, State.kept_eq, ↓foldl_kept, ↓ite_kept, ↓State.setCtx_frame, ↓State.activate_frame, ↓State.modCtx_frame, ite_self, and_self, implies_true]

theorem armNext_frame (k : CtxKey) (s : State) :
    (armNext k s).kept = s.kept := by
  (unfold armNext; repeat' (first | with_reducible rfl | extract_lets | split | simp +zetaDelta only [↓State.kept_mk, State.kept_eq, ↓foldl_kept, ↓ite_kept, ↓armWrite_frame, ↓State.modCore_frame, ite_self, and_self, implies_true]))

theorem strArm_frame (k : CtxKey) (addr : Option (BitVec 64)) (s : State) :
    (strArm k addr s).kept = s.kept := by
  (unfold strArm; repeat' (first | with_reducible rfl | extract_lets | split | simp +zetaDelta only [↓State.kept_mk, State.kept_eq, ↓foldl_kept, ↓ite_kept, ↓armWrite_frame, ↓armNext_frame, ite_self, and_self, implies_true]))

theorem descriptorActivate_frame (k : CtxKey) (s : State) :
    (descriptorActivate k s).kept = s.kept := by
  simp only [descriptorActivate, ↓State.kept_mk, State.kept_eq, ↓foldl_kept, ↓ite_kept, ↓State.modCtx_frame, ↓State.activate_frame, ite_self, and_self, implies_true]

theorem strEnable_frame (k : CtxKey) (s : State) :
    (strEnable k s).kept = s.kept ∧ (strEnable k s).vDram = s.vDram := by
  refine ⟨?_, ?_⟩ <;> (unfold strEnable; repeat' (first | with_reducible rfl | extract_lets | split | simp +zetaDelta only [↓State.kept_mk, State.kept_eq, ↓foldl_kept, ↓ite_kept, ↓State.vDram_mk, State.vDram_eq, ↓foldl_vDram, ↓ite_vDram, ↓State.setCtx_frame, ite_self, and_self, implies_true]))

theorem strDisableReq_frame (k : CtxKey) (abandon : Bool) (s : State) :
    (strDisableReq k abandon s).kept = s.kept ∧ (strDisableReq k abandon s).vDram = s.vDram := by
  simp only [strDisableReq, ↓State.kept_mk, State.kept_eq, ↓foldl_kept, ↓ite_kept, ↓State.vDram_mk, State.vDram_eq, ↓foldl_vDram, ↓ite_vDram, ↓State.settleWindows_frame, ↓State.setCtx_frame, ite_self, and_self, implies_true]

theorem State.resumeFrom_frame (s : State) (k : Nat) (v : SaveArea) :
    (State.resumeFrom s k v).kept = s.kept ∧ (State.resumeFrom s k v).vDram = s.vDram := by
  simp only [State.resumeFrom, ↓State.kept_mk, State.kept_eq, ↓foldl_kept, ↓ite_kept, ↓State.vDram_mk, State.vDram_eq, ↓foldl_vDram, ↓ite_vDram, ↓State.setCtx_frame, ↓State.issueReq_frame, ite_self, and_self, implies_true]

theorem strResume_frame (k : CtxKey) (s : State) :
    (strResume k s).kept = s.kept := by
  unfold strResume
  extract_lets x
  split
  · split
    · simp only [↓State.deadCtx_frame]
    · simp only [↓State.resumeFrom_frame]
  · rfl

theorem State.serialWait_frame (s : State) (k : Nat) :
    (State.serialWait s k).kept = s.kept ∧ (State.serialWait s k).vDram = s.vDram := by
  simp only [State.serialWait, ↓State.kept_mk, State.kept_eq, ↓foldl_kept, ↓ite_kept, ↓State.vDram_mk, State.vDram_eq, ↓foldl_vDram, ↓ite_vDram, ↓State.flushMerge_frame, ↓State.setCtx_frame, ite_self, and_self, implies_true]

theorem State.inCtx_kept (s : State) (k : Nat) (f : State → State) (h : ∀ a, (f a).kept = a.kept) :
    (State.inCtx s k f).kept = s.kept := by
  unfold State.inCtx
  split
  · rfl
  · simp only [h, ↓State.wake_frame]

theorem State.inCtx_vDram (s : State) (k : Nat) (f : State → State) (h : ∀ a, (f a).vDram = a.vDram) :
    (State.inCtx s k f).vDram = s.vDram := by
  unfold State.inCtx
  split
  · rfl
  · simp only [h, ↓State.wake_frame]

theorem State.pastEnd_frame (s : State) (k : Nat) :
    (State.pastEnd s k).kept = s.kept ∧ (State.pastEnd s k).vDram = s.vDram := by
  simp only [State.pastEnd, ↓State.kept_mk, State.kept_eq, ↓foldl_kept, ↓ite_kept, ↓State.vDram_mk, State.vDram_eq, ↓foldl_vDram, ↓ite_vDram, ↓State.settleWindows_frame, ↓State.modCtx_frame, ↓State.serialWait_frame, ite_self, and_self, implies_true]

theorem State.genTo_frame (s : State) (k : Nat) (g : Gen) :
    (State.genTo s k g).kept = s.kept ∧ (State.genTo s k g).vDram = s.vDram := by
  simp only [State.genTo, ↓State.kept_mk, State.kept_eq, ↓foldl_kept, ↓ite_kept, ↓State.vDram_mk, State.vDram_eq, ↓foldl_vDram, ↓ite_vDram, ↓State.pastEnd_frame, ↓State.modCtx_frame, ite_self, and_self, implies_true]

theorem endProgram_frame (k : CtxKey) (s : State) :
    (endProgram k s).kept = s.kept ∧ (endProgram k s).vDram = s.vDram := by
  simp only [endProgram, ↓State.kept_mk, State.kept_eq, ↓foldl_kept, ↓ite_kept, ↓State.vDram_mk, State.vDram_eq, ↓foldl_vDram, ↓ite_vDram, ↓State.inCtx_kept, ↓State.inCtx_vDram, ↓State.serialWait_frame, ↓State.settleWindows_frame, ↓State.setCtx_frame, ite_self, and_self, implies_true]

theorem loopb_frame (k : CtxKey) (s : State) :
    (loopb k s).kept = s.kept ∧ (loopb k s).vDram = s.vDram := by
  simp only [loopb, ↓State.kept_mk, State.kept_eq, ↓foldl_kept, ↓ite_kept, ↓State.vDram_mk, State.vDram_eq, ↓foldl_vDram, ↓ite_vDram, ↓State.inCtx_kept, ↓State.inCtx_vDram, ↓State.genTo_frame, ite_self, and_self, implies_true]

theorem loope_frame (k : CtxKey) (s : State) :
    (loope k s).kept = s.kept ∧ (loope k s).vDram = s.vDram := by
  simp only [loope, ↓State.kept_mk, State.kept_eq, ↓foldl_kept, ↓ite_kept, ↓State.vDram_mk, State.vDram_eq, ↓foldl_vDram, ↓ite_vDram, ↓State.inCtx_kept, ↓State.inCtx_vDram, ↓State.genTo_frame, ite_self, and_self, implies_true]

theorem strStride_frame (k : CtxKey) (s : State) :
    (strStride k s).kept = s.kept ∧ (strStride k s).vDram = s.vDram := by
  simp only [strStride, ↓State.kept_mk, State.kept_eq, ↓foldl_kept, ↓ite_kept, ↓State.vDram_mk, State.vDram_eq, ↓foldl_vDram, ↓ite_vDram, ↓State.inCtx_kept, ↓State.inCtx_vDram, ↓State.genTo_frame, ite_self, and_self, implies_true]

theorem strAdd_frame (k : CtxKey) (s : State) :
    (strAdd k s).kept = s.kept ∧ (strAdd k s).vDram = s.vDram := by
  simp only [strAdd, ↓State.kept_mk, State.kept_eq, ↓foldl_kept, ↓ite_kept, ↓State.vDram_mk, State.vDram_eq, ↓foldl_vDram, ↓ite_vDram, ↓State.inCtx_kept, ↓State.inCtx_vDram, ↓State.genTo_frame, ite_self, and_self, implies_true]

theorem emit_frame (k : CtxKey) (s : State) :
    (emit k s).kept = s.kept ∧ (emit k s).vDram = s.vDram := by
  refine ⟨?_, ?_⟩ <;> (unfold emit; repeat' (first | with_reducible rfl | extract_lets | with_reducible refine State.inCtx_kept _ _ _ (fun a => ?_) | with_reducible refine State.inCtx_vDram _ _ _ (fun a => ?_) | with_reducible refine (foldl_kept _ (fun a x => ?_) _ _).trans ?_ | with_reducible refine (foldl_vDram _ (fun a x => ?_) _ _).trans ?_ | with_reducible refine both_kept _ _ _ _ ?_ ?_ | with_reducible refine both_vDram _ _ _ _ ?_ ?_ | split | simp +zetaDelta only [id_eq, ↓State.kept_mk, State.kept_eq, ↓foldl_kept, ↓ite_kept, ↓State.vDram_mk, State.vDram_eq, ↓foldl_vDram, ↓ite_vDram, ↓State.inCtx_kept, ↓State.inCtx_vDram, ↓State.setCtx_frame, ↓State.modCore_frame, ↓State.modCtx_frame, ↓State.flushMerge_frame, ↓State.issueReq_frame, ↓State.pastEnd_frame, ite_self, and_self, implies_true]))

theorem strSkip_frame (k : CtxKey) (s : State) :
    (strSkip k s).kept = s.kept ∧ (strSkip k s).vDram = s.vDram := by
  simp only [strSkip, ↓State.kept_mk, State.kept_eq, ↓foldl_kept, ↓ite_kept, ↓State.vDram_mk, State.vDram_eq, ↓foldl_vDram, ↓ite_vDram, ↓State.inCtx_kept, ↓State.inCtx_vDram, ↓State.genTo_frame, ite_self, and_self, implies_true]

theorem State.serialFaultAt_frame (s : State) (k : Nat) (code : Nat) (addr : Nat) :
    (State.serialFaultAt s k code addr).kept = s.kept ∧ (State.serialFaultAt s k code addr).vDram = s.vDram := by
  simp only [State.serialFaultAt, ↓State.kept_mk, State.kept_eq, ↓foldl_kept, ↓ite_kept, ↓State.vDram_mk, State.vDram_eq, ↓foldl_vDram, ↓ite_vDram, ↓State.haltCtx_frame, ite_self, and_self, implies_true]

theorem State.fetch_frame (s : State) (k : Nat) (adr : BitVec 64) (n : Nat) :
    (State.fetch s k adr n).kept = s.kept ∧ (State.fetch s k adr n).vDram = s.vDram := by
  refine ⟨?_, ?_⟩ <;> (unfold State.fetch; repeat' (first | with_reducible rfl | extract_lets | split | simp +zetaDelta only [↓State.kept_mk, State.kept_eq, ↓foldl_kept, ↓ite_kept, ↓State.vDram_mk, State.vDram_eq, ↓foldl_vDram, ↓ite_vDram, ↓State.issueReq_frame, ↓State.modCtx_frame, ↓State.serialWait_frame, ite_self, and_self, implies_true]))

theorem plfetch_frame (k : CtxKey) (s : State) :
    (plfetch k s).kept = s.kept ∧ (plfetch k s).vDram = s.vDram := by
  refine ⟨?_, ?_⟩ <;> (unfold plfetch; repeat' (first | with_reducible rfl | extract_lets | with_reducible refine State.inCtx_kept _ _ _ (fun a => ?_) | with_reducible refine State.inCtx_vDram _ _ _ (fun a => ?_) | with_reducible refine (foldl_kept _ (fun a x => ?_) _ _).trans ?_ | with_reducible refine (foldl_vDram _ (fun a x => ?_) _ _).trans ?_ | with_reducible refine both_kept _ _ _ _ ?_ ?_ | with_reducible refine both_vDram _ _ _ _ ?_ ?_ | split | simp +zetaDelta only [id_eq, ↓State.kept_mk, State.kept_eq, ↓foldl_kept, ↓ite_kept, ↓State.vDram_mk, State.vDram_eq, ↓foldl_vDram, ↓ite_vDram, ↓State.inCtx_kept, ↓State.inCtx_vDram, ↓State.fetch_frame, ↓State.settleWindows_frame, ↓State.setCtx_frame, ↓State.modCore_frame, ite_self, and_self, implies_true]))

theorem bfetch_frame (k : CtxKey) (s : State) :
    (bfetch k s).kept = s.kept ∧ (bfetch k s).vDram = s.vDram := by
  refine ⟨?_, ?_⟩ <;> (unfold bfetch; repeat' (first | with_reducible rfl | extract_lets | with_reducible refine State.inCtx_kept _ _ _ (fun a => ?_) | with_reducible refine State.inCtx_vDram _ _ _ (fun a => ?_) | with_reducible refine (foldl_kept _ (fun a x => ?_) _ _).trans ?_ | with_reducible refine (foldl_vDram _ (fun a x => ?_) _ _).trans ?_ | with_reducible refine both_kept _ _ _ _ ?_ ?_ | with_reducible refine both_vDram _ _ _ _ ?_ ?_ | split | simp +zetaDelta only [id_eq, ↓State.kept_mk, State.kept_eq, ↓foldl_kept, ↓ite_kept, ↓State.vDram_mk, State.vDram_eq, ↓foldl_vDram, ↓ite_vDram, ↓State.inCtx_kept, ↓State.inCtx_vDram, ↓State.fetch_frame, ↓State.settleWindows_frame, ↓State.setCtx_frame, ↓State.modCore_frame, ite_self, and_self, implies_true]))

theorem twait_frame (k : CtxKey) (s : State) :
    (twait k s).kept = s.kept ∧ (twait k s).vDram = s.vDram := by
  refine ⟨?_, ?_⟩ <;> (unfold twait; repeat' (first | with_reducible rfl | extract_lets | with_reducible refine State.inCtx_kept _ _ _ (fun a => ?_) | with_reducible refine State.inCtx_vDram _ _ _ (fun a => ?_) | with_reducible refine (foldl_kept _ (fun a x => ?_) _ _).trans ?_ | with_reducible refine (foldl_vDram _ (fun a x => ?_) _ _).trans ?_ | with_reducible refine both_kept _ _ _ _ ?_ ?_ | with_reducible refine both_vDram _ _ _ _ ?_ ?_ | split | simp +zetaDelta only [id_eq, ↓State.kept_mk, State.kept_eq, ↓foldl_kept, ↓ite_kept, ↓State.vDram_mk, State.vDram_eq, ↓foldl_vDram, ↓ite_vDram, ↓State.inCtx_kept, ↓State.inCtx_vDram, ↓State.serialWait_frame, ↓State.serialFaultAt_frame, ↓State.freeTile_frame, ↓State.settleWindows_frame, ↓State.modCtx_frame, ite_self, and_self, implies_true]))

theorem mergeHoldExpire_frame (k : CtxKey) (s : State) :
    (mergeHoldExpire k s).kept = s.kept ∧ (mergeHoldExpire k s).vDram = s.vDram := by
  simp only [mergeHoldExpire, ↓State.kept_mk, State.kept_eq, ↓foldl_kept, ↓ite_kept, ↓State.vDram_mk, State.vDram_eq, ↓foldl_vDram, ↓ite_vDram, ↓State.inCtx_kept, ↓State.inCtx_vDram, ↓State.flushMerge_frame, ite_self, and_self, implies_true]

theorem State.extWrite_frame (s : State) (p : Nat) (a : Nat) (bs : List Byte) :
    (State.extWrite s p a bs).kept.queue = s.kept.queue ∧ (State.extWrite s p a bs).kept.layout = s.kept.layout ∧ (State.extWrite s p a bs).kept.flash = s.kept.flash ∧ (State.extWrite s p a bs).kept.meter = s.kept.meter := by
  refine ⟨?_, ?_, ?_, ?_⟩ <;> (unfold State.extWrite; repeat' (first | with_reducible rfl | extract_lets | with_reducible refine (foldl_queue _ (fun a x => ?_) _ _).trans ?_ | with_reducible refine (foldl_layout _ (fun a x => ?_) _ _).trans ?_ | with_reducible refine (foldl_flash _ (fun a x => ?_) _ _).trans ?_ | with_reducible refine (foldl_meter _ (fun a x => ?_) _ _).trans ?_ | split | simp +zetaDelta only [id_eq, ↓State.kept_mk, State.queue_eq, State.layout_eq, State.far_eq, State.flash_eq, State.meter_eq, ↓foldl_queue, ↓foldl_layout, ↓foldl_far, ↓foldl_flash, ↓foldl_meter, ↓ite_kept, ↓State.setFtt_frame, ite_self, and_self, implies_true]))

theorem State.external_frame (s : State) (k : CtxKey) (i : Nat) (second : Bool) (write : Bool) (host : List Byte) (f : LineFound) :
    (State.external s k i second write host f).kept.queue = s.kept.queue ∧ (State.external s k i second write host f).kept.layout = s.kept.layout ∧ (State.external s k i second write host f).kept.flash = s.kept.flash ∧ (State.external s k i second write host f).kept.meter = s.kept.meter := by
  refine ⟨?_, ?_, ?_, ?_⟩ <;> (unfold State.external; repeat' (first | with_reducible rfl | extract_lets | split | simp +zetaDelta only [↓State.kept_mk, State.queue_eq, State.layout_eq, State.far_eq, State.flash_eq, State.meter_eq, ↓foldl_queue, ↓foldl_layout, ↓foldl_far, ↓foldl_flash, ↓foldl_meter, ↓ite_kept, ↓State.respond_frame, ↓State.modCtx_frame, ↓State.hostSend_frame, ↓State.settleWindows_frame, ↓State.extWrite_frame, ite_self, and_self, implies_true]))

theorem State.readBack_frame (s : State) (k : CtxKey) (i : Nat) :
    (State.readBack s k i).kept = s.kept ∧ (State.readBack s k i).vDram = s.vDram := by
  refine ⟨?_, ?_⟩ <;> (unfold State.readBack; repeat' (first | with_reducible rfl | extract_lets | split | simp +zetaDelta only [↓State.kept_mk, State.kept_eq, ↓foldl_kept, ↓ite_kept, ↓State.vDram_mk, State.vDram_eq, ↓foldl_vDram, ↓ite_vDram, ↓State.setCtx_frame, ite_self, and_self, implies_true]))

theorem State.countLate_frame (s : State) (k : Nat) (late : Bool) :
    (State.countLate s k late).kept = s.kept ∧ (State.countLate s k late).vDram = s.vDram := by
  refine ⟨?_, ?_⟩ <;> (unfold State.countLate; repeat' (first | with_reducible rfl | extract_lets | split | simp +zetaDelta only [↓State.kept_mk, State.kept_eq, ↓foldl_kept, ↓ite_kept, ↓State.vDram_mk, State.vDram_eq, ↓foldl_vDram, ↓ite_vDram, ↓State.modCore_frame, ite_self, and_self, implies_true]))

theorem requestRetire_frame (k : CtxKey) (now : Nat) (arrived : Nat) (s : State) :
    (requestRetire k now arrived s).kept = s.kept ∧ (requestRetire k now arrived s).vDram = s.vDram := by
  refine ⟨?_, ?_⟩ <;> (unfold requestRetire; repeat' (first | with_reducible rfl | extract_lets | with_reducible refine State.inCtx_kept _ _ _ (fun a => ?_) | with_reducible refine State.inCtx_vDram _ _ _ (fun a => ?_) | with_reducible refine (foldl_kept _ (fun a x => ?_) _ _).trans ?_ | with_reducible refine (foldl_vDram _ (fun a x => ?_) _ _).trans ?_ | with_reducible refine both_kept _ _ _ _ ?_ ?_ | with_reducible refine both_vDram _ _ _ _ ?_ ?_ | split | simp +zetaDelta only [id_eq, ↓State.kept_mk, State.kept_eq, ↓foldl_kept, ↓ite_kept, ↓State.vDram_mk, State.vDram_eq, ↓foldl_vDram, ↓ite_vDram, ↓State.inCtx_kept, ↓State.inCtx_vDram, ↓State.countLate_frame, ↓State.retireOne_frame, ↓State.flushMerge_frame, ↓State.settleWindows_frame, ↓State.modCtx_frame, ite_self, and_self, implies_true]))

theorem requestTimeout_frame (k : CtxKey) (i : Fin 32) (s : State) :
    (requestTimeout k i s).kept = s.kept ∧ (requestTimeout k i s).vDram = s.vDram := by
  refine ⟨?_, ?_⟩ <;> (unfold requestTimeout; repeat' (first | with_reducible rfl | extract_lets | with_reducible refine State.inCtx_kept _ _ _ (fun a => ?_) | with_reducible refine State.inCtx_vDram _ _ _ (fun a => ?_) | with_reducible refine (foldl_kept _ (fun a x => ?_) _ _).trans ?_ | with_reducible refine (foldl_vDram _ (fun a x => ?_) _ _).trans ?_ | with_reducible refine both_kept _ _ _ _ ?_ ?_ | with_reducible refine both_vDram _ _ _ _ ?_ ?_ | split | simp +zetaDelta only [id_eq, ↓State.kept_mk, State.kept_eq, ↓foldl_kept, ↓ite_kept, ↓State.vDram_mk, State.vDram_eq, ↓foldl_vDram, ↓ite_vDram, ↓State.inCtx_kept, ↓State.inCtx_vDram, ↓State.settleWindows_frame, ↓State.timeoutReq_frame, ite_self, and_self, implies_true]))

theorem streamFault_frame (k : CtxKey) (i : Fin 32) (code : Fin 8) (addr : BitVec 64) (s : State) :
    (streamFault k i code addr s).kept = s.kept ∧ (streamFault k i code addr s).vDram = s.vDram := by
  refine ⟨?_, ?_⟩ <;> (unfold streamFault; repeat' (first | with_reducible rfl | extract_lets | with_reducible refine State.inCtx_kept _ _ _ (fun a => ?_) | with_reducible refine State.inCtx_vDram _ _ _ (fun a => ?_) | with_reducible refine (foldl_kept _ (fun a x => ?_) _ _).trans ?_ | with_reducible refine (foldl_vDram _ (fun a x => ?_) _ _).trans ?_ | with_reducible refine both_kept _ _ _ _ ?_ ?_ | with_reducible refine both_vDram _ _ _ _ ?_ ?_ | split | simp +zetaDelta only [id_eq, ↓State.kept_mk, State.kept_eq, ↓foldl_kept, ↓ite_kept, ↓State.vDram_mk, State.vDram_eq, ↓foldl_vDram, ↓ite_vDram, ↓State.inCtx_kept, ↓State.inCtx_vDram, ↓State.settleWindows_frame, ↓State.faultReq_frame, ite_self, and_self, implies_true]))

theorem State.retirePrefix_frame (s : State) (k : Nat) (l : List Nat) :
    (s.retirePrefix k l).kept = s.kept ∧ (s.retirePrefix k l).vDram = s.vDram := by
  induction l generalizing s with
  | nil => simp [State.retirePrefix]
  | cons b t ih =>
    simp only [State.retirePrefix]
    split
    · simp
    · split
      · simp
      · simp [ih, State.retireOne_frame, State.countLate_frame]

theorem haltSettleDone_frame (k : CtxKey) (now : Nat) (arrived : List Nat) (s : State) :
    (haltSettleDone k now arrived s).kept = s.kept ∧ (haltSettleDone k now arrived s).vDram = s.vDram := by
  refine ⟨?_, ?_⟩ <;> (unfold haltSettleDone; repeat' (first | with_reducible rfl | extract_lets | with_reducible refine State.inCtx_kept _ _ _ (fun a => ?_) | with_reducible refine State.inCtx_vDram _ _ _ (fun a => ?_) | with_reducible refine (foldl_kept _ (fun a x => ?_) _ _).trans ?_ | with_reducible refine (foldl_vDram _ (fun a x => ?_) _ _).trans ?_ | with_reducible refine both_kept _ _ _ _ ?_ ?_ | with_reducible refine both_vDram _ _ _ _ ?_ ?_ | split | simp +zetaDelta only [id_eq, ↓State.kept_mk, State.kept_eq, ↓foldl_kept, ↓ite_kept, ↓State.vDram_mk, State.vDram_eq, ↓foldl_vDram, ↓ite_vDram, ↓State.inCtx_kept, ↓State.inCtx_vDram, ↓State.retirePrefix_frame, ↓State.deliverTo_frame, ↓State.modCtx_frame, ↓State.countLate_frame, ite_self, and_self, implies_true]))

theorem settleTimeout_frame (k : CtxKey) (s : State) :
    (settleTimeout k s).kept = s.kept ∧ (settleTimeout k s).vDram = s.vDram := by
  simp only [settleTimeout, ↓State.kept_mk, State.kept_eq, ↓foldl_kept, ↓ite_kept, ↓State.vDram_mk, State.vDram_eq, ↓foldl_vDram, ↓ite_vDram, ↓State.inCtx_kept, ↓State.inCtx_vDram, ↓State.setCtx_frame, ite_self, and_self, implies_true]

theorem saveAreaWritten_frame (k : CtxKey) (ok : Bool) (s : State) :
    (saveAreaWritten k ok s).kept = s.kept := by
  (unfold saveAreaWritten; repeat' (first | with_reducible rfl | extract_lets | with_reducible refine State.inCtx_kept _ _ _ (fun a => ?_) | with_reducible refine (foldl_kept _ (fun a x => ?_) _ _).trans ?_ | with_reducible refine both_kept _ _ _ _ ?_ ?_ | split | simp +zetaDelta only [id_eq, ↓State.kept_mk, State.kept_eq, ↓foldl_kept, ↓ite_kept, ↓State.inCtx_kept, ↓State.inCtx_vDram, ↓State.touch_frame, ↓State.jobWrite_frame, ↓State.writeOver_frame, ↓State.settleWindows_frame, ↓State.setCtx_frame, ↓State.hwError_frame, ↓State.programFault_frame, ↓State.logError_frame, ite_self, and_self, implies_true]))

theorem ringPeriodEnd_frame (c : CoreId) (done : Bool) (s : State) :
    (ringPeriodEnd c done s).kept = s.kept ∧ (ringPeriodEnd c done s).vDram = s.vDram := by
  simp only [ringPeriodEnd, ↓State.kept_mk, State.kept_eq, ↓foldl_kept, ↓ite_kept, ↓State.vDram_mk, State.vDram_eq, ↓foldl_vDram, ↓ite_vDram, ↓State.setCore_frame, ite_self, and_self, implies_true]

theorem loopLengthLatch_frame (c : CoreId) (s : State) :
    (loopLengthLatch c s).kept = s.kept := by
  (unfold loopLengthLatch; repeat' (first | with_reducible rfl | extract_lets | with_reducible refine (foldl_kept _ (fun a x => ?_) _ _).trans ?_ | with_reducible refine both_kept _ _ _ _ ?_ ?_ | split | simp +zetaDelta only [id_eq, ↓State.kept_mk, State.kept_eq, ↓foldl_kept, ↓ite_kept, ↓State.gateRefusal_frame, ↓State.instFault_frame, ↓State.setCore_frame, ite_self, and_self, implies_true]))

theorem State.writeWide_frame (s : State) (c : Nat) (place : Nat) (x : Slot) :
    (State.writeWide s c place x).kept = s.kept := by
  simp only [State.writeWide, ↓State.kept_mk, State.kept_eq, ↓foldl_kept, ↓ite_kept, ↓State.jobWrite_frame, ite_self, and_self, implies_true]

theorem slotSpill_frame (c : CoreId) (j : Fin 32) (s : State) :
    (slotSpill c j s).kept = s.kept := by
  (unfold slotSpill; repeat' (first | with_reducible rfl | extract_lets | split | simp +zetaDelta only [↓State.kept_mk, State.kept_eq, ↓foldl_kept, ↓ite_kept, ↓State.accessBy_kept, ↓State.setCore_frame, ↓State.writeWide_frame, ite_self, and_self, implies_true]))

theorem slotReload_frame (c : CoreId) (j : Fin 32) (s : State) :
    (slotReload c j s).kept = s.kept := by
  (unfold slotReload; repeat' (first | with_reducible rfl | extract_lets | split | simp +zetaDelta only [↓State.kept_mk, State.kept_eq, ↓foldl_kept, ↓ite_kept, ↓State.whenReadable_kept, ↓State.setCore_frame, ite_self, and_self, implies_true]))

theorem addModeReload_frame (c : CoreId) (j : Fin 32) (src : CoreId) (sj : Fin 32) (s : State) :
    (addModeReload c j src sj s).kept = s.kept := by
  (unfold addModeReload; repeat' (first | with_reducible rfl | extract_lets | split | simp +zetaDelta only [↓State.kept_mk, State.kept_eq, ↓foldl_kept, ↓ite_kept, ↓State.gateRefusal_frame, ↓State.accessBy_kept, ↓State.setCore_frame, ↓State.writeWide_frame, ↓State.hwError_frame, ite_self, and_self, implies_true]))

theorem shadowLoad_frame (c : CoreId) (a : Fin 4) (off : Nat) (tw : List TwillMove) (s : State) :
    (shadowLoad c a off tw s).kept = s.kept ∧ (shadowLoad c a off tw s).vDram = s.vDram := by
  refine ⟨?_, ?_⟩ <;> (unfold shadowLoad; repeat' (first | with_reducible rfl | extract_lets | split | simp +zetaDelta only [↓State.kept_mk, State.kept_eq, ↓foldl_kept, ↓ite_kept, ↓State.vDram_mk, State.vDram_eq, ↓foldl_vDram, ↓ite_vDram, ↓State.setCore_frame, ite_self, and_self, implies_true]))

theorem anchorCompute_frame (c : CoreId) (xOff : Nat) (wOff : Nat) (s : State) :
    (anchorCompute c xOff wOff s).kept = s.kept ∧ (anchorCompute c xOff wOff s).vDram = s.vDram := by
  refine ⟨?_, ?_⟩ <;> (unfold anchorCompute; repeat' (first | with_reducible rfl | extract_lets | split | simp +zetaDelta only [↓State.kept_mk, State.kept_eq, ↓foldl_kept, ↓ite_kept, ↓State.vDram_mk, State.vDram_eq, ↓foldl_vDram, ↓ite_vDram, ↓State.setCore_frame, ite_self, and_self, implies_true]))

theorem passIssue_frame (c : CoreId) (io : PassIo) (s : State) :
    (passIssue c io s).kept = s.kept := by
  (unfold passIssue; repeat' (first | with_reducible rfl | extract_lets | split | simp +zetaDelta only [↓State.kept_mk, State.kept_eq, ↓foldl_kept, ↓ite_kept, ↓State.setArith_frame, ↓State.setCore_frame, ↓State.moveRegions_frame, ↓State.freeTiles_frame, ↓State.hwError_frame, ite_self, and_self, implies_true]))

theorem State.setCr_frame (s : State) (p : Nat) (i : Nat) (r : Cr) :
    (State.setCr s p i r).kept = s.kept := by
  simp only [State.setCr, ↓State.kept_mk, State.kept_eq, ↓foldl_kept, ↓ite_kept, ↓State.setJobNat_frame, ite_self, and_self, implies_true]

theorem State.postCr_frame (s : State) (p : Nat) (i : Nat) (r : Cr) :
    (State.postCr s p i r).kept = s.kept := by
  simp only [State.postCr, ↓State.kept_mk, State.kept_eq, ↓foldl_kept, ↓ite_kept, ↓State.postJobNat_frame, ite_self, and_self, implies_true]

theorem State.setCh_frame (s : State) (p : Nat) (d : GroupDesc) (t : Nat) (h : Ch) :
    (State.setCh s p d t h).kept = s.kept := by
  simp only [State.setCh, ↓State.kept_mk, State.kept_eq, ↓foldl_kept, ↓ite_kept, ↓State.setJobNat_frame, ite_self, and_self, implies_true]

theorem State.addI64_frame (s : State) (p : Nat) (addr : Nat) (z : Int) :
    (State.addI64 s p addr z).kept = s.kept := by
  simp only [State.addI64, ↓State.kept_mk, State.kept_eq, ↓foldl_kept, ↓ite_kept, ↓State.setJobNat_frame, ite_self, and_self, implies_true]

theorem State.jobZero_frame (s : State) (p : Nat) (addr : Nat) (n : Nat) :
    (State.jobZero s p addr n).kept = s.kept := by
  simp only [State.jobZero, ↓State.kept_mk, State.kept_eq, ↓foldl_kept, ↓ite_kept, ↓State.jobWrite_frame, ite_self, and_self, implies_true]

theorem State.postZero_frame (s : State) (p : Nat) (addr : Nat) (n : Nat) :
    (State.postZero s p addr n).kept = s.kept := by
  simp only [State.postZero, ↓State.kept_mk, State.kept_eq, ↓foldl_kept, ↓ite_kept, ↓State.jobPost_frame, ite_self, and_self, implies_true]

theorem State.setOrec_frame (s : State) (p : Nat) (d : GroupDesc) (t : Nat) (r : Or) :
    (State.setOrec s p d t r).kept = s.kept := by
  simp only [State.setOrec, ↓State.kept_mk, State.kept_eq, ↓foldl_kept, ↓ite_kept, ↓State.setJobNat_frame, ite_self, and_self, implies_true]

theorem State.postOrec_frame (s : State) (p : Nat) (d : GroupDesc) (t : Nat) (r : Or) :
    (State.postOrec s p d t r).kept = s.kept := by
  simp only [State.postOrec, ↓State.kept_mk, State.kept_eq, ↓foldl_kept, ↓ite_kept, ↓State.postJobNat_frame, ite_self, and_self, implies_true]

theorem State.setGs_frame (s : State) (p : Nat) (d : GroupDesc) (g : Gs) :
    (State.setGs s p d g).kept = s.kept := by
  simp only [State.setGs, ↓State.kept_mk, State.kept_eq, ↓foldl_kept, ↓ite_kept, ↓State.setJobNat_frame, ite_self, and_self, implies_true]

theorem State.recastTile_frame (s : State) (p : Nat) (e : Nat) (x : Nat) (be : Nat) (bx : Nat) :
    (State.recastTile s p e x be bx).kept = s.kept := by
  simp only [State.recastTile, ↓State.kept_mk, State.kept_eq, ↓foldl_kept, ↓ite_kept, ↓State.jobWrite_frame, ite_self, and_self, implies_true]

theorem State.recastFrozen_frame (s : State) (p : Nat) :
    (State.recastFrozen s p).kept = s.kept := by
  simp only [State.recastFrozen, ↓State.kept_mk, State.kept_eq, ↓foldl_kept, ↓ite_kept, ↓State.recastTile_frame, ite_self, and_self, implies_true]

theorem State.modLinkDies_frame (s : State) (p : Nat) (f : LinkDie → LinkDie) :
    (State.modLinkDies s p f).kept = s.kept ∧ (State.modLinkDies s p f).vDram = s.vDram := by
  simp only [State.modLinkDies, ↓State.kept_mk, State.kept_eq, ↓foldl_kept, ↓ite_kept, ↓State.vDram_mk, State.vDram_eq, ↓foldl_vDram, ↓ite_vDram, ↓State.setLinkDie_frame, ite_self, and_self, implies_true]

theorem State.sendRc_frame (s : State) (c : Nat) (dst : Nat) (r : Rc) (elems : List Byte) :
    (State.sendRc s c dst r elems).kept = s.kept ∧ (State.sendRc s c dst r elems).vDram = s.vDram := by
  simp only [State.sendRc, ↓State.kept_mk, State.kept_eq, ↓foldl_kept, ↓ite_kept, ↓State.vDram_mk, State.vDram_eq, ↓foldl_vDram, ↓ite_vDram, ite_self, and_self, implies_true]

theorem State.markResend_frame (s : State) (c : Nat) :
    (State.markResend s c).kept = s.kept ∧ (State.markResend s c).vDram = s.vDram := by
  simp only [State.markResend, ↓State.kept_mk, State.kept_eq, ↓foldl_kept, ↓ite_kept, ↓State.vDram_mk, State.vDram_eq, ↓foldl_vDram, ↓ite_vDram, ↓State.modCore_frame, ite_self, and_self, implies_true]

theorem State.dropRx_frame (s : State) (i : Nat) :
    (State.dropRx s i).kept = s.kept ∧ (State.dropRx s i).vDram = s.vDram := by
  simp only [State.dropRx, ↓State.kept_mk, State.kept_eq, ↓foldl_kept, ↓ite_kept, ↓State.vDram_mk, State.vDram_eq, ↓foldl_vDram, ↓ite_vDram, ite_self, and_self, implies_true]

theorem State.whenScaling_keep {γ : Type} (q : Kept → γ) (s : State) (p c : Nat) (tensor : BitVec 32) (posts : Bool) (f : State → State)
    (h : ∀ a, q (f a).kept = q a.kept) : q (State.whenScaling s p c tensor posts f).kept = q s.kept := by
  unfold State.whenScaling
  split
  · exact h s
  · split
    · exact State.whenUnit_keep q _ _ _ _ _ _ _ h
    · exact h s

theorem State.whenScaling_kept (s : State) (p c : Nat) (tensor : BitVec 32) (posts : Bool) (f : State → State) (h : ∀ a, (f a).kept = a.kept) :
    (State.whenScaling s p c tensor posts f).kept = s.kept := State.whenScaling_keep id s p c tensor posts f h

theorem State.postScaling_frame (s : State) (p : Nat) (tensor : BitVec 32) (step : Nat) (sat : Nat) (amax : BitVec 32) :
    (State.postScaling s p tensor step sat amax).kept = s.kept := by
  unfold State.postScaling
  (repeat' split) <;> simp only [↓State.kept_mk, State.kept_eq, ↓foldl_kept, ↓ite_kept, ↓State.setJobNat_frame, ite_self, and_self, implies_true]

theorem drainIssue_frame (c : CoreId) (io : IssueIo) (s : State) :
    (drainIssue c io s).kept = s.kept ∧ (drainIssue c io s).vDram = s.vDram := by
  refine ⟨?_, ?_⟩ <;> (unfold drainIssue; repeat' (first | with_reducible rfl | extract_lets | split | simp +zetaDelta only [↓State.kept_mk, State.kept_eq, ↓foldl_kept, ↓ite_kept, ↓State.vDram_mk, State.vDram_eq, ↓foldl_vDram, ↓ite_vDram, ↓State.gateRefusal_frame, ↓State.sendMarker_frame, ↓State.setCore_frame, ↓State.setArith_frame, ↓State.sendTile_frame, ite_self, and_self, implies_true]))

theorem drainComplete_frame (c : CoreId) (s : State) :
    (drainComplete c s).kept = s.kept := by
  (unfold drainComplete; repeat' (first | with_reducible rfl | extract_lets | split | simp +zetaDelta only [↓State.kept_mk, State.kept_eq, ↓foldl_kept, ↓ite_kept, ↓State.whenScaling_kept, ↓State.setCore_frame, ↓State.postScaling_frame, ↓State.sendMarker_frame, ↓State.moveRegions_frame, ↓State.noteWritten_frame, ite_self, and_self, implies_true]))

theorem vectorIssue_frame (c : CoreId) (io : IssueIo) (s : State) :
    (vectorIssue c io s).kept = s.kept := by
  (unfold vectorIssue; repeat' (first | with_reducible rfl | extract_lets | with_reducible refine State.whenScaling_kept _ _ _ _ _ _ (fun a => ?_) | with_reducible refine (foldl_kept _ (fun a x => ?_) _ _).trans ?_ | with_reducible refine both_kept _ _ _ _ ?_ ?_ | split | simp +zetaDelta only [id_eq, ↓State.kept_mk, State.kept_eq, ↓foldl_kept, ↓ite_kept, ↓State.sendMarker_frame, ↓State.setCore_frame, ↓State.gateRefusal_frame, ↓State.whenScaling_kept, ↓State.setArith_frame, ↓State.sendTile_frame, ↓State.postScaling_frame, ↓State.moveRegions_frame, ↓State.noteWritten_frame, ↓State.freeTiles_frame, ite_self, and_self, implies_true]))

theorem State.writeCtrl_frame (s : State) (c : Nat) (q : CoreCtrl) :
    (State.writeCtrl s c q).kept = s.kept ∧ (State.writeCtrl s c q).vDram = s.vDram := by
  simp only [State.writeCtrl, ↓State.kept_mk, State.kept_eq, ↓foldl_kept, ↓ite_kept, ↓State.vDram_mk, State.vDram_eq, ↓foldl_vDram, ↓ite_vDram, ↓State.setCore_frame, ite_self, and_self, implies_true]

theorem coreEnable_frame (c : CoreId) (on : Bool) (s : State) :
    (coreEnable c on s).kept = s.kept ∧ (coreEnable c on s).vDram = s.vDram := by
  simp only [coreEnable, ↓State.kept_mk, State.kept_eq, ↓foldl_kept, ↓ite_kept, ↓State.vDram_mk, State.vDram_eq, ↓foldl_vDram, ↓ite_vDram, ↓State.writeCtrl_frame, ite_self, and_self, implies_true]

theorem coreHaltReq_frame (c : CoreId) (on : Bool) (s : State) :
    (coreHaltReq c on s).kept = s.kept ∧ (coreHaltReq c on s).vDram = s.vDram := by
  simp only [coreHaltReq, ↓State.kept_mk, State.kept_eq, ↓foldl_kept, ↓ite_kept, ↓State.vDram_mk, State.vDram_eq, ↓foldl_vDram, ↓ite_vDram, ↓State.retarget_frame, ↓State.writeCtrl_frame, ite_self, and_self, implies_true]

theorem passBoundaryStop_frame (c : CoreId) (s : State) :
    (passBoundaryStop c s).kept = s.kept ∧ (passBoundaryStop c s).vDram = s.vDram := by
  refine ⟨?_, ?_⟩ <;> (unfold passBoundaryStop; repeat' (first | with_reducible rfl | extract_lets | split | simp +zetaDelta only [↓State.kept_mk, State.kept_eq, ↓foldl_kept, ↓ite_kept, ↓State.vDram_mk, State.vDram_eq, ↓foldl_vDram, ↓ite_vDram, ↓State.setCore_frame, ite_self, and_self, implies_true]))

theorem sramUe_frame (c : CoreId) (store : Fin 5) (bank : BitVec 8) (hit : SramHit) (s : State) :
    (sramUe c store bank hit s).kept = s.kept := by
  (unfold sramUe; repeat' (first | with_reducible rfl | extract_lets | split | simp +zetaDelta only [↓State.kept_mk, State.kept_eq, ↓foldl_kept, ↓ite_kept, ↓State.setCore_frame, ↓State.hwError_frame, ite_self, and_self, implies_true]))

theorem State.openOwned_frame (s : State) (p : Nat) (step : Nat) (d : GroupDesc) (t : Nat) :
    (State.openOwned s p step d t).kept = s.kept := by
  simp only [State.openOwned, ↓State.kept_mk, State.kept_eq, ↓foldl_kept, ↓ite_kept, ↓State.postZero_frame, ↓State.postOrec_frame, ite_self, and_self, implies_true]

theorem State.applyRejoins_frame (s : State) (p : Nat) (step : BitVec 64) :
    (State.applyRejoins s p step).kept = s.kept ∧ (State.applyRejoins s p step).vDram = s.vDram := by
  simp only [State.applyRejoins, ↓State.kept_mk, State.kept_eq, ↓foldl_kept, ↓ite_kept, ↓State.vDram_mk, State.vDram_eq, ↓foldl_vDram, ↓ite_vDram, ↓State.modJob_frame, ↓State.modLinkDies_frame, ite_self, and_self, implies_true]

theorem State.openGroup_frame (s : State) (p : Nat) (step : Nat) (d : GroupDesc) :
    (State.openGroup s p step d).kept = s.kept := by
  simp only [State.openGroup, ↓State.kept_mk, State.kept_eq, ↓foldl_kept, ↓ite_kept, ↓State.setGs_frame, ite_self, and_self, implies_true]

theorem State.openGroups_frame (s : State) (p : Nat) (step : BitVec 64) :
    (State.openGroups s p step).kept = s.kept := by
  simp only [State.openGroups, ↓State.kept_mk, State.kept_eq, ↓foldl_kept, ↓ite_kept, ↓State.modJob_frame, ↓State.openGroup_frame, ite_self, and_self, implies_true]

theorem stepStart_frame (c : CoreId) (wait : BitVec 32) (s : State) :
    (stepStart c wait s).kept = s.kept := by
  (unfold stepStart; repeat' (first | with_reducible rfl | extract_lets | split | simp +zetaDelta only [↓State.kept_mk, State.kept_eq, ↓foldl_kept, ↓ite_kept, ↓State.setCore_frame, ↓State.modCtx_frame, ↓State.modCore_frame, ↓State.modJob_frame, ↓State.applyRejoins_frame, ↓State.openGroups_frame, ↓State.openOwned_frame, ite_self, and_self, implies_true]))

theorem State.partStepEnd_frame (s : State) (p : Nat) (step : BitVec 64) :
    (State.partStepEnd s p step).kept = s.kept ∧ (State.partStepEnd s p step).vDram = s.vDram := by
  simp only [State.partStepEnd, ↓State.kept_mk, State.kept_eq, ↓foldl_kept, ↓ite_kept, ↓State.vDram_mk, State.vDram_eq, ↓foldl_vDram, ↓ite_vDram, ↓State.modPart_frame, ↓State.jobEvent_frame, ↓State.modJob_frame, ↓State.summaries_frame, ↓State.setJobState_frame, ite_self, and_self, implies_true]

theorem stepEnd_frame (c : CoreId) (idle0 : BitVec 32) (idle1 : BitVec 32) (idle2 : BitVec 32) (s : State) :
    (stepEnd c idle0 idle1 idle2 s).kept = s.kept := by
  simp only [stepEnd, ↓State.kept_mk, State.kept_eq, ↓foldl_kept, ↓ite_kept, ↓State.commitLog_frame, ↓State.setCore_frame, ↓State.modJob_frame, ↓State.partStepEnd_frame, ite_self, and_self, implies_true]

theorem State.diverge_frame (s : State) (c : Nat) (step : BitVec 64) (x : Nat × Nat × Nat) :
    (State.diverge s c step x).kept = s.kept := by
  simp only [State.diverge, ↓State.kept_mk, State.kept_eq, ↓foldl_kept, ↓ite_kept, ↓State.hwError_frame, ↓State.jobEvent_frame, ↓State.logError_frame, ↓State.schedule_frame, ite_self, and_self, implies_true]

theorem State.compareStep_frame (s : State) (c : Nat) (recs : List LogRec) (n : StepCounts) :
    (State.compareStep s c recs n).kept = s.kept := by
  (unfold State.compareStep; repeat' (first | with_reducible rfl | extract_lets | split | simp +zetaDelta only [↓State.kept_mk, State.kept_eq, ↓foldl_kept, ↓ite_kept, ↓State.diverge_frame, ite_self, and_self, implies_true]))

theorem State.compareCore_frame (s : State) (c : Nat) :
    (State.compareCore s c).kept = s.kept := by
  (unfold State.compareCore; repeat' (first | with_reducible rfl | extract_lets | split | simp +zetaDelta only [↓State.kept_mk, State.kept_eq, ↓foldl_kept, ↓ite_kept, ↓State.modCore_frame, ↓State.compareStep_frame, ite_self, and_self, implies_true]))

theorem reportCompare_frame (t : TowerId) (s : State) :
    (reportCompare t s).kept = s.kept := by
  simp only [reportCompare, ↓State.kept_mk, State.kept_eq, ↓foldl_kept, ↓ite_kept, ↓State.compareCore_frame, ite_self, and_self, implies_true]

theorem State.unstick_frame (s : State) (c : Nat) (e : Nat) :
    (State.unstick s c e).kept = s.kept := by
  simp only [State.unstick, ↓State.kept_mk, State.kept_eq, ↓foldl_kept, ↓ite_kept, ↓State.coreFault_frame, ↓State.setCore_frame, ↓State.spillAll_frame, ↓State.logError_frame, ite_self, and_self, implies_true]

theorem stallTimerExpire_frame (c : CoreId) (eps : BitVec 32) (s : State) :
    (stallTimerExpire c eps s).kept = s.kept := by
  simp only [stallTimerExpire, ↓State.kept_mk, State.kept_eq, ↓foldl_kept, ↓ite_kept, ↓State.unstick_frame, ite_self, and_self, implies_true]

end Sys2Proof.Machine
end

