-- ==== Sys2Proof/Laws/FrameMemory.lean ====
section
/-! SUPPORT. What the definitions of the memory, the far tier, the reduction and the links leave alone: one lemma per definition that answers a state. -/

namespace Sys2Proof.Machine

set_option linter.all false

theorem State.countCe_frame (s : State) (k : Nat) (f : LineFound) :
    (State.countCe s k f).kept = s.kept ∧ (State.countCe s k f).vDram = s.vDram := by
  unfold State.countCe
  (repeat' split) <;> simp only [↓State.kept_mk, State.kept_eq, ↓foldl_kept, ↓ite_kept, ↓State.vDram_mk, State.vDram_eq, ↓foldl_vDram, ↓ite_vDram, ↓State.setChan_frame, ite_self, and_self, implies_true]

theorem State.bar2Refuse_frame (s : State) (act : MemAct) :
    (State.bar2Refuse s act).kept = s.kept ∧ (State.bar2Refuse s act).vDram = s.vDram := by
  unfold State.bar2Refuse
  (repeat' split) <;> simp only [↓State.kept_mk, State.kept_eq, ↓foldl_kept, ↓ite_kept, ↓State.vDram_mk, State.vDram_eq, ↓foldl_vDram, ↓ite_vDram, ite_self, and_self, implies_true]

theorem State.respondFault_frame (s : State) (k : Nat) (r : MemReq) (code : Nat) :
    (State.respondFault s k r code).kept = s.kept := by
  unfold State.respondFault
  (repeat' split) <;> simp only [↓State.kept_mk, State.kept_eq, ↓foldl_kept, ↓ite_kept, ↓State.respond_frame, ↓State.programFault_frame, ↓State.logError_frame, ite_self, and_self, implies_true]

theorem State.respondData_frame (s : State) (src : ReqSrc) (bs : List Byte) :
    (State.respondData s src bs).kept = s.kept ∧ (State.respondData s src bs).vDram = s.vDram := by
  unfold State.respondData
  (repeat' split) <;> simp only [↓State.kept_mk, State.kept_eq, ↓foldl_kept, ↓ite_kept, ↓State.vDram_mk, State.vDram_eq, ↓foldl_vDram, ↓ite_vDram, ↓State.respond_frame, ite_self, and_self, implies_true]

theorem State.respondAck_frame (s : State) (src : ReqSrc) (n : Nat) :
    (State.respondAck s src n).kept = s.kept ∧ (State.respondAck s src n).vDram = s.vDram := by
  unfold State.respondAck
  (repeat' split) <;> simp only [↓State.kept_mk, State.kept_eq, ↓foldl_kept, ↓ite_kept, ↓State.vDram_mk, State.vDram_eq, ↓foldl_vDram, ↓ite_vDram, ↓State.respond_frame, ite_self, and_self, implies_true]

theorem State.serve_frame (s : State) (k : Nat) (r : MemReq) (f : LineFound) :
    (State.serve s k r f).kept = s.kept := by
  unfold State.serve
  (repeat' split) <;> simp only [↓State.kept_mk, State.kept_eq, ↓foldl_kept, ↓ite_kept, ↓State.bar2Refuse_frame, ↓State.poisonSeen_frame, ↓State.dramUe_frame, ↓State.respondFault_frame, ↓State.respondData_frame, ↓State.countCe_frame, ↓State.respondAck_frame, ↓State.setChan_frame, ↓State.setDramBytes_frame, ite_self, and_self, implies_true]

theorem State.admitLine_frame (s : State) (k : Nat) (r : MemReq) (f : LineFound) :
    (s.admitLine k r f).1.kept = s.kept := by
  unfold State.admitLine
  dsimp only
  split
  · split <;> simp [State.bar2Refuse_frame, State.respondFault_frame]
  · simp [State.respondFault_frame]
  · simp [State.serve_frame]
  · split <;> split <;> simp [State.firstTouch_frame, State.setChan_frame]

theorem State.hostWaits_frame (s : State) (a : Instr) :
    (State.hostWaits s a).kept = s.kept ∧ (State.hostWaits s a).vDram = s.vDram := by
  simp only [State.hostWaits, ↓State.kept_mk, State.kept_eq, ↓foldl_kept, ↓ite_kept, ↓State.vDram_mk, State.vDram_eq, ↓foldl_vDram, ↓ite_vDram, ite_self, and_self, implies_true]

theorem State.inTurn_keep {γ : Type} (q : Kept → γ) (s : State) (a : Instr) (f : State → State)
    (h : ∀ a, q (f a).kept = q a.kept) : q (State.inTurn s a f).kept = q s.kept := by
  unfold State.inTurn
  split
  · simp only [↓State.hostWaits_frame]
  · exact h s

theorem State.inTurn_kept (s : State) (a : Instr) (f : State → State) (h : ∀ a, (f a).kept = a.kept) :
    (State.inTurn s a f).kept = s.kept := State.inTurn_keep id s a f h

theorem State.inTurn_vDram (s : State) (a : Instr) (f : State → State) (h : ∀ a, (f a).vDram = a.vDram) :
    (State.inTurn s a f).vDram = s.vDram := by
  unfold State.inTurn
  split
  · simp only [↓State.hostWaits_frame]
  · exact h s

theorem State.arrive_frame (s : State) (k : Nat) (r : MemReq) (f : LineFound) :
    (s.arrive k r f).kept = s.kept := by
  have a := State.admitLine_frame s k r f
  unfold State.arrive
  split
  · rfl
  · split
    · simp only [↓State.refuse_frame]
    · split <;> rename_i s1 h <;> simp only [h] at a
      · exact a
      · simpa only [↓State.refuse_frame] using a

theorem State.portRequest_frame (s : State) (c : CoreId) (k : Nat) (r : MemReq) (f : LineFound) :
    (State.portRequest s c k r f).kept = s.kept := by
  simp only [State.portRequest, ↓State.kept_mk, State.kept_eq, ↓foldl_kept, ↓ite_kept, ↓State.gateRefusal_frame, ↓State.arrive_frame, ite_self, and_self, implies_true]

theorem channelRequest_frame (a : ChanArrival) (f : LineFound) (s : State) :
    (channelRequest a f s).kept.queue = s.kept.queue ∧ (channelRequest a f s).kept.layout = s.kept.layout ∧ (channelRequest a f s).kept.flash = s.kept.flash ∧ (channelRequest a f s).kept.meter = s.kept.meter := by
  unfold channelRequest
  (repeat' split) <;> simp only [↓State.kept_mk, State.queue_eq, State.layout_eq, State.far_eq, State.flash_eq, State.meter_eq, ↓foldl_queue, ↓foldl_layout, ↓foldl_far, ↓foldl_flash, ↓foldl_meter, ↓ite_kept, ↓State.arrive_frame, ↓State.modCtx_frame, ↓State.portRequest_frame, ↓State.programFault_frame, ↓State.external_frame, ↓State.readBack_frame, ↓State.hostSend_frame, ite_self, and_self, implies_true]

theorem memsideOp_frame (c : CoreId) (addr : BitVec 64) (code : BitVec 4) (mask : BitVec 64) (operand : BitVec 512) (f : LineFound) (s : State) :
    (memsideOp c addr code mask operand f s).kept = s.kept := by
  unfold memsideOp
  (repeat' split) <;> simp only [↓State.kept_mk, State.kept_eq, ↓foldl_kept, ↓ite_kept, ↓State.programFault_frame, ↓State.portRequest_frame, ite_self, and_self, implies_true]

theorem retryResend_frame (k : ChannelId) (src : Fin 1026) (f : LineFound) (s : State) :
    (retryResend k src f s).kept = s.kept := by
  unfold retryResend
  extract_lets c
  split
  · rfl
  · split
    · rfl
    · split
      · rfl
      · rename_i r hr
        have a := State.admitLine_frame s k.val r f
        split <;> rename_i s1 h <;> simp only [h] at a
        · simpa only [↓State.setChan_frame] using a
        · extract_lets c1 s2
          simpa only [↓State.markRefused_frame, s2, ↓State.setChan_frame] using a

theorem State.applyHeld_frame (s : State) (t : Nat) (g : Nat) :
    (State.applyHeld s t g).kept = s.kept := by
  simp only [State.applyHeld, ↓State.kept_mk, State.kept_eq, ↓foldl_kept, ↓ite_kept, ↓State.serve_frame, ↓State.setChan_frame, ite_self, and_self, implies_true]

theorem State.writeFrame_frame (s : State) (t : Nat) (g : Nat) (f : Frame) :
    (State.writeFrame s t g f).kept = s.kept := by
  simp only [State.writeFrame, ↓State.kept_mk, State.kept_eq, ↓foldl_kept, ↓ite_kept, ↓State.setFrame_frame, ↓State.applyHeld_frame, ite_self, and_self, implies_true]

theorem frameTableWrite_frame (t : TowerId) (g : Fin 49152) (v : BitVec 64) (s : State) :
    (frameTableWrite t g v s).kept = s.kept := by
  simp only [frameTableWrite, ↓State.kept_mk, State.kept_eq, ↓foldl_kept, ↓ite_kept, ↓State.writeFrame_frame, ite_self, and_self, implies_true]

theorem refreshSlot_frame (k : ChannelId) (temp : BitVec 8) (s : State) :
    (refreshSlot k temp s).kept = s.kept ∧ (refreshSlot k temp s).vDram = s.vDram := by
  simp only [refreshSlot, ↓State.kept_mk, State.kept_eq, ↓foldl_kept, ↓ite_kept, ↓State.vDram_mk, State.vDram_eq, ↓foldl_vDram, ↓ite_vDram, ↓State.setChan_frame, ↓State.modCoresOf_frame, ite_self, and_self, implies_true]

theorem State.scrubLine_frame (s : State) (k : Nat) (addr : Nat) (corrected : Bool) (bad : Bool) :
    (State.scrubLine s k addr corrected bad).kept = s.kept := by
  simp only [State.scrubLine, ↓State.kept_mk, State.kept_eq, ↓foldl_kept, ↓ite_kept, ↓State.dramUe_frame, ↓State.setChan_frame, ite_self, and_self, implies_true]

theorem scrubSlot_frame (k : ChannelId) (corrected : BitVec 32) (bad : BitVec 32) (odecc : Nat) (s : State) :
    (scrubSlot k corrected bad odecc s).kept = s.kept := by
  simp only [scrubSlot, ↓State.kept_mk, State.kept_eq, ↓foldl_kept, ↓ite_kept, ↓State.scrubLine_frame, ↓State.setChan_frame, ite_self, and_self, implies_true]

theorem State.setCxlPort_frame (s : State) (i : Nat) (x : CxlPort) :
    (State.setCxlPort s i x).kept = s.kept ∧ (State.setCxlPort s i x).vDram = s.vDram := by
  simp only [State.setCxlPort, ↓State.kept_mk, State.kept_eq, ↓foldl_kept, ↓ite_kept, ↓State.vDram_mk, State.vDram_eq, ↓foldl_vDram, ↓ite_vDram, ite_self, and_self, implies_true]

theorem State.resumeFar_frame (s : State) (p : Nat) (port : Nat) (page : Nat) :
    (State.resumeFar s p port page).kept = s.kept := by
  simp only [State.resumeFar, ↓State.kept_mk, State.kept_eq, ↓foldl_kept, ↓ite_kept, ↓strResume_frame, ite_self, and_self, implies_true]

theorem State.startFill_frame (s : State) (p : Nat) (r : FarRes) :
    (State.startFill s p r).kept = s.kept ∧ (State.startFill s p r).vDram = s.vDram := by
  unfold State.startFill
  (repeat' split) <;> simp only [↓State.kept_mk, State.kept_eq, ↓foldl_kept, ↓ite_kept, ↓State.vDram_mk, State.vDram_eq, ↓foldl_vDram, ↓ite_vDram, ↓State.modPart_frame, ↓State.setCxlPort_frame, ite_self, and_self, implies_true]

theorem State.retryFar_frame (s : State) (p : Nat) :
    (State.retryFar s p).kept = s.kept ∧ (State.retryFar s p).vDram = s.vDram := by
  simp only [State.retryFar, ↓State.kept_mk, State.kept_eq, ↓foldl_kept, ↓ite_kept, ↓State.vDram_mk, State.vDram_eq, ↓foldl_vDram, ↓ite_vDram, ↓State.modPart_frame, ↓State.startFill_frame, ite_self, and_self, implies_true]

theorem State.retryAllFar_frame (s : State) :
    (State.retryAllFar s).kept = s.kept ∧ (State.retryAllFar s).vDram = s.vDram := by
  simp only [State.retryAllFar, ↓State.kept_mk, State.kept_eq, ↓foldl_kept, ↓ite_kept, ↓State.vDram_mk, State.vDram_eq, ↓foldl_vDram, ↓ite_vDram, ↓State.retryFar_frame, ite_self, and_self, implies_true]

theorem State.farUnmapped_frame (s : State) (p : Nat) (addr : Nat) :
    (State.farUnmapped s p addr).kept = s.kept := by
  simp only [State.farUnmapped, ↓State.kept_mk, State.kept_eq, ↓foldl_kept, ↓ite_kept, ↓State.programFault_frame, ite_self, and_self, implies_true]

theorem farFaultResolve_frame (k : CtxKey) (s : State) :
    (farFaultResolve k s).kept = s.kept := by
  (unfold farFaultResolve; repeat' (first | with_reducible rfl | extract_lets | split | simp +zetaDelta only [↓State.kept_mk, State.kept_eq, ↓foldl_kept, ↓ite_kept, ↓State.whenFtt_kept, ↓State.resumeFar_frame, ↓State.farUnmapped_frame, ↓State.startFill_frame, ↓State.jobEvent_frame, ↓State.logError_frame, ite_self, and_self, implies_true]))

theorem farFillComplete_keep {γ : Type} (q : Kept → γ) (h : ∀ k f, q { k with far := f } = q k)
    (p : PartId) (port : Fin 2) (page : Fin 2097152) (host : List Byte) (s : State) :
    q (farFillComplete p port page host s).kept = q s.kept := by
  unfold farFillComplete
  split
  · rfl
  · refine State.whenFtt_keep q _ _ _ _ _ (fun a => ?_)
    extract_lets f off d bs s1 s2 s3
    split
    · rfl
    · simp only [s3, s2, s1, ↓State.resumeFar_frame, ↓State.modPart_frame, ↓State.setFtt_frame, ↓State.kept_mk]
      rw [← State.kept_eq a]
      exact h ⟨a.pending, a.mod.qpart, a.far, a.flash, a.meter⟩ _

theorem farFillComplete_frame (p : PartId) (port : Fin 2) (page : Fin 2097152) (host : List Byte) (s : State) :
    (farFillComplete p port page host s).kept.queue = s.kept.queue ∧ (farFillComplete p port page host s).kept.layout = s.kept.layout ∧ (farFillComplete p port page host s).kept.flash = s.kept.flash ∧ (farFillComplete p port page host s).kept.meter = s.kept.meter :=
  ⟨farFillComplete_keep (·.queue) (fun _ _ => rfl) _ _ _ _ _, farFillComplete_keep (·.layout) (fun _ _ => rfl) _ _ _ _ _,
   farFillComplete_keep (·.flash) (fun _ _ => rfl) _ _ _ _ _, farFillComplete_keep (·.meter) (fun _ _ => rfl) _ _ _ _ _⟩

theorem State.refuseEvict_frame (s : State) (p : Nat) :
    (State.refuseEvict s p).kept = s.kept ∧ (State.refuseEvict s p).vDram = s.vDram := by
  simp only [State.refuseEvict, ↓State.kept_mk, State.kept_eq, ↓foldl_kept, ↓ite_kept, ↓State.vDram_mk, State.vDram_eq, ↓foldl_vDram, ↓ite_vDram, ↓State.jobEvent_frame, ↓State.modJcp_frame, ↓State.modPart_frame, ite_self, and_self, implies_true]

theorem State.evicting_frame (s : State) (p : Nat) (port : Nat) (page : Nat) :
    (State.evicting s p port page).kept = s.kept ∧ (State.evicting s p port page).vDram = s.vDram := by
  simp only [State.evicting, ↓State.kept_mk, State.kept_eq, ↓foldl_kept, ↓ite_kept, ↓State.vDram_mk, State.vDram_eq, ↓foldl_vDram, ↓ite_vDram, ↓State.modJcp_frame, ↓State.modPart_frame, ite_self, and_self, implies_true]

theorem State.beginEvict_frame (s : State) (p : Nat) (port : Nat) (page : Nat) :
    (State.beginEvict s p port page).kept = s.kept := by
  simp only [State.beginEvict, ↓State.kept_mk, State.kept_eq, ↓foldl_kept, ↓ite_kept, ↓State.refuseEvict_frame, ↓State.evicting_frame, ↓State.setFtt_frame, ite_self, and_self, implies_true]

theorem farEvict_frame (p : PartId) (addr : BitVec 64) (s : State) :
    (farEvict p addr s).kept = s.kept := by
  (unfold farEvict; repeat' (first | with_reducible rfl | extract_lets | with_reducible refine State.whenFtt_kept _ _ _ _ _ (fun a => ?_) | with_reducible refine (foldl_kept _ (fun a x => ?_) _ _).trans ?_ | with_reducible refine both_kept _ _ _ _ ?_ ?_ | split | simp +zetaDelta only [id_eq, ↓State.kept_mk, State.kept_eq, ↓foldl_kept, ↓ite_kept, ↓State.refuseEvict_frame, ↓State.whenFtt_kept, ↓State.evicting_frame, ↓State.beginEvict_frame, ite_self, and_self, implies_true]))

theorem State.returnPage_frame (s : State) (p : Nat) (port : Nat) (page : Nat) :
    (State.returnPage s p port page).kept = s.kept ∧ (State.returnPage s p port page).vDram = s.vDram := by
  simp only [State.returnPage, ↓State.kept_mk, State.kept_eq, ↓foldl_kept, ↓ite_kept, ↓State.vDram_mk, State.vDram_eq, ↓foldl_vDram, ↓ite_vDram, ↓State.setCxlPort_frame, ite_self, and_self, implies_true]

theorem evictComplete_frame (p : PartId) (s : State) :
    (evictComplete p s).kept = s.kept := by
  unfold evictComplete
  (repeat' split) <;> simp only [↓State.kept_mk, State.kept_eq, ↓foldl_kept, ↓ite_kept, ↓State.refuseEvict_frame, ↓State.whenFtt_kept, ↓State.beginEvict_frame, ↓State.returnPage_frame, ↓State.setFtt_frame, ↓State.modJcp_frame, ↓State.modPart_frame, ↓State.retryAllFar_frame, ↓State.jobEvent_frame, ite_self, and_self, implies_true]

theorem State.timeoutPort_frame (s : State) (port : Nat) :
    (State.timeoutPort s port).kept = s.kept ∧ (State.timeoutPort s port).vDram = s.vDram := by
  refine ⟨?_, ?_⟩ <;> (unfold State.timeoutPort; repeat' (first | with_reducible rfl | extract_lets | split | simp +zetaDelta only [↓State.kept_mk, State.kept_eq, ↓foldl_kept, ↓ite_kept, ↓State.vDram_mk, State.vDram_eq, ↓foldl_vDram, ↓ite_vDram, ↓State.timeoutReq_frame, ite_self, and_self, implies_true]))

theorem cxlLinkDown_frame (port : Fin 2) (s : State) :
    (cxlLinkDown port s).kept = s.kept := by
  simp only [cxlLinkDown, ↓State.kept_mk, State.kept_eq, ↓foldl_kept, ↓ite_kept, ↓State.timeoutPort_frame, ↓State.setFtt_frame, ↓State.setCxlPort_frame, ↓State.modPart_frame, ↓State.logError_frame, ite_self, and_self, implies_true]

theorem cxlLinkRetrain_frame (port : Fin 2) (pages : Fin 2097153) (s : State) :
    (cxlLinkRetrain port pages s).kept = s.kept ∧ (cxlLinkRetrain port pages s).vDram = s.vDram := by
  simp only [cxlLinkRetrain, ↓State.kept_mk, State.kept_eq, ↓foldl_kept, ↓ite_kept, ↓State.vDram_mk, State.vDram_eq, ↓foldl_vDram, ↓ite_vDram, ↓State.retryAllFar_frame, ↓State.setCxlPort_frame, ite_self, and_self, implies_true]

theorem State.addRow_frame (s : State) (p addr offset : Nat) (l : List Int) :
    (s.addRow p addr offset l).kept = s.kept := by
  induction l generalizing s addr with
  | nil => unfold State.addRow; simp only [and_self]
  | cons z t ih => unfold State.addRow; simp only [↓ih, ↓State.addI64_frame, and_self]

theorem State.addRows_frame (s : State) (p addr offset : Nat) (l : List RedRow) :
    (s.addRows p addr offset l).kept = s.kept := by
  induction l generalizing s addr with
  | nil => simp only [State.addRows, and_self]
  | cons z t ih =>
    simp only [State.addRows]
    split <;> simp only [↓ih, ↓State.addRow_frame, and_self]

theorem reductionAdd_frame (c : CoreId) (s : State) :
    (reductionAdd c s).kept = s.kept := by
  (unfold reductionAdd; repeat' (first | with_reducible rfl | extract_lets | split | simp +zetaDelta only [↓State.kept_mk, State.kept_eq, ↓foldl_kept, ↓ite_kept, ↓State.whenUnit_kept, ↓State.addRows_frame, ↓State.setCh_frame, ↓State.setCr_frame, ↓State.modCore_frame, ite_self, and_self, implies_true]))

theorem redrain_frame (c : CoreId) (s : State) :
    (redrain c s).kept = s.kept := by
  (unfold redrain; repeat' (first | with_reducible rfl | extract_lets | split | simp +zetaDelta only [↓State.kept_mk, State.kept_eq, ↓foldl_kept, ↓ite_kept, ↓State.markResend_frame, ↓State.setArith_frame, ↓State.setCore_frame, ↓State.whenUnit_kept, ↓State.modCore_frame, ↓State.setCh_frame, ite_self, and_self, implies_true]))

theorem slotRelease_frame (c : CoreId) (j : Fin 32) (s : State) :
    (slotRelease c j s).kept = s.kept ∧ (slotRelease c j s).vDram = s.vDram := by
  simp only [slotRelease, ↓State.kept_mk, State.kept_eq, ↓foldl_kept, ↓ite_kept, ↓State.vDram_mk, State.vDram_eq, ↓foldl_vDram, ↓ite_vDram, ↓State.setCore_frame, ite_self, and_self, implies_true]

theorem State.report_frame (s : State) (p : Nat) (i : Nat) (step : BitVec 32) :
    (State.report s p i step).kept = s.kept := by
  (unfold State.report; repeat' (first | with_reducible rfl | extract_lets | split | simp +zetaDelta only [↓State.kept_mk, State.kept_eq, ↓foldl_kept, ↓ite_kept, ↓State.setCr_frame, ↓State.sendRc_frame, ite_self, and_self, implies_true]))

theorem tileCloseReport_frame (c : CoreId) (s : State) :
    (tileCloseReport c s).kept = s.kept := by
  (unfold tileCloseReport; repeat' (first | with_reducible rfl | extract_lets | split | simp +zetaDelta only [↓State.kept_mk, State.kept_eq, ↓foldl_kept, ↓ite_kept, ↓State.whenUnit_kept, ↓State.setCore_frame, ↓State.report_frame, ite_self, and_self, implies_true]))

theorem State.formGrads_frame (s : State) (p : Nat) (d : GroupDesc) (t : Nat) :
    (State.formGrads s p d t).kept = s.kept ∧ (State.formGrads s p d t).vDram = s.vDram := by
  simp only [State.formGrads, ↓State.kept_mk, State.kept_eq, ↓foldl_kept, ↓ite_kept, ↓State.vDram_mk, State.vDram_eq, ↓foldl_vDram, ↓ite_vDram, ↓State.modCore_frame, ite_self, and_self, implies_true]

theorem State.reopen_frame (s : State) (p : Nat) (d : GroupDesc) (t : Nat) (scale : Nat) :
    (State.reopen s p d t scale).kept = s.kept := by
  simp only [State.reopen, ↓State.kept_mk, State.kept_eq, ↓foldl_kept, ↓ite_kept, ↓State.setOrec_frame, ↓State.jobZero_frame, ↓State.sendRc_frame, ↓State.markResend_frame, ↓State.setGs_frame, ite_self, and_self, implies_true]

theorem State.decideTile_frame (s : State) (p : Nat) (d : GroupDesc) (t : Nat) :
    (State.decideTile s p d t).kept = s.kept := by
  simp only [State.decideTile, ↓State.kept_mk, State.kept_eq, ↓foldl_kept, ↓ite_kept, ↓State.formGrads_frame, ↓State.setOrec_frame, ↓State.reopen_frame, ite_self, and_self, implies_true]

theorem State.discardRc_frame (s : State) (p : Nat) (c : Nat) (d : GroupDesc) :
    (State.discardRc s p c d).kept = s.kept := by
  simp only [State.discardRc, ↓State.kept_mk, State.kept_eq, ↓foldl_kept, ↓ite_kept, ↓State.markResend_frame, ↓State.setGs_frame, ite_self, and_self, implies_true]

theorem State.discardPart_frame (s : State) (p : Nat) (i : Nat) (c : Nat) (d : GroupDesc) :
    (State.discardPart s p i c d).kept = s.kept := by
  simp only [State.discardPart, ↓State.kept_mk, State.kept_eq, ↓foldl_kept, ↓ite_kept, ↓State.whenUnit_kept, ↓State.discardRc_frame, ↓State.dropRx_frame, ite_self, and_self, implies_true]

theorem State.reduceProtocol_frame (s : State) (c : Nat) (rc : Rc) :
    (State.reduceProtocol s c rc).kept = s.kept := by
  simp only [State.reduceProtocol, ↓State.kept_mk, State.kept_eq, ↓foldl_kept, ↓ite_kept, ↓State.programFault_frame, ite_self, and_self, implies_true]

theorem segmentReceive_frame (p : PartId) (i : Nat) (s : State) :
    (segmentReceive p i s).kept = s.kept := by
  (unfold segmentReceive; repeat' (first | with_reducible rfl | extract_lets | split | simp +zetaDelta only [↓State.kept_mk, State.kept_eq, ↓foldl_kept, ↓ite_kept, ↓State.dropRx_frame, ↓State.reduceProtocol_frame, ↓State.whenUnit_kept, ↓State.discardRc_frame, ↓State.addRow_frame, ↓State.decideTile_frame, ↓State.setOrec_frame, ite_self, and_self, implies_true]))

theorem noticeReceive_frame (p : PartId) (i : Nat) (s : State) :
    (noticeReceive p i s).kept = s.kept := by
  (unfold noticeReceive; repeat' (first | with_reducible rfl | extract_lets | split | simp +zetaDelta only [↓State.kept_mk, State.kept_eq, ↓foldl_kept, ↓ite_kept, ↓State.dropRx_frame, ↓State.reduceProtocol_frame, ↓State.whenUnit_kept, ↓State.discardRc_frame, ↓State.decideTile_frame, ↓State.setOrec_frame, ite_self, and_self, implies_true]))

theorem rescaleReceive_frame (p : PartId) (i : Nat) (s : State) :
    (rescaleReceive p i s).kept = s.kept := by
  (unfold rescaleReceive; repeat' (first | with_reducible rfl | extract_lets | with_reducible refine State.whenUnit_kept _ _ _ _ _ _ _ (fun a => ?_) | with_reducible refine (foldl_kept _ (fun a x => ?_) _ _).trans ?_ | with_reducible refine both_kept _ _ _ _ ?_ ?_ | split | simp +zetaDelta only [id_eq, ↓State.kept_mk, State.kept_eq, ↓foldl_kept, ↓ite_kept, ↓State.whenUnit_kept, ↓State.released_frame, ↓State.dropRx_frame, ↓State.setCr_frame, ↓State.markResend_frame, ↓State.report_frame, ite_self, and_self, implies_true]))

theorem State.clearLive_frame (s : State) (p : Nat) (g : Nat) (m : Nat) :
    (State.clearLive s p g m).kept = s.kept ∧ (State.clearLive s p g m).vDram = s.vDram := by
  simp only [State.clearLive, ↓State.kept_mk, State.kept_eq, ↓foldl_kept, ↓ite_kept, ↓State.vDram_mk, State.vDram_eq, ↓foldl_vDram, ↓ite_vDram, ↓State.modLinkDies_frame, ite_self, and_self, implies_true]

theorem State.afterRemoval_frame (s : State) (p : Nat) (d : GroupDesc) (t : Nat) :
    (State.afterRemoval s p d t).kept = s.kept := by
  simp only [State.afterRemoval, ↓State.kept_mk, State.kept_eq, ↓foldl_kept, ↓ite_kept, ↓State.reopen_frame, ↓State.decideTile_frame, ite_self, and_self, implies_true]

theorem State.removeMember_frame (s : State) (p : Nat) (g : Nat) (m : Nat) :
    (State.removeMember s p g m).kept = s.kept := by
  unfold State.removeMember
  (repeat' split) <;> simp only [↓State.kept_mk, State.kept_eq, ↓foldl_kept, ↓ite_kept, ↓State.jobEvent_frame, ↓State.logError_frame, ↓State.rollbackHold_frame, ↓State.setGs_frame, ↓State.clearLive_frame, ↓State.afterRemoval_frame, ite_self, and_self, implies_true]

theorem memberRemoval_frame (p : PartId) (g : BitVec 8) (m : BitVec 12) (s : State) :
    (memberRemoval p g m s).kept = s.kept := by
  simp only [memberRemoval, ↓State.kept_mk, State.kept_eq, ↓foldl_kept, ↓ite_kept, ↓State.removeMember_frame, ite_self, and_self, implies_true]

theorem State.clearGroup_frame (s : State) (p : Nat) (d : GroupDesc) :
    (State.clearGroup s p d).kept = s.kept := by
  simp only [State.clearGroup, ↓State.kept_mk, State.kept_eq, ↓foldl_kept, ↓ite_kept, ↓State.postZero_frame, ↓State.openOwned_frame, ite_self, and_self, implies_true]

theorem State.clearReduction_frame (s : State) (p : Nat) :
    (State.clearReduction s p).kept = s.kept := by
  simp only [State.clearReduction, ↓State.kept_mk, State.kept_eq, ↓foldl_kept, ↓ite_kept, ↓State.postCr_frame, ↓State.clearGroup_frame, ↓State.modCoresOf_frame, ite_self, and_self, implies_true]

theorem withdrawStep_frame (p : PartId) (s : State) :
    (withdrawStep p s).kept = s.kept := by
  simp only [withdrawStep, ↓State.kept_mk, State.kept_eq, ↓foldl_kept, ↓ite_kept, ↓State.clearReduction_frame, ite_self, and_self, implies_true]

theorem State.postToken_frame (s : State) (p : Nat) (from' : Nat) (step : BitVec 16) (t : BitVec 9 × BitVec 5) :
    (State.postToken s p from' step t).kept = s.kept ∧ (State.postToken s p from' step t).vDram = s.vDram := by
  simp only [State.postToken, ↓State.kept_mk, State.kept_eq, ↓foldl_kept, ↓ite_kept, ↓State.vDram_mk, State.vDram_eq, ↓foldl_vDram, ↓ite_vDram, ↓State.modCore_frame, ite_self, and_self, implies_true]

theorem State.sendToken_frame (s : State) (p : Nat) (c : Nat) (step : BitVec 16) (t : BitVec 9 × BitVec 5) :
    (State.sendToken s p c step t).kept = s.kept ∧ (State.sendToken s p c step t).vDram = s.vDram := by
  simp only [State.sendToken, ↓State.kept_mk, State.kept_eq, ↓foldl_kept, ↓ite_kept, ↓State.vDram_mk, State.vDram_eq, ↓foldl_vDram, ↓ite_vDram, ↓State.gateRefusal_frame, ↓State.postToken_frame, ite_self, and_self, implies_true]

theorem State.recast_frame (s : State) (p : Nat) (c : Nat) (r : Region) (gen : Nat) (t : Nat) :
    (State.recast s p c r gen t).kept = s.kept := by
  simp only [State.recast, ↓State.kept_mk, State.kept_eq, ↓foldl_kept, ↓ite_kept, ↓State.setArith_frame, ↓State.recastTile_frame, ite_self, and_self, implies_true]

theorem State.ackTile_frame (s : State) (p : Nat) (d : GroupDesc) (t : Nat) (next : Nat) :
    (State.ackTile s p d t next).kept = s.kept := by
  unfold State.ackTile
  (repeat' split) <;> simp only [↓State.kept_mk, State.kept_eq, ↓foldl_kept, ↓ite_kept, ↓State.jobZero_frame, ↓State.setCr_frame, ite_self, and_self, implies_true]

theorem paramPartReceive_frame (p : PartId) (i : Nat) (s : State) :
    (paramPartReceive p i s).kept = s.kept := by
  (unfold paramPartReceive; repeat' (first | with_reducible rfl | extract_lets | split | simp +zetaDelta only [↓State.kept_mk, State.kept_eq, ↓foldl_kept, ↓ite_kept, ↓State.dropRx_frame, ↓State.discardPart_frame, ↓State.whenUnit_kept, ↓State.released_frame, ↓State.jobWrite_frame, ↓State.ackTile_frame, ↓State.recast_frame, ↓State.modJob_frame, ↓State.sendToken_frame, ite_self, and_self, implies_true]))

theorem State.setPort_frame (s : State) (i : Nat) (x : Port) :
    (State.setPort s i x).kept = s.kept ∧ (State.setPort s i x).vDram = s.vDram := by
  simp only [State.setPort, ↓State.kept_mk, State.kept_eq, ↓foldl_kept, ↓ite_kept, ↓State.vDram_mk, State.vDram_eq, ↓foldl_vDram, ↓ite_vDram, ite_self, and_self, implies_true]

theorem State.modPort_frame (s : State) (i : Nat) (f : Port → Port) :
    (State.modPort s i f).kept = s.kept ∧ (State.modPort s i f).vDram = s.vDram := by
  simp only [State.modPort, ↓State.kept_mk, State.kept_eq, ↓foldl_kept, ↓ite_kept, ↓State.vDram_mk, State.vDram_eq, ↓foldl_vDram, ↓ite_vDram, ↓State.setPort_frame, ite_self, and_self, implies_true]

theorem State.portCount_frame (s : State) (port : Nat) (i : Nat) :
    (State.portCount s port i).kept = s.kept ∧ (State.portCount s port i).vDram = s.vDram := by
  simp only [State.portCount, ↓State.kept_mk, State.kept_eq, ↓foldl_kept, ↓ite_kept, ↓State.vDram_mk, State.vDram_eq, ↓foldl_vDram, ↓ite_vDram, ↓State.modPort_frame, ite_self, and_self, implies_true]

theorem State.linkError_frame (s : State) (port : Nat) (code : Nat) (cls : Nat) (action : optParam Nat 0) :
    (State.linkError s port code cls action).kept = s.kept ∧ (State.linkError s port code cls action).vDram = s.vDram := by
  simp only [State.linkError, ↓State.kept_mk, State.kept_eq, ↓foldl_kept, ↓ite_kept, ↓State.vDram_mk, State.vDram_eq, ↓foldl_vDram, ↓ite_vDram, ↓State.logError_frame, ite_self, and_self, implies_true]

theorem State.deliverTensor_frame (s : State) (p : Nat) (x : Packet) :
    (State.deliverTensor s p x).kept = s.kept ∧ (State.deliverTensor s p x).vDram = s.vDram := by
  simp only [State.deliverTensor, ↓State.kept_mk, State.kept_eq, ↓foldl_kept, ↓ite_kept, ↓State.vDram_mk, State.vDram_eq, ↓foldl_vDram, ↓ite_vDram, ↓State.setCore_frame, ite_self, and_self, implies_true]

theorem State.partnerBack_frame (s : State) (p : Nat) (x : Packet) :
    (State.partnerBack s p x).kept = s.kept ∧ (State.partnerBack s p x).vDram = s.vDram := by
  simp only [State.partnerBack, ↓State.kept_mk, State.kept_eq, ↓foldl_kept, ↓ite_kept, ↓State.vDram_mk, State.vDram_eq, ↓foldl_vDram, ↓ite_vDram, ↓State.modJob_frame, ite_self, and_self, implies_true]

theorem State.deliver_frame (s : State) (p : Nat) (die : Nat) (port : Option Nat) (x : Packet) :
    (State.deliver s p die port x).kept = s.kept ∧ (State.deliver s p die port x).vDram = s.vDram := by
  unfold State.deliver
  (repeat' split) <;> simp only [↓State.kept_mk, State.kept_eq, ↓foldl_kept, ↓ite_kept, ↓State.vDram_mk, State.vDram_eq, ↓foldl_vDram, ↓ite_vDram, ↓State.portCount_frame, ↓State.linkError_frame, ↓State.deliverTensor_frame, ↓State.partnerBack_frame, ite_self, and_self, implies_true]

theorem State.reportMembers_frame (s : State) (port : Nat) :
    (State.reportMembers s port).kept = s.kept ∧ (State.reportMembers s port).vDram = s.vDram := by
  simp only [State.reportMembers, ↓State.kept_mk, State.kept_eq, ↓foldl_kept, ↓ite_kept, ↓State.vDram_mk, State.vDram_eq, ↓foldl_vDram, ↓ite_vDram, ↓State.modPart_frame, ite_self, and_self, implies_true]

theorem State.portDown_frame (s : State) (i : Nat) (code : optParam Nat 2562) :
    (State.portDown s i code).kept = s.kept ∧ (State.portDown s i code).vDram = s.vDram := by
  simp only [State.portDown, ↓State.kept_mk, State.kept_eq, ↓foldl_kept, ↓ite_kept, ↓State.vDram_mk, State.vDram_eq, ↓foldl_vDram, ↓ite_vDram, ↓State.setPort_frame, ↓State.linkError_frame, ↓State.reportMembers_frame, ↓State.schedule_frame, ite_self, and_self, implies_true]

theorem State.dropPort_frame (s : State) (p : Nat) (i : Nat) :
    (State.dropPort s p i).kept = s.kept ∧ (State.dropPort s p i).vDram = s.vDram := by
  simp only [State.dropPort, ↓State.kept_mk, State.kept_eq, ↓foldl_kept, ↓ite_kept, ↓State.vDram_mk, State.vDram_eq, ↓foldl_vDram, ↓ite_vDram, ↓State.modLinkDies_frame, ite_self, and_self, implies_true]

theorem State.returnPort_frame (s : State) (p : Nat) (i : Nat) :
    (State.returnPort s p i).kept = s.kept ∧ (State.returnPort s p i).vDram = s.vDram := by
  simp only [State.returnPort, ↓State.kept_mk, State.kept_eq, ↓foldl_kept, ↓ite_kept, ↓State.vDram_mk, State.vDram_eq, ↓foldl_vDram, ↓ite_vDram, ↓State.modLinkDies_frame, ite_self, and_self, implies_true]

theorem State.quietDown_frame (s : State) (i : Nat) :
    (State.quietDown s i).kept = s.kept ∧ (State.quietDown s i).vDram = s.vDram := by
  simp only [State.quietDown, ↓State.kept_mk, State.kept_eq, ↓foldl_kept, ↓ite_kept, ↓State.vDram_mk, State.vDram_eq, ↓foldl_vDram, ↓ite_vDram, ↓State.reportMembers_frame, ↓State.setPort_frame, ite_self, and_self, implies_true]

theorem State.readShifts_frame (s : State) (p : Nat) (m : Managed) :
    (State.readShifts s p m).kept = s.kept ∧ (State.readShifts s p m).vDram = s.vDram := by
  simp only [State.readShifts, ↓State.kept_mk, State.kept_eq, ↓foldl_kept, ↓ite_kept, ↓State.vDram_mk, State.vDram_eq, ↓foldl_vDram, ↓ite_vDram, ↓State.modCoresOf_frame, ite_self, and_self, implies_true]

theorem tensorShiftUpdate_frame (p : PartId) (k : Nat) (s : State) :
    (tensorShiftUpdate p k s).kept = s.kept := by
  unfold tensorShiftUpdate
  (repeat' split) <;> simp only [↓State.kept_mk, State.kept_eq, ↓foldl_kept, ↓ite_kept, ↓State.whenWritable_kept, ↓State.setJobNat_frame, ↓State.readShifts_frame, ite_self, and_self, implies_true]

theorem State.adamBlock_frame (s : State) (p : Nat) (c : Nat) (o : OptDesc) (x : AdamScalars) (n : Nat) (gs : List F32) :
    (State.adamBlock s p c o x n gs).kept = s.kept := by
  simp only [State.adamBlock, ↓State.kept_mk, State.kept_eq, ↓foldl_kept, ↓ite_kept, ↓State.jobWrite_frame, ↓State.setArith_frame, ite_self, and_self, implies_true]

theorem State.broadcast_frame (s : State) (p : Nat) (c : Nat) (d : GroupDesc) (t : Nat) (fmt : BitVec 4) (step : BitVec 32) (scale : Nat) (skipped : Bool) (copies : List Copy) :
    (State.broadcast s p c d t fmt step scale skipped copies).kept = s.kept ∧ (State.broadcast s p c d t fmt step scale skipped copies).vDram = s.vDram := by
  simp only [State.broadcast, ↓State.kept_mk, State.kept_eq, ↓foldl_kept, ↓ite_kept, ↓State.vDram_mk, State.vDram_eq, ↓foldl_vDram, ↓ite_vDram, ite_self, and_self, implies_true]

theorem State.broadcastRide_frame (s s3 : State) (p c : Nat) (ranges : List (Nat × Nat)) :
    (State.broadcastRide s s3 p c ranges).kept = s3.kept ∧ (State.broadcastRide s s3 p c ranges).vDram = s3.vDram := by
  refine ⟨?_, ?_⟩ <;> simp only [State.broadcastRide, ↓State.modJob_frame, ↓State.kept_mk, State.kept_eq, ↓State.vDram_mk, State.vDram_eq]

theorem State.updateTile_frame (s : State) (p : Nat) (c : Nat) (d : GroupDesc) (r : Region) (t : Nat) (tl : Nat) (step : BitVec 32) (blocks : List (Option (List F32))) :
    (State.updateTile s p c d r t tl step blocks).kept = s.kept := by
  (unfold State.updateTile; repeat' (first | with_reducible rfl | extract_lets | with_reducible refine (foldl_kept _ (fun a x => ?_) _ _).trans ?_ | with_reducible refine both_kept _ _ _ _ ?_ ?_ | split | simp +zetaDelta only [id_eq, ↓State.kept_mk, State.kept_eq, ↓foldl_kept, ↓ite_kept, ↓State.adamBlock_frame, ↓State.setArith_frame, ↓State.logError_frame, ↓State.broadcast_frame, ↓State.modJob_frame, ↓State.setOrec_frame, ↓State.broadcastRide_frame, ite_self, and_self, implies_true]))

theorem adamwUpdate_frame (c : CoreId) (io : IssueIo) (s : State) :
    (adamwUpdate c io s).kept = s.kept := by
  (unfold adamwUpdate; repeat' (first | with_reducible rfl | extract_lets | split | simp +zetaDelta only [↓State.kept_mk, State.kept_eq, ↓foldl_kept, ↓ite_kept, ↓State.programFault_frame, ↓State.whenUnit_kept, ↓State.updateTile_frame, ↓State.released_frame, ↓State.moveRegions_frame, ↓State.modCore_frame, ite_self, and_self, implies_true]))

theorem State.unpinSent_frame (s : State) (p : Nat) (x : OutPkt) :
    (State.unpinSent s p x).kept = s.kept ∧ (State.unpinSent s p x).vDram = s.vDram := by
  simp only [State.unpinSent, ↓State.kept_mk, State.kept_eq, ↓foldl_kept, ↓ite_kept, ↓State.vDram_mk, State.vDram_eq, ↓foldl_vDram, ↓ite_vDram, ↓State.modPart_frame, ite_self, and_self, implies_true]

theorem State.countPacket_frame (s : State) (p : Nat) (port : Nat) (x : OutPkt) :
    (State.countPacket s p port x).kept = s.kept ∧ (State.countPacket s p port x).vDram = s.vDram := by
  refine ⟨?_, ?_⟩ <;> (unfold State.countPacket; repeat' (first | with_reducible rfl | extract_lets | split | simp +zetaDelta only [↓State.kept_mk, State.kept_eq, ↓foldl_kept, ↓ite_kept, ↓State.vDram_mk, State.vDram_eq, ↓foldl_vDram, ↓ite_vDram, ↓State.modJob_frame, ite_self, and_self, implies_true]))

theorem packetSend_frame (i : Nat) (s : State) :
    (packetSend i s).kept = s.kept := by
  (unfold packetSend; repeat' (first | with_reducible rfl | extract_lets | split | simp +zetaDelta only [↓State.kept_mk, State.kept_eq, ↓foldl_kept, ↓ite_kept, ↓State.programFault_frame, ↓State.portCount_frame, ↓State.unpinSent_frame, ↓State.deliver_frame, ↓State.countPacket_frame, ↓State.modPort_frame, ite_self, and_self, implies_true]))

theorem State.returnUnreachable_frame (s : State) (die : Nat) (x : Packet) :
    (State.returnUnreachable s die x).kept = s.kept ∧ (State.returnUnreachable s die x).vDram = s.vDram := by
  simp only [State.returnUnreachable, ↓State.kept_mk, State.kept_eq, ↓foldl_kept, ↓ite_kept, ↓State.vDram_mk, State.vDram_eq, ↓foldl_vDram, ↓ite_vDram, ite_self, and_self, implies_true]

theorem packetReceive_frame (i : PortId) (v : Fin 5) (s : State) :
    (packetReceive i v s).kept = s.kept ∧ (packetReceive i v s).vDram = s.vDram := by
  refine ⟨?_, ?_⟩ <;> (unfold packetReceive; repeat' (first | with_reducible rfl | extract_lets | split | simp +zetaDelta only [↓State.kept_mk, State.kept_eq, ↓foldl_kept, ↓ite_kept, ↓State.vDram_mk, State.vDram_eq, ↓foldl_vDram, ↓ite_vDram, ↓State.setPort_frame, ↓State.portCount_frame, ↓State.linkError_frame, ↓State.modPort_frame, ↓State.returnUnreachable_frame, ↓State.deliver_frame, ite_self, and_self, implies_true]))

theorem epochAhead_frame (i : PortId) (v : Fin 5) (s : State) :
    (epochAhead i v s).kept = s.kept ∧ (epochAhead i v s).vDram = s.vDram := by
  refine ⟨?_, ?_⟩ <;> (unfold epochAhead; repeat' (first | with_reducible rfl | extract_lets | split | simp +zetaDelta only [↓State.kept_mk, State.kept_eq, ↓foldl_kept, ↓ite_kept, ↓State.vDram_mk, State.vDram_eq, ↓foldl_vDram, ↓ite_vDram, ↓State.linkError_frame, ↓State.portCount_frame, ↓State.setPort_frame, ite_self, and_self, implies_true]))

theorem State.writeEpoch_frame (s : State) (die : Nat) (v : BitVec 32) :
    (State.writeEpoch s die v).kept = s.kept ∧ (State.writeEpoch s die v).vDram = s.vDram := by
  refine ⟨?_, ?_⟩ <;> (unfold State.writeEpoch; repeat' (first | with_reducible rfl | extract_lets | with_reducible refine (foldl_kept _ (fun a x => ?_) _ _).trans ?_ | with_reducible refine (foldl_vDram _ (fun a x => ?_) _ _).trans ?_ | with_reducible refine both_kept _ _ _ _ ?_ ?_ | with_reducible refine both_vDram _ _ _ _ ?_ ?_ | split | simp +zetaDelta only [id_eq, ↓State.kept_mk, State.kept_eq, ↓foldl_kept, ↓ite_kept, ↓State.vDram_mk, State.vDram_eq, ↓foldl_vDram, ↓ite_vDram, ↓State.setLinkDie_frame, ↓packetReceive_frame, ite_self, and_self, implies_true]))

theorem ldEpochWrite_frame (die : LinkDieId) (v : BitVec 32) (s : State) :
    (ldEpochWrite die v s).kept = s.kept ∧ (ldEpochWrite die v s).vDram = s.vDram := by
  simp only [ldEpochWrite, ↓State.kept_mk, State.kept_eq, ↓foldl_kept, ↓ite_kept, ↓State.vDram_mk, State.vDram_eq, ↓foldl_vDram, ↓ite_vDram, ↓State.writeEpoch_frame, ite_self, and_self, implies_true]

theorem State.takeCredit_frame (s : State) (p : Nat) (x : Packet) :
    (State.takeCredit s p x).kept = s.kept ∧ (State.takeCredit s p x).vDram = s.vDram := by
  simp only [State.takeCredit, ↓State.kept_mk, State.kept_eq, ↓foldl_kept, ↓ite_kept, ↓State.vDram_mk, State.vDram_eq, ↓foldl_vDram, ↓ite_vDram, ↓State.modCore_frame, ite_self, and_self, implies_true]

theorem klpCredit_frame (p : PartId) (i : Nat) (s : State) :
    (klpCredit p i s).kept = s.kept ∧ (klpCredit p i s).vDram = s.vDram := by
  unfold klpCredit
  (repeat' split) <;> simp only [↓State.kept_mk, State.kept_eq, ↓foldl_kept, ↓ite_kept, ↓State.vDram_mk, State.vDram_eq, ↓foldl_vDram, ↓ite_vDram, ↓State.takeCredit_frame, ↓State.dropRx_frame, ite_self, and_self, implies_true]

theorem unreachablePacket_frame (p : PartId) (i : Nat) (s : State) :
    (unreachablePacket p i s).kept = s.kept ∧ (unreachablePacket p i s).vDram = s.vDram := by
  unfold unreachablePacket
  (repeat' split) <;> simp only [↓State.kept_mk, State.kept_eq, ↓foldl_kept, ↓ite_kept, ↓State.vDram_mk, State.vDram_eq, ↓foldl_vDram, ↓ite_vDram, ↓State.modPart_frame, ↓State.dropRx_frame, ite_self, and_self, implies_true]

theorem State.loseJobMember_frame (s : State) (p : Nat) (m : Nat) (idx : Nat) :
    (State.loseJobMember s p m idx).kept = s.kept := by
  simp only [State.loseJobMember, ↓State.kept_mk, State.kept_eq, ↓foldl_kept, ↓ite_kept, ↓State.modJob_frame, ↓State.rollbackHold_frame, ite_self, and_self, implies_true]

theorem memberUnreachable_frame (p : PartId) (s : State) :
    (memberUnreachable p s).kept = s.kept := by
  unfold memberUnreachable
  (repeat' split) <;> simp only [↓State.kept_mk, State.kept_eq, ↓foldl_kept, ↓ite_kept, ↓State.modPart_frame, ↓State.logError_frame, ↓State.loseJobMember_frame, ↓State.removeMember_frame, ite_self, and_self, implies_true]

theorem flitReceive_frame (i : PortId) (f : Flit) (corrected : Nat) (uncorr : Nat) (s : State) :
    (flitReceive i f corrected uncorr s).kept = s.kept ∧ (flitReceive i f corrected uncorr s).vDram = s.vDram := by
  simp only [flitReceive, ↓State.kept_mk, State.kept_eq, ↓foldl_kept, ↓ite_kept, ↓State.vDram_mk, State.vDram_eq, ↓foldl_vDram, ↓ite_vDram, ↓State.setPort_frame, ite_self, and_self, implies_true]

theorem nakReceive_frame (i : PortId) (s : State) :
    (nakReceive i s).kept = s.kept ∧ (nakReceive i s).vDram = s.vDram := by
  simp only [nakReceive, ↓State.kept_mk, State.kept_eq, ↓foldl_kept, ↓ite_kept, ↓State.vDram_mk, State.vDram_eq, ↓foldl_vDram, ↓ite_vDram, ↓State.setPort_frame, ite_self, and_self, implies_true]

theorem replayTimeout_frame (i : PortId) (s : State) :
    (replayTimeout i s).kept = s.kept ∧ (replayTimeout i s).vDram = s.vDram := by
  simp only [replayTimeout, ↓State.kept_mk, State.kept_eq, ↓foldl_kept, ↓ite_kept, ↓State.vDram_mk, State.vDram_eq, ↓foldl_vDram, ↓ite_vDram, ↓State.setPort_frame, ite_self, and_self, implies_true]

theorem signalDetect_frame (i : PortId) (lanes : BitVec 8) (s : State) :
    (signalDetect i lanes s).kept = s.kept ∧ (signalDetect i lanes s).vDram = s.vDram := by
  simp only [signalDetect, ↓State.kept_mk, State.kept_eq, ↓foldl_kept, ↓ite_kept, ↓State.vDram_mk, State.vDram_eq, ↓foldl_vDram, ↓ite_vDram, ↓State.setPort_frame, ite_self, and_self, implies_true]

theorem equalisationDone_frame (i : PortId) (trained : BitVec 8) (s : State) :
    (equalisationDone i trained s).kept = s.kept ∧ (equalisationDone i trained s).vDram = s.vDram := by
  simp only [equalisationDone, ↓State.kept_mk, State.kept_eq, ↓foldl_kept, ↓ite_kept, ↓State.vDram_mk, State.vDram_eq, ↓foldl_vDram, ↓ite_vDram, ↓State.portDown_frame, ↓State.setPort_frame, ite_self, and_self, implies_true]

theorem fecLockDone_frame (i : PortId) (s : State) :
    (fecLockDone i s).kept = s.kept ∧ (fecLockDone i s).vDram = s.vDram := by
  simp only [fecLockDone, ↓State.kept_mk, State.kept_eq, ↓foldl_kept, ↓ite_kept, ↓State.vDram_mk, State.vDram_eq, ↓foldl_vDram, ↓ite_vDram, ↓State.setPort_frame, ite_self, and_self, implies_true]

theorem State.retrain_frame (s : State) (i : Nat) :
    (State.retrain s i).kept = s.kept ∧ (State.retrain s i).vDram = s.vDram := by
  simp only [State.retrain, ↓State.kept_mk, State.kept_eq, ↓foldl_kept, ↓ite_kept, ↓State.vDram_mk, State.vDram_eq, ↓foldl_vDram, ↓ite_vDram, ↓State.setPort_frame, ↓State.schedule_frame, ↓State.linkError_frame, ite_self, and_self, implies_true]

theorem State.portUp_frame (s : State) (i : Nat) (b : ExBlock) :
    (State.portUp s i b).kept = s.kept ∧ (State.portUp s i b).vDram = s.vDram := by
  simp only [State.portUp, ↓State.kept_mk, State.kept_eq, ↓foldl_kept, ↓ite_kept, ↓State.vDram_mk, State.vDram_eq, ↓foldl_vDram, ↓ite_vDram, ↓State.setPort_frame, ↓State.linkError_frame, ↓State.retrain_frame, ite_self, and_self, implies_true]

theorem State.endExchange_frame (s : State) (i : Nat) :
    (State.endExchange s i).kept = s.kept ∧ (State.endExchange s i).vDram = s.vDram := by
  refine ⟨?_, ?_⟩ <;> (unfold State.endExchange; repeat' (first | with_reducible rfl | extract_lets | split | simp +zetaDelta only [↓State.kept_mk, State.kept_eq, ↓foldl_kept, ↓ite_kept, ↓State.vDram_mk, State.vDram_eq, ↓foldl_vDram, ↓ite_vDram, ↓State.portUp_frame, ite_self, and_self, implies_true]))

theorem State.sendBlock_frame (s : State) (i : Nat) :
    (State.sendBlock s i).kept = s.kept ∧ (State.sendBlock s i).vDram = s.vDram := by
  simp only [State.sendBlock, ↓State.kept_mk, State.kept_eq, ↓foldl_kept, ↓ite_kept, ↓State.vDram_mk, State.vDram_eq, ↓foldl_vDram, ↓ite_vDram, ↓State.setPort_frame, ↓State.endExchange_frame, ite_self, and_self, implies_true]

theorem flitSend_frame (i : PortId) (s : State) :
    (flitSend i s).kept = s.kept ∧ (flitSend i s).vDram = s.vDram := by
  refine ⟨?_, ?_⟩ <;> (unfold flitSend; repeat' (first | with_reducible rfl | extract_lets | split | simp +zetaDelta only [↓State.kept_mk, State.kept_eq, ↓foldl_kept, ↓ite_kept, ↓State.vDram_mk, State.vDram_eq, ↓foldl_vDram, ↓ite_vDram, ↓State.sendBlock_frame, ↓State.setPort_frame, ite_self, and_self, implies_true]))

theorem exchangeBlockReceive_frame (i : PortId) (b : ExBlock) (c : FlitCheck) (s : State) :
    (exchangeBlockReceive i b c s).kept = s.kept ∧ (exchangeBlockReceive i b c s).vDram = s.vDram := by
  simp only [exchangeBlockReceive, ↓State.kept_mk, State.kept_eq, ↓foldl_kept, ↓ite_kept, ↓State.vDram_mk, State.vDram_eq, ↓foldl_vDram, ↓ite_vDram, ↓State.setPort_frame, ↓State.portDown_frame, ↓State.endExchange_frame, ite_self, and_self, implies_true]

theorem trainingAttemptTimeout_frame (i : PortId) (s : State) :
    (trainingAttemptTimeout i s).kept = s.kept ∧ (trainingAttemptTimeout i s).vDram = s.vDram := by
  simp only [trainingAttemptTimeout, ↓State.kept_mk, State.kept_eq, ↓foldl_kept, ↓ite_kept, ↓State.vDram_mk, State.vDram_eq, ↓foldl_vDram, ↓ite_vDram, ↓State.portDown_frame, ↓State.setPort_frame, ite_self, and_self, implies_true]

theorem signalLoss_frame (i : PortId) (s : State) :
    (signalLoss i s).kept = s.kept ∧ (signalLoss i s).vDram = s.vDram := by
  unfold signalLoss
  (repeat' split) <;> simp only [↓State.kept_mk, State.kept_eq, ↓foldl_kept, ↓ite_kept, ↓State.vDram_mk, State.vDram_eq, ↓foldl_vDram, ↓ite_vDram, ↓State.portDown_frame, ite_self, and_self, implies_true]

theorem linkRetrain_frame (i : PortId) (seen : Bool) (s : State) :
    (linkRetrain i seen s).kept = s.kept ∧ (linkRetrain i seen s).vDram = s.vDram := by
  simp only [linkRetrain, ↓State.kept_mk, State.kept_eq, ↓foldl_kept, ↓ite_kept, ↓State.vDram_mk, State.vDram_eq, ↓foldl_vDram, ↓ite_vDram, ↓State.retrain_frame, ite_self, and_self, implies_true]

theorem klpEnable_frame (i : PortId) (on : Bool) (s : State) :
    (klpEnable i on s).kept = s.kept ∧ (klpEnable i on s).vDram = s.vDram := by
  simp only [klpEnable, ↓State.kept_mk, State.kept_eq, ↓foldl_kept, ↓ite_kept, ↓State.vDram_mk, State.vDram_eq, ↓foldl_vDram, ↓ite_vDram, ↓State.returnPort_frame, ↓State.setPort_frame, ↓State.portDown_frame, ↓State.dropPort_frame, ↓State.modPort_frame, ite_self, and_self, implies_true]

theorem klpRetrain_frame (i : PortId) (s : State) :
    (klpRetrain i s).kept = s.kept ∧ (klpRetrain i s).vDram = s.vDram := by
  simp only [klpRetrain, ↓State.kept_mk, State.kept_eq, ↓foldl_kept, ↓ite_kept, ↓State.vDram_mk, State.vDram_eq, ↓foldl_vDram, ↓ite_vDram, ↓State.retrain_frame, ↓State.modPort_frame, ite_self, and_self, implies_true]

theorem klpCtrClr_frame (i : PortId) (s : State) :
    (klpCtrClr i s).kept = s.kept ∧ (klpCtrClr i s).vDram = s.vDram := by
  simp only [klpCtrClr, ↓State.kept_mk, State.kept_eq, ↓foldl_kept, ↓ite_kept, ↓State.vDram_mk, State.vDram_eq, ↓foldl_vDram, ↓ite_vDram, ↓State.modPort_frame, ite_self, and_self, implies_true]

end Sys2Proof.Machine
end

