-- ==== Sys2Proof/Laws/FrameHost.lean ====
section
/-! SUPPORT. What the definitions of the host interface, the jobs, the firmware and the snapshots leave alone: one lemma per definition that answers a state. -/

namespace Sys2Proof.Machine

set_option linter.all false

theorem State.authFail_frame (s : State) (check : Nat) (b : SigBlock) :
    (State.authFail s check b).kept = s.kept ∧ (State.authFail s check b).vDram = s.vDram := by
  simp only [State.authFail, ↓State.kept_mk, State.kept_eq, ↓foldl_kept, ↓ite_kept, ↓State.vDram_mk, State.vDram_eq, ↓foldl_vDram, ↓ite_vDram, ↓State.logError_frame, ite_self, and_self, implies_true]

theorem State.authFailIf_frame (s : State) (check : Option Nat) (b : SigBlock) :
    (State.authFailIf s check b).kept = s.kept ∧ (State.authFailIf s check b).vDram = s.vDram := by
  unfold State.authFailIf
  (repeat' split) <;> simp only [↓State.kept_mk, State.kept_eq, ↓foldl_kept, ↓ite_kept, ↓State.vDram_mk, State.vDram_eq, ↓foldl_vDram, ↓ite_vDram, ↓State.authFail_frame, ite_self, and_self, implies_true]

theorem State.loadMaps_frame (s : State) (p : Nat) (l : List (Amap × Bool)) :
    (State.loadMaps s p l).kept = s.kept ∧ (State.loadMaps s p l).vDram = s.vDram := by
  simp only [State.loadMaps, ↓State.kept_mk, State.kept_eq, ↓foldl_kept, ↓ite_kept, ↓State.vDram_mk, State.vDram_eq, ↓foldl_vDram, ↓ite_vDram, ite_self, and_self, implies_true]

theorem State.loadCores_frame (s : State) (p : Nat) (quads : List Nat) (v : VariantBody) (spill : Bool) (base : Nat) (first : BitVec 64) (start : Bool) :
    (State.loadCores s p quads v spill base first start).kept = s.kept ∧ (State.loadCores s p quads v spill base first start).vDram = s.vDram := by
  simp only [State.loadCores, ↓State.kept_mk, State.kept_eq, ↓foldl_kept, ↓ite_kept, ↓State.vDram_mk, State.vDram_eq, ↓foldl_vDram, ↓ite_vDram, ↓State.modCore_frame, ↓State.modCoresOf_frame, ite_self, and_self, implies_true]

theorem State.loadRoutes_frame (s : State) (p : Nat) (b : ImageBody) (start : Bool) :
    (State.loadRoutes s p b start).kept = s.kept ∧ (State.loadRoutes s p b start).vDram = s.vDram := by
  simp only [State.loadRoutes, ↓State.kept_mk, State.kept_eq, ↓foldl_kept, ↓ite_kept, ↓State.vDram_mk, State.vDram_eq, ↓foldl_vDram, ↓ite_vDram, ↓State.modLinkDies_frame, ↓State.dropPort_frame, ite_self, and_self, implies_true]

theorem State.enableCtxs_frame (s : State) (quads : List Nat) (v : VariantBody) :
    (State.enableCtxs s quads v).kept = s.kept ∧ (State.enableCtxs s quads v).vDram = s.vDram := by
  simp only [State.enableCtxs, ↓State.kept_mk, State.kept_eq, ↓foldl_kept, ↓ite_kept, ↓State.vDram_mk, State.vDram_eq, ↓foldl_vDram, ↓ite_vDram, ↓State.setCtx_frame, ite_self, and_self, implies_true]

theorem State.scrubTower_frame (s : State) (t : Nat) :
    (State.scrubTower s t).kept = s.kept := by
  simp only [State.scrubTower, ↓State.kept_mk, State.kept_eq, ↓foldl_kept, ↓ite_kept, ite_self, and_self, implies_true]

theorem State.joinUnits_frame (s : State) (p : Nat) (units : List Nat) :
    (State.joinUnits s p units).kept = s.kept := by
  simp only [State.joinUnits, ↓State.kept_mk, State.kept_eq, ↓foldl_kept, ↓ite_kept, ↓State.scrubTower_frame, ↓State.writeEpoch_frame, ite_self, and_self, implies_true]

theorem State.copyFrame_frame (s : State) (t : Nat) (g : Nat) (h : Nat) :
    (State.copyFrame s t g h).kept = s.kept := by
  simp only [State.copyFrame, ↓State.kept_mk, State.kept_eq, ↓foldl_kept, ↓ite_kept, ↓State.setChan_frame, ite_self, and_self, implies_true]

theorem State.resumePage_frame (s : State) (p : Nat) (page : Nat) :
    (State.resumePage s p page).kept = s.kept := by
  simp only [State.resumePage, ↓State.kept_mk, State.kept_eq, ↓foldl_kept, ↓ite_kept, ↓strResume_frame, ite_self, and_self, implies_true]

theorem State.moveFrame_frame (s : State) (t : Nat) (g : Nat) (h : Nat) :
    (State.moveFrame s t g h).kept = s.kept := by
  simp only [State.moveFrame, ↓State.kept_mk, State.kept_eq, ↓foldl_kept, ↓ite_kept, ↓State.copyFrame_frame, ↓State.setFrame_frame, ↓State.resumePage_frame, ite_self, and_self, implies_true]

theorem State.vacate_frame (s : State) (index : Nat) :
    (State.vacate s index).kept = s.kept := by
  (unfold State.vacate; repeat' (first | with_reducible rfl | extract_lets | split | simp +zetaDelta only [↓State.kept_mk, State.kept_eq, ↓foldl_kept, ↓ite_kept, ↓State.moveFrame_frame, ↓State.setFrame_frame, ite_self, and_self, implies_true]))

theorem State.carryPages_frame (s : State) (p : Nat) (layout : List (Amap × Bool)) (map : List (Amap × Bool)) :
    (State.carryPages s p layout map).kept = s.kept := by
  (unfold State.carryPages; repeat' (first | with_reducible rfl | extract_lets | with_reducible refine (foldl_kept _ (fun a x => ?_) _ _).trans ?_ | with_reducible refine both_kept _ _ _ _ ?_ ?_ | split | simp +zetaDelta only [id_eq, ↓State.kept_mk, State.kept_eq, ↓foldl_kept, ↓ite_kept, ↓State.copyFrame_frame, ite_self, and_self, implies_true]))

theorem State.loadVariant_frame (s : State) (p : Nat) (n : Nat) (first : BitVec 64) (start : Bool) :
    (State.loadVariant s p n first start).kept = s.kept := by
  simp only [State.loadVariant, ↓State.kept_mk, State.kept_eq, ↓foldl_kept, ↓ite_kept, ↓State.loadMaps_frame, ↓State.carryPages_frame, ↓State.joinUnits_frame, ↓State.loadCores_frame, ↓State.loadRoutes_frame, ↓State.modJob_frame, ↓State.enableCtxs_frame, ite_self, and_self, implies_true]

theorem State.applyEpoch_frame (s : State) (p : Nat) :
    (State.applyEpoch s p).kept = s.kept ∧ (State.applyEpoch s p).vDram = s.vDram := by
  simp only [State.applyEpoch, ↓State.kept_mk, State.kept_eq, ↓foldl_kept, ↓ite_kept, ↓State.vDram_mk, State.vDram_eq, ↓foldl_vDram, ↓ite_vDram, ↓State.writeEpoch_frame, ↓State.jobEvent_frame, ↓State.modJcp_frame, ite_self, and_self, implies_true]

theorem State.dropEpoch_frame (s : State) (p : Nat) :
    (State.dropEpoch s p).kept = s.kept ∧ (State.dropEpoch s p).vDram = s.vDram := by
  simp only [State.dropEpoch, ↓State.kept_mk, State.kept_eq, ↓foldl_kept, ↓ite_kept, ↓State.vDram_mk, State.vDram_eq, ↓foldl_vDram, ↓ite_vDram, ↓State.writeEpoch_frame, ↓State.jobEvent_frame, ↓State.modJcp_frame, ite_self, and_self, implies_true]

theorem State.refuseStart_frame (s : State) (p : Nat) (r : Nat × Option Report1) :
    (State.refuseStart s p r).kept = s.kept ∧ (State.refuseStart s p r).vDram = s.vDram := by
  unfold State.refuseStart
  (repeat' split) <;> simp only [↓State.kept_mk, State.kept_eq, ↓foldl_kept, ↓ite_kept, ↓State.vDram_mk, State.vDram_eq, ↓foldl_vDram, ↓ite_vDram, ↓State.modJcp_frame, ↓State.logError_frame, ↓State.setJobState_frame, ite_self, and_self, implies_true]

theorem State.initCrs_frame (s : State) (p : Nat) :
    (State.initCrs s p).kept = s.kept := by
  simp only [State.initCrs, ↓State.kept_mk, State.kept_eq, ↓foldl_kept, ↓ite_kept, ↓State.setJobNat_frame, ite_self, and_self, implies_true]

theorem State.placeContents_frame (s : State) (p : Nat) :
    (State.placeContents s p).kept = s.kept := by
  simp only [State.placeContents, ↓State.kept_mk, State.kept_eq, ↓foldl_kept, ↓ite_kept, ↓State.jobWrite_frame, ite_self, and_self, implies_true]

theorem State.startJob_frame (s : State) (p : Nat) (img : StartImage) :
    (State.startJob s p img).kept = s.kept := by
  (unfold State.startJob; repeat' (first | with_reducible rfl | extract_lets | split | simp +zetaDelta only [↓State.kept_mk, State.kept_eq, ↓foldl_kept, ↓ite_kept, ↓State.setJobState_frame, ↓State.refuseStart_frame, ↓State.modPart_frame, ↓State.openCatalogue_frame, ↓State.recastFrozen_frame, ↓State.placeContents_frame, ↓State.initCrs_frame, ↓State.loadVariant_frame, ↓State.applyEpoch_frame, ite_self, and_self, implies_true]))

theorem State.stopAt_frame (s : State) (p : Nat) (st : JobState) :
    (State.stopAt s p st).kept = s.kept ∧ (State.stopAt s p st).vDram = s.vDram := by
  simp only [State.stopAt, ↓State.kept_mk, State.kept_eq, ↓foldl_kept, ↓ite_kept, ↓State.vDram_mk, State.vDram_eq, ↓foldl_vDram, ↓ite_vDram, ↓State.setJobState_frame, ↓State.modJob_frame, ite_self, and_self, implies_true]

theorem State.abortJob_frame (s : State) (p : Nat) :
    (State.abortJob s p).kept = s.kept := by
  simp only [State.abortJob, ↓State.kept_mk, State.kept_eq, ↓foldl_kept, ↓ite_kept, ↓State.abandonFlash_frame, ↓State.abandonSnap_frame, ↓State.clearReduction_frame, ↓State.abandonPart_frame, ↓State.modJob_frame, ↓State.setJobState_frame, ↓State.dropEpoch_frame, ite_self, and_self, implies_true]

theorem State.enableCores_frame (s : State) (p : Nat) :
    (State.enableCores s p).kept = s.kept ∧ (State.enableCores s p).vDram = s.vDram := by
  simp only [State.enableCores, ↓State.kept_mk, State.kept_eq, ↓foldl_kept, ↓ite_kept, ↓State.vDram_mk, State.vDram_eq, ↓foldl_vDram, ↓ite_vDram, ↓State.modCore_frame, ite_self, and_self, implies_true]

theorem State.returnCtxs_frame (s : State) (p : Nat) :
    (State.returnCtxs s p).kept = s.kept ∧ (State.returnCtxs s p).vDram = s.vDram := by
  simp only [State.returnCtxs, ↓State.kept_mk, State.kept_eq, ↓foldl_kept, ↓ite_kept, ↓State.vDram_mk, State.vDram_eq, ↓foldl_vDram, ↓ite_vDram, ↓State.setCtx_frame, ite_self, and_self, implies_true]

theorem State.resumeJob_frame (s : State) (p : Nat) :
    (State.resumeJob s p).kept = s.kept := by
  simp only [State.resumeJob, ↓State.kept_mk, State.kept_eq, ↓foldl_kept, ↓ite_kept, ↓State.setCatHold_frame, ↓State.setJobState_frame, ↓State.returnCtxs_frame, ↓State.enableCores_frame, ↓State.modJob_frame, ↓State.stopAt_frame, ite_self, and_self, implies_true]

theorem State.clearJob_frame (s : State) (p : Nat) :
    (State.clearJob s p).kept = s.kept ∧ (State.clearJob s p).vDram = s.vDram := by
  simp only [State.clearJob, ↓State.kept_mk, State.kept_eq, ↓foldl_kept, ↓ite_kept, ↓State.vDram_mk, State.vDram_eq, ↓foldl_vDram, ↓ite_vDram, ↓State.setJobState_frame, ↓State.dropEpoch_frame, ite_self, and_self, implies_true]

theorem State.runCmd_frame (s : State) (p : Nat) (c : JobCmd) (img : StartImage) :
    (State.runCmd s p c img).kept = s.kept := by
  unfold State.runCmd
  (repeat' split) <;> simp only [↓State.kept_mk, State.kept_eq, ↓foldl_kept, ↓ite_kept, ↓State.startJob_frame, ↓State.stopAt_frame, ↓State.resumeJob_frame, ↓State.abortJob_frame, ↓State.clearJob_frame, ite_self, and_self, implies_true]

theorem State.wakeFor_frame (s : State) (p : Nat) :
    (State.wakeFor s p).kept = s.kept ∧ (State.wakeFor s p).vDram = s.vDram := by
  simp only [State.wakeFor, ↓State.kept_mk, State.kept_eq, ↓foldl_kept, ↓ite_kept, ↓State.vDram_mk, State.vDram_eq, ↓foldl_vDram, ↓ite_vDram, ↓State.modPart_frame, ite_self, and_self, implies_true]

theorem State.jobCommand_frame (s : State) (p : Nat) (c : JobCmd) (img : StartImage) :
    (State.jobCommand s p c img).kept = s.kept := by
  simp only [State.jobCommand, ↓State.kept_mk, State.kept_eq, ↓foldl_kept, ↓ite_kept, ↓State.modJcp_frame, ↓State.wakeFor_frame, ↓State.modJob_frame, ↓State.runCmd_frame, ite_self, and_self, implies_true]

theorem State.retryFirst_frame (s : State) (p : Nat) :
    (State.retryFirst s p).kept = s.kept := by
  (unfold State.retryFirst; repeat' (first | with_reducible rfl | extract_lets | split | simp +zetaDelta only [↓State.kept_mk, State.kept_eq, ↓foldl_kept, ↓ite_kept, ↓State.modJob_frame, ↓State.runCmd_frame, ↓State.modJcp_frame, ite_self, and_self, implies_true]))

theorem State.retryCmd_frame (s : State) (p : Nat) :
    (State.retryCmd s p).kept = s.kept := by
  (unfold State.retryCmd; repeat' (first | with_reducible rfl | extract_lets | split | simp +zetaDelta only [↓State.kept_mk, State.kept_eq, ↓foldl_kept, ↓ite_kept, ↓State.retryFirst_frame, ite_self, and_self, implies_true]))

theorem State.retryCmds_frame (s : State) :
    (State.retryCmds s).kept = s.kept := by
  simp only [State.retryCmds, ↓State.kept_mk, State.kept_eq, ↓foldl_kept, ↓ite_kept, ↓State.retryCmd_frame, ite_self, and_self, implies_true]

theorem State.setStep_frame (s : State) (p : Nat) (step : BitVec 64) :
    (State.setStep s p step).kept = s.kept ∧ (State.setStep s p step).vDram = s.vDram := by
  simp only [State.setStep, ↓State.kept_mk, State.kept_eq, ↓foldl_kept, ↓ite_kept, ↓State.vDram_mk, State.vDram_eq, ↓foldl_vDram, ↓ite_vDram, ↓State.modCoresOf_frame, ↓State.modJob_frame, ite_self, and_self, implies_true]

theorem State.sendRejoin_frame (s : State) (p : Nat) (step : BitVec 64) :
    (State.sendRejoin s p step).kept = s.kept ∧ (State.sendRejoin s p step).vDram = s.vDram := by
  simp only [State.sendRejoin, ↓State.kept_mk, State.kept_eq, ↓foldl_kept, ↓ite_kept, ↓State.vDram_mk, State.vDram_eq, ↓foldl_vDram, ↓ite_vDram, ↓State.sendCtl_frame, ite_self, and_self, implies_true]

theorem State.rejoinNow_frame (s : State) (p : Nat) :
    (State.rejoinNow s p).kept = s.kept ∧ (State.rejoinNow s p).vDram = s.vDram := by
  unfold State.rejoinNow
  (repeat' split) <;> simp only [↓State.kept_mk, State.kept_eq, ↓foldl_kept, ↓ite_kept, ↓State.vDram_mk, State.vDram_eq, ↓foldl_vDram, ↓ite_vDram, ↓State.returnCtxs_frame, ↓State.enableCores_frame, ↓State.setStep_frame, ↓State.sendRejoin_frame, ite_self, and_self, implies_true]

theorem State.changeVariant_frame (s : State) (p : Nat) (cause : BitVec 32) (first : BitVec 64) :
    (State.changeVariant s p cause first).kept = s.kept := by
  (unfold State.changeVariant; repeat' (first | with_reducible rfl | extract_lets | split | simp +zetaDelta only [↓State.kept_mk, State.kept_eq, ↓foldl_kept, ↓ite_kept, ↓State.modJob_frame, ↓State.programFault_frame, ↓State.rejoinNow_frame, ↓State.rollbackHold_frame, ↓State.enableCores_frame, ↓State.loadVariant_frame, ↓State.setStep_frame, ↓State.sendRejoin_frame, ite_self, and_self, implies_true]))

theorem State.abandonWindowReq_frame (s : State) (w : Nat) (k : CtxKey) :
    (State.abandonWindowReq s w k).kept = s.kept ∧ (State.abandonWindowReq s w k).vDram = s.vDram := by
  refine ⟨?_, ?_⟩ <;> (unfold State.abandonWindowReq; repeat' (first | with_reducible rfl | extract_lets | with_reducible refine (foldl_kept _ (fun a x => ?_) _ _).trans ?_ | with_reducible refine (foldl_vDram _ (fun a x => ?_) _ _).trans ?_ | with_reducible refine both_kept _ _ _ _ ?_ ?_ | with_reducible refine both_vDram _ _ _ _ ?_ ?_ | split | simp +zetaDelta only [id_eq, ↓State.kept_mk, State.kept_eq, ↓foldl_kept, ↓ite_kept, ↓State.vDram_mk, State.vDram_eq, ↓foldl_vDram, ↓ite_vDram, ↓State.faultReq_frame, ite_self, and_self, implies_true]))

theorem State.sendOthers_frame (s : State) (w : Nat) (unsent : List CtxKey) :
    (State.sendOthers s w unsent).kept = s.kept ∧ (State.sendOthers s w unsent).vDram = s.vDram := by
  simp only [State.sendOthers, ↓State.kept_mk, State.kept_eq, ↓foldl_kept, ↓ite_kept, ↓State.vDram_mk, State.vDram_eq, ↓foldl_vDram, ↓ite_vDram, ↓State.hostSend_frame, ite_self, and_self, implies_true]

theorem State.disableWindow_frame (s : State) (w : Nat) (abandon : Bool) (unsent : List CtxKey) :
    (State.disableWindow s w abandon unsent).kept = s.kept ∧ (State.disableWindow s w abandon unsent).vDram = s.vDram := by
  refine ⟨?_, ?_⟩ <;> (unfold State.disableWindow; repeat' (first | with_reducible rfl | extract_lets | split | simp +zetaDelta only [↓State.kept_mk, State.kept_eq, ↓foldl_kept, ↓ite_kept, ↓State.vDram_mk, State.vDram_eq, ↓foldl_vDram, ↓ite_vDram, ↓State.setWindow_frame, ↓State.sendOthers_frame, ↓State.abandonWindowReq_frame, ↓State.settleWindows_frame, ite_self, and_self, implies_true]))

theorem swEnable_frame (w : Fin 16) (s : State) :
    (swEnable w s).kept = s.kept ∧ (swEnable w s).vDram = s.vDram := by
  simp only [swEnable, ↓State.kept_mk, State.kept_eq, ↓foldl_kept, ↓ite_kept, ↓State.vDram_mk, State.vDram_eq, ↓foldl_vDram, ↓ite_vDram, ↓State.setWindow_frame, ite_self, and_self, implies_true]

theorem swDisable_frame (w : Fin 16) (abandon : Bool) (unsent : List CtxKey) (s : State) :
    (swDisable w abandon unsent s).kept = s.kept ∧ (swDisable w abandon unsent s).vDram = s.vDram := by
  simp only [swDisable, ↓State.kept_mk, State.kept_eq, ↓foldl_kept, ↓ite_kept, ↓State.vDram_mk, State.vDram_eq, ↓foldl_vDram, ↓ite_vDram, ↓State.disableWindow_frame, ↓State.setWindow_frame, ite_self, and_self, implies_true]

theorem functionLevelReset_frame (unsent : List (Fin 16 × CtxKey)) (s : State) :
    (functionLevelReset unsent s).kept = s.kept := by
  (unfold functionLevelReset; repeat' (first | with_reducible rfl | extract_lets | with_reducible refine (foldl_kept _ (fun a x => ?_) _ _).trans ?_ | with_reducible refine both_kept _ _ _ _ ?_ ?_ | split | simp +zetaDelta only [id_eq, ↓State.kept_mk, State.kept_eq, ↓foldl_kept, ↓ite_kept, ↓State.jobCommand_frame, ↓State.modJcp_frame, ↓State.settleMsix_frame, ↓State.disableWindow_frame, ite_self, and_self, implies_true]))

theorem State.bar2Serve_frame (s : State) (act : MemAct) (f : LineFound) (x : Option Place) :
    (s.bar2Serve act f x).kept = s.kept := by
  cases x with
  | none => simp only [State.bar2Serve, ↓State.bar2Refuse_frame, and_self]
  | some pl =>
    unfold State.bar2Serve
    dsimp only
    simp only [↓State.arrive_frame]

theorem State.bar2Apply_frame (s : State) (off : BitVec 36) (act : MemAct) (f : LineFound) :
    (State.bar2Apply s off act f).kept = s.kept := by
  (unfold State.bar2Apply; repeat' (first | with_reducible rfl | extract_lets | split | simp +zetaDelta only [↓State.kept_mk, State.kept_eq, ↓foldl_kept, ↓ite_kept, ↓State.bar2Serve_frame, ite_self, and_self, implies_true]))

theorem bar2Access_frame (off : BitVec 36) (act : MemAct) (f : LineFound) (s : State) :
    (bar2Access off act f s).kept = s.kept := by
  simp only [bar2Access, ↓State.kept_mk, State.kept_eq, ↓foldl_kept, ↓ite_kept, ↓State.hostWaits_frame, ↓State.bar2Apply_frame, ite_self, and_self, implies_true]

theorem hostMaxVersionWrite_frame (v : BitVec 32) (s : State) :
    (hostMaxVersionWrite v s).kept = s.kept ∧ (hostMaxVersionWrite v s).vDram = s.vDram := by
  simp only [hostMaxVersionWrite, ↓State.kept_mk, State.kept_eq, ↓foldl_kept, ↓ite_kept, ↓State.vDram_mk, State.vDram_eq, ↓foldl_vDram, ↓ite_vDram, ite_self, and_self, implies_true]

theorem State.setLead_frame (s : State) (p : Nat) (lead : Bool) :
    (State.setLead s p lead).kept = s.kept ∧ (State.setLead s p lead).vDram = s.vDram := by
  unfold State.setLead
  (repeat' split) <;> simp only [↓State.kept_mk, State.kept_eq, ↓foldl_kept, ↓ite_kept, ↓State.vDram_mk, State.vDram_eq, ↓foldl_vDram, ↓ite_vDram, ↓State.setJobState_frame, ↓State.modJcp_frame, ite_self, and_self, implies_true]

theorem layoutDone_frame (s : State) :
    (layoutDone s).kept = s.kept ∧ (layoutDone s).vDram = s.vDram := by
  simp only [layoutDone, ↓State.kept_mk, State.kept_eq, ↓foldl_kept, ↓ite_kept, ↓State.vDram_mk, State.vDram_eq, ↓foldl_vDram, ↓ite_vDram, ↓State.openGates_frame, ↓State.modEvent_frame, ite_self, and_self, implies_true]

theorem jobStart_frame (p : PartId) (img : StartImage) (s : State) :
    (jobStart p img s).kept = s.kept := by
  simp only [jobStart, ↓State.kept_mk, State.kept_eq, ↓foldl_kept, ↓ite_kept, ↓State.jobCommand_frame, ite_self, and_self, implies_true]

theorem jobPause_frame (p : PartId) (s : State) :
    (jobPause p s).kept = s.kept := by
  simp only [jobPause, ↓State.kept_mk, State.kept_eq, ↓foldl_kept, ↓ite_kept, ↓State.jobCommand_frame, ite_self, and_self, implies_true]

theorem jobResume_frame (p : PartId) (s : State) :
    (jobResume p s).kept = s.kept := by
  simp only [jobResume, ↓State.kept_mk, State.kept_eq, ↓foldl_kept, ↓ite_kept, ↓State.jobCommand_frame, ite_self, and_self, implies_true]

theorem jobStop_frame (p : PartId) (s : State) :
    (jobStop p s).kept = s.kept := by
  simp only [jobStop, ↓State.kept_mk, State.kept_eq, ↓foldl_kept, ↓ite_kept, ↓State.jobCommand_frame, ite_self, and_self, implies_true]

theorem jobAbort_frame (p : PartId) (s : State) :
    (jobAbort p s).kept = s.kept := by
  simp only [jobAbort, ↓State.kept_mk, State.kept_eq, ↓foldl_kept, ↓ite_kept, ↓State.jobCommand_frame, ite_self, and_self, implies_true]

theorem jobClear_frame (p : PartId) (s : State) :
    (jobClear p s).kept = s.kept := by
  simp only [jobClear, ↓State.kept_mk, State.kept_eq, ↓foldl_kept, ↓ite_kept, ↓State.jobCommand_frame, ite_self, and_self, implies_true]

theorem jobEnableComplete_frame (p : PartId) (s : State) :
    (jobEnableComplete p s).kept = s.kept ∧ (jobEnableComplete p s).vDram = s.vDram := by
  simp only [jobEnableComplete, ↓State.kept_mk, State.kept_eq, ↓foldl_kept, ↓ite_kept, ↓State.vDram_mk, State.vDram_eq, ↓foldl_vDram, ↓ite_vDram, ↓State.setJobState_frame, ↓State.enableCores_frame, ↓State.applyEpoch_frame, ite_self, and_self, implies_true]

theorem stopStepReached_frame (p : PartId) (s : State) :
    (stopStepReached p s).kept = s.kept := by
  (unfold stopStepReached; repeat' (first | with_reducible rfl | extract_lets | split | simp +zetaDelta only [↓State.kept_mk, State.kept_eq, ↓foldl_kept, ↓ite_kept, ↓State.abandonSnap_frame, ↓State.setJobState_frame, ↓State.modJob_frame, ite_self, and_self, implies_true]))

theorem endStepWrite_frame (p : PartId) (half : Option Bool) (w : BitVec 64) (s : State) :
    (endStepWrite p half w s).kept = s.kept ∧ (endStepWrite p half w s).vDram = s.vDram := by
  refine ⟨?_, ?_⟩ <;> (unfold endStepWrite; repeat' (first | with_reducible rfl | extract_lets | split | simp +zetaDelta only [↓State.kept_mk, State.kept_eq, ↓foldl_kept, ↓ite_kept, ↓State.vDram_mk, State.vDram_eq, ↓foldl_vDram, ↓ite_vDram, ↓State.modJcp_frame, ↓State.stopAt_frame, ite_self, and_self, implies_true]))

theorem abortComplete_frame (p : PartId) (s : State) :
    (abortComplete p s).kept = s.kept ∧ (abortComplete p s).vDram = s.vDram := by
  simp only [abortComplete, ↓State.kept_mk, State.kept_eq, ↓foldl_kept, ↓ite_kept, ↓State.vDram_mk, State.vDram_eq, ↓foldl_vDram, ↓ite_vDram, ↓State.setJobState_frame, ↓State.modJcp_frame, ite_self, and_self, implies_true]

theorem clearComplete_frame (p : PartId) (s : State) :
    (clearComplete p s).kept = s.kept := by
  simp only [clearComplete, ↓State.kept_mk, State.kept_eq, ↓foldl_kept, ↓ite_kept, ↓State.modPart_frame, ↓State.retryAllFar_frame, ↓State.setJobState_frame, ↓State.settleMsix_frame, ite_self, and_self, implies_true]

theorem epochWrite_frame (p : PartId) (v : BitVec 32) (s : State) :
    (epochWrite p v s).kept = s.kept := by
  (unfold epochWrite; repeat' (first | with_reducible rfl | extract_lets | split | simp +zetaDelta only [↓State.kept_mk, State.kept_eq, ↓foldl_kept, ↓ite_kept, ↓State.modJcp_frame, ↓State.applyEpoch_frame, ↓State.modJob_frame, ↓State.setCatHold_frame, ite_self, and_self, implies_true]))

theorem eventEnableWrite_frame (p : Option PartId) (v : BitVec 11) (s : State) :
    (eventEnableWrite p v s).kept = s.kept ∧ (eventEnableWrite p v s).vDram = s.vDram := by
  unfold eventEnableWrite
  (repeat' split) <;> simp only [↓State.kept_mk, State.kept_eq, ↓foldl_kept, ↓ite_kept, ↓State.vDram_mk, State.vDram_eq, ↓foldl_vDram, ↓ite_vDram, ↓State.modJcp_frame, ↓State.settleMsix_frame, ↓State.sendMsix_frame, ite_self, and_self, implies_true]

theorem State.commitSerge_frame (s : State) (p : Nat) :
    (State.commitSerge s p).kept = s.kept := by
  simp only [State.commitSerge, ↓State.kept_mk, State.kept_eq, ↓foldl_kept, ↓ite_kept, ↓State.modJob_frame, ↓State.jobEvent_frame, ↓State.setCatEntry_frame, ite_self, and_self, implies_true]

theorem persistAckWrite_frame (p : PartId) (half : Option Bool) (w : BitVec 64) (s : State) :
    (persistAckWrite p half w s).kept = s.kept := by
  simp only [persistAckWrite, ↓State.kept_mk, State.kept_eq, ↓foldl_kept, ↓ite_kept, ↓State.modJcp_frame, ↓State.commitSerge_frame, ite_self, and_self, implies_true]

theorem latTolWrite_frame (p : PartId) (v : BitVec 32) (s : State) :
    (latTolWrite p v s).kept = s.kept ∧ (latTolWrite p v s).vDram = s.vDram := by
  simp only [latTolWrite, ↓State.kept_mk, State.kept_eq, ↓foldl_kept, ↓ite_kept, ↓State.vDram_mk, State.vDram_eq, ↓foldl_vDram, ↓ite_vDram, ↓State.retarget_frame, ↓State.modJcp_frame, ite_self, and_self, implies_true]

theorem farQuotaWrite_frame (p : PartId) (port : Fin 2) (v : BitVec 32) (s : State) :
    (farQuotaWrite p port v s).kept = s.kept ∧ (farQuotaWrite p port v s).vDram = s.vDram := by
  simp only [farQuotaWrite, ↓State.kept_mk, State.kept_eq, ↓foldl_kept, ↓ite_kept, ↓State.vDram_mk, State.vDram_eq, ↓foldl_vDram, ↓ite_vDram, ↓State.modJcp_frame, ↓State.retryFar_frame, ite_self, and_self, implies_true]

theorem variantChange_frame (p : PartId) (s : State) :
    (variantChange p s).kept = s.kept := by
  (unfold variantChange; repeat' (first | with_reducible rfl | extract_lets | split | simp +zetaDelta only [↓State.kept_mk, State.kept_eq, ↓foldl_kept, ↓ite_kept, ↓State.changeVariant_frame, ite_self, and_self, implies_true]))

theorem State.sendSn_frame (s : State) (quad : BitVec 2) (dst : BitVec 12) (h : Sn) (data : List Byte) :
    (State.sendSn s quad dst h data).kept = s.kept ∧ (State.sendSn s quad dst h data).vDram = s.vDram := by
  simp only [State.sendSn, ↓State.kept_mk, State.kept_eq, ↓foldl_kept, ↓ite_kept, ↓State.vDram_mk, State.vDram_eq, ↓foldl_vDram, ↓ite_vDram, ite_self, and_self, implies_true]

theorem State.sendPieces_frame (s : State) (quad : BitVec 2) (dst : BitVec 12) (h : Sn) (chunked : Bool) (bs : List Byte) :
    (State.sendPieces s quad dst h chunked bs).kept = s.kept ∧ (State.sendPieces s quad dst h chunked bs).vDram = s.vDram := by
  simp only [State.sendPieces, ↓State.kept_mk, State.kept_eq, ↓foldl_kept, ↓ite_kept, ↓State.vDram_mk, State.vDram_eq, ↓foldl_vDram, ↓ite_vDram, ↓State.sendSn_frame, ite_self, and_self, implies_true]

theorem State.putBytes_frame (s : State) (p : Nat) (addr : Nat) (bs : List Byte) :
    (State.putBytes s p addr bs).kept = s.kept := by
  simp only [State.putBytes, ↓State.kept_mk, State.kept_eq, ↓foldl_kept, ↓ite_kept, ↓State.jobPost_frame, ite_self, and_self, implies_true]

theorem State.modSnap_frame (s : State) (p : Nat) (f : SnapRun → SnapRun) :
    (State.modSnap s p f).kept = s.kept ∧ (State.modSnap s p f).vDram = s.vDram := by
  simp only [State.modSnap, ↓State.kept_mk, State.kept_eq, ↓foldl_kept, ↓ite_kept, ↓State.vDram_mk, State.vDram_eq, ↓foldl_vDram, ↓ite_vDram, ↓State.modJob_frame, ite_self, and_self, implies_true]

theorem State.skipSnap_frame (s : State) (p : Nat) (reason : Nat) (step : BitVec 64) :
    (State.skipSnap s p reason step).kept = s.kept := by
  (unfold State.skipSnap; repeat' (first | with_reducible rfl | extract_lets | split | simp +zetaDelta only [↓State.kept_mk, State.kept_eq, ↓foldl_kept, ↓ite_kept, ↓State.logError_frame, ↓State.postJobNat_frame, ite_self, and_self, implies_true]))

theorem State.zeroBlock_frame (s : State) (p : Nat) (page : Nat) :
    (State.zeroBlock s p page).kept = s.kept := by
  (unfold State.zeroBlock; repeat' (first | with_reducible rfl | extract_lets | split | simp +zetaDelta only [↓State.kept_mk, State.kept_eq, ↓foldl_kept, ↓ite_kept, ite_self, and_self, implies_true]))

theorem State.writeJobState_frame (s : State) (p : Nat) (page : Nat) (step : BitVec 64) :
    (State.writeJobState s p page step).kept = s.kept := by
  simp only [State.writeJobState, ↓State.kept_mk, State.kept_eq, ↓foldl_kept, ↓ite_kept, ↓State.setJobNat_frame, ↓State.zeroBlock_frame, ite_self, and_self, implies_true]

theorem State.protectPage_frame (s : State) (p : Nat) (page : Nat) :
    (State.protectPage s p page).kept = s.kept ∧ (State.protectPage s p page).vDram = s.vDram := by
  unfold State.protectPage
  (repeat' split) <;> simp only [↓State.kept_mk, State.kept_eq, ↓foldl_kept, ↓ite_kept, ↓State.vDram_mk, State.vDram_eq, ↓foldl_vDram, ↓ite_vDram, ↓State.setFrame_frame, ite_self, and_self, implies_true]

theorem State.freePage_frame (s : State) (p : Nat) (page : Nat) :
    (State.freePage s p page).kept = s.kept := by
  unfold State.freePage
  (repeat' split) <;> simp only [↓State.kept_mk, State.kept_eq, ↓foldl_kept, ↓ite_kept, ↓State.writeFrame_frame, ite_self, and_self, implies_true]

theorem State.handOver_frame (s : State) (p : Nat) (begun : List Nat) :
    (State.handOver s p begun).kept = s.kept := by
  (unfold State.handOver; repeat' (first | with_reducible rfl | extract_lets | with_reducible refine (foldl_kept _ (fun a x => ?_) _ _).trans ?_ | with_reducible refine both_kept _ _ _ _ ?_ ?_ | split | simp +zetaDelta only [id_eq, ↓State.kept_mk, State.kept_eq, ↓foldl_kept, ↓ite_kept, ↓State.modJob_frame, ↓State.freePage_frame, ↓State.modCoresOf_frame, ite_self, and_self, implies_true]))

theorem State.openSnap_frame (s : State) (p : Nat) (x : SnapPlan) (page0 : Nat) (step : BitVec 64) :
    (State.openSnap s p x page0 step).kept = s.kept := by
  (unfold State.openSnap; repeat' (first | with_reducible rfl | extract_lets | with_reducible refine (foldl_kept _ (fun a x => ?_) _ _).trans ?_ | with_reducible refine both_kept _ _ _ _ ?_ ?_ | split | simp +zetaDelta only [id_eq, ↓State.kept_mk, State.kept_eq, ↓foldl_kept, ↓ite_kept, ↓State.writeJobState_frame, ↓State.protectPage_frame, ↓State.setCatEntry_frame, ↓State.modJob_frame, ↓State.sendCtl_frame, ↓State.handOver_frame, ite_self, and_self, implies_true]))

theorem State.trySeal_frame (s : State) (p : Nat) :
    (State.trySeal s p).kept = s.kept ∧ (State.trySeal s p).vDram = s.vDram := by
  unfold State.trySeal
  (repeat' split) <;> simp only [↓State.kept_mk, State.kept_eq, ↓foldl_kept, ↓ite_kept, ↓State.vDram_mk, State.vDram_eq, ↓foldl_vDram, ↓ite_vDram, ↓State.modSnap_frame, ↓State.sendCtl_frame, ↓State.sendPieces_frame, ite_self, and_self, implies_true]

theorem State.checkComplete_frame (s : State) (p : Nat) :
    (State.checkComplete s p).kept = s.kept := by
  (unfold State.checkComplete; repeat' (first | with_reducible rfl | extract_lets | split | simp +zetaDelta only [↓State.kept_mk, State.kept_eq, ↓foldl_kept, ↓ite_kept, ↓State.postJobNat_frame, ↓State.modJob_frame, ite_self, and_self, implies_true]))

theorem State.beginFlash_frame (s : State) (p : Nat) (r : SnapRun) (number : Nat) :
    (State.beginFlash s p r number).kept = s.kept := by
  unfold State.beginFlash
  (repeat' split) <;> simp only [↓State.kept_mk, State.kept_eq, ↓foldl_kept, ↓ite_kept, ↓State.skipSnap_frame, ↓State.sendCtl_frame, ↓State.modJob_frame, ite_self, and_self, implies_true]

theorem State.openFlash_frame (s : State) (p : Nat) (f : FlashRun) :
    (State.openFlash s p f).kept.queue = s.kept.queue ∧ (State.openFlash s p f).kept.layout = s.kept.layout ∧ (State.openFlash s p f).kept.far = s.kept.far ∧ (State.openFlash s p f).kept.meter = s.kept.meter := by
  refine ⟨?_, ?_, ?_, ?_⟩ <;> (unfold State.openFlash; repeat' (first | with_reducible rfl | extract_lets | split | simp +zetaDelta only [↓State.kept_mk, State.queue_eq, State.layout_eq, State.far_eq, State.flash_eq, State.meter_eq, ↓foldl_queue, ↓foldl_layout, ↓foldl_far, ↓foldl_flash, ↓foldl_meter, ↓ite_kept, ↓State.setCatEntry_frame, ↓State.modJob_frame, ↓State.setFlash_frame, ite_self, and_self, implies_true]))

theorem State.dropFlash_frame (s : State) (p : Nat) (f : FlashRun) :
    (State.dropFlash s p f).kept = s.kept := by
  simp only [State.dropFlash, ↓State.kept_mk, State.kept_eq, ↓foldl_kept, ↓ite_kept, ↓State.modJob_frame, ↓State.setCatEntry_frame, ite_self, and_self, implies_true]

theorem State.beginSerge_frame (s : State) (p : Nat) (f : FlashRun) (pages : Nat) :
    (State.beginSerge s p f pages).kept = s.kept := by
  simp only [State.beginSerge, ↓State.kept_mk, State.kept_eq, ↓foldl_kept, ↓ite_kept, ↓State.skipSnap_frame, ↓State.setCatEntry_frame, ↓State.modJob_frame, ite_self, and_self, implies_true]

theorem State.setHeld_frame (s : State) (p : Nat) (k : Nat) (x : PartnerSlot) :
    (State.setHeld s p k x).kept = s.kept ∧ (State.setHeld s p k x).vDram = s.vDram := by
  simp only [State.setHeld, ↓State.kept_mk, State.kept_eq, ↓foldl_kept, ↓ite_kept, ↓State.vDram_mk, State.vDram_eq, ↓foldl_vDram, ↓ite_vDram, ↓State.modPart_frame, ite_self, and_self, implies_true]

theorem State.tryCommit_frame (s : State) (p : Nat) (k : Nat) :
    (State.tryCommit s p k).kept = s.kept := by
  (unfold State.tryCommit; repeat' (first | with_reducible rfl | extract_lets | split | simp +zetaDelta only [↓State.kept_mk, State.kept_eq, ↓foldl_kept, ↓ite_kept, ↓State.putBytes_frame, ↓State.setHeld_frame, ↓State.setCatEntry_frame, ↓State.sendCtl_frame, ite_self, and_self, implies_true]))

theorem State.placePiece_frame (s : State) (p : Nat) (k : Nat) (x : SnapPlan) (h : Sn) (ride : Bool) (bs : List Byte) :
    (State.placePiece s p k x h ride bs).kept = s.kept := by
  simp only [State.placePiece, ↓State.kept_mk, State.kept_eq, ↓foldl_kept, ↓ite_kept, ↓State.putBytes_frame, ↓State.setHeld_frame, ite_self, and_self, implies_true]

theorem State.clearTarget_frame (s : State) (p : Nat) :
    (State.clearTarget s p).kept = s.kept := by
  unfold State.clearTarget
  (repeat' split) <;> simp only [↓State.kept_mk, State.kept_eq, ↓foldl_kept, ↓ite_kept, ↓State.postJobNat_frame, ite_self, and_self, implies_true]

theorem State.failRestore_frame (s : State) (p : Nat) (rule : Nat) :
    (State.failRestore s p rule).kept = s.kept := by
  simp only [State.failRestore, ↓State.kept_mk, State.kept_eq, ↓foldl_kept, ↓ite_kept, ↓State.modJob_frame, ↓State.clearTarget_frame, ↓State.setCatHold_frame, ↓State.refuseStart_frame, ite_self, and_self, implies_true]

theorem State.restorePage_frame (s t : State) (p : Nat) (slot : Option Nat) (serge : List (List Byte)) (e : Me) (i : Nat)
    (h : s.restorePage p slot serge e i = some t) :
    t.kept = s.kept := by
  unfold State.restorePage at h
  extract_lets fl se at h
  split at h
  · simp only [Option.some.injEq] at h; subst h; simp only [↓State.putBytes_frame, and_self]
  · split at h
    · simp only [Option.some.injEq] at h; subst h; simp only [↓State.putBytes_frame, and_self]
    · cases h

theorem State.restorePages_frame (s t : State) (p : Nat) (placed : List Nat) (slot : Option Nat) (serge : List (List Byte))
    (m : List Byte) (l : List Nat) (h : s.restorePages p placed slot serge m l = .ok t) :
    t.kept = s.kept := by
  induction l generalizing s with
  | nil => simp only [State.restorePages] at h; cases h; simp
  | cons i l ih =>
    simp only [State.restorePages] at h
    split at h
    · split at h
      · exact ih s h
      · cases h
    · split at h
      · exact ih s h
      · split at h
        · rename_i s1 hs
          have a := ih s1 h
          have b := State.restorePage_frame s s1 p slot serge _ i hs
          simp_all
        · cases h

theorem State.reselectFor_frame (s t : State) (p : Nat) (id : BitVec 64) (h : s.reselectFor p id = some t) :
    t.kept = s.kept := by
  simp only [State.reselectFor] at h
  split at h
  · cases h
  · cases h; simp [State.loadVariant_frame, State.modJob_frame]

theorem State.clearFar_frame (s : State) (p : Nat) :
    (State.clearFar s p).kept = s.kept := by
  simp only [State.clearFar, ↓State.kept_mk, State.kept_eq, ↓foldl_kept, ↓ite_kept, ↓State.returnPage_frame, ↓State.setFtt_frame, ite_self, and_self, implies_true]

theorem snapshotPoint_frame (p : PartId) (s : State) :
    (snapshotPoint p s).kept = s.kept := by
  (unfold snapshotPoint; repeat' (first | with_reducible rfl | extract_lets | split | simp +zetaDelta only [↓State.kept_mk, State.kept_eq, ↓foldl_kept, ↓ite_kept, ↓State.modJob_frame, ↓State.skipSnap_frame, ↓State.whenAccess_kept, ↓State.openSnap_frame, ite_self, and_self, implies_true]))

theorem frameCopied_frame (t : TowerId) (g : Fin 49152) (bad : Option (Fin 32768)) (s : State) :
    (frameCopied t g bad s).kept = s.kept := by
  (unfold frameCopied; repeat' (first | with_reducible rfl | extract_lets | split | simp +zetaDelta only [↓State.kept_mk, State.kept_eq, ↓foldl_kept, ↓ite_kept, ↓State.vacate_frame, ↓State.writeFrame_frame, ↓State.abandonSnap_frame, ↓State.dramUe_frame, ↓State.sendPieces_frame, ↓State.modSnap_frame, ↓State.trySeal_frame, ite_self, and_self, implies_true]))

theorem copyBudgetExpire_frame (p : PartId) (begun : List Nat) (s : State) :
    (copyBudgetExpire p begun s).kept = s.kept := by
  simp only [copyBudgetExpire, ↓State.kept_mk, State.kept_eq, ↓foldl_kept, ↓ite_kept, ↓State.trySeal_frame, ↓State.handOver_frame, ite_self, and_self, implies_true]

theorem rideDigest_frame (p : PartId) (i : Nat) (s : State) :
    (rideDigest p i s).kept = s.kept ∧ (rideDigest p i s).vDram = s.vDram := by
  unfold rideDigest
  (repeat' split) <;> simp only [↓State.kept_mk, State.kept_eq, ↓foldl_kept, ↓ite_kept, ↓State.vDram_mk, State.vDram_eq, ↓foldl_vDram, ↓ite_vDram, ↓State.trySeal_frame, ↓State.modSnap_frame, ↓State.dropRx_frame, ite_self, and_self, implies_true]

theorem snapCommitted_frame (p : PartId) (i : Nat) (s : State) :
    (snapCommitted p i s).kept = s.kept := by
  (unfold snapCommitted; repeat' (first | with_reducible rfl | extract_lets | split | simp +zetaDelta only [↓State.kept_mk, State.kept_eq, ↓foldl_kept, ↓ite_kept, ↓State.dropRx_frame, ↓State.modJob_frame, ↓State.jobEvent_frame, ↓State.setCatEntry_frame, ↓State.sendCtl_frame, ↓State.checkComplete_frame, ↓State.beginFlash_frame, ite_self, and_self, implies_true]))

theorem snapDone_frame (p : PartId) (i : Nat) (s : State) :
    (snapDone p i s).kept = s.kept := by
  unfold snapDone
  (repeat' split) <;> simp only [↓State.kept_mk, State.kept_eq, ↓foldl_kept, ↓ite_kept, ↓State.checkComplete_frame, ↓State.modJob_frame, ↓State.dropRx_frame, ite_self, and_self, implies_true]

theorem snapAbort_frame (p : PartId) (i : Nat) (s : State) :
    (snapAbort p i s).kept = s.kept := by
  (unfold snapAbort; repeat' (first | with_reducible rfl | extract_lets | split | simp +zetaDelta only [↓State.kept_mk, State.kept_eq, ↓foldl_kept, ↓ite_kept, ↓State.dropRx_frame, ↓State.setCatEntry_frame, ↓State.modJob_frame, ↓State.setHeld_frame, ite_self, and_self, implies_true]))

theorem snapOpen_frame (p : PartId) (i : Nat) (s : State) :
    (snapOpen p i s).kept = s.kept := by
  unfold snapOpen
  (repeat' split) <;> simp only [↓State.kept_mk, State.kept_eq, ↓foldl_kept, ↓ite_kept, ↓State.dropRx_frame, ↓State.sendCtl_frame, ↓State.putBytes_frame, ↓State.setCatEntry_frame, ↓State.setHeld_frame, ite_self, and_self, implies_true]

theorem State.holderTake_kept (s : State) (p i : Nat) (kind : BitVec 3) (f : State → Nat → SnapPlan → Sn → Packet → State) (h : ∀ a k y z x, (f a k y z x).kept = a.kept) :
    (State.holderTake s p i kind f).kept = s.kept := by
  unfold State.holderTake
  split
  · rfl
  · extract_lets z
    clear_value z
    split
    · rfl
    · split
      · exact (h (s.dropRx i) _ _ _ _).trans (by simp only [↓State.dropRx_frame])
      · simp only [↓State.dropRx_frame]

theorem State.holderTake_vDram (s : State) (p i : Nat) (kind : BitVec 3) (f : State → Nat → SnapPlan → Sn → Packet → State) (h : ∀ a k y z x, (f a k y z x).vDram = a.vDram) :
    (State.holderTake s p i kind f).vDram = s.vDram := by
  unfold State.holderTake
  split
  · rfl
  · extract_lets z
    clear_value z
    split
    · rfl
    · split
      · exact (h (s.dropRx i) _ _ _ _).trans (by simp only [↓State.dropRx_frame])
      · simp only [↓State.dropRx_frame]

theorem pageData_frame (p : PartId) (i : Nat) (s : State) :
    (pageData p i s).kept = s.kept := by
  (unfold pageData; repeat' (first | with_reducible rfl | extract_lets | split | simp +zetaDelta only [↓State.kept_mk, State.kept_eq, ↓foldl_kept, ↓ite_kept, ↓State.holderTake_kept, ↓State.holderTake_vDram, ↓State.tryCommit_frame, ↓State.placePiece_frame, ite_self, and_self, implies_true]))

theorem snapManifest_frame (p : PartId) (i : Nat) (s : State) :
    (snapManifest p i s).kept = s.kept := by
  (unfold snapManifest; repeat' (first | with_reducible rfl | extract_lets | split | simp +zetaDelta only [↓State.kept_mk, State.kept_eq, ↓foldl_kept, ↓ite_kept, ↓State.holderTake_kept, ↓State.holderTake_vDram, ↓State.tryCommit_frame, ↓State.setHeld_frame, ↓State.putBytes_frame, ite_self, and_self, implies_true]))

theorem rideData_frame (p : PartId) (i : Nat) (s : State) :
    (rideData p i s).kept = s.kept := by
  (unfold rideData; repeat' (first | with_reducible rfl | extract_lets | split | simp +zetaDelta only [↓State.kept_mk, State.kept_eq, ↓foldl_kept, ↓ite_kept, ↓State.holderTake_kept, ↓State.holderTake_vDram, ↓State.placePiece_frame, ↓State.tryCommit_frame, ↓State.sendSn_frame, ite_self, and_self, implies_true]))

theorem snapSeal_frame (p : PartId) (i : Nat) (s : State) :
    (snapSeal p i s).kept = s.kept := by
  (unfold snapSeal; repeat' (first | with_reducible rfl | extract_lets | split | simp +zetaDelta only [↓State.kept_mk, State.kept_eq, ↓foldl_kept, ↓ite_kept, ↓State.dropRx_frame, ↓State.tryCommit_frame, ↓State.setHeld_frame, ite_self, and_self, implies_true]))

theorem snapFetch_frame (p : PartId) (i : Nat) (s : State) :
    (snapFetch p i s).kept = s.kept ∧ (snapFetch p i s).vDram = s.vDram := by
  refine ⟨?_, ?_⟩ <;> (unfold snapFetch; repeat' (first | with_reducible rfl | extract_lets | split | simp +zetaDelta only [↓State.kept_mk, State.kept_eq, ↓foldl_kept, ↓ite_kept, ↓State.vDram_mk, State.vDram_eq, ↓foldl_vDram, ↓ite_vDram, ↓State.dropRx_frame, ↓State.sendCtl_frame, ↓State.setHeld_frame, ↓State.sendPieces_frame, ite_self, and_self, implies_true]))

theorem State.flashTake_frame (s : State) (p : Nat) (f : FlashRun) (h : Sn) (bs : List Byte) :
    (State.flashTake s p f h bs).kept.queue = s.kept.queue ∧ (State.flashTake s p f h bs).kept.layout = s.kept.layout ∧ (State.flashTake s p f h bs).kept.far = s.kept.far ∧ (State.flashTake s p f h bs).kept.meter = s.kept.meter := by
  refine ⟨?_, ?_, ?_, ?_⟩ <;> (unfold State.flashTake; repeat' (first | with_reducible rfl | extract_lets | split | simp +zetaDelta only [↓State.kept_mk, State.queue_eq, State.layout_eq, State.far_eq, State.flash_eq, State.meter_eq, ↓foldl_queue, ↓foldl_layout, ↓foldl_far, ↓foldl_flash, ↓foldl_meter, ↓ite_kept, ↓State.modJob_frame, ↓State.setFlash_frame, ↓State.openFlash_frame, ↓State.logError_frame, ↓State.setCatEntry_frame, ↓State.dropFlash_frame, ite_self, and_self, implies_true]))

theorem State.restoreTake_frame (s : State) (p : Nat) (r : Restore) (h : Sn) (bs : List Byte) :
    (State.restoreTake s p r h bs).kept = s.kept := by
  (unfold State.restoreTake; repeat' (first | with_reducible rfl | extract_lets | split | simp +zetaDelta only [↓State.kept_mk, State.kept_eq, ↓foldl_kept, ↓ite_kept, ↓State.modJob_frame, ↓State.putBytes_frame, ite_self, and_self, implies_true]))

theorem fetchData_frame (p : PartId) (i : Nat) (s : State) :
    (fetchData p i s).kept.queue = s.kept.queue ∧ (fetchData p i s).kept.layout = s.kept.layout ∧ (fetchData p i s).kept.far = s.kept.far ∧ (fetchData p i s).kept.meter = s.kept.meter := by
  refine ⟨?_, ?_, ?_, ?_⟩ <;> (unfold fetchData; repeat' (first | with_reducible rfl | extract_lets | split | simp +zetaDelta only [↓State.kept_mk, State.queue_eq, State.layout_eq, State.far_eq, State.flash_eq, State.meter_eq, ↓foldl_queue, ↓foldl_layout, ↓foldl_far, ↓foldl_flash, ↓foldl_meter, ↓ite_kept, ↓State.dropRx_frame, ↓State.restoreTake_frame, ↓State.flashTake_frame, ite_self, and_self, implies_true]))

theorem fetchEnd_frame (p : PartId) (i : Nat) (s : State) :
    (fetchEnd p i s).kept = s.kept := by
  (unfold fetchEnd; repeat' (first | with_reducible rfl | extract_lets | split | simp +zetaDelta only [↓State.kept_mk, State.kept_eq, ↓foldl_kept, ↓ite_kept, ↓State.dropRx_frame, ↓State.modJob_frame, ↓State.skipSnap_frame, ↓State.dropFlash_frame, ite_self, and_self, implies_true]))

theorem flashWriteComplete_frame (p : PartId) (s : State) :
    (flashWriteComplete p s).kept.queue = s.kept.queue ∧ (flashWriteComplete p s).kept.layout = s.kept.layout ∧ (flashWriteComplete p s).kept.far = s.kept.far ∧ (flashWriteComplete p s).kept.meter = s.kept.meter := by
  refine ⟨?_, ?_, ?_, ?_⟩ <;> (unfold flashWriteComplete; repeat' (first | with_reducible rfl | extract_lets | split | simp +zetaDelta only [↓State.kept_mk, State.queue_eq, State.layout_eq, State.far_eq, State.flash_eq, State.meter_eq, ↓foldl_queue, ↓foldl_layout, ↓foldl_far, ↓foldl_flash, ↓foldl_meter, ↓ite_kept, ↓State.setFlash_frame, ↓State.openFlash_frame, ↓State.jobEvent_frame, ↓State.setCatEntry_frame, ↓State.modJob_frame, ↓State.beginSerge_frame, ite_self, and_self, implies_true]))

theorem sergeSegmentWrite_frame (p : PartId) (s : State) :
    (sergeSegmentWrite p s).kept = s.kept ∧ (sergeSegmentWrite p s).vDram = s.vDram := by
  refine ⟨?_, ?_⟩ <;> (unfold sergeSegmentWrite; repeat' (first | with_reducible rfl | extract_lets | split | simp +zetaDelta only [↓State.kept_mk, State.kept_eq, ↓foldl_kept, ↓ite_kept, ↓State.vDram_mk, State.vDram_eq, ↓foldl_vDram, ↓ite_vDram, ↓State.jobEvent_frame, ↓State.modJcp_frame, ite_self, and_self, implies_true]))

theorem fetchResend_frame (p : PartId) (s : State) :
    (fetchResend p s).kept = s.kept ∧ (fetchResend p s).vDram = s.vDram := by
  unfold fetchResend
  (repeat' split) <;> simp only [↓State.kept_mk, State.kept_eq, ↓foldl_kept, ↓ite_kept, ↓State.vDram_mk, State.vDram_eq, ↓foldl_vDram, ↓ite_vDram, ↓State.sendCtl_frame, ↓State.modJob_frame, ite_self, and_self, implies_true]

theorem rejoin_frame (p : PartId) (i : Nat) (s : State) :
    (rejoin p i s).kept = s.kept ∧ (rejoin p i s).vDram = s.vDram := by
  unfold rejoin
  (repeat' split) <;> simp only [↓State.kept_mk, State.kept_eq, ↓foldl_kept, ↓ite_kept, ↓State.vDram_mk, State.vDram_eq, ↓foldl_vDram, ↓ite_vDram, ↓State.dropRx_frame, ↓State.sendCtl_frame, ↓State.modJob_frame, ite_self, and_self, implies_true]

theorem rejoinLate_frame (p : PartId) (i : Nat) (s : State) :
    (rejoinLate p i s).kept = s.kept ∧ (rejoinLate p i s).vDram = s.vDram := by
  unfold rejoinLate
  (repeat' split) <;> simp only [↓State.kept_mk, State.kept_eq, ↓foldl_kept, ↓ite_kept, ↓State.vDram_mk, State.vDram_eq, ↓foldl_vDram, ↓ite_vDram, ↓State.dropRx_frame, ↓State.rejoinNow_frame, ↓State.modJob_frame, ite_self, and_self, implies_true]

theorem State.beginRestore_frame (s : State) (p : Nat) (r : Restore) (muslin : Option HeaderArea) :
    (s.beginRestore p r muslin).kept = s.kept := by
  unfold State.beginRestore
  split
  · simp only [↓State.modJob_frame, ↓State.programFault_frame, and_self]
  · rename_i s1 h
    have a : s1.kept = s.kept := by
      split at h
      · exact State.reselectFor_frame s s1 p _ h
      · cases h; simp only [and_self]
    extract_lets good
    clear_value good
    split
    · simpa only [↓State.modJob_frame] using a
    · split
      · simpa only [↓State.failRestore_frame] using a
      · extract_lets slot
        simpa only [↓State.sendCtl_frame, ↓State.modJob_frame] using a

theorem State.endRestore_frame (s : State) (p : Nat) (r : Restore) (flashSig : Option (List Byte)) (serge : Option SergeCopy) :
    (s.endRestore p r flashSig serge).kept = s.kept := by
  unfold State.endRestore
  extract_lets id slot flash store good pages m fail
  have b : ∀ i, (fail i).kept = s.kept := by
    intro i; simp only [fail, ↓State.failRestore_frame, ↓State.logError_frame, and_self]
  split
  · exact b 0
  · split
    · simp only [↓State.failRestore_frame, and_self]
    · split
      · exact b _
      · rename_i s1 h
        have a := State.restorePages_frame s s1 p _ _ _ _ _ h
        simpa only [↓State.modJob_frame] using a

theorem snapRestore_frame (p : PartId) (muslin : Option HeaderArea) (flashSig : Option (List Byte)) (serge : Option SergeCopy) (s : State) :
    (snapRestore p muslin flashSig serge s).kept = s.kept := by
  (unfold snapRestore; repeat' (first | with_reducible rfl | extract_lets | split | simp +zetaDelta only [↓State.kept_mk, State.kept_eq, ↓foldl_kept, ↓ite_kept, ↓State.beginRestore_frame, ↓State.endRestore_frame, ite_self, and_self, implies_true]))

theorem State.restoreRoutes_frame (s : State) (p : Nat) (page0 : Nat) (step : BitVec 64) :
    (State.restoreRoutes s p page0 step).kept = s.kept := by
  simp only [State.restoreRoutes, ↓State.kept_mk, State.kept_eq, ↓foldl_kept, ↓ite_kept, ↓State.modLinkDies_frame, ↓State.loadRoutes_frame, ↓State.setGs_frame, ite_self, and_self, implies_true]

theorem State.rebroadcast_frame (s : State) (p : Nat) (step : BitVec 64) :
    (State.rebroadcast s p step).kept = s.kept ∧ (State.rebroadcast s p step).vDram = s.vDram := by
  refine ⟨?_, ?_⟩ <;> (unfold State.rebroadcast; repeat' (first | with_reducible rfl | extract_lets | with_reducible refine (foldl_kept _ (fun a x => ?_) _ _).trans ?_ | with_reducible refine (foldl_vDram _ (fun a x => ?_) _ _).trans ?_ | with_reducible refine both_kept _ _ _ _ ?_ ?_ | with_reducible refine both_vDram _ _ _ _ ?_ ?_ | split | simp +zetaDelta only [id_eq, ↓State.kept_mk, State.kept_eq, ↓foldl_kept, ↓ite_kept, ↓State.vDram_mk, State.vDram_eq, ↓foldl_vDram, ↓ite_vDram, ↓State.broadcast_frame, ite_self, and_self, implies_true]))

theorem restoreComplete_frame (p : PartId) (s : State) :
    (restoreComplete p s).kept = s.kept := by
  (unfold restoreComplete; repeat' (first | with_reducible rfl | extract_lets | split | simp +zetaDelta only [↓State.kept_mk, State.kept_eq, ↓foldl_kept, ↓ite_kept, ↓State.clearReduction_frame, ↓State.openOwned_frame, ↓State.modCoresOf_frame, ↓State.setStep_frame, ↓State.rebroadcast_frame, ↓State.restoreRoutes_frame, ↓State.modPart_frame, ↓State.postJobNat_frame, ↓State.setCatEntry_frame, ↓State.retryAllFar_frame, ↓State.clearFar_frame, ↓State.retryCmds_frame, ↓State.jobEvent_frame, ↓State.clearTarget_frame, ↓State.setCatHold_frame, ↓State.modJob_frame, ite_self, and_self, implies_true]))

end Sys2Proof.Machine
end

