-- ==== Sys2Proof/Laws/FrameControl.lean ====
section
/-! SUPPORT. What the definitions of updates, tests, resets, power, the meter and the registers leave alone: one lemma per definition that answers a state. -/

namespace Sys2Proof.Machine

set_option linter.all false

theorem State.postNotice_frame (s : State) (n : MgmtNotice) :
    (State.postNotice s n).kept = s.kept ∧ (State.postNotice s n).vDram = s.vDram := by
  simp only [State.postNotice, ↓State.kept_mk, State.kept_eq, ↓foldl_kept, ↓ite_kept, ↓State.vDram_mk, State.vDram_eq, ↓foldl_vDram, ↓ite_vDram, ↓State.modEvent_frame, ite_self, and_self, implies_true]

theorem State.resetJob_frame (s : State) (r : Reach) (src : Nat) :
    (State.resetJob s r src).kept = s.kept := by
  unfold State.resetJob
  (repeat' split) <;> simp only [↓State.kept_mk, State.kept_eq, ↓foldl_kept, ↓ite_kept, ↓State.abandonFlash_frame, ↓State.clearReduction_frame, ↓State.abandonPart_frame, ↓State.logError_frame, ↓State.modJob_frame, ↓State.failJob_frame, ↓State.dropEpoch_frame, ↓State.hwError_frame, ite_self, and_self, implies_true]

theorem State.settleQuiesced_frame (s : State) :
    (State.settleQuiesced s).kept = s.kept ∧ (State.settleQuiesced s).vDram = s.vDram := by
  simp only [State.settleQuiesced, ↓State.kept_mk, State.kept_eq, ↓foldl_kept, ↓ite_kept, ↓State.vDram_mk, State.vDram_eq, ↓foldl_vDram, ↓ite_vDram, ite_self, and_self, implies_true]

theorem State.abortTests_frame (s : State) (r : Reach) :
    (State.abortTests s r).kept = s.kept ∧ (State.abortTests s r).vDram = s.vDram := by
  simp only [State.abortTests, ↓State.kept_mk, State.kept_eq, ↓foldl_kept, ↓ite_kept, ↓State.vDram_mk, State.vDram_eq, ↓foldl_vDram, ↓ite_vDram, ↓State.logError_frame, ↓State.settleQuiesced_frame, ite_self, and_self, implies_true]

theorem State.repeatTests_frame (s : State) (l : List Test) (idx : Option (BitVec 32)) :
    (State.repeatTests s l idx).kept = s.kept ∧ (State.repeatTests s l idx).vDram = s.vDram := by
  simp only [State.repeatTests, ↓State.kept_mk, State.kept_eq, ↓foldl_kept, ↓ite_kept, ↓State.vDram_mk, State.vDram_eq, ↓foldl_vDram, ↓ite_vDram, ↓State.schedule_frame, ite_self, and_self, implies_true]

theorem State.resetUnits_frame (s : State) (r : Reach) :
    (State.resetUnits s r).kept = s.kept ∧ (State.resetUnits s r).vDram = s.vDram := by
  simp only [State.resetUnits, ↓State.kept_mk, State.kept_eq, ↓foldl_kept, ↓ite_kept, ↓State.vDram_mk, State.vDram_eq, ↓foldl_vDram, ↓ite_vDram, ite_self, and_self, implies_true]

theorem State.resetHub_frame (s : State) (mgmt : Bool) :
    (State.resetHub s mgmt).kept.queue = s.kept.queue ∧ (State.resetHub s mgmt).kept.far = s.kept.far ∧ (State.resetHub s mgmt).kept.flash = s.kept.flash ∧ (State.resetHub s mgmt).kept.meter = s.kept.meter ∧ (State.resetHub s mgmt).vDram = s.vDram := by
  simp only [State.resetHub, ↓State.kept_mk, State.queue_eq, State.layout_eq, State.far_eq, State.flash_eq, State.meter_eq, ↓foldl_queue, ↓foldl_layout, ↓foldl_far, ↓foldl_flash, ↓foldl_meter, ↓ite_kept, ↓State.vDram_mk, State.vDram_eq, ↓foldl_vDram, ↓ite_vDram, ite_self, and_self, implies_true]

theorem State.markReset_frame (s : State) (r : Reach) :
    (State.markReset s r).kept = s.kept ∧ (State.markReset s r).vDram = s.vDram := by
  simp only [State.markReset, ↓State.kept_mk, State.kept_eq, ↓foldl_kept, ↓ite_kept, ↓State.vDram_mk, State.vDram_eq, ↓foldl_vDram, ↓ite_vDram, ite_self, and_self, implies_true]

theorem State.loseDram_frame (s : State) (r : Reach) :
    (State.loseDram s r).kept = s.kept ∧ (State.loseDram s r).vDram = s.vDram := by
  simp only [State.loseDram, ↓State.kept_mk, State.kept_eq, ↓foldl_kept, ↓ite_kept, ↓State.vDram_mk, State.vDram_eq, ↓foldl_vDram, ↓ite_vDram, ite_self, and_self, implies_true]

theorem State.applyReset_frame (s : State) (r : Reach) (src : Nat) :
    (State.applyReset s r src).kept.queue = s.kept.queue ∧ (State.applyReset s r src).kept.far = s.kept.far ∧ (State.applyReset s r src).kept.flash = s.kept.flash ∧ (State.applyReset s r src).kept.meter = s.kept.meter := by
  unfold State.applyReset
  (repeat' split) <;> simp only [↓State.kept_mk, State.queue_eq, State.layout_eq, State.far_eq, State.flash_eq, State.meter_eq, ↓foldl_queue, ↓foldl_layout, ↓foldl_far, ↓foldl_flash, ↓foldl_meter, ↓ite_kept, ↓State.abortTests_frame, ↓State.resetJob_frame, ↓State.discardRecord_frame, ↓State.loseDram_frame, ↓State.resetUnits_frame, ↓State.markReset_frame, ↓State.resetHub_frame, ↓State.repeatTests_frame, ite_self, and_self, implies_true]

theorem State.setRst_frame (s : State) (x : RstRegs) :
    (State.setRst s x).kept = s.kept ∧ (State.setRst s x).vDram = s.vDram := by
  simp only [State.setRst, ↓State.kept_mk, State.kept_eq, ↓foldl_kept, ↓ite_kept, ↓State.vDram_mk, State.vDram_eq, ↓foldl_vDram, ↓ite_vDram, ite_self, and_self, implies_true]

theorem State.stampReset_frame (s : State) (e : Episode) :
    (State.stampReset s e).kept = s.kept ∧ (State.stampReset s e).vDram = s.vDram := by
  simp only [State.stampReset, ↓State.kept_mk, State.kept_eq, ↓foldl_kept, ↓ite_kept, ↓State.vDram_mk, State.vDram_eq, ↓foldl_vDram, ↓ite_vDram, ↓State.setRst_frame, ite_self, and_self, implies_true]

theorem State.assertReset_frame (s : State) (src : RstSource) (r : Reach) :
    (State.assertReset s src r).kept.queue = s.kept.queue ∧ (State.assertReset s src r).kept.far = s.kept.far ∧ (State.assertReset s src r).kept.flash = s.kept.flash ∧ (State.assertReset s src r).kept.meter = s.kept.meter := by
  refine ⟨?_, ?_, ?_, ?_⟩ <;> (unfold State.assertReset; repeat' (first | with_reducible rfl | extract_lets | split | simp +zetaDelta only [↓State.kept_mk, State.queue_eq, State.layout_eq, State.far_eq, State.flash_eq, State.meter_eq, ↓foldl_queue, ↓foldl_layout, ↓foldl_far, ↓foldl_flash, ↓foldl_meter, ↓ite_kept, ↓State.setRst_frame, ↓State.stampReset_frame, ↓State.applyReset_frame, ite_self, and_self, implies_true]))

theorem State.setEpisode_frame (s : State) (old : Episode) (new : Option Episode) :
    (State.setEpisode s old new).kept = s.kept ∧ (State.setEpisode s old new).vDram = s.vDram := by
  simp only [State.setEpisode, ↓State.kept_mk, State.kept_eq, ↓foldl_kept, ↓ite_kept, ↓State.vDram_mk, State.vDram_eq, ↓foldl_vDram, ↓ite_vDram, ↓State.setRst_frame, ite_self, and_self, implies_true]

theorem State.enterPhase_frame (s : State) (e : Episode) (x : RstPhase) :
    (State.enterPhase s e x).kept = s.kept ∧ (State.enterPhase s e x).vDram = s.vDram := by
  simp only [State.enterPhase, ↓State.kept_mk, State.kept_eq, ↓foldl_kept, ↓ite_kept, ↓State.vDram_mk, State.vDram_eq, ↓foldl_vDram, ↓ite_vDram, ↓State.setEpisode_frame, ↓State.setRst_frame, ite_self, and_self, implies_true]

theorem State.beginExit_frame (s : State) (e : Episode) :
    (State.beginExit s e).kept = s.kept ∧ (State.beginExit s e).vDram = s.vDram := by
  simp only [State.beginExit, ↓State.kept_mk, State.kept_eq, ↓foldl_kept, ↓ite_kept, ↓State.vDram_mk, State.vDram_eq, ↓foldl_vDram, ↓ite_vDram, ↓State.enterPhase_frame, ite_self, and_self, implies_true]

theorem State.clearRecords_frame (s : State) :
    (State.clearRecords s).kept = s.kept ∧ (State.clearRecords s).vDram = s.vDram := by
  simp only [State.clearRecords, ↓State.kept_mk, State.kept_eq, ↓foldl_kept, ↓ite_kept, ↓State.vDram_mk, State.vDram_eq, ↓foldl_vDram, ↓ite_vDram, ite_self, and_self, implies_true]

theorem State.restamp_frame (s : State) :
    (State.restamp s).kept = s.kept ∧ (State.restamp s).vDram = s.vDram := by
  simp only [State.restamp, ↓State.kept_mk, State.kept_eq, ↓foldl_kept, ↓ite_kept, ↓State.vDram_mk, State.vDram_eq, ↓foldl_vDram, ↓ite_vDram, ↓State.stampReset_frame, ite_self, and_self, implies_true]

theorem State.releaseReset_frame (s : State) (src : RstSource) (r : Reach) :
    (State.releaseReset s src r).kept = s.kept ∧ (State.releaseReset s src r).vDram = s.vDram := by
  unfold State.releaseReset
  (repeat' split) <;> simp only [↓State.kept_mk, State.kept_eq, ↓foldl_kept, ↓ite_kept, ↓State.vDram_mk, State.vDram_eq, ↓foldl_vDram, ↓ite_vDram, ↓State.setEpisode_frame, ↓State.beginExit_frame, ite_self, and_self, implies_true]

theorem State.finishActivation_frame (s : State) :
    (State.finishActivation s).kept = s.kept ∧ (State.finishActivation s).vDram = s.vDram := by
  unfold State.finishActivation
  (repeat' split) <;> simp only [↓State.kept_mk, State.kept_eq, ↓foldl_kept, ↓ite_kept, ↓State.vDram_mk, State.vDram_eq, ↓foldl_vDram, ↓ite_vDram, ↓State.settleQuiesced_frame, ite_self, and_self, implies_true]

theorem State.reenter_frame (s : State) (p : Nat) :
    (State.reenter s p).kept = s.kept ∧ (State.reenter s p).vDram = s.vDram := by
  simp only [State.reenter, ↓State.kept_mk, State.kept_eq, ↓foldl_kept, ↓ite_kept, ↓State.vDram_mk, State.vDram_eq, ↓foldl_vDram, ↓ite_vDram, ↓State.modPart_frame, ite_self, and_self, implies_true]

theorem State.endEpisode_frame (s : State) (e : Episode) :
    (State.endEpisode s e).kept = s.kept := by
  simp only [State.endEpisode, ↓State.kept_mk, State.kept_eq, ↓foldl_kept, ↓ite_kept, ↓State.openGates_frame, ↓State.finishActivation_frame, ↓State.setEpisode_frame, ↓State.retryCmds_frame, ↓State.reenter_frame, ite_self, and_self, implies_true]

theorem powerOn_frame (v12 : InputVolts) (s : State) :
    (powerOn v12 s).kept.queue = s.kept.queue ∧ (powerOn v12 s).kept.far = s.kept.far ∧ (powerOn v12 s).kept.flash = s.kept.flash := by
  refine ⟨?_, ?_, ?_⟩ <;> (unfold powerOn; repeat' (first | with_reducible rfl | extract_lets | split | simp +zetaDelta only [↓State.kept_mk, State.queue_eq, State.layout_eq, State.far_eq, State.flash_eq, State.meter_eq, ↓foldl_queue, ↓foldl_layout, ↓foldl_far, ↓foldl_flash, ↓foldl_meter, ↓ite_kept, ↓State.assertReset_frame, ↓State.setRst_frame, ite_self, and_self, implies_true]))

theorem brownOut_frame (x : Input48) (s : State) :
    (brownOut x s).kept.queue = s.kept.queue ∧ (brownOut x s).kept.far = s.kept.far ∧ (brownOut x s).kept.flash = s.kept.flash ∧ (brownOut x s).kept.meter = s.kept.meter := by
  refine ⟨?_, ?_, ?_, ?_⟩ <;> (unfold brownOut; repeat' (first | with_reducible rfl | extract_lets | split | simp +zetaDelta only [↓State.kept_mk, State.queue_eq, State.layout_eq, State.far_eq, State.flash_eq, State.meter_eq, ↓foldl_queue, ↓foldl_layout, ↓foldl_far, ↓foldl_flash, ↓foldl_meter, ↓ite_kept, ↓State.assertReset_frame, ite_self, and_self, implies_true]))

theorem State.drawn_frame (s : State) :
    (State.drawn s).kept = s.kept ∧ (State.drawn s).vDram = s.vDram := by
  simp only [State.drawn, ↓State.kept_mk, State.kept_eq, ↓foldl_kept, ↓ite_kept, ↓State.vDram_mk, State.vDram_eq, ↓foldl_vDram, ↓ite_vDram, ite_self, and_self, implies_true]

theorem State.markHubWake_frame (s : State) (was : Bool) :
    (State.markHubWake s was).kept = s.kept ∧ (State.markHubWake s was).vDram = s.vDram := by
  simp only [State.markHubWake, ↓State.kept_mk, State.kept_eq, ↓foldl_kept, ↓ite_kept, ↓State.vDram_mk, State.vDram_eq, ↓foldl_vDram, ↓ite_vDram, ↓State.setRst_frame, ite_self, and_self, implies_true]

theorem mrstN_frame (lowNs : Nat) (s : State) :
    (mrstN lowNs s).kept.queue = s.kept.queue ∧ (mrstN lowNs s).kept.far = s.kept.far ∧ (mrstN lowNs s).kept.flash = s.kept.flash ∧ (mrstN lowNs s).kept.meter = s.kept.meter := by
  unfold mrstN
  (repeat' split) <;> simp only [↓State.kept_mk, State.queue_eq, State.layout_eq, State.far_eq, State.flash_eq, State.meter_eq, ↓foldl_queue, ↓foldl_layout, ↓foldl_far, ↓foldl_flash, ↓foldl_meter, ↓ite_kept, ↓State.markHubWake_frame, ↓State.assertReset_frame, ↓State.drawn_frame, ite_self, and_self, implies_true]

theorem watchdogExpire_frame (u : Fin 39) (cycles : Nat) (s : State) :
    (watchdogExpire u cycles s).kept.queue = s.kept.queue ∧ (watchdogExpire u cycles s).kept.far = s.kept.far ∧ (watchdogExpire u cycles s).kept.flash = s.kept.flash ∧ (watchdogExpire u cycles s).kept.meter = s.kept.meter := by
  refine ⟨?_, ?_, ?_, ?_⟩ <;> (unfold watchdogExpire; repeat' (first | with_reducible rfl | extract_lets | split | simp +zetaDelta only [↓State.kept_mk, State.queue_eq, State.layout_eq, State.far_eq, State.flash_eq, State.meter_eq, ↓foldl_queue, ↓foldl_layout, ↓foldl_far, ↓foldl_flash, ↓foldl_meter, ↓ite_kept, ↓State.setRst_frame, ↓State.assertReset_frame, ite_self, and_self, implies_true]))

theorem watchdogRestart_frame (u : Fin 39) (s : State) :
    (watchdogRestart u s).kept = s.kept ∧ (watchdogRestart u s).vDram = s.vDram := by
  simp only [watchdogRestart, ↓State.kept_mk, State.kept_eq, ↓foldl_kept, ↓ite_kept, ↓State.vDram_mk, State.vDram_eq, ↓foldl_vDram, ↓ite_vDram, ↓State.setRst_frame, ite_self, and_self, implies_true]

theorem rstSwRequest_frame (r : SwRequest) (s : State) :
    (rstSwRequest r s).kept.queue = s.kept.queue ∧ (rstSwRequest r s).kept.far = s.kept.far ∧ (rstSwRequest r s).kept.flash = s.kept.flash ∧ (rstSwRequest r s).kept.meter = s.kept.meter := by
  refine ⟨?_, ?_, ?_, ?_⟩ <;> (unfold rstSwRequest; repeat' (first | with_reducible rfl | extract_lets | split | simp +zetaDelta only [↓State.kept_mk, State.queue_eq, State.layout_eq, State.far_eq, State.flash_eq, State.meter_eq, ↓foldl_queue, ↓foldl_layout, ↓foldl_far, ↓foldl_flash, ↓foldl_meter, ↓ite_kept, ↓State.assertReset_frame, ite_self, and_self, implies_true]))

theorem State.haltCtl_frame (s : State) (k : Nat) (on : Bool) :
    (State.haltCtl s k on).kept = s.kept ∧ (State.haltCtl s k on).vDram = s.vDram := by
  simp only [State.haltCtl, ↓State.kept_mk, State.kept_eq, ↓foldl_kept, ↓ite_kept, ↓State.vDram_mk, State.vDram_eq, ↓foldl_vDram, ↓ite_vDram, ↓State.setRst_frame, ↓State.retarget_frame, ite_self, and_self, implies_true]

theorem debugRequest_frame (r : DbgRequest) (s : State) :
    (debugRequest r s).kept.queue = s.kept.queue ∧ (debugRequest r s).kept.far = s.kept.far ∧ (debugRequest r s).kept.flash = s.kept.flash ∧ (debugRequest r s).kept.meter = s.kept.meter := by
  refine ⟨?_, ?_, ?_, ?_⟩ <;> (unfold debugRequest; repeat' (first | with_reducible rfl | extract_lets | split | simp +zetaDelta only [↓State.kept_mk, State.queue_eq, State.layout_eq, State.far_eq, State.flash_eq, State.meter_eq, ↓foldl_queue, ↓foldl_layout, ↓foldl_far, ↓foldl_flash, ↓foldl_meter, ↓ite_kept, ↓State.assertReset_frame, ↓State.drawn_frame, ↓State.setRst_frame, ↓State.haltCtl_frame, ite_self, and_self, implies_true]))

theorem trstN_frame (low : Bool) (s : State) :
    (trstN low s).kept = s.kept ∧ (trstN low s).vDram = s.vDram := by
  simp only [trstN, ↓State.kept_mk, State.kept_eq, ↓foldl_kept, ↓ite_kept, ↓State.vDram_mk, State.vDram_eq, ↓foldl_vDram, ↓ite_vDram, ↓State.setRst_frame, ite_self, and_self, implies_true]

theorem State.refclkFails_frame (s : State) (unsent : List (Fin 16 × CtxKey)) :
    (State.refclkFails s unsent).kept = s.kept := by
  simp only [State.refclkFails, ↓State.kept_mk, State.kept_eq, ↓foldl_kept, ↓ite_kept, ↓functionLevelReset_frame, ↓State.setRst_frame, ite_self, and_self, implies_true]

theorem clockFailure_frame (c : ClockSource) (unsent : List (Fin 16 × CtxKey)) (s : State) :
    (clockFailure c unsent s).kept.queue = s.kept.queue ∧ (clockFailure c unsent s).kept.far = s.kept.far ∧ (clockFailure c unsent s).kept.flash = s.kept.flash ∧ (clockFailure c unsent s).kept.meter = s.kept.meter := by
  refine ⟨?_, ?_, ?_, ?_⟩ <;> (unfold clockFailure; repeat' (first | with_reducible rfl | extract_lets | split | simp +zetaDelta only [↓State.kept_mk, State.queue_eq, State.layout_eq, State.far_eq, State.flash_eq, State.meter_eq, ↓foldl_queue, ↓foldl_layout, ↓foldl_far, ↓foldl_flash, ↓foldl_meter, ↓ite_kept, ↓State.assertReset_frame, ↓State.refclkFails_frame, ite_self, and_self, implies_true]))

theorem refclkReturn_frame (s : State) :
    (refclkReturn s).kept = s.kept ∧ (refclkReturn s).vDram = s.vDram := by
  simp only [refclkReturn, ↓State.kept_mk, State.kept_eq, ↓foldl_kept, ↓ite_kept, ↓State.vDram_mk, State.vDram_eq, ↓foldl_vDram, ↓ite_vDram, ↓State.setRst_frame, ite_self, and_self, implies_true]

theorem controlCoreLockup_frame (u : Fin 78) (s : State) :
    (controlCoreLockup u s).kept.queue = s.kept.queue ∧ (controlCoreLockup u s).kept.far = s.kept.far ∧ (controlCoreLockup u s).kept.flash = s.kept.flash ∧ (controlCoreLockup u s).kept.meter = s.kept.meter := by
  refine ⟨?_, ?_, ?_, ?_⟩ <;> (unfold controlCoreLockup; repeat' (first | with_reducible rfl | extract_lets | split | simp +zetaDelta only [↓State.kept_mk, State.queue_eq, State.layout_eq, State.far_eq, State.flash_eq, State.meter_eq, ↓foldl_queue, ↓foldl_layout, ↓foldl_far, ↓foldl_flash, ↓foldl_meter, ↓ite_kept, ↓State.assertReset_frame, ite_self, and_self, implies_true]))

theorem sourceRelease_frame (src : RstSource) (r : Reach) (x : InputPair) (s : State) :
    (sourceRelease src r x s).kept.queue = s.kept.queue ∧ (sourceRelease src r x s).kept.far = s.kept.far ∧ (sourceRelease src r x s).kept.flash = s.kept.flash ∧ (sourceRelease src r x s).kept.meter = s.kept.meter := by
  unfold sourceRelease
  (repeat' split) <;> simp only [↓State.kept_mk, State.queue_eq, State.layout_eq, State.far_eq, State.flash_eq, State.meter_eq, ↓foldl_queue, ↓foldl_layout, ↓foldl_far, ↓foldl_flash, ↓foldl_meter, ↓ite_kept, ↓State.clearRecords_frame, ↓State.setRst_frame, ↓State.assertReset_frame, ↓State.releaseReset_frame, ↓State.restamp_frame, ite_self, and_self, implies_true]

theorem managementStart_frame (s : State) :
    (managementStart s).kept = s.kept ∧ (managementStart s).vDram = s.vDram := by
  simp only [managementStart, ↓State.kept_mk, State.kept_eq, ↓foldl_kept, ↓ite_kept, ↓State.vDram_mk, State.vDram_eq, ↓foldl_vDram, ↓ite_vDram, ↓State.setRst_frame, ite_self, and_self, implies_true]

theorem clockStart_frame (r : Reach) (s : State) :
    (clockStart r s).kept = s.kept ∧ (clockStart r s).vDram = s.vDram := by
  unfold clockStart
  (repeat' split) <;> simp only [↓State.kept_mk, State.kept_eq, ↓foldl_kept, ↓ite_kept, ↓State.vDram_mk, State.vDram_eq, ↓foldl_vDram, ↓ite_vDram, ↓State.enterPhase_frame, ite_self, and_self, implies_true]

theorem strapSample_frame (boot : BitVec 2) (clk : BitVec 2) (s : State) :
    (strapSample boot clk s).kept = s.kept ∧ (strapSample boot clk s).vDram = s.vDram := by
  unfold strapSample
  (repeat' split) <;> simp only [↓State.kept_mk, State.kept_eq, ↓foldl_kept, ↓ite_kept, ↓State.vDram_mk, State.vDram_eq, ↓foldl_vDram, ↓ite_vDram, ↓State.setRst_frame, ↓State.enterPhase_frame, ite_self, and_self, implies_true]

theorem State.takeTrims_frame (s : State) (p : Nat → Bool) :
    (State.takeTrims s p).kept = s.kept ∧ (State.takeTrims s p).vDram = s.vDram := by
  simp only [State.takeTrims, ↓State.kept_mk, State.kept_eq, ↓foldl_kept, ↓ite_kept, ↓State.vDram_mk, State.vDram_eq, ↓foldl_vDram, ↓ite_vDram, ite_self, and_self, implies_true]

theorem optionLoading_frame (passes : Fin 3) (got : Bool) (s : State) :
    (optionLoading passes got s).kept = s.kept ∧ (optionLoading passes got s).vDram = s.vDram := by
  unfold optionLoading
  (repeat' split) <;> simp only [↓State.kept_mk, State.kept_eq, ↓foldl_kept, ↓ite_kept, ↓State.vDram_mk, State.vDram_eq, ↓foldl_vDram, ↓ite_vDram, ↓State.setRst_frame, ↓State.takeTrims_frame, ↓State.enterPhase_frame, ite_self, and_self, implies_true]

theorem State.scanFlash_frame (s : State) (reach : Nat) :
    (State.scanFlash s reach).kept = s.kept ∧ (State.scanFlash s reach).vDram = s.vDram := by
  refine ⟨?_, ?_⟩ <;> (unfold State.scanFlash; repeat' (first | with_reducible rfl | extract_lets | split | simp +zetaDelta only [↓State.kept_mk, State.kept_eq, ↓foldl_kept, ↓ite_kept, ↓State.vDram_mk, State.vDram_eq, ↓foldl_vDram, ↓ite_vDram, ↓State.reportSnap_frame, ite_self, and_self, implies_true]))

theorem State.scanSlots_frame (s : State) (reach : Nat) :
    (State.scanSlots s reach).kept = s.kept ∧ (State.scanSlots s reach).vDram = s.vDram := by
  unfold State.scanSlots
  (repeat' split) <;> simp only [↓State.kept_mk, State.kept_eq, ↓foldl_kept, ↓ite_kept, ↓State.vDram_mk, State.vDram_eq, ↓foldl_vDram, ↓ite_vDram, ↓State.setRst_frame, ite_self, and_self, implies_true]

theorem State.hubRuns_frame (s : State) (e : Episode) (i : FwImage) (src : BitVec 2) (trial : Bool) :
    (State.hubRuns s e i src trial).kept = s.kept ∧ (State.hubRuns s e i src trial).vDram = s.vDram := by
  simp only [State.hubRuns, ↓State.kept_mk, State.kept_eq, ↓foldl_kept, ↓ite_kept, ↓State.vDram_mk, State.vDram_eq, ↓foldl_vDram, ↓ite_vDram, ↓State.drawn_frame, ↓State.setRst_frame, ↓State.enterPhase_frame, ↓State.scanSlots_frame, ↓State.scanFlash_frame, ite_self, and_self, implies_true]

theorem State.bootWaits_frame (s : State) (e : Episode) (recovery : Bool) :
    (State.bootWaits s e recovery).kept = s.kept ∧ (State.bootWaits s e recovery).vDram = s.vDram := by
  simp only [State.bootWaits, ↓State.kept_mk, State.kept_eq, ↓foldl_kept, ↓ite_kept, ↓State.vDram_mk, State.vDram_eq, ↓foldl_vDram, ↓ite_vDram, ↓State.setRst_frame, ↓State.setEpisode_frame, ite_self, and_self, implies_true]

theorem State.bootFails_frame (s : State) (code : Nat) (check : Option Nat) (b : SigBlock) :
    (State.bootFails s code check b).kept = s.kept ∧ (State.bootFails s code check b).vDram = s.vDram := by
  simp only [State.bootFails, ↓State.kept_mk, State.kept_eq, ↓foldl_kept, ↓ite_kept, ↓State.vDram_mk, State.vDram_eq, ↓foldl_vDram, ↓ite_vDram, ↓State.authFailIf_frame, ↓State.setRst_frame, ite_self, and_self, implies_true]

theorem State.trialBoot_frame (s : State) :
    (State.trialBoot s).kept = s.kept ∧ (State.trialBoot s).vDram = s.vDram := by
  simp only [State.trialBoot, ↓State.kept_mk, State.kept_eq, ↓foldl_kept, ↓ite_kept, ↓State.vDram_mk, State.vDram_eq, ↓foldl_vDram, ↓ite_vDram, ↓State.setRst_frame, ite_self, and_self, implies_true]

theorem State.trySlot_frame (s : State) (e : Episode) (slot : Bool) (fallback : Bool) :
    (State.trySlot s e slot fallback).kept = s.kept ∧ (State.trySlot s e slot fallback).vDram = s.vDram := by
  refine ⟨?_, ?_⟩ <;> (unfold State.trySlot; repeat' (first | with_reducible rfl | extract_lets | split | simp +zetaDelta only [↓State.kept_mk, State.kept_eq, ↓foldl_kept, ↓ite_kept, ↓State.vDram_mk, State.vDram_eq, ↓foldl_vDram, ↓ite_vDram, ↓State.setRst_frame, ↓State.hubRuns_frame, ↓State.bootFails_frame, ↓State.setEpisode_frame, ↓State.bootWaits_frame, ite_self, and_self, implies_true]))

theorem hubStart_frame (s : State) :
    (hubStart s).kept = s.kept ∧ (hubStart s).vDram = s.vDram := by
  unfold hubStart
  (repeat' split) <;> simp only [↓State.kept_mk, State.kept_eq, ↓foldl_kept, ↓ite_kept, ↓State.vDram_mk, State.vDram_eq, ↓foldl_vDram, ↓ite_vDram, ↓State.setRst_frame, ↓State.bootFails_frame, ↓State.trialBoot_frame, ↓State.trySlot_frame, ↓State.bootWaits_frame, ite_self, and_self, implies_true]

theorem State.takeImage_frame (s : State) (x : FwSupply) (src : BitVec 2) :
    (s.takeImage x src).1.kept = s.kept ∧ (s.takeImage x src).1.vDram = s.vDram := by
  unfold State.takeImage
  split
  · simp [State.bootFails_frame]
  · split
    · split <;> simp [State.hubRuns_frame]
    · simp

theorem bootGo_frame (x : FwSupply) (s : State) :
    (bootGo x s).kept = s.kept ∧ (bootGo x s).vDram = s.vDram := by
  simp only [bootGo, ↓State.kept_mk, State.kept_eq, ↓foldl_kept, ↓ite_kept, ↓State.vDram_mk, State.vDram_eq, ↓foldl_vDram, ↓ite_vDram, ↓State.setRst_frame, ↓State.takeImage_frame, ite_self, and_self, implies_true]

theorem configurationRead_frame (x : ConfigNor) (s : State) :
    (configurationRead x s).kept = s.kept ∧ (configurationRead x s).vDram = s.vDram := by
  refine ⟨?_, ?_⟩ <;> (unfold configurationRead; repeat' (first | with_reducible rfl | extract_lets | split | simp +zetaDelta only [↓State.kept_mk, State.kept_eq, ↓foldl_kept, ↓ite_kept, ↓State.vDram_mk, State.vDram_eq, ↓foldl_vDram, ↓ite_vDram, ↓State.bootFails_frame, ↓State.setEpisode_frame, ↓State.bootWaits_frame, ↓State.setRst_frame, ↓State.logError_frame, ↓State.authFail_frame, ↓State.postNotice_frame, ↓State.enterPhase_frame, ite_self, and_self, implies_true]))

theorem State.wakeDram_frame (s : State) (t : Nat) :
    (State.wakeDram s t).kept = s.kept := by
  simp only [State.wakeDram, ↓State.kept_mk, State.kept_eq, ↓foldl_kept, ↓ite_kept, ite_self, and_self, implies_true]

theorem State.quadUp_frame (s : State) (q : Nat) :
    (State.quadUp s q).kept = s.kept ∧ (State.quadUp s q).vDram = s.vDram := by
  simp only [State.quadUp, ↓State.kept_mk, State.kept_eq, ↓foldl_kept, ↓ite_kept, ↓State.vDram_mk, State.vDram_eq, ↓foldl_vDram, ↓ite_vDram, ite_self, and_self, implies_true]

theorem bringUp_frame (d : Fin 36) (s : State) :
    (bringUp d s).kept = s.kept := by
  unfold bringUp
  (repeat' split) <;> simp only [↓State.kept_mk, State.kept_eq, ↓foldl_kept, ↓ite_kept, ↓State.setEpisode_frame, ↓State.takeTrims_frame, ↓State.wakeDram_frame, ↓State.quadUp_frame, ↓State.enterPhase_frame, ↓State.endEpisode_frame, ite_self, and_self, implies_true]

theorem islandExit_frame (i : Island) (s : State) :
    (islandExit i s).kept = s.kept := by
  unfold islandExit
  (repeat' split) <;> simp only [↓State.kept_mk, State.kept_eq, ↓foldl_kept, ↓ite_kept, ↓State.setChan_frame, ↓State.endEpisode_frame, ↓State.takeTrims_frame, ite_self, and_self, implies_true]

theorem moduleReady_frame (c0 : Option (Fin 2097153)) (c1 : Option (Fin 2097153)) (s : State) :
    (moduleReady c0 c1 s).kept = s.kept := by
  (unfold moduleReady; repeat' (first | with_reducible rfl | extract_lets | split | simp +zetaDelta only [↓State.kept_mk, State.kept_eq, ↓foldl_kept, ↓ite_kept, ↓State.setCxlPort_frame, ↓State.endEpisode_frame, ite_self, and_self, implies_true]))

theorem recSnapAck_frame (s : State) :
    (recSnapAck s).kept.queue = s.kept.queue ∧ (recSnapAck s).kept.layout = s.kept.layout ∧ (recSnapAck s).kept.far = s.kept.far ∧ (recSnapAck s).kept.meter = s.kept.meter ∧ (recSnapAck s).vDram = s.vDram := by
  unfold recSnapAck
  (repeat' split) <;> simp only [↓State.kept_mk, State.queue_eq, State.layout_eq, State.far_eq, State.flash_eq, State.meter_eq, ↓foldl_queue, ↓foldl_layout, ↓foldl_far, ↓foldl_flash, ↓foldl_meter, ↓ite_kept, ↓State.vDram_mk, State.vDram_eq, ↓foldl_vDram, ↓ite_vDram, ↓State.setRst_frame, ↓State.setFlash_frame, ite_self, and_self, implies_true]

theorem State.disableUnit_frame (s : State) (x : UnitRef) :
    (State.disableUnit s x).kept = s.kept ∧ (State.disableUnit s x).vDram = s.vDram := by
  unfold State.disableUnit
  (repeat' split) <;> simp only [↓State.kept_mk, State.kept_eq, ↓foldl_kept, ↓ite_kept, ↓State.vDram_mk, State.vDram_eq, ↓foldl_vDram, ↓ite_vDram, ↓State.modCore_frame, ↓State.dropPort_frame, ↓State.quietDown_frame, ite_self, and_self, implies_true]

theorem State.prepare_frame (s : State) (t : Test) :
    (State.prepare s t).kept = s.kept := by
  unfold State.prepare
  (repeat' split) <;> simp only [↓State.kept_mk, State.kept_eq, ↓foldl_kept, ↓ite_kept, ↓State.modCore_frame, ↓State.modPort_frame, ↓State.moveFrame_frame, ite_self, and_self, implies_true]

theorem State.closeGatesIn_frame (s : State) (qs : List Nat) :
    (State.closeGatesIn s qs).kept = s.kept ∧ (State.closeGatesIn s qs).vDram = s.vDram := by
  simp only [State.closeGatesIn, ↓State.kept_mk, State.kept_eq, ↓foldl_kept, ↓ite_kept, ↓State.vDram_mk, State.vDram_eq, ↓foldl_vDram, ↓ite_vDram, ↓State.setGate_frame, ite_self, and_self, implies_true]

theorem State.nextHalf_frame (s : State) (x : UnitRef) :
    (State.nextHalf s x).kept = s.kept ∧ (State.nextHalf s x).vDram = s.vDram := by
  simp only [State.nextHalf, ↓State.kept_mk, State.kept_eq, ↓foldl_kept, ↓ite_kept, ↓State.vDram_mk, State.vDram_eq, ↓foldl_vDram, ↓ite_vDram, ↓State.modPort_frame, ite_self, and_self, implies_true]

theorem ginghamTest_frame (cl : Fin 39) (s : State) :
    (ginghamTest cl s).kept = s.kept := by
  unfold ginghamTest
  (repeat' split) <;> simp only [↓State.kept_mk, State.kept_eq, ↓foldl_kept, ↓ite_kept, ↓State.nextHalf_frame, ↓State.setFrame_frame, ↓State.disableUnit_frame, ↓State.prepare_frame, ↓State.closeGatesIn_frame, ↓State.settleQuiesced_frame, ite_self, and_self, implies_true]

theorem State.holdNotReady_frame (s : State) :
    (State.holdNotReady s).kept = s.kept ∧ (State.holdNotReady s).vDram = s.vDram := by
  simp only [State.holdNotReady, ↓State.kept_mk, State.kept_eq, ↓foldl_kept, ↓ite_kept, ↓State.vDram_mk, State.vDram_eq, ↓foldl_vDram, ↓ite_vDram, ite_self, and_self, implies_true]

theorem State.askReselect_frame (s : State) (kind : Nat) (index : Nat) (idx : BitVec 32) :
    (State.askReselect s kind index idx).kept = s.kept ∧ (State.askReselect s kind index idx).vDram = s.vDram := by
  unfold State.askReselect
  (repeat' split) <;> simp only [↓State.kept_mk, State.kept_eq, ↓foldl_kept, ↓ite_kept, ↓State.vDram_mk, State.vDram_eq, ↓foldl_vDram, ↓ite_vDram, ↓State.modJob_frame, ite_self, and_self, implies_true]

theorem State.putFence_frame (s : State) (i : Nat) (kind : Nat) (index : Nat) (code : BitVec 16) (cause : Nat) (part : Option Nat) :
    (State.putFence s i kind index code cause part).kept = s.kept ∧ (State.putFence s i kind index code cause part).vDram = s.vDram := by
  simp only [State.putFence, ↓State.kept_mk, State.kept_eq, ↓foldl_kept, ↓ite_kept, ↓State.vDram_mk, State.vDram_eq, ↓foldl_vDram, ↓ite_vDram, ↓State.askReselect_frame, ↓State.logError_frame, ite_self, and_self, implies_true]

theorem State.fenceFull_frame (s : State) (kind : Nat) (index : Nat) (code : BitVec 16) (part : Option Nat) :
    (State.fenceFull s kind index code part).kept = s.kept ∧ (State.fenceFull s kind index code part).vDram = s.vDram := by
  unfold State.fenceFull
  (repeat' split) <;> simp only [↓State.kept_mk, State.kept_eq, ↓foldl_kept, ↓ite_kept, ↓State.vDram_mk, State.vDram_eq, ↓foldl_vDram, ↓ite_vDram, ↓State.holdNotReady_frame, ↓State.putFence_frame, ite_self, and_self, implies_true]

theorem State.fence_frame (s : State) (kind : Nat) (index : Nat) (code : BitVec 16) (cause : Nat) (part : Option Nat) :
    (State.fence s kind index code cause part).kept = s.kept ∧ (State.fence s kind index code cause part).vDram = s.vDram := by
  unfold State.fence
  (repeat' split) <;> simp only [↓State.kept_mk, State.kept_eq, ↓foldl_kept, ↓ite_kept, ↓State.vDram_mk, State.vDram_eq, ↓foldl_vDram, ↓ite_vDram, ↓State.putFence_frame, ↓State.fenceFull_frame, ite_self, and_self, implies_true]

theorem State.fenceArea_frame (s : State) (q : Nat) :
    (State.fenceArea s q).kept = s.kept ∧ (State.fenceArea s q).vDram = s.vDram := by
  simp only [State.fenceArea, ↓State.kept_mk, State.kept_eq, ↓foldl_kept, ↓ite_kept, ↓State.vDram_mk, State.vDram_eq, ↓foldl_vDram, ↓ite_vDram, ↓State.modJob_frame, ↓State.abandonFlash_frame, ite_self, and_self, implies_true]

theorem State.fenceUnit_frame (s : State) (kind : Nat) (index : Nat) (code : BitVec 16) (cause : Nat) (part : Option Nat) :
    (State.fenceUnit s kind index code cause part).kept = s.kept := by
  simp only [State.fenceUnit, ↓State.kept_mk, State.kept_eq, ↓foldl_kept, ↓ite_kept, ↓State.fence_frame, ↓State.vacate_frame, ↓State.fenceArea_frame, ite_self, and_self, implies_true]

theorem State.lasting_frame (s : State) (t : Test) (cause : Nat) (addr : Nat) (code : Bool) :
    (State.lasting s t cause addr code).kept = s.kept := by
  (unfold State.lasting; repeat' (first | with_reducible rfl | extract_lets | split | simp +zetaDelta only [↓State.kept_mk, State.kept_eq, ↓foldl_kept, ↓ite_kept, ↓State.logError_frame, ↓State.holdNotReady_frame, ↓State.fenceUnit_frame, ite_self, and_self, implies_true]))

theorem State.restoreUnit_frame (s : State) (t : Test) :
    (State.restoreUnit s t).kept = s.kept ∧ (State.restoreUnit s t).vDram = s.vDram := by
  unfold State.restoreUnit
  (repeat' split) <;> simp only [↓State.kept_mk, State.kept_eq, ↓foldl_kept, ↓ite_kept, ↓State.vDram_mk, State.vDram_eq, ↓foldl_vDram, ↓ite_vDram, ↓State.modCore_frame, ↓State.returnPort_frame, ↓State.modPort_frame, ite_self, and_self, implies_true]

theorem State.comesBack_frame (s : State) (x : UnitRef) :
    (State.comesBack s x).kept = s.kept ∧ (State.comesBack s x).vDram = s.vDram := by
  refine ⟨?_, ?_⟩ <;> (unfold State.comesBack; repeat' (first | with_reducible rfl | extract_lets | split | simp +zetaDelta only [↓State.kept_mk, State.kept_eq, ↓foldl_kept, ↓ite_kept, ↓State.vDram_mk, State.vDram_eq, ↓foldl_vDram, ↓ite_vDram, ite_self, and_self, implies_true]))

theorem State.afterTest_frame (s : State) (t : Test) :
    (State.afterTest s t).kept = s.kept := by
  unfold State.afterTest
  (repeat' split) <;> simp only [↓State.kept_mk, State.kept_eq, ↓foldl_kept, ↓ite_kept, ↓State.retryCmds_frame, ↓State.rejoinNow_frame, ↓State.retarget_frame, ite_self, and_self, implies_true]

theorem ginghamTestComplete_frame (cl : Fin 39) (e : TestEnd) (s : State) :
    (ginghamTestComplete cl e s).kept = s.kept := by
  (unfold ginghamTestComplete; repeat' (first | with_reducible rfl | extract_lets | split | simp +zetaDelta only [↓State.kept_mk, State.kept_eq, ↓foldl_kept, ↓ite_kept, ↓State.openGates_frame, ↓State.restoreUnit_frame, ↓State.settleQuiesced_frame, ↓State.comesBack_frame, ↓State.logError_frame, ↓State.lasting_frame, ↓State.drawn_frame, ↓State.afterTest_frame, ite_self, and_self, implies_true]))

theorem State.ceStorm_frame (s : State) (kind : Nat) (unit : Nat) (n : Nat) (part : Nat) :
    (State.ceStorm s kind unit n part).kept = s.kept ∧ (State.ceStorm s kind unit n part).vDram = s.vDram := by
  simp only [State.ceStorm, ↓State.kept_mk, State.kept_eq, ↓foldl_kept, ↓ite_kept, ↓State.vDram_mk, State.vDram_eq, ↓foldl_vDram, ↓ite_vDram, ↓State.schedule_frame, ↓State.logError_frame, ite_self, and_self, implies_true]

theorem cePoll_frame (t : TowerId) (coreNow : List Nat) (chanNow : List Nat) (s : State) :
    (cePoll t coreNow chanNow s).kept = s.kept ∧ (cePoll t coreNow chanNow s).vDram = s.vDram := by
  simp only [cePoll, ↓State.kept_mk, State.kept_eq, ↓foldl_kept, ↓ite_kept, ↓State.vDram_mk, State.vDram_eq, ↓foldl_vDram, ↓ite_vDram, ↓State.ceStorm_frame, ↓State.modCore_frame, ↓State.setChan_frame, ↓State.retarget_frame, ite_self, and_self, implies_true]

theorem suppressionWindowExpire_frame (cl : Fin 39) (s : State) :
    (suppressionWindowExpire cl s).kept = s.kept ∧ (suppressionWindowExpire cl s).vDram = s.vDram := by
  simp only [suppressionWindowExpire, ↓State.kept_mk, State.kept_eq, ↓foldl_kept, ↓ite_kept, ↓State.vDram_mk, State.vDram_eq, ↓foldl_vDram, ↓ite_vDram, ↓State.writeRecord_frame, ite_self, and_self, implies_true]

theorem ghReq_frame (key : BitVec 8) (kind : BitVec 4) (unit : BitVec 12) (s : State) :
    (ghReq key kind unit s).kept = s.kept ∧ (ghReq key kind unit s).vDram = s.vDram := by
  refine ⟨?_, ?_⟩ <;> (unfold ghReq; repeat' (first | with_reducible rfl | extract_lets | split | simp +zetaDelta only [↓State.kept_mk, State.kept_eq, ↓foldl_kept, ↓ite_kept, ↓State.vDram_mk, State.vDram_eq, ↓foldl_vDram, ↓ite_vDram, ↓State.schedule_frame, ↓State.drawn_frame, ↓State.retarget_frame, ite_self, and_self, implies_true]))

theorem ghClrCounts_frame (s : State) :
    (ghClrCounts s).kept = s.kept ∧ (ghClrCounts s).vDram = s.vDram := by
  simp only [ghClrCounts, ↓State.kept_mk, State.kept_eq, ↓foldl_kept, ↓ite_kept, ↓State.vDram_mk, State.vDram_eq, ↓foldl_vDram, ↓ite_vDram, ite_self, and_self, implies_true]

theorem fenceAdd_frame (key : BitVec 8) (s : State) :
    (fenceAdd key s).kept = s.kept := by
  simp only [fenceAdd, ↓State.kept_mk, State.kept_eq, ↓foldl_kept, ↓ite_kept, ↓State.fenceUnit_frame, ite_self, and_self, implies_true]

theorem fenceRemove_frame (key : BitVec 8) (i : Fin 512) (s : State) :
    (fenceRemove key i s).kept = s.kept ∧ (fenceRemove key i s).vDram = s.vDram := by
  refine ⟨?_, ?_⟩ <;> (unfold fenceRemove; repeat' (first | with_reducible rfl | extract_lets | split | simp +zetaDelta only [↓State.kept_mk, State.kept_eq, ↓foldl_kept, ↓ite_kept, ↓State.vDram_mk, State.vDram_eq, ↓foldl_vDram, ↓ite_vDram, ↓State.logError_frame, ↓State.schedule_frame, ↓State.retarget_frame, ite_self, and_self, implies_true]))

theorem State.setMeter_frame (s : State) (m : Meter) :
    (State.setMeter s m).kept.queue = s.kept.queue ∧ (State.setMeter s m).kept.layout = s.kept.layout ∧ (State.setMeter s m).kept.far = s.kept.far ∧ (State.setMeter s m).kept.flash = s.kept.flash ∧ (State.setMeter s m).vDram = s.vDram := by
  simp only [State.setMeter, ↓State.kept_mk, State.queue_eq, State.layout_eq, State.far_eq, State.flash_eq, State.meter_eq, ↓foldl_queue, ↓foldl_layout, ↓foldl_far, ↓foldl_flash, ↓foldl_meter, ↓ite_kept, ↓State.vDram_mk, State.vDram_eq, ↓foldl_vDram, ↓ite_vDram, ite_self, and_self, implies_true]

theorem State.answer_frame (s : State) (code : Nat) (tag : BitVec 16) (payload : List Byte) :
    (State.answer s code tag payload).kept = s.kept ∧ (State.answer s code tag payload).vDram = s.vDram := by
  simp only [State.answer, ↓State.kept_mk, State.kept_eq, ↓foldl_kept, ↓ite_kept, ↓State.vDram_mk, State.vDram_eq, ↓foldl_vDram, ↓ite_vDram, ite_self, and_self, implies_true]

theorem State.endSigning_frame (s : State) (x : MeterSigning) :
    (State.endSigning s x).kept.queue = s.kept.queue ∧ (State.endSigning s x).kept.layout = s.kept.layout ∧ (State.endSigning s x).kept.far = s.kept.far ∧ (State.endSigning s x).kept.flash = s.kept.flash ∧ (State.endSigning s x).vDram = s.vDram := by
  refine ⟨?_, ?_, ?_, ?_, ?_⟩ <;> (unfold State.endSigning; repeat' (first | with_reducible rfl | extract_lets | split | simp +zetaDelta only [↓State.kept_mk, State.queue_eq, State.layout_eq, State.far_eq, State.flash_eq, State.meter_eq, ↓foldl_queue, ↓foldl_layout, ↓foldl_far, ↓foldl_flash, ↓foldl_meter, ↓ite_kept, ↓State.vDram_mk, State.vDram_eq, ↓foldl_vDram, ↓ite_vDram, ↓State.setMeter_frame, ↓State.answer_frame, ite_self, and_self, implies_true]))

theorem State.meterTick_frame (s : State) :
    (State.meterTick s).kept.queue = s.kept.queue ∧ (State.meterTick s).kept.layout = s.kept.layout ∧ (State.meterTick s).kept.far = s.kept.far ∧ (State.meterTick s).kept.flash = s.kept.flash ∧ (State.meterTick s).vDram = s.vDram := by
  refine ⟨?_, ?_, ?_, ?_, ?_⟩ <;> (unfold State.meterTick; repeat' (first | with_reducible rfl | extract_lets | split | simp +zetaDelta only [↓State.kept_mk, State.queue_eq, State.layout_eq, State.far_eq, State.flash_eq, State.meter_eq, ↓foldl_queue, ↓foldl_layout, ↓foldl_far, ↓foldl_flash, ↓foldl_meter, ↓ite_kept, ↓State.vDram_mk, State.vDram_eq, ↓foldl_vDram, ↓ite_vDram, ↓State.setMeter_frame, ↓State.endSigning_frame, ite_self, and_self, implies_true]))

theorem meterSample_frame (ch12 : Bool) (v : BitVec 16) (i : BitVec 16) (selfFail : Bool) (s : State) :
    (meterSample ch12 v i selfFail s).kept.queue = s.kept.queue ∧ (meterSample ch12 v i selfFail s).kept.layout = s.kept.layout ∧ (meterSample ch12 v i selfFail s).kept.far = s.kept.far ∧ (meterSample ch12 v i selfFail s).kept.flash = s.kept.flash ∧ (meterSample ch12 v i selfFail s).vDram = s.vDram := by
  refine ⟨?_, ?_, ?_, ?_, ?_⟩ <;> (unfold meterSample; repeat' (first | with_reducible rfl | extract_lets | split | simp +zetaDelta only [↓State.kept_mk, State.queue_eq, State.layout_eq, State.far_eq, State.flash_eq, State.meter_eq, ↓foldl_queue, ↓foldl_layout, ↓foldl_far, ↓foldl_flash, ↓foldl_meter, ↓ite_kept, ↓State.vDram_mk, State.vDram_eq, ↓foldl_vDram, ↓ite_vDram, ↓State.setMeter_frame, ↓State.meterTick_frame, ite_self, and_self, implies_true]))

theorem meterBroadcast_frame (s : State) :
    (meterBroadcast s).kept.queue = s.kept.queue ∧ (meterBroadcast s).kept.layout = s.kept.layout ∧ (meterBroadcast s).kept.far = s.kept.far ∧ (meterBroadcast s).kept.flash = s.kept.flash ∧ (meterBroadcast s).vDram = s.vDram := by
  refine ⟨?_, ?_, ?_, ?_, ?_⟩ <;> (unfold meterBroadcast; repeat' (first | with_reducible rfl | extract_lets | split | simp +zetaDelta only [↓State.kept_mk, State.queue_eq, State.layout_eq, State.far_eq, State.flash_eq, State.meter_eq, ↓foldl_queue, ↓foldl_layout, ↓foldl_far, ↓foldl_flash, ↓foldl_meter, ↓ite_kept, ↓State.vDram_mk, State.vDram_eq, ↓foldl_vDram, ↓ite_vDram, ↓State.setMeter_frame, ite_self, and_self, implies_true]))

theorem State.cutResponse_frame (s : State) (cut : Option Nat) :
    (State.cutResponse s cut).kept = s.kept ∧ (State.cutResponse s cut).vDram = s.vDram := by
  refine ⟨?_, ?_⟩ <;> (unfold State.cutResponse; repeat' (first | with_reducible rfl | extract_lets | split | simp +zetaDelta only [↓State.kept_mk, State.kept_eq, ↓foldl_kept, ↓ite_kept, ↓State.vDram_mk, State.vDram_eq, ↓foldl_vDram, ↓ite_vDram, ite_self, and_self, implies_true]))

theorem holdupCommit_frame (ok : Bool) (cut : Option Nat) (s : State) :
    (holdupCommit ok cut s).kept.queue = s.kept.queue ∧ (holdupCommit ok cut s).kept.layout = s.kept.layout ∧ (holdupCommit ok cut s).kept.far = s.kept.far ∧ (holdupCommit ok cut s).kept.flash = s.kept.flash ∧ (holdupCommit ok cut s).vDram = s.vDram := by
  refine ⟨?_, ?_, ?_, ?_, ?_⟩ <;> (unfold holdupCommit; repeat' (first | with_reducible rfl | extract_lets | split | simp +zetaDelta only [↓State.kept_mk, State.queue_eq, State.layout_eq, State.far_eq, State.flash_eq, State.meter_eq, ↓foldl_queue, ↓foldl_layout, ↓foldl_far, ↓foldl_flash, ↓foldl_meter, ↓ite_kept, ↓State.vDram_mk, State.vDram_eq, ↓foldl_vDram, ↓ite_vDram, ↓State.setMeter_frame, ↓State.cutResponse_frame, ite_self, and_self, implies_true]))

theorem meterStart_frame (fwSum : BitVec 256) (s : State) :
    (meterStart fwSum s).kept.queue = s.kept.queue ∧ (meterStart fwSum s).kept.layout = s.kept.layout ∧ (meterStart fwSum s).kept.far = s.kept.far ∧ (meterStart fwSum s).kept.flash = s.kept.flash ∧ (meterStart fwSum s).vDram = s.vDram := by
  refine ⟨?_, ?_, ?_, ?_, ?_⟩ <;> (unfold meterStart; repeat' (first | with_reducible rfl | extract_lets | split | simp +zetaDelta only [↓State.kept_mk, State.queue_eq, State.layout_eq, State.far_eq, State.flash_eq, State.meter_eq, ↓foldl_queue, ↓foldl_layout, ↓foldl_far, ↓foldl_flash, ↓foldl_meter, ↓ite_kept, ↓State.vDram_mk, State.vDram_eq, ↓foldl_vDram, ↓ite_vDram, ↓State.setMeter_frame, ite_self, and_self, implies_true]))

theorem sealBroken_frame (s : State) :
    (sealBroken s).kept.queue = s.kept.queue ∧ (sealBroken s).kept.layout = s.kept.layout ∧ (sealBroken s).kept.far = s.kept.far ∧ (sealBroken s).kept.flash = s.kept.flash ∧ (sealBroken s).vDram = s.vDram := by
  refine ⟨?_, ?_, ?_, ?_, ?_⟩ <;> (unfold sealBroken; repeat' (first | with_reducible rfl | extract_lets | split | simp +zetaDelta only [↓State.kept_mk, State.queue_eq, State.layout_eq, State.far_eq, State.flash_eq, State.meter_eq, ↓foldl_queue, ↓foldl_layout, ↓foldl_far, ↓foldl_flash, ↓foldl_meter, ↓ite_kept, ↓State.vDram_mk, State.vDram_eq, ↓foldl_vDram, ↓ite_vDram, ↓State.setMeter_frame, ite_self, and_self, implies_true]))

theorem State.onPort_keep {γ : Type} (q : Kept → γ) (s : State) (tag : BitVec 16) (f : State → State)
    (h : ∀ a, q (f a).kept = q a.kept) : q (State.onPort s tag f).kept = q s.kept := by
  unfold State.onPort
  split
  · rfl
  · split
    · simp only [↓State.answer_frame]
    · exact h s

theorem State.onPort_kept (s : State) (tag : BitVec 16) (f : State → State) (h : ∀ a, (f a).kept = a.kept) :
    (State.onPort s tag f).kept = s.kept := State.onPort_keep id s tag f h

theorem State.onPort_vDram (s : State) (tag : BitVec 16) (f : State → State) (h : ∀ a, (f a).vDram = a.vDram) :
    (State.onPort s tag f).vDram = s.vDram := by
  unfold State.onPort
  split
  · rfl
  · split
    · simp only [↓State.answer_frame]
    · exact h s

theorem getInfo_frame (tag : BitVec 16) (s : State) :
    (getInfo tag s).kept = s.kept ∧ (getInfo tag s).vDram = s.vDram := by
  refine ⟨?_, ?_⟩ <;> (unfold getInfo; repeat' (first | with_reducible rfl | extract_lets | split | simp +zetaDelta only [↓State.kept_mk, State.kept_eq, ↓foldl_kept, ↓ite_kept, ↓State.vDram_mk, State.vDram_eq, ↓foldl_vDram, ↓ite_vDram, ↓State.onPort_kept, ↓State.onPort_vDram, ↓State.answer_frame, ite_self, and_self, implies_true]))

theorem meterRead_frame (tag : BitVec 16) (nonce : BitVec 256) (s : State) :
    (meterRead tag nonce s).kept.queue = s.kept.queue ∧ (meterRead tag nonce s).kept.layout = s.kept.layout ∧ (meterRead tag nonce s).kept.far = s.kept.far ∧ (meterRead tag nonce s).kept.flash = s.kept.flash ∧ (meterRead tag nonce s).vDram = s.vDram := by
  refine ⟨?_, ?_, ?_, ?_, ?_⟩
  · unfold meterRead; refine State.onPort_keep (·.queue) _ _ _ (fun a => ?_); (repeat' split) <;> simp only [↓State.answer_frame, ↓State.setMeter_frame]
  · unfold meterRead; refine State.onPort_keep (·.layout) _ _ _ (fun a => ?_); (repeat' split) <;> simp only [↓State.answer_frame, ↓State.setMeter_frame]
  · unfold meterRead; refine State.onPort_keep (·.far) _ _ _ (fun a => ?_); (repeat' split) <;> simp only [↓State.answer_frame, ↓State.setMeter_frame]
  · unfold meterRead; refine State.onPort_keep (·.flash) _ _ _ (fun a => ?_); (repeat' split) <;> simp only [↓State.answer_frame, ↓State.setMeter_frame]
  · unfold meterRead; refine State.onPort_vDram _ _ _ (fun a => ?_); (repeat' split) <;> simp only [↓State.answer_frame, ↓State.setMeter_frame]

theorem readLog_frame (tag : BitVec 16) (nonce : BitVec 256) (first : BitVec 32) (count : BitVec 8) (s : State) :
    (readLog tag nonce first count s).kept.queue = s.kept.queue ∧ (readLog tag nonce first count s).kept.layout = s.kept.layout ∧ (readLog tag nonce first count s).kept.far = s.kept.far ∧ (readLog tag nonce first count s).kept.flash = s.kept.flash ∧ (readLog tag nonce first count s).vDram = s.vDram := by
  refine ⟨?_, ?_, ?_, ?_, ?_⟩
  · unfold readLog; refine State.onPort_keep (·.queue) _ _ _ (fun a => ?_); (repeat' split) <;> simp only [↓State.answer_frame, ↓State.setMeter_frame]
  · unfold readLog; refine State.onPort_keep (·.layout) _ _ _ (fun a => ?_); (repeat' split) <;> simp only [↓State.answer_frame, ↓State.setMeter_frame]
  · unfold readLog; refine State.onPort_keep (·.far) _ _ _ (fun a => ?_); (repeat' split) <;> simp only [↓State.answer_frame, ↓State.setMeter_frame]
  · unfold readLog; refine State.onPort_keep (·.flash) _ _ _ (fun a => ?_); (repeat' split) <;> simp only [↓State.answer_frame, ↓State.setMeter_frame]
  · unfold readLog; refine State.onPort_vDram _ _ _ (fun a => ?_); (repeat' split) <;> simp only [↓State.answer_frame, ↓State.setMeter_frame]

theorem getCert_frame (tag : BitVec 16) (s : State) :
    (getCert tag s).kept = s.kept ∧ (getCert tag s).vDram = s.vDram := by
  refine ⟨?_, ?_⟩ <;> (unfold getCert; repeat' (first | with_reducible rfl | extract_lets | split | simp +zetaDelta only [↓State.kept_mk, State.kept_eq, ↓foldl_kept, ↓ite_kept, ↓State.vDram_mk, State.vDram_eq, ↓foldl_vDram, ↓ite_vDram, ↓State.onPort_kept, ↓State.onPort_vDram, ↓State.answer_frame, ite_self, and_self, implies_true]))

theorem meterError_frame (bs : List Byte) (s : State) :
    (meterError bs s).kept.queue = s.kept.queue ∧ (meterError bs s).kept.layout = s.kept.layout ∧ (meterError bs s).kept.far = s.kept.far ∧ (meterError bs s).kept.flash = s.kept.flash ∧ (meterError bs s).vDram = s.vDram := by
  refine ⟨?_, ?_, ?_, ?_, ?_⟩ <;> (unfold meterError; repeat' (first | with_reducible rfl | extract_lets | split | simp +zetaDelta only [↓State.kept_mk, State.queue_eq, State.layout_eq, State.far_eq, State.flash_eq, State.meter_eq, ↓foldl_queue, ↓foldl_layout, ↓foldl_far, ↓foldl_flash, ↓foldl_meter, ↓ite_kept, ↓State.vDram_mk, State.vDram_eq, ↓foldl_vDram, ↓ite_vDram, ↓State.answer_frame, ↓getInfo_frame, ↓meterRead_frame, ↓readLog_frame, ↓getCert_frame, ite_self, and_self, implies_true]))

theorem frameGapTimeout_frame (s : State) :
    (frameGapTimeout s).kept = s.kept ∧ (frameGapTimeout s).vDram = s.vDram := by
  simp only [frameGapTimeout, ↓State.kept_mk, State.kept_eq, ↓foldl_kept, ↓ite_kept, ↓State.vDram_mk, State.vDram_eq, ↓foldl_vDram, ↓ite_vDram, ite_self, and_self, implies_true]

theorem meterRecordReceive_frame (crcOk : Bool) (sigOk : Bool) (s : State) :
    (meterRecordReceive crcOk sigOk s).kept.queue = s.kept.queue ∧ (meterRecordReceive crcOk sigOk s).kept.layout = s.kept.layout ∧ (meterRecordReceive crcOk sigOk s).kept.far = s.kept.far ∧ (meterRecordReceive crcOk sigOk s).kept.flash = s.kept.flash ∧ (meterRecordReceive crcOk sigOk s).vDram = s.vDram := by
  unfold meterRecordReceive
  (repeat' split) <;> simp only [↓State.kept_mk, State.queue_eq, State.layout_eq, State.far_eq, State.flash_eq, State.meter_eq, ↓foldl_queue, ↓foldl_layout, ↓foldl_far, ↓foldl_flash, ↓foldl_meter, ↓ite_kept, ↓State.vDram_mk, State.vDram_eq, ↓foldl_vDram, ↓ite_vDram, ↓State.setMeter_frame, ↓State.postNotice_frame, ite_self, and_self, implies_true]

theorem meterStale_frame (ms : Nat) (s : State) :
    (meterStale ms s).kept = s.kept ∧ (meterStale ms s).vDram = s.vDram := by
  simp only [meterStale, ↓State.kept_mk, State.kept_eq, ↓foldl_kept, ↓ite_kept, ↓State.vDram_mk, State.vDram_eq, ↓foldl_vDram, ↓ite_vDram, ↓State.postNotice_frame, ite_self, and_self, implies_true]

theorem State.setPwr_frame (s : State) (x : Power) :
    (State.setPwr s x).kept = s.kept ∧ (State.setPwr s x).vDram = s.vDram := by
  simp only [State.setPwr, ↓State.kept_mk, State.kept_eq, ↓foldl_kept, ↓ite_kept, ↓State.vDram_mk, State.vDram_eq, ↓foldl_vDram, ↓ite_vDram, ite_self, and_self, implies_true]

theorem State.maybeHubOff_frame (s : State) :
    (State.maybeHubOff s).kept = s.kept ∧ (State.maybeHubOff s).vDram = s.vDram := by
  simp only [State.maybeHubOff, ↓State.kept_mk, State.kept_eq, ↓foldl_kept, ↓ite_kept, ↓State.vDram_mk, State.vDram_eq, ↓foldl_vDram, ↓ite_vDram, ite_self, and_self, implies_true]

theorem State.stopPart_frame (s : State) (p : Nat) :
    (State.stopPart s p).kept = s.kept ∧ (State.stopPart s p).vDram = s.vDram := by
  simp only [State.stopPart, ↓State.kept_mk, State.kept_eq, ↓foldl_kept, ↓ite_kept, ↓State.vDram_mk, State.vDram_eq, ↓foldl_vDram, ↓ite_vDram, ↓State.quietDown_frame, ite_self, and_self, implies_true]

theorem State.losePart_frame (s : State) (p : Nat) :
    (State.losePart s p).kept = s.kept ∧ (State.losePart s p).vDram = s.vDram := by
  simp only [State.losePart, ↓State.kept_mk, State.kept_eq, ↓foldl_kept, ↓ite_kept, ↓State.vDram_mk, State.vDram_eq, ↓foldl_vDram, ↓ite_vDram, ↓State.modPart_frame, ite_self, and_self, implies_true]

theorem State.joinPower_frame (s : State) (p : Nat) (from' : List PState) :
    (State.joinPower s p from').kept = s.kept ∧ (State.joinPower s p from').vDram = s.vDram := by
  simp only [State.joinPower, ↓State.kept_mk, State.kept_eq, ↓foldl_kept, ↓ite_kept, ↓State.vDram_mk, State.vDram_eq, ↓foldl_vDram, ↓ite_vDram, ↓State.stopPart_frame, ↓State.losePart_frame, ↓State.retarget_frame, ↓State.modPart_frame, ite_self, and_self, implies_true]

theorem partCfgWrite_frame (v : BitVec 8) (s : State) :
    (partCfgWrite v s).kept.queue = s.kept.queue ∧ (partCfgWrite v s).kept.far = s.kept.far ∧ (partCfgWrite v s).kept.flash = s.kept.flash ∧ (partCfgWrite v s).kept.meter = s.kept.meter ∧ (partCfgWrite v s).vDram = s.vDram := by
  refine ⟨?_, ?_, ?_, ?_, ?_⟩ <;> (unfold partCfgWrite; repeat' (first | with_reducible rfl | extract_lets | split | simp +zetaDelta only [↓State.kept_mk, State.queue_eq, State.layout_eq, State.far_eq, State.flash_eq, State.meter_eq, ↓foldl_queue, ↓foldl_layout, ↓foldl_far, ↓foldl_flash, ↓foldl_meter, ↓ite_kept, ↓State.vDram_mk, State.vDram_eq, ↓foldl_vDram, ↓ite_vDram, ↓State.setLead_frame, ↓State.joinPower_frame, ite_self, and_self, implies_true]))

theorem pstateEntryComplete_frame (p : PartId) (s : State) :
    (pstateEntryComplete p s).kept = s.kept ∧ (pstateEntryComplete p s).vDram = s.vDram := by
  unfold pstateEntryComplete
  (repeat' split) <;> simp only [↓State.kept_mk, State.kept_eq, ↓foldl_kept, ↓ite_kept, ↓State.vDram_mk, State.vDram_eq, ↓foldl_vDram, ↓ite_vDram, ↓State.stopPart_frame, ↓State.retryAllFar_frame, ↓State.losePart_frame, ↓State.modEvent_frame, ↓State.modPart_frame, ↓State.maybeHubOff_frame, ↓State.retarget_frame, ↓State.wakeFor_frame, ite_self, and_self, implies_true]

theorem bankPrechargeComplete_frame (b : Fin 5) (s : State) :
    (bankPrechargeComplete b s).kept = s.kept ∧ (bankPrechargeComplete b s).vDram = s.vDram := by
  simp only [bankPrechargeComplete, ↓State.kept_mk, State.kept_eq, ↓foldl_kept, ↓ite_kept, ↓State.vDram_mk, State.vDram_eq, ↓foldl_vDram, ↓ite_vDram, ite_self, and_self, implies_true]

theorem State.startPart_frame (s : State) (p : Nat) (lost : Bool) :
    (State.startPart s p lost).kept = s.kept := by
  simp only [State.startPart, ↓State.kept_mk, State.kept_eq, ↓foldl_kept, ↓ite_kept, ↓State.wakeDram_frame, ite_self, and_self, implies_true]

theorem State.wakeEpoch_frame (s : State) (p : Nat) :
    (State.wakeEpoch s p).kept = s.kept := by
  simp only [State.wakeEpoch, ↓State.kept_mk, State.kept_eq, ↓foldl_kept, ↓ite_kept, ↓State.rollbackHold_frame, ↓State.applyEpoch_frame, ↓State.drawn_frame, ↓State.modJob_frame, ite_self, and_self, implies_true]

theorem wakeComplete_frame (p : PartId) (s : State) :
    (wakeComplete p s).kept = s.kept := by
  simp only [wakeComplete, ↓State.kept_mk, State.kept_eq, ↓foldl_kept, ↓ite_kept, ↓State.startPart_frame, ↓State.modPart_frame, ↓State.modCoresOf_frame, ↓State.wakeEpoch_frame, ↓State.retarget_frame, ↓State.retryCmds_frame, ↓State.modEvent_frame, ite_self, and_self, implies_true]

theorem State.tripTower_frame (s : State) (t : Nat) (on : Bool) :
    (State.tripTower s t on).kept = s.kept ∧ (State.tripTower s t on).vDram = s.vDram := by
  simp only [State.tripTower, ↓State.kept_mk, State.kept_eq, ↓foldl_kept, ↓ite_kept, ↓State.vDram_mk, State.vDram_eq, ↓foldl_vDram, ↓ite_vDram, ite_self, and_self, implies_true]

theorem State.markClock_frame (s : State) (t : Nat) :
    (State.markClock s t).kept = s.kept ∧ (State.markClock s t).vDram = s.vDram := by
  simp only [State.markClock, ↓State.kept_mk, State.kept_eq, ↓foldl_kept, ↓ite_kept, ↓State.vDram_mk, State.vDram_eq, ↓foldl_vDram, ↓ite_vDram, ↓State.modCoresOf_frame, ite_self, and_self, implies_true]

theorem thermalEvaluation_frame (t : TowerId) (sensors : List (BitVec 8)) (power : Nat) (s : State) :
    (thermalEvaluation t sensors power s).kept = s.kept ∧ (thermalEvaluation t sensors power s).vDram = s.vDram := by
  simp only [thermalEvaluation, ↓State.kept_mk, State.kept_eq, ↓foldl_kept, ↓ite_kept, ↓State.vDram_mk, State.vDram_eq, ↓foldl_vDram, ↓ite_vDram, ↓State.setPwr_frame, ↓State.tripTower_frame, ↓State.modEvent_frame, ↓State.markClock_frame, ite_self, and_self, implies_true]

theorem State.setCap_frame (s : State) (capW : Nat) (coolant : Nat) :
    (State.setCap s capW coolant).kept = s.kept ∧ (State.setCap s capW coolant).vDram = s.vDram := by
  simp only [State.setCap, ↓State.kept_mk, State.kept_eq, ↓foldl_kept, ↓ite_kept, ↓State.vDram_mk, State.vDram_eq, ↓foldl_vDram, ↓ite_vDram, ↓State.setPwr_frame, ↓State.modEvent_frame, ite_self, and_self, implies_true]

theorem State.alarmTrip_frame (s : State) :
    (State.alarmTrip s).kept = s.kept ∧ (State.alarmTrip s).vDram = s.vDram := by
  simp only [State.alarmTrip, ↓State.kept_mk, State.kept_eq, ↓foldl_kept, ↓ite_kept, ↓State.vDram_mk, State.vDram_eq, ↓foldl_vDram, ↓ite_vDram, ↓State.modEvent_frame, ↓State.markClock_frame, ↓State.tripTower_frame, ↓State.setPwr_frame, ite_self, and_self, implies_true]

theorem coolantRead_frame (flow : BitVec 12) (inlet : BitVec 10) (outlet : BitVec 10) (v48 : BitVec 16) (i48 : BitVec 16) (v12 : BitVec 16) (i12 : BitVec 16) (s : State) :
    (coolantRead flow inlet outlet v48 i48 v12 i12 s).kept = s.kept ∧ (coolantRead flow inlet outlet v48 i48 v12 i12 s).vDram = s.vDram := by
  simp only [coolantRead, ↓State.kept_mk, State.kept_eq, ↓foldl_kept, ↓ite_kept, ↓State.vDram_mk, State.vDram_eq, ↓foldl_vDram, ↓ite_vDram, ↓State.setPwr_frame, ↓State.setCap_frame, ↓State.alarmTrip_frame, ite_self, and_self, implies_true]

theorem pwrCapWrite_frame (v : BitVec 16) (s : State) :
    (pwrCapWrite v s).kept = s.kept ∧ (pwrCapWrite v s).vDram = s.vDram := by
  simp only [pwrCapWrite, ↓State.kept_mk, State.kept_eq, ↓foldl_kept, ↓ite_kept, ↓State.vDram_mk, State.vDram_eq, ↓foldl_vDram, ↓ite_vDram, ↓State.setCap_frame, ite_self, and_self, implies_true]

theorem dieThermalTrip_frame (die : Option LinkDieId) (temp : BitVec 8) (s : State) :
    (dieThermalTrip die temp s).kept.queue = s.kept.queue ∧ (dieThermalTrip die temp s).kept.far = s.kept.far ∧ (dieThermalTrip die temp s).kept.flash = s.kept.flash ∧ (dieThermalTrip die temp s).kept.meter = s.kept.meter := by
  refine ⟨?_, ?_, ?_, ?_⟩ <;> (unfold dieThermalTrip; repeat' (first | with_reducible rfl | extract_lets | split | simp +zetaDelta only [↓State.kept_mk, State.queue_eq, State.layout_eq, State.far_eq, State.flash_eq, State.meter_eq, ↓foldl_queue, ↓foldl_layout, ↓foldl_far, ↓foldl_flash, ↓foldl_meter, ↓ite_kept, ↓State.setPwr_frame, ↓State.modEvent_frame, ↓klpEnable_frame, ↓State.assertReset_frame, ite_self, and_self, implies_true]))

theorem dieTripClear_frame (die : Option LinkDieId) (temp : BitVec 8) (s : State) :
    (dieTripClear die temp s).kept = s.kept ∧ (dieTripClear die temp s).vDram = s.vDram := by
  unfold dieTripClear
  (repeat' split) <;> simp only [↓State.kept_mk, State.kept_eq, ↓foldl_kept, ↓ite_kept, ↓State.vDram_mk, State.vDram_eq, ↓foldl_vDram, ↓ite_vDram, ↓State.setPwr_frame, ↓State.modEvent_frame, ite_self, and_self, implies_true]

theorem pwrCalGo_frame (key : BitVec 8) (go : Bool) (bytes : List Byte) (cut : Bool) (s : State) :
    (pwrCalGo key go bytes cut s).kept = s.kept ∧ (pwrCalGo key go bytes cut s).vDram = s.vDram := by
  refine ⟨?_, ?_⟩ <;> (unfold pwrCalGo; repeat' (first | with_reducible rfl | extract_lets | split | simp +zetaDelta only [↓State.kept_mk, State.kept_eq, ↓foldl_kept, ↓ite_kept, ↓State.vDram_mk, State.vDram_eq, ↓foldl_vDram, ↓ite_vDram, ↓State.setPwr_frame, ite_self, and_self, implies_true]))

theorem State.setFw_frame (s : State) (f : Firmware) :
    (State.setFw s f).kept = s.kept ∧ (State.setFw s f).vDram = s.vDram := by
  simp only [State.setFw, ↓State.kept_mk, State.kept_eq, ↓foldl_kept, ↓ite_kept, ↓State.vDram_mk, State.vDram_eq, ↓foldl_vDram, ↓ite_vDram, ite_self, and_self, implies_true]

theorem State.fwuDone_frame (s : State) (cmd : BitVec 4) :
    (State.fwuDone s cmd).kept = s.kept ∧ (State.fwuDone s cmd).vDram = s.vDram := by
  simp only [State.fwuDone, ↓State.kept_mk, State.kept_eq, ↓foldl_kept, ↓ite_kept, ↓State.vDram_mk, State.vDram_eq, ↓foldl_vDram, ↓ite_vDram, ↓State.setFw_frame, ite_self, and_self, implies_true]

theorem State.fwuRefuse_frame (s : State) (err : BitVec 16) :
    (State.fwuRefuse s err).kept = s.kept ∧ (State.fwuRefuse s err).vDram = s.vDram := by
  simp only [State.fwuRefuse, ↓State.kept_mk, State.kept_eq, ↓foldl_kept, ↓ite_kept, ↓State.vDram_mk, State.vDram_eq, ↓foldl_vDram, ↓ite_vDram, ↓State.setFw_frame, ite_self, and_self, implies_true]

theorem State.fwuRefuseFree_frame (s : State) :
    (State.fwuRefuseFree s).kept = s.kept ∧ (State.fwuRefuseFree s).vDram = s.vDram := by
  simp only [State.fwuRefuseFree, ↓State.kept_mk, State.kept_eq, ↓foldl_kept, ↓ite_kept, ↓State.vDram_mk, State.vDram_eq, ↓foldl_vDram, ↓ite_vDram, ↓State.fwuRefuse_frame, ↓State.drawn_frame, ite_self, and_self, implies_true]

theorem State.writeSlot_frame (s : State) (x : FwSupply) (len : Nat) (cut : Option SlotCut) :
    (State.writeSlot s x len cut).kept = s.kept ∧ (State.writeSlot s x len cut).vDram = s.vDram := by
  unfold State.writeSlot
  (repeat' split) <;> simp only [↓State.kept_mk, State.kept_eq, ↓foldl_kept, ↓ite_kept, ↓State.vDram_mk, State.vDram_eq, ↓foldl_vDram, ↓ite_vDram, ↓State.fwuRefuseFree_frame, ↓State.fwuRefuse_frame, ↓State.authFailIf_frame, ↓State.setFw_frame, ↓State.fwuDone_frame, ite_self, and_self, implies_true]

theorem writeSlot_frame (key : BitVec 8) (x : FwSupply) (cut : Option SlotCut) (s : State) :
    (writeSlot key x cut s).kept = s.kept ∧ (writeSlot key x cut s).vDram = s.vDram := by
  simp only [writeSlot, ↓State.kept_mk, State.kept_eq, ↓foldl_kept, ↓ite_kept, ↓State.vDram_mk, State.vDram_eq, ↓foldl_vDram, ↓ite_vDram, ↓State.writeSlot_frame, ite_self, and_self, implies_true]

theorem State.selectSlot_frame (s : State) :
    (State.selectSlot s).kept = s.kept ∧ (State.selectSlot s).vDram = s.vDram := by
  unfold State.selectSlot
  (repeat' split) <;> simp only [↓State.kept_mk, State.kept_eq, ↓foldl_kept, ↓ite_kept, ↓State.vDram_mk, State.vDram_eq, ↓foldl_vDram, ↓ite_vDram, ↓State.fwuRefuse_frame, ↓State.fwuDone_frame, ↓State.setFw_frame, ite_self, and_self, implies_true]

theorem fwuSelect_frame (key : BitVec 8) (s : State) :
    (fwuSelect key s).kept = s.kept ∧ (fwuSelect key s).vDram = s.vDram := by
  simp only [fwuSelect, ↓State.kept_mk, State.kept_eq, ↓foldl_kept, ↓ite_kept, ↓State.vDram_mk, State.vDram_eq, ↓foldl_vDram, ↓ite_vDram, ↓State.selectSlot_frame, ite_self, and_self, implies_true]

theorem fwuConfirm_frame (key : BitVec 8) (s : State) :
    (fwuConfirm key s).kept = s.kept ∧ (fwuConfirm key s).vDram = s.vDram := by
  simp only [fwuConfirm, ↓State.kept_mk, State.kept_eq, ↓foldl_kept, ↓ite_kept, ↓State.vDram_mk, State.vDram_eq, ↓foldl_vDram, ↓ite_vDram, ↓State.fwuRefuse_frame, ↓State.fwuDone_frame, ↓State.setFw_frame, ite_self, and_self, implies_true]

theorem svnCommit_frame (key : BitVec 8) (s : State) :
    (svnCommit key s).kept = s.kept ∧ (svnCommit key s).vDram = s.vDram := by
  simp only [svnCommit, ↓State.kept_mk, State.kept_eq, ↓foldl_kept, ↓ite_kept, ↓State.vDram_mk, State.vDram_eq, ↓foldl_vDram, ↓ite_vDram, ↓State.fwuRefuse_frame, ↓State.fwuDone_frame, ↓State.setFw_frame, ite_self, and_self, implies_true]

theorem State.mgmtWrite_frame (s : State) (x : FwSupply) (len : Nat) (cut : Option SlotCut) :
    (State.mgmtWrite s x len cut).kept = s.kept ∧ (State.mgmtWrite s x len cut).vDram = s.vDram := by
  refine ⟨?_, ?_⟩ <;> (unfold State.mgmtWrite; repeat' (first | with_reducible rfl | extract_lets | split | simp +zetaDelta only [↓State.kept_mk, State.kept_eq, ↓foldl_kept, ↓ite_kept, ↓State.vDram_mk, State.vDram_eq, ↓foldl_vDram, ↓ite_vDram, ↓State.fwuRefuseFree_frame, ↓State.fwuRefuse_frame, ↓State.authFailIf_frame, ↓State.setFw_frame, ↓State.fwuDone_frame, ite_self, and_self, implies_true]))

theorem mgmtWrite_frame (key : BitVec 8) (x : FwSupply) (cut : Option SlotCut) (s : State) :
    (mgmtWrite key x cut s).kept = s.kept ∧ (mgmtWrite key x cut s).vDram = s.vDram := by
  simp only [mgmtWrite, ↓State.kept_mk, State.kept_eq, ↓foldl_kept, ↓ite_kept, ↓State.vDram_mk, State.vDram_eq, ↓foldl_vDram, ↓ite_vDram, ↓State.mgmtWrite_frame, ite_self, and_self, implies_true]

theorem State.activateDie_frame (s : State) (d : Nat) (h : d < 36) :
    (State.activateDie s d h).kept.queue = s.kept.queue ∧ (State.activateDie s d h).kept.far = s.kept.far ∧ (State.activateDie s d h).kept.flash = s.kept.flash ∧ (State.activateDie s d h).kept.meter = s.kept.meter := by
  refine ⟨?_, ?_, ?_, ?_⟩ <;> (unfold State.activateDie; repeat' (first | with_reducible rfl | extract_lets | split | simp +zetaDelta only [↓State.kept_mk, State.queue_eq, State.layout_eq, State.far_eq, State.flash_eq, State.meter_eq, ↓foldl_queue, ↓foldl_layout, ↓foldl_far, ↓foldl_flash, ↓foldl_meter, ↓ite_kept, ↓State.setRst_frame, ↓State.applyReset_frame, ite_self, and_self, implies_true]))

theorem State.closeGatesOf_frame (s : State) (q : Nat) :
    (State.closeGatesOf s q).kept = s.kept ∧ (State.closeGatesOf s q).vDram = s.vDram := by
  simp only [State.closeGatesOf, ↓State.kept_mk, State.kept_eq, ↓foldl_kept, ↓ite_kept, ↓State.vDram_mk, State.vDram_eq, ↓foldl_vDram, ↓ite_vDram, ↓State.setGate_frame, ite_self, and_self, implies_true]

theorem activateQuad_frame (key : BitVec 8) (s : State) :
    (activateQuad key s).kept.queue = s.kept.queue ∧ (activateQuad key s).kept.far = s.kept.far ∧ (activateQuad key s).kept.flash = s.kept.flash ∧ (activateQuad key s).kept.meter = s.kept.meter := by
  refine ⟨?_, ?_, ?_, ?_⟩ <;> (unfold activateQuad; repeat' (first | with_reducible rfl | extract_lets | with_reducible refine (foldl_queue _ (fun a x => ?_) _ _).trans ?_ | with_reducible refine (foldl_far _ (fun a x => ?_) _ _).trans ?_ | with_reducible refine (foldl_flash _ (fun a x => ?_) _ _).trans ?_ | with_reducible refine (foldl_meter _ (fun a x => ?_) _ _).trans ?_ | split | simp +zetaDelta only [id_eq, ↓State.kept_mk, State.queue_eq, State.layout_eq, State.far_eq, State.flash_eq, State.meter_eq, ↓foldl_queue, ↓foldl_layout, ↓foldl_far, ↓foldl_flash, ↓foldl_meter, ↓ite_kept, ↓State.fwuRefuse_frame, ↓State.closeGatesOf_frame, ↓State.settleQuiesced_frame, ↓State.setFw_frame, ↓State.activateDie_frame, ite_self, and_self, implies_true]))

theorem State.tokenDone_frame (s : State) (f : Firmware) (r : OwnerRec) :
    (State.tokenDone s f r).kept = s.kept ∧ (State.tokenDone s f r).vDram = s.vDram := by
  simp only [State.tokenDone, ↓State.kept_mk, State.kept_eq, ↓foldl_kept, ↓ite_kept, ↓State.vDram_mk, State.vDram_eq, ↓foldl_vDram, ↓ite_vDram, ↓State.fwuDone_frame, ↓State.setFw_frame, ite_self, and_self, implies_true]

theorem State.tokenRefuse_frame (s : State) (t : Token) (check : Option Nat) :
    (State.tokenRefuse s t check).kept = s.kept ∧ (State.tokenRefuse s t check).vDram = s.vDram := by
  simp only [State.tokenRefuse, ↓State.kept_mk, State.kept_eq, ↓foldl_kept, ↓ite_kept, ↓State.vDram_mk, State.vDram_eq, ↓foldl_vDram, ↓ite_vDram, ↓State.fwuRefuse_frame, ↓State.authFailIf_frame, ite_self, and_self, implies_true]

theorem State.token_frame (s : State) (key : BitVec 8) (t : Token) (op : Nat) (cls : Nat) (hasKey : Bool) (ok : Bool) (f : Firmware) (r : OwnerRec) :
    (State.token s key t op cls hasKey ok f r).kept = s.kept ∧ (State.token s key t op cls hasKey ok f r).vDram = s.vDram := by
  simp only [State.token, ↓State.kept_mk, State.kept_eq, ↓foldl_kept, ↓ite_kept, ↓State.vDram_mk, State.vDram_eq, ↓foldl_vDram, ↓ite_vDram, ↓State.tokenDone_frame, ↓State.tokenRefuse_frame, ite_self, and_self, implies_true]

theorem claim_frame (key : BitVec 8) (t : Token) (s : State) :
    (claim key t s).kept = s.kept ∧ (claim key t s).vDram = s.vDram := by
  simp only [claim, ↓State.kept_mk, State.kept_eq, ↓foldl_kept, ↓ite_kept, ↓State.vDram_mk, State.vDram_eq, ↓foldl_vDram, ↓ite_vDram, ↓State.fwuRefuse_frame, ↓State.tokenDone_frame, ite_self, and_self, implies_true]

theorem ownerTransfer_frame (key : BitVec 8) (t : Token) (s : State) :
    (ownerTransfer key t s).kept = s.kept ∧ (ownerTransfer key t s).vDram = s.vDram := by
  simp only [ownerTransfer, ↓State.kept_mk, State.kept_eq, ↓foldl_kept, ↓ite_kept, ↓State.vDram_mk, State.vDram_eq, ↓foldl_vDram, ↓ite_vDram, ↓State.token_frame, ite_self, and_self, implies_true]

theorem revokeImage_frame (key : BitVec 8) (t : Token) (s : State) :
    (revokeImage key t s).kept = s.kept ∧ (revokeImage key t s).vDram = s.vDram := by
  simp only [revokeImage, ↓State.kept_mk, State.kept_eq, ↓foldl_kept, ↓ite_kept, ↓State.vDram_mk, State.vDram_eq, ↓foldl_vDram, ↓ite_vDram, ↓State.token_frame, ite_self, and_self, implies_true]

theorem ownerRelease_frame (key : BitVec 8) (t : Token) (s : State) :
    (ownerRelease key t s).kept = s.kept ∧ (ownerRelease key t s).vDram = s.vDram := by
  simp only [ownerRelease, ↓State.kept_mk, State.kept_eq, ↓foldl_kept, ↓ite_kept, ↓State.vDram_mk, State.vDram_eq, ↓foldl_vDram, ↓ite_vDram, ↓State.token_frame, ite_self, and_self, implies_true]

theorem debugUnlock_frame (key : BitVec 8) (t : Token) (s : State) :
    (debugUnlock key t s).kept = s.kept ∧ (debugUnlock key t s).vDram = s.vDram := by
  simp only [debugUnlock, ↓State.kept_mk, State.kept_eq, ↓foldl_kept, ↓ite_kept, ↓State.vDram_mk, State.vDram_eq, ↓foldl_vDram, ↓ite_vDram, ↓State.token_frame, ite_self, and_self, implies_true]

theorem lifecycleToken_frame (key : BitVec 8) (t : Token) (s : State) :
    (lifecycleToken key t s).kept = s.kept ∧ (lifecycleToken key t s).vDram = s.vDram := by
  simp only [lifecycleToken, ↓State.kept_mk, State.kept_eq, ↓foldl_kept, ↓ite_kept, ↓State.vDram_mk, State.vDram_eq, ↓foldl_vDram, ↓ite_vDram, ↓State.token_frame, ite_self, and_self, implies_true]

theorem State.attestDrawn_frame (s : State) :
    (State.attestDrawn s).kept = s.kept ∧ (State.attestDrawn s).vDram = s.vDram := by
  simp only [State.attestDrawn, ↓State.kept_mk, State.kept_eq, ↓foldl_kept, ↓ite_kept, ↓State.vDram_mk, State.vDram_eq, ↓foldl_vDram, ↓ite_vDram, ite_self, and_self, implies_true]

theorem attGo_frame (s : State) :
    (attGo s).kept = s.kept ∧ (attGo s).vDram = s.vDram := by
  simp only [attGo, ↓State.kept_mk, State.kept_eq, ↓foldl_kept, ↓ite_kept, ↓State.vDram_mk, State.vDram_eq, ↓foldl_vDram, ↓ite_vDram, ↓State.setFw_frame, ↓State.attestDrawn_frame, ite_self, and_self, implies_true]

theorem State.wakeHub_frame (s : State) :
    (State.wakeHub s).kept.queue = s.kept.queue ∧ (State.wakeHub s).kept.far = s.kept.far ∧ (State.wakeHub s).kept.flash = s.kept.flash ∧ (State.wakeHub s).kept.meter = s.kept.meter := by
  simp only [State.wakeHub, ↓State.kept_mk, State.queue_eq, State.layout_eq, State.far_eq, State.flash_eq, State.meter_eq, ↓foldl_queue, ↓foldl_layout, ↓foldl_far, ↓foldl_flash, ↓foldl_meter, ↓ite_kept, ↓State.stampReset_frame, ↓State.applyReset_frame, ↓State.setRst_frame, ↓State.beginExit_frame, ite_self, and_self, implies_true]

theorem State.bootImage_frame (s : State) (x : FwSupply) :
    (s.bootImage x).kept = s.kept ∧ (s.bootImage x).vDram = s.vDram := by
  have a := State.takeImage_frame s x 3
  unfold State.bootImage
  split
  · simp only [and_self]
  · split <;> rename_i s1 h <;> simp only [h] at a
    · simpa only [↓State.postNotice_frame] using a
    · exact a

theorem State.takeAddress_frame (s : State) (r : PldmReq) :
    (State.takeAddress s r).kept = s.kept ∧ (State.takeAddress s r).vDram = s.vDram := by
  refine ⟨?_, ?_⟩ <;> (unfold State.takeAddress; repeat' (first | with_reducible rfl | extract_lets | split | simp +zetaDelta only [↓State.kept_mk, State.kept_eq, ↓foldl_kept, ↓ite_kept, ↓State.vDram_mk, State.vDram_eq, ↓foldl_vDram, ↓ite_vDram, ↓State.setRst_frame, ite_self, and_self, implies_true]))

theorem pldmRequest_frame (r : PldmReq) (s : State) :
    (pldmRequest r s).kept.queue = s.kept.queue ∧ (pldmRequest r s).kept.far = s.kept.far ∧ (pldmRequest r s).kept.flash = s.kept.flash ∧ (pldmRequest r s).kept.meter = s.kept.meter := by
  refine ⟨?_, ?_, ?_, ?_⟩ <;> (unfold pldmRequest; repeat' (first | with_reducible rfl | extract_lets | split | simp +zetaDelta only [↓State.kept_mk, State.queue_eq, State.layout_eq, State.far_eq, State.flash_eq, State.meter_eq, ↓foldl_queue, ↓foldl_layout, ↓foldl_far, ↓foldl_flash, ↓foldl_meter, ↓ite_kept, ↓State.takeAddress_frame, ↓State.wakeHub_frame, ↓State.bootImage_frame, ↓State.writeSlot_frame, ↓State.selectSlot_frame, ↓State.mgmtWrite_frame, ↓State.attestDrawn_frame, ite_self, and_self, implies_true]))

theorem State.writeJcp_frame (s : State) (p : Nat) (j1 : Jcp) :
    (State.writeJcp s p j1).kept = s.kept ∧ (State.writeJcp s p j1).vDram = s.vDram := by
  simp only [State.writeJcp, ↓State.kept_mk, State.kept_eq, ↓foldl_kept, ↓ite_kept, ↓State.vDram_mk, State.vDram_eq, ↓foldl_vDram, ↓ite_vDram, ↓State.settleMsix_frame, ↓State.sendMsix_frame, ↓State.modJcp_frame, ite_self, and_self, implies_true]

theorem State.jcpWrite_frame (s : State) (p : Nat) (off : Nat) (v : BitVec 32) (h : BitVec 32) :
    (State.jcpWrite s p off v h).kept = s.kept ∧ (State.jcpWrite s p off v h).vDram = s.vDram := by
  unfold State.jcpWrite
  (repeat' split) <;> simp only [↓State.kept_mk, State.kept_eq, ↓foldl_kept, ↓ite_kept, ↓State.vDram_mk, State.vDram_eq, ↓foldl_vDram, ↓ite_vDram, ↓State.modJcp_frame, ↓State.writeJcp_frame, ite_self, and_self, implies_true]

theorem State.msixWrite_frame (s : State) (vec : Nat) (i : Nat) (v : BitVec 32) :
    (State.msixWrite s vec i v).kept = s.kept ∧ (State.msixWrite s vec i v).vDram = s.vDram := by
  simp only [State.msixWrite, ↓State.kept_mk, State.kept_eq, ↓foldl_kept, ↓ite_kept, ↓State.vDram_mk, State.vDram_eq, ↓foldl_vDram, ↓ite_vDram, ↓State.sendMsix_frame, ite_self, and_self, implies_true]

theorem State.modWrite_frame (s : State) (off : Nat) (v : BitVec 32) (h : BitVec 32) :
    (State.modWrite s off v h).kept = s.kept ∧ (State.modWrite s off v h).vDram = s.vDram := by
  unfold State.modWrite
  (repeat' split) <;> simp only [↓State.kept_mk, State.kept_eq, ↓foldl_kept, ↓ite_kept, ↓State.vDram_mk, State.vDram_eq, ↓foldl_vDram, ↓ite_vDram, ↓State.settleMsix_frame, ↓State.sendMsix_frame, ite_self, and_self, implies_true]

theorem State.errWrite_frame (s : State) (off : Nat) (v : BitVec 32) :
    (State.errWrite s off v).kept = s.kept ∧ (State.errWrite s off v).vDram = s.vDram := by
  simp only [State.errWrite, ↓State.kept_mk, State.kept_eq, ↓foldl_kept, ↓ite_kept, ↓State.vDram_mk, State.vDram_eq, ↓foldl_vDram, ↓ite_vDram, ite_self, and_self, implies_true]

theorem State.windowWrite_frame (s : State) (w : Nat) (off : Nat) (v : BitVec 32) :
    (State.windowWrite s w off v).kept = s.kept ∧ (State.windowWrite s w off v).vDram = s.vDram := by
  unfold State.windowWrite
  (repeat' split) <;> simp only [↓State.kept_mk, State.kept_eq, ↓foldl_kept, ↓ite_kept, ↓State.vDram_mk, State.vDram_eq, ↓foldl_vDram, ↓ite_vDram, ↓State.setWindow_frame, ite_self, and_self, implies_true]

theorem State.pwrWrite_frame (s : State) (off : Nat) (v : BitVec 32) :
    (State.pwrWrite s off v).kept = s.kept ∧ (State.pwrWrite s off v).vDram = s.vDram := by
  unfold State.pwrWrite
  (repeat' split) <;> simp only [↓State.kept_mk, State.kept_eq, ↓foldl_kept, ↓ite_kept, ↓State.vDram_mk, State.vDram_eq, ↓foldl_vDram, ↓ite_vDram, ↓State.maybeHubOff_frame, ite_self, and_self, implies_true]

theorem State.bar0Write_frame (s : State) (off : Nat) (v : BitVec 32) (h : BitVec 32) :
    (State.bar0Write s off v h).kept = s.kept ∧ (State.bar0Write s off v h).vDram = s.vDram := by
  simp only [State.bar0Write, ↓State.kept_mk, State.kept_eq, ↓foldl_kept, ↓ite_kept, ↓State.vDram_mk, State.vDram_eq, ↓foldl_vDram, ↓ite_vDram, ↓State.jcpWrite_frame, ↓State.msixWrite_frame, ↓State.modWrite_frame, ↓State.pwrWrite_frame, ↓State.errWrite_frame, ↓State.windowWrite_frame, ite_self, and_self, implies_true]

theorem State.arithWrite_frame (s : State) (c : Nat) (v : BitVec 32) (h : BitVec 32) :
    (State.arithWrite s c v h).kept = s.kept ∧ (State.arithWrite s c v h).vDram = s.vDram := by
  simp only [State.arithWrite, ↓State.kept_mk, State.kept_eq, ↓foldl_kept, ↓ite_kept, ↓State.vDram_mk, State.vDram_eq, ↓foldl_vDram, ↓ite_vDram, ↓State.setCore_frame, ↓State.logError_frame, ite_self, and_self, implies_true]

theorem State.amapWrite_frame (s : State) (t : Nat) (e : Nat) (hi : Bool) (v : BitVec 64) :
    (State.amapWrite s t e hi v).kept = s.kept ∧ (State.amapWrite s t e hi v).vDram = s.vDram := by
  simp only [State.amapWrite, ↓State.kept_mk, State.kept_eq, ↓foldl_kept, ↓ite_kept, ↓State.vDram_mk, State.vDram_eq, ↓foldl_vDram, ↓ite_vDram, ite_self, and_self, implies_true]

theorem State.klpWrite_frame (s : State) (i : Nat) (v : BitVec 32) :
    (State.klpWrite s i v).kept = s.kept ∧ (State.klpWrite s i v).vDram = s.vDram := by
  simp only [State.klpWrite, ↓State.kept_mk, State.kept_eq, ↓foldl_kept, ↓ite_kept, ↓State.vDram_mk, State.vDram_eq, ↓foldl_vDram, ↓ite_vDram, ↓State.modPort_frame, ↓State.portDown_frame, ite_self, and_self, implies_true]

theorem State.ctlWrite_frame (s : State) (r : RegRef) (v : BitVec 64) (h : BitVec 64) :
    (State.ctlWrite s r v h).kept = s.kept ∧ (State.ctlWrite s r v h).vDram = s.vDram := by
  unfold State.ctlWrite
  (repeat' split) <;> simp only [↓State.kept_mk, State.kept_eq, ↓foldl_kept, ↓ite_kept, ↓State.vDram_mk, State.vDram_eq, ↓foldl_vDram, ↓ite_vDram, ↓State.writeCtrl_frame, ↓State.arithWrite_frame, ↓State.modCore_frame, ↓State.setCtx_frame, ↓State.amapWrite_frame, ↓State.setChan_frame, ↓State.setLinkDie_frame, ↓State.klpWrite_frame, ↓State.modPort_frame, ite_self, and_self, implies_true]

theorem State.bar0Apply_frame (s : State) (off : BitVec 26) (wide : Bool) (v : BitVec 64) (h : BitVec 64) :
    (State.bar0Apply s off wide v h).kept = s.kept ∧ (State.bar0Apply s off wide v h).vDram = s.vDram := by
  simp only [State.bar0Apply, ↓State.kept_mk, State.kept_eq, ↓foldl_kept, ↓ite_kept, ↓State.vDram_mk, State.vDram_eq, ↓foldl_vDram, ↓ite_vDram, ↓State.bar0Write_frame, ite_self, and_self, implies_true]

theorem registerWrite_frame (r : RegRef) (wide : Bool) (v hwSet : BitVec 64) (s : State) :
    (registerWrite r wide v hwSet s).kept = s.kept ∧ (registerWrite r wide v hwSet s).vDram = s.vDram := by
  unfold registerWrite
  split
  · exact ⟨State.inTurn_kept _ _ _ (fun a => by simp only [↓State.bar0Apply_frame]), State.inTurn_vDram _ _ _ (fun a => by simp only [↓State.bar0Apply_frame])⟩
  · split <;> simp only [↓State.ctlWrite_frame, and_self]

theorem State.hostApply_frame (s : State) (x : Instr) :
    (s.hostApply x).kept.queue = s.kept.queue ∧ (s.hostApply x).kept.far = s.kept.far ∧ (s.hostApply x).kept.meter = s.kept.meter := by
  cases x
  case registerWrite r w v h =>
    cases r <;> dsimp only [State.hostApply] <;> first
      | exact ⟨rfl, rfl, rfl⟩
      | simp only [↓State.bar0Apply_frame, and_self]
  all_goals dsimp only [State.hostApply]
  all_goals first
    | exact ⟨rfl, rfl, rfl⟩
    | simp only [↓Machine.State.bar0Apply_frame, ↓Machine.State.bar2Apply_frame, ↓Machine.hostMaxVersionWrite_frame, ↓Machine.partCfgWrite_frame, ↓Machine.jobStart_frame, ↓Machine.jobPause_frame, ↓Machine.jobResume_frame, ↓Machine.jobStop_frame, ↓Machine.jobAbort_frame, ↓Machine.jobClear_frame, ↓Machine.endStepWrite_frame, ↓Machine.epochWrite_frame, ↓Machine.eventEnableWrite_frame, ↓Machine.swEnable_frame, ↓Machine.swDisable_frame, ↓Machine.persistAckWrite_frame, ↓Machine.latTolWrite_frame, ↓Machine.farQuotaWrite_frame, ↓Machine.farEvict_frame, ↓Machine.rstSwRequest_frame, ↓Machine.recSnapAck_frame, ↓Machine.bootGo_frame, ↓Machine.writeSlot_frame, ↓Machine.fwuSelect_frame, ↓Machine.fwuConfirm_frame, ↓Machine.svnCommit_frame, ↓Machine.activateQuad_frame, ↓Machine.mgmtWrite_frame, ↓Machine.claim_frame, ↓Machine.ownerTransfer_frame, ↓Machine.revokeImage_frame, ↓Machine.ownerRelease_frame, ↓Machine.debugUnlock_frame, ↓Machine.lifecycleToken_frame, ↓Machine.attGo_frame, ↓Machine.ghReq_frame, ↓Machine.ghClrCounts_frame, ↓Machine.fenceAdd_frame, ↓Machine.fenceRemove_frame, ↓Machine.pwrCapWrite_frame, ↓Machine.pwrCalGo_frame, and_self]

theorem State.drainHost_keep {γ : Type} (q : Kept → γ) (h : ∀ (a : State) x, q (a.hostApply x).kept = q a.kept) (s : State) (l : List Instr) :
    q (s.drainHost l).kept = q s.kept := by
  induction l generalizing s with
  | nil => simp only [State.drainHost, ↓State.kept_mk, State.kept_eq]
  | cons a t ih =>
    unfold State.drainHost
    split
    · simp only [↓State.kept_mk, State.kept_eq]
    · rw [ih, h]

theorem State.drainHost_frame (s : State) (l : List Instr) :
    (s.drainHost l).kept.queue = s.kept.queue ∧ (s.drainHost l).kept.far = s.kept.far ∧ (s.drainHost l).kept.meter = s.kept.meter :=
  ⟨State.drainHost_keep (·.queue) (fun a x => by simp only [↓State.hostApply_frame]) s l,
   State.drainHost_keep (·.far) (fun a x => by simp only [↓State.hostApply_frame]) s l,
   State.drainHost_keep (·.meter) (fun a x => by simp only [↓State.hostApply_frame]) s l⟩

theorem resendInOrder_frame (k : ChannelId) (src : Fin 1026) (f : LineFound) (s : State) :
    (resendInOrder k src f s).kept.queue = s.kept.queue ∧ (resendInOrder k src f s).kept.far = s.kept.far ∧ (resendInOrder k src f s).kept.meter = s.kept.meter := by
  refine ⟨?_, ?_, ?_⟩ <;> (unfold resendInOrder; repeat' (first | with_reducible rfl | extract_lets | split | simp +zetaDelta only [↓State.kept_mk, State.queue_eq, State.layout_eq, State.far_eq, State.flash_eq, State.meter_eq, ↓foldl_queue, ↓foldl_layout, ↓foldl_far, ↓foldl_flash, ↓foldl_meter, ↓ite_kept, ↓retryResend_frame, ↓State.drainHost_frame, ite_self, and_self, implies_true]))

end Sys2Proof.Machine
end

