-- ==== Sys2Proof/Laws/Canon.lean ====
section
/-! SUPPORT. The canonical form of the three memories: each definition that writes one keeps it. -/

namespace Sys2Proof.Machine

set_option linter.all false

/-- The canonical form of a memory: addresses strictly rising, no byte listed that equals what an unlisted address reads as. -/
def Canon (m : List Host.Cell) : Prop := Memory.wf m = true

theorem canon_set (m : List Host.Cell) (k : Nat) (v : Byte) (h : Canon m) : Canon (FMap.set 0 m k v) := FMap.wf_set 0 m k v h
theorem canon_filter (m : List Host.Cell) (q : Host.Cell → Bool) (h : Canon m) : Canon (m.filter q) := FMap.wf_filter 0 m q h
theorem canon_foldSet {β : Type} (g : β → Nat) (v : β → Byte) (l : List β) (m : List Host.Cell) (h : Canon m) :
    Canon (l.foldl (fun a x => FMap.set 0 a (g x) (v x)) m) := by
  induction l generalizing m with
  | nil => exact h
  | cons x t ih => exact ih _ (canon_set _ _ _ h)
theorem canon_copyRun (m : List Host.Cell) (src dst n : Nat) (h : Canon m) : Canon (copyRun m src dst n) :=
  canon_foldSet _ _ _ _ (canon_filter _ _ h)
theorem canon_dramWrite (m : List Host.Cell) (k : Nat) (l : List Byte) (h : Canon m) : Canon (dramWrite m k l) := by
  induction l generalizing m k with
  | nil => exact h
  | cons b t ih => exact ih _ _ (canon_set _ _ _ h)

theorem both_dram_canon (c : Prop) [Decidable c] (a b : State) (ha : Canon a.vDram) (hb : Canon b.vDram) :
    Canon (if c then a else b).vDram := by split <;> assumption
theorem foldl_dram_canon {β : Type} (f : State → β → State) (h : ∀ a x, Canon a.vDram → Canon (f a x).vDram)
    (l : List β) (s : State) (hs : Canon s.vDram) : Canon (l.foldl f s).vDram := by
  induction l generalizing s with
  | nil => exact hs
  | cons x t ih => exact ih _ (h s x hs)

theorem both_far_canon (c : Prop) [Decidable c] (a b : State) (ha : Canon a.kept.far) (hb : Canon b.kept.far) :
    Canon (if c then a else b).kept.far := by split <;> assumption
theorem foldl_far_canon {β : Type} (f : State → β → State) (h : ∀ a x, Canon a.kept.far → Canon (f a x).kept.far)
    (l : List β) (s : State) (hs : Canon s.kept.far) : Canon (l.foldl f s).kept.far := by
  induction l generalizing s with
  | nil => exact hs
  | cons x t ih => exact ih _ (h s x hs)

theorem both_flash_canon (c : Prop) [Decidable c] (a b : State) (ha : Canon a.kept.flash) (hb : Canon b.kept.flash) :
    Canon (if c then a else b).kept.flash := by split <;> assumption
theorem foldl_flash_canon {β : Type} (f : State → β → State) (h : ∀ a x, Canon a.kept.flash → Canon (f a x).kept.flash)
    (l : List β) (s : State) (hs : Canon s.kept.flash) : Canon (l.foldl f s).kept.flash := by
  induction l generalizing s with
  | nil => exact hs
  | cons x t ih => exact ih _ (h s x hs)

theorem State.setDramByte_dram_canon (s : State) (key : Nat) (b : Byte) (hc : Canon s.vDram) : Canon (s.setDramByte key b).vDram := by
  simp only [State.setDramByte, State.vDram_mk]
  rw [← State.vDram_eq] at hc
  exact canon_set _ _ _ hc

theorem State.setDramBytes_dram_canon (s : State) (key : Nat) (bs : List Byte) (hc : Canon s.vDram) :
    Canon (s.setDramBytes key bs).vDram := by
  simp only [State.setDramBytes, State.vDram_mk]
  rw [← State.vDram_eq] at hc
  exact canon_dramWrite _ _ _ hc


theorem State.jobWrite_dram_canon (s : State) (t addr : Nat) (bs : List Byte) (hc : Canon s.vDram) :
    Canon (s.jobWrite t addr bs).vDram := by
  induction bs generalizing s addr with
  | nil => exact hc
  | cons b l ih =>
    unfold State.jobWrite
    extract_lets s1
    apply ih
    simp only [s1]
    split
    · exact State.setDramByte_dram_canon _ _ _ hc
    · exact hc

theorem State.setJobNat_dram_canon (s : State) (p : Nat) (addr : Nat) (n : Nat) (v : Nat) (hc : Canon s.vDram) :
    Canon (State.setJobNat s p addr n v).vDram := by
  unfold State.setJobNat
  repeat' (first | with_reducible assumption | extract_lets | with_reducible apply State.jobWrite_dram_canon | with_reducible refine both_dram_canon _ _ _ ?_ ?_ | split | simp +zetaDelta only [↓State.vDram_mk, State.vDram_eq, ↓foldl_vDram, ↓ite_vDram, ite_self, implies_true] | (with_reducible refine foldl_dram_canon _ ?_ _ _ ?_ <;> intros))

theorem State.writeLines_dram_canon (s : State) (p : Nat) (addr : Nat) (bs : List Byte) (hc : Canon s.vDram) :
    Canon (State.writeLines s p addr bs).vDram := by
  unfold State.writeLines
  repeat' (first | with_reducible assumption | extract_lets | with_reducible apply State.jobWrite_dram_canon | with_reducible refine both_dram_canon _ _ _ ?_ ?_ | split | simp +zetaDelta only [↓State.vDram_mk, State.vDram_eq, ↓foldl_vDram, ↓ite_vDram, ↓State.writeOver_frame, ite_self, implies_true] | (with_reducible refine foldl_dram_canon _ ?_ _ _ ?_ <;> intros))

theorem State.postPiece_dram_canon (s : State) (p : Nat) (addr : Nat) (bs : List Byte) (e : Nat × Nat) (hc : Canon s.vDram) :
    Canon (State.postPiece s p addr bs e).vDram := by
  unfold State.postPiece
  repeat' (first | with_reducible assumption | extract_lets | with_reducible apply State.writeLines_dram_canon | with_reducible refine both_dram_canon _ _ _ ?_ ?_ | split | simp +zetaDelta only [↓State.vDram_mk, State.vDram_eq, ↓foldl_vDram, ↓ite_vDram, ↓State.holdWrite_frame, ite_self, implies_true] | (with_reducible refine foldl_dram_canon _ ?_ _ _ ?_ <;> intros))

theorem State.postLines_dram_canon (s : State) (p : Nat) (addr : Nat) (bs : List Byte) (hc : Canon s.vDram) :
    Canon (State.postLines s p addr bs).vDram := by
  unfold State.postLines
  repeat' (first | with_reducible assumption | extract_lets | with_reducible apply State.writeLines_dram_canon | with_reducible apply State.postPiece_dram_canon | with_reducible refine both_dram_canon _ _ _ ?_ ?_ | split | simp +zetaDelta only [↓State.vDram_mk, State.vDram_eq, ↓foldl_vDram, ↓ite_vDram, ite_self, implies_true] | (with_reducible refine foldl_dram_canon _ ?_ _ _ ?_ <;> intros))

theorem State.postQuiet_dram_canon (s : State) (p : Nat) (addr : Nat) (bs : List Byte) (hc : Canon s.vDram) :
    Canon (State.postQuiet s p addr bs).vDram := by
  unfold State.postQuiet
  repeat' (first | with_reducible assumption | extract_lets | with_reducible apply State.postLines_dram_canon | with_reducible refine both_dram_canon _ _ _ ?_ ?_ | split | simp +zetaDelta only [↓State.vDram_mk, State.vDram_eq, ↓foldl_vDram, ↓ite_vDram, ↓State.logError_frame, ite_self, implies_true] | (with_reducible refine foldl_dram_canon _ ?_ _ _ ?_ <;> intros))

theorem State.clearCatEntry_dram_canon (s : State) (p : Nat) (r : SnapRun) (hc : Canon s.vDram) :
    Canon (State.clearCatEntry s p r).vDram := by
  unfold State.clearCatEntry
  repeat' (first | with_reducible assumption | extract_lets | with_reducible apply State.postQuiet_dram_canon | with_reducible refine both_dram_canon _ _ _ ?_ ?_ | split | simp +zetaDelta only [↓State.vDram_mk, State.vDram_eq, ↓foldl_vDram, ↓ite_vDram, ite_self, implies_true] | (with_reducible refine foldl_dram_canon _ ?_ _ _ ?_ <;> intros))

theorem State.abandonSnap_dram_canon (s : State) (p : Nat) (cause : Nat) (hc : Canon s.vDram) :
    Canon (State.abandonSnap s p cause).vDram := by
  unfold State.abandonSnap
  repeat' (first | with_reducible assumption | extract_lets | with_reducible apply State.clearCatEntry_dram_canon | with_reducible refine both_dram_canon _ _ _ ?_ ?_ | split | simp +zetaDelta only [↓State.vDram_mk, State.vDram_eq, ↓foldl_vDram, ↓ite_vDram, ↓State.sendCtl_frame, ↓State.modJob_frame, ite_self, implies_true] | (with_reducible refine foldl_dram_canon _ ?_ _ _ ?_ <;> intros))

theorem State.withdraw_dram_canon (s : State) (p : Nat) (hc : Canon s.vDram) :
    Canon (State.withdraw s p).vDram := by
  unfold State.withdraw
  repeat' (first | with_reducible assumption | extract_lets | with_reducible apply State.abandonSnap_dram_canon | with_reducible refine both_dram_canon _ _ _ ?_ ?_ | split | simp +zetaDelta only [↓State.vDram_mk, State.vDram_eq, ↓foldl_vDram, ↓ite_vDram, ↓State.modJob_frame, ite_self, implies_true] | (with_reducible refine foldl_dram_canon _ ?_ _ _ ?_ <;> intros))

theorem State.failJob_dram_canon (s : State) (p : Nat) (reason : Nat) (recIndex : Nat) (hc : Canon s.vDram) :
    Canon (State.failJob s p reason recIndex).vDram := by
  unfold State.failJob
  repeat' (first | with_reducible assumption | extract_lets | with_reducible apply State.abandonSnap_dram_canon | with_reducible refine both_dram_canon _ _ _ ?_ ?_ | split | simp +zetaDelta only [↓State.vDram_mk, State.vDram_eq, ↓foldl_vDram, ↓ite_vDram, ↓State.modJcp_frame, ↓State.modJob_frame, ↓State.setJobState_frame, ite_self, implies_true] | (with_reducible refine foldl_dram_canon _ ?_ _ _ ?_ <;> intros))

theorem State.programFault_dram_canon (s : State) (r : Report1) (reason : optParam Nat 33) (hc : Canon s.vDram) :
    Canon (State.programFault s r reason).vDram := by
  unfold State.programFault
  repeat' (first | with_reducible assumption | extract_lets | with_reducible apply State.failJob_dram_canon | with_reducible refine both_dram_canon _ _ _ ?_ ?_ | split | simp +zetaDelta only [↓State.vDram_mk, State.vDram_eq, ↓foldl_vDram, ↓ite_vDram, ↓State.logError_frame, ↓State.abandonPart_frame, ite_self, implies_true] | (with_reducible refine foldl_dram_canon _ ?_ _ _ ?_ <;> intros))

theorem State.placeRefused_dram_canon (s : State) (p : Nat) (e : Nat × Nat) (hc : Canon s.vDram) :
    Canon (State.placeRefused s p e).vDram := by
  unfold State.placeRefused
  repeat' (first | with_reducible assumption | extract_lets | with_reducible apply State.programFault_dram_canon | with_reducible refine both_dram_canon _ _ _ ?_ ?_ | split | simp +zetaDelta only [↓State.vDram_mk, State.vDram_eq, ↓foldl_vDram, ↓ite_vDram, ↓State.logError_frame, ite_self, implies_true] | (with_reducible refine foldl_dram_canon _ ?_ _ _ ?_ <;> intros))

theorem State.jobPost_dram_canon (s : State) (p : Nat) (addr : Nat) (bs : List Byte) (hc : Canon s.vDram) :
    Canon (State.jobPost s p addr bs).vDram := by
  unfold State.jobPost
  repeat' (first | with_reducible assumption | extract_lets | with_reducible apply State.placeRefused_dram_canon | with_reducible apply State.postLines_dram_canon | with_reducible refine both_dram_canon _ _ _ ?_ ?_ | split | simp +zetaDelta only [↓State.vDram_mk, State.vDram_eq, ↓foldl_vDram, ↓ite_vDram, ite_self, implies_true] | (with_reducible refine foldl_dram_canon _ ?_ _ _ ?_ <;> intros))

theorem State.postJobNat_dram_canon (s : State) (p : Nat) (addr : Nat) (n : Nat) (v : Nat) (hc : Canon s.vDram) :
    Canon (State.postJobNat s p addr n v).vDram := by
  unfold State.postJobNat
  repeat' (first | with_reducible assumption | extract_lets | with_reducible apply State.jobPost_dram_canon | with_reducible refine both_dram_canon _ _ _ ?_ ?_ | split | simp +zetaDelta only [↓State.vDram_mk, State.vDram_eq, ↓foldl_vDram, ↓ite_vDram, ite_self, implies_true] | (with_reducible refine foldl_dram_canon _ ?_ _ _ ?_ <;> intros))

theorem State.setCatHold_dram_canon (s : State) (p : Nat) (v : Nat) (hc : Canon s.vDram) :
    Canon (State.setCatHold s p v).vDram := by
  unfold State.setCatHold
  repeat' (first | with_reducible assumption | extract_lets | with_reducible apply State.postJobNat_dram_canon | with_reducible refine both_dram_canon _ _ _ ?_ ?_ | split | simp +zetaDelta only [↓State.vDram_mk, State.vDram_eq, ↓foldl_vDram, ↓ite_vDram, ite_self, implies_true] | (with_reducible refine foldl_dram_canon _ ?_ _ _ ?_ <;> intros))

theorem State.setCatEntry_dram_canon (s : State) (p : Nat) (i : Nat) (id : BitVec 64) (step : BitVec 64) (kind : Nat) (slot : Nat) (state : Nat) (hc : Canon s.vDram) :
    Canon (State.setCatEntry s p i id step kind slot state).vDram := by
  unfold State.setCatEntry
  repeat' (first | with_reducible assumption | extract_lets | with_reducible apply State.postJobNat_dram_canon | with_reducible refine both_dram_canon _ _ _ ?_ ?_ | split | simp +zetaDelta only [↓State.vDram_mk, State.vDram_eq, ↓foldl_vDram, ↓ite_vDram, ite_self, implies_true] | (with_reducible refine foldl_dram_canon _ ?_ _ _ ?_ <;> intros))

theorem State.rollbackHold_dram_canon (s : State) (p : Nat) (cause : Nat) (hc : Canon s.vDram) :
    Canon (State.rollbackHold s p cause).vDram := by
  unfold State.rollbackHold
  repeat' (first | with_reducible assumption | extract_lets | with_reducible apply State.abandonSnap_dram_canon | with_reducible apply State.withdraw_dram_canon | with_reducible apply State.setCatHold_dram_canon | with_reducible apply State.failJob_dram_canon | with_reducible refine both_dram_canon _ _ _ ?_ ?_ | split | simp +zetaDelta only [↓State.vDram_mk, State.vDram_eq, ↓foldl_vDram, ↓ite_vDram, ↓State.abandonPart_frame, ↓State.modJob_frame, ↓State.logError_frame, ↓State.setJobState_frame, ite_self, implies_true] | (with_reducible refine foldl_dram_canon _ ?_ _ _ ?_ <;> intros))

theorem State.hwError_dram_canon (s : State) (r : Report1) (rollback : optParam Bool false) (hc : Canon s.vDram) :
    Canon (State.hwError s r rollback).vDram := by
  unfold State.hwError
  repeat' (first | with_reducible assumption | extract_lets | with_reducible apply State.rollbackHold_dram_canon | with_reducible apply State.withdraw_dram_canon | with_reducible refine both_dram_canon _ _ _ ?_ ?_ | split | simp +zetaDelta only [↓State.vDram_mk, State.vDram_eq, ↓foldl_vDram, ↓ite_vDram, ↓State.schedule_frame, ↓State.logError_frame, ↓State.modCoresOf_frame, ite_self, implies_true] | (with_reducible refine foldl_dram_canon _ ?_ _ _ ?_ <;> intros))

theorem State.dramUe_dram_canon (s : State) (k : Nat) (addr : Nat) (page : Option (Nat × Nat)) (hc : Canon s.vDram) :
    Canon (State.dramUe s k addr page).vDram := by
  unfold State.dramUe
  repeat' (first | with_reducible assumption | extract_lets | with_reducible apply State.hwError_dram_canon | with_reducible refine both_dram_canon _ _ _ ?_ ?_ | split | simp +zetaDelta only [↓State.vDram_mk, State.vDram_eq, ↓foldl_vDram, ↓ite_vDram, ↓State.setChan_frame, ite_self, implies_true] | (with_reducible refine foldl_dram_canon _ ?_ _ _ ?_ <;> intros))

theorem State.holdPiece_dram_canon (s : State) (p : Nat) (src : ReqSrc) (a : State) (x : Nat × Nat × Place) (hc : Canon a.vDram) :
    Canon (s.holdPiece p src a x).vDram := by
  unfold State.holdPiece
  first
    | (simpa only [↓State.holdWrite_frame] using State.jobWrite_dram_canon _ _ _ _ hc)
    | exact State.holdWrite_dram_canon _ _ _ (State.jobWrite_dram_canon _ _ _ _ hc)

theorem State.accessCow_dram_canon (s : State) (p : Nat) (src : ReqSrc) (use merge full : List (Nat × Nat)) (l : List Place) (f : State → State)
    (h : ∀ a, Canon a.vDram → Canon (f a).vDram) (hc : Canon s.vDram) :
    Canon (State.accessCow s p src use merge full l f).vDram := by
  unfold State.accessCow
  extract_lets s1
  have h1 : Canon s1.vDram := by simpa only [s1, ↓foldl_vDram, ↓State.touch_frame, implies_true] using hc
  clear_value s1
  split
  · exact h1
  · rename_i a w hn
    have ha : Canon a.vDram := h _ (by simpa only [↓foldl_vDram, ↓State.writeOver_frame, implies_true] using h1)
    clear_value w a
    split
    · exact foldl_dram_canon _ (fun b x hb => State.holdPiece_dram_canon _ _ _ _ _ hb) _ _ ha
    · split
      · simpa only [↓State.markRefused_frame, ↓State.setChan_frame] using h1
      · exact h1

theorem State.accessBy_dram_canon (s : State) (p : Nat) (src : ReqSrc) (use merge full : List (Nat × Nat)) (f : State → State)
    (h : ∀ a, Canon a.vDram → Canon (f a).vDram) (hc : Canon s.vDram) :
    Canon (State.accessBy s p src use merge full f).vDram := by
  unfold State.accessBy
  split
  · exact State.placeRefused_dram_canon _ _ _ hc
  · split
    · exact State.dramUe_dram_canon _ _ _ _ hc
    · split
      · exact h _ (by simpa only [↓foldl_vDram, ↓State.writeOver_frame, implies_true] using hc)
      · exact State.accessCow_dram_canon _ _ _ _ _ _ _ _ h hc

theorem State.whenAccess_dram_canon (s : State) (p : Nat) (use merge full : List (Nat × Nat)) (f : State → State)
    (h : ∀ a, Canon a.vDram → Canon (f a).vDram) (hc : Canon s.vDram) :
    Canon (State.whenAccess s p use merge full f).vDram := by
  exact State.accessBy_dram_canon _ _ _ _ _ _ _ h hc

theorem State.whenWritable_dram_canon (s : State) (p : Nat) (rs : List (Nat × Nat)) (f : State → State)
    (h : ∀ a, Canon a.vDram → Canon (f a).vDram) (hc : Canon s.vDram) :
    Canon (State.whenWritable s p rs f).vDram := by
  exact State.whenAccess_dram_canon _ _ _ _ _ _ h hc

theorem State.whenReadable_dram_canon (s : State) (p : Nat) (rs : List (Nat × Nat)) (f : State → State)
    (h : ∀ a, Canon a.vDram → Canon (f a).vDram) (hc : Canon s.vDram) :
    Canon (State.whenReadable s p rs f).vDram := by
  unfold State.whenReadable
  split
  · exact State.placeRefused_dram_canon _ _ _ hc
  · split
    · split
      · exact hc
      · exact h s hc
    · exact State.dramUe_dram_canon _ _ _ _ hc

theorem State.whenUnit_dram_canon (s : State) (p c : Nat) (use merge full : List (Nat × Nat)) (f : State → State)
    (h : ∀ a, Canon a.vDram → Canon (f a).vDram) (hc : Canon s.vDram) :
    Canon (State.whenUnit s p c use merge full f).vDram := by
  unfold State.whenUnit
  split
  · simpa only [↓State.gateRefusal_frame] using hc
  · exact State.accessBy_dram_canon _ _ _ _ _ _ _ h hc

theorem State.readUnit_dram_canon (s : State) (p c : Nat) (rs : List (Nat × Nat)) (f : State → State)
    (h : ∀ a, Canon a.vDram → Canon (f a).vDram) (hc : Canon s.vDram) :
    Canon (State.readUnit s p c rs f).vDram := by
  unfold State.readUnit
  split
  · simpa only [↓State.gateRefusal_frame] using hc
  · exact State.whenReadable_dram_canon _ _ _ _ h hc

theorem State.openCatalogue_dram_canon (s : State) (p : Nat) (hc : Canon s.vDram) :
    Canon (State.openCatalogue s p).vDram := by
  unfold State.openCatalogue
  repeat' (first | with_reducible assumption | extract_lets | with_reducible apply State.postQuiet_dram_canon | with_reducible apply State.setCatEntry_dram_canon | with_reducible refine both_dram_canon _ _ _ ?_ ?_ | split | simp +zetaDelta only [↓State.vDram_mk, State.vDram_eq, ↓foldl_vDram, ↓ite_vDram, ite_self, implies_true] | (with_reducible refine foldl_dram_canon _ ?_ _ _ ?_ <;> intros))

theorem State.coreFault_dram_canon (s : State) (c : Nat) (code : Nat) (detail : Nat) (info : Nat) (hc : Canon s.vDram) :
    Canon (State.coreFault s c code detail info).vDram := by
  unfold State.coreFault
  repeat' (first | with_reducible assumption | extract_lets | with_reducible apply State.programFault_dram_canon | with_reducible refine both_dram_canon _ _ _ ?_ ?_ | split | simp +zetaDelta only [↓State.vDram_mk, State.vDram_eq, ↓foldl_vDram, ↓ite_vDram, ↓State.modCore_frame, ite_self, implies_true] | (with_reducible refine foldl_dram_canon _ ?_ _ _ ?_ <;> intros))

theorem State.instFault_dram_canon (s : State) (c : Nat) (code : Nat) (detail : Nat) (info : Nat) (hc : Canon s.vDram) :
    Canon (State.instFault s c code detail info).vDram := by
  unfold State.instFault
  repeat' (first | with_reducible assumption | extract_lets | with_reducible apply State.programFault_dram_canon | with_reducible refine both_dram_canon _ _ _ ?_ ?_ | split | simp +zetaDelta only [↓State.vDram_mk, State.vDram_eq, ↓foldl_vDram, ↓ite_vDram, ↓State.modCore_frame, ite_self, implies_true] | (with_reducible refine foldl_dram_canon _ ?_ _ _ ?_ <;> intros))

theorem State.spillTile_dram_canon (s : State) (c : Nat) (e : Nat) (seq : BitVec 32) (step : BitVec 16) (visible : Bool) (bs : List Byte) (credit : Bool) (hc : Canon s.vDram) :
    Canon (State.spillTile s c e seq step visible bs credit).vDram := by
  unfold State.spillTile
  repeat' (first | with_reducible assumption | extract_lets | with_reducible apply State.coreFault_dram_canon | with_reducible refine both_dram_canon _ _ _ ?_ ?_ | split | simp +zetaDelta only [↓State.vDram_mk, State.vDram_eq, ↓foldl_vDram, ↓ite_vDram, ↓State.setCore_frame, ↓State.returnCredit_frame, ite_self, implies_true] | (with_reducible refine foldl_dram_canon _ ?_ _ _ ?_ <;> intros))

theorem tileArrive_dram_canon (c : CoreId) (e : EpId) (s : State) (hc : Canon s.vDram) :
    Canon (tileArrive c e s).vDram := by
  unfold tileArrive
  repeat' (first | with_reducible assumption | extract_lets | with_reducible apply State.coreFault_dram_canon | with_reducible apply State.spillTile_dram_canon | with_reducible refine both_dram_canon _ _ _ ?_ ?_ | split | simp +zetaDelta only [↓State.vDram_mk, State.vDram_eq, ↓foldl_vDram, ↓ite_vDram, ↓State.setCore_frame, ite_self, implies_true] | (with_reducible refine foldl_dram_canon _ ?_ _ _ ?_ <;> intros))

theorem endOfStepMarker_dram_canon (c : CoreId) (e : EpId) (s : State) (hc : Canon s.vDram) :
    Canon (endOfStepMarker c e s).vDram := by
  unfold endOfStepMarker
  repeat' (first | with_reducible assumption | extract_lets | with_reducible apply State.coreFault_dram_canon | with_reducible refine both_dram_canon _ _ _ ?_ ?_ | split | simp +zetaDelta only [↓State.vDram_mk, State.vDram_eq, ↓foldl_vDram, ↓ite_vDram, ↓State.setCore_frame, ite_self, implies_true] | (with_reducible refine foldl_dram_canon _ ?_ _ _ ?_ <;> intros))

theorem State.spillAll_dram_canon (s : State) (c e n : Nat) (hc : Canon s.vDram) : Canon (s.spillAll c e n).vDram := by
  induction n generalizing s with
  | zero => exact hc
  | succ n ih =>
    unfold State.spillAll
    extract_lets k x
    split
    · exact hc
    · split
      · with_reducible apply State.coreFault_dram_canon; exact hc
      · extract_lets bs
        apply ih
        exact State.spillTile_dram_canon _ _ _ _ _ _ _ _ (by simpa only [↓State.setCore_frame] using hc)

theorem State.steerFault_dram_canon (s : State) (c : Nat) (n : Nat) (seq : Nat) (hc : Canon s.vDram) :
    Canon (State.steerFault s c n seq).vDram := by
  unfold State.steerFault
  repeat' (first | with_reducible assumption | extract_lets | with_reducible apply State.coreFault_dram_canon | with_reducible refine both_dram_canon _ _ _ ?_ ?_ | split | simp +zetaDelta only [↓State.vDram_mk, State.vDram_eq, ↓foldl_vDram, ↓ite_vDram, ↓State.setCore_frame, ite_self, implies_true] | (with_reducible refine foldl_dram_canon _ ?_ _ _ ?_ <;> intros))

theorem steerSwitch_dram_canon (c : CoreId) (n : Fin 8) (s : State) (hc : Canon s.vDram) :
    Canon (steerSwitch c n s).vDram := by
  unfold steerSwitch
  repeat' (first | with_reducible assumption | extract_lets | with_reducible apply State.steerFault_dram_canon | with_reducible refine both_dram_canon _ _ _ ?_ ?_ | split | simp +zetaDelta only [↓State.vDram_mk, State.vDram_eq, ↓foldl_vDram, ↓ite_vDram, ↓State.fired_frame, ↓State.freeTile_frame, ↓State.gateRefusal_frame, ↓State.sendTile_frame, ↓State.dropMarker_frame, ↓State.sendMarker_frame, ite_self, implies_true] | (with_reducible refine foldl_dram_canon _ ?_ _ _ ?_ <;> intros))

theorem steerSelect_dram_canon (c : CoreId) (n : Fin 8) (s : State) (hc : Canon s.vDram) :
    Canon (steerSelect c n s).vDram := by
  unfold steerSelect
  repeat' (first | with_reducible assumption | extract_lets | with_reducible apply State.steerFault_dram_canon | with_reducible refine both_dram_canon _ _ _ ?_ ?_ | split | simp +zetaDelta only [↓State.vDram_mk, State.vDram_eq, ↓foldl_vDram, ↓ite_vDram, ↓State.fired_frame, ↓State.freeTile_frame, ↓State.gateRefusal_frame, ↓State.sendTile_frame, ↓State.dropMarker_frame, ↓State.sendMarker_frame, ite_self, implies_true] | (with_reducible refine foldl_dram_canon _ ?_ _ _ ?_ <;> intros))

theorem steerMerge_dram_canon (c : CoreId) (n : Fin 8) (s : State) (hc : Canon s.vDram) :
    Canon (steerMerge c n s).vDram := by
  unfold steerMerge
  repeat' (first | with_reducible assumption | extract_lets | with_reducible apply State.steerFault_dram_canon | with_reducible refine both_dram_canon _ _ _ ?_ ?_ | split | simp +zetaDelta only [↓State.vDram_mk, State.vDram_eq, ↓foldl_vDram, ↓ite_vDram, ↓State.gateRefusal_frame, ↓State.fired_frame, ↓State.freeTile_frame, ↓State.sendTile_frame, ↓State.dropMarker_frame, ↓State.sendMarker_frame, ite_self, implies_true] | (with_reducible refine foldl_dram_canon _ ?_ _ _ ?_ <;> intros))

theorem State.commitLog_dram_canon (s : State) (c : Nat) (hc : Canon s.vDram) :
    Canon (State.commitLog s c).vDram := by
  unfold State.commitLog
  repeat' (first | with_reducible assumption | extract_lets | with_reducible refine State.accessBy_dram_canon _ _ _ _ _ _ _ (fun a ha => ?_) ?_ | with_reducible apply State.jobWrite_dram_canon | with_reducible refine both_dram_canon _ _ _ ?_ ?_ | split | simp +zetaDelta only [↓State.vDram_mk, State.vDram_eq, ↓foldl_vDram, ↓ite_vDram, ↓State.modCore_frame, ite_self, implies_true] | (with_reducible refine foldl_dram_canon _ ?_ _ _ ?_ <;> intros))

theorem State.deadCtx_dram_canon (s : State) (k : Nat) (code : Nat) (addr : Nat) (hc : Canon s.vDram) :
    Canon (State.deadCtx s k code addr).vDram := by
  unfold State.deadCtx
  repeat' (first | with_reducible assumption | extract_lets | with_reducible apply State.hwError_dram_canon | with_reducible apply State.programFault_dram_canon | with_reducible refine both_dram_canon _ _ _ ?_ ?_ | split | simp +zetaDelta only [↓State.vDram_mk, State.vDram_eq, ↓foldl_vDram, ↓ite_vDram, ↓State.modCtx_frame, ↓State.modCore_frame, ite_self, implies_true] | (with_reducible refine foldl_dram_canon _ ?_ _ _ ?_ <;> intros))

theorem State.activate_dram_canon (s : State) (k : Nat) (addr : BitVec 64) (hc : Canon s.vDram) :
    Canon (State.activate s k addr).vDram := by
  unfold State.activate
  repeat' (first | with_reducible assumption | extract_lets | with_reducible apply State.deadCtx_dram_canon | with_reducible refine both_dram_canon _ _ _ ?_ ?_ | split | simp +zetaDelta only [↓State.vDram_mk, State.vDram_eq, ↓foldl_vDram, ↓ite_vDram, ↓State.activateNow_frame, ite_self, implies_true] | (with_reducible refine foldl_dram_canon _ ?_ _ _ ?_ <;> intros))

theorem State.setFtt_dram_canon (s : State) (p : Nat) (port : Nat) (page : Nat) (f : Ftt) (hc : Canon s.vDram) :
    Canon (State.setFtt s p port page f).vDram := by
  unfold State.setFtt
  repeat' (first | with_reducible assumption | extract_lets | with_reducible apply State.jobPost_dram_canon | with_reducible refine both_dram_canon _ _ _ ?_ ?_ | split | simp +zetaDelta only [↓State.vDram_mk, State.vDram_eq, ↓foldl_vDram, ↓ite_vDram, ite_self, implies_true] | (with_reducible refine foldl_dram_canon _ ?_ _ _ ?_ <;> intros))

theorem State.whenFtt_dram_canon (s : State) (p port page : Nat) (f : State → State)
    (h : ∀ a, Canon a.vDram → Canon (f a).vDram) (hc : Canon s.vDram) :
    Canon (State.whenFtt s p port page f).vDram := by
  exact State.whenWritable_dram_canon _ _ _ _ h hc

theorem armWrite_dram_canon (k : CtxKey) (addr : BitVec 64) (s : State) (hc : Canon s.vDram) :
    Canon (armWrite k addr s).vDram := by
  unfold armWrite
  repeat' (first | with_reducible assumption | extract_lets | with_reducible apply State.activate_dram_canon | with_reducible refine both_dram_canon _ _ _ ?_ ?_ | split | simp +zetaDelta only [↓State.vDram_mk, State.vDram_eq, ↓foldl_vDram, ↓ite_vDram, ↓State.setCtx_frame, ↓State.modCtx_frame, ite_self, implies_true] | (with_reducible refine foldl_dram_canon _ ?_ _ _ ?_ <;> intros))

theorem armNext_dram_canon (k : CtxKey) (s : State) (hc : Canon s.vDram) :
    Canon (armNext k s).vDram := by
  unfold armNext
  repeat' (first | with_reducible assumption | extract_lets | with_reducible apply armWrite_dram_canon | with_reducible refine both_dram_canon _ _ _ ?_ ?_ | split | simp +zetaDelta only [↓State.vDram_mk, State.vDram_eq, ↓foldl_vDram, ↓ite_vDram, ↓State.modCore_frame, ite_self, implies_true] | (with_reducible refine foldl_dram_canon _ ?_ _ _ ?_ <;> intros))

theorem strArm_dram_canon (k : CtxKey) (addr : Option (BitVec 64)) (s : State) (hc : Canon s.vDram) :
    Canon (strArm k addr s).vDram := by
  unfold strArm
  repeat' (first | with_reducible assumption | extract_lets | with_reducible apply armWrite_dram_canon | with_reducible apply armNext_dram_canon | with_reducible refine both_dram_canon _ _ _ ?_ ?_ | split | simp +zetaDelta only [↓State.vDram_mk, State.vDram_eq, ↓foldl_vDram, ↓ite_vDram, ite_self, implies_true] | (with_reducible refine foldl_dram_canon _ ?_ _ _ ?_ <;> intros))

theorem descriptorActivate_dram_canon (k : CtxKey) (s : State) (hc : Canon s.vDram) :
    Canon (descriptorActivate k s).vDram := by
  unfold descriptorActivate
  repeat' (first | with_reducible assumption | extract_lets | with_reducible apply State.activate_dram_canon | with_reducible refine both_dram_canon _ _ _ ?_ ?_ | split | simp +zetaDelta only [↓State.vDram_mk, State.vDram_eq, ↓foldl_vDram, ↓ite_vDram, ↓State.modCtx_frame, ite_self, implies_true] | (with_reducible refine foldl_dram_canon _ ?_ _ _ ?_ <;> intros))

theorem strResume_dram_canon (k : CtxKey) (s : State) (hc : Canon s.vDram) :
    Canon (strResume k s).vDram := by
  unfold strResume
  repeat' (first | with_reducible assumption | extract_lets | with_reducible apply State.deadCtx_dram_canon | with_reducible refine both_dram_canon _ _ _ ?_ ?_ | split | simp +zetaDelta only [↓State.vDram_mk, State.vDram_eq, ↓foldl_vDram, ↓ite_vDram, ↓State.resumeFrom_frame, ite_self, implies_true] | (with_reducible refine foldl_dram_canon _ ?_ _ _ ?_ <;> intros))

theorem State.inCtx_dram_canon (s : State) (k : Nat) (f : State → State) (h : ∀ a, Canon a.vDram → Canon (f a).vDram)
    (hc : Canon s.vDram) : Canon (State.inCtx s k f).vDram := by
  unfold State.inCtx
  split
  · exact hc
  · exact h _ (by simpa only [↓State.wake_frame] using hc)

theorem State.extWrite_dram_canon (s : State) (p : Nat) (a : Nat) (bs : List Byte) (hc : Canon s.vDram) :
    Canon (State.extWrite s p a bs).vDram := by
  unfold State.extWrite
  repeat' (first | with_reducible assumption | extract_lets | with_reducible apply State.setFtt_dram_canon | with_reducible refine both_dram_canon _ _ _ ?_ ?_ | split | simp +zetaDelta only [↓State.vDram_mk, State.vDram_eq, ↓foldl_vDram, ↓ite_vDram, ite_self, implies_true] | (with_reducible refine foldl_dram_canon _ ?_ _ _ ?_ <;> intros) | with_reducible apply canon_set | with_reducible apply canon_filter | with_reducible apply canon_dramWrite)

theorem State.external_dram_canon (s : State) (k : CtxKey) (i : Nat) (second : Bool) (write : Bool) (host : List Byte) (f : LineFound) (hc : Canon s.vDram) :
    Canon (State.external s k i second write host f).vDram := by
  unfold State.external
  repeat' (first | with_reducible assumption | extract_lets | with_reducible apply State.extWrite_dram_canon | with_reducible refine both_dram_canon _ _ _ ?_ ?_ | split | simp +zetaDelta only [↓State.vDram_mk, State.vDram_eq, ↓foldl_vDram, ↓ite_vDram, ↓State.respond_frame, ↓State.modCtx_frame, ↓State.hostSend_frame, ↓State.settleWindows_frame, ite_self, implies_true] | (with_reducible refine foldl_dram_canon _ ?_ _ _ ?_ <;> intros))

theorem saveAreaWritten_dram_canon (k : CtxKey) (ok : Bool) (s : State) (hc : Canon s.vDram) :
    Canon (saveAreaWritten k ok s).vDram := by
  unfold saveAreaWritten
  repeat' (first | with_reducible assumption | extract_lets | with_reducible refine State.inCtx_dram_canon _ _ _ (fun a ha => ?_) ?_ | with_reducible apply State.jobWrite_dram_canon | with_reducible apply State.hwError_dram_canon | with_reducible apply State.programFault_dram_canon | with_reducible refine both_dram_canon _ _ _ ?_ ?_ | split | simp +zetaDelta only [↓State.vDram_mk, State.vDram_eq, ↓foldl_vDram, ↓ite_vDram, ↓State.touch_frame, ↓State.writeOver_frame, ↓State.settleWindows_frame, ↓State.setCtx_frame, ↓State.logError_frame, id_eq, ite_self, implies_true] | (with_reducible refine foldl_dram_canon _ ?_ _ _ ?_ <;> intros))

theorem loopLengthLatch_dram_canon (c : CoreId) (s : State) (hc : Canon s.vDram) :
    Canon (loopLengthLatch c s).vDram := by
  unfold loopLengthLatch
  repeat' (first | with_reducible assumption | extract_lets | with_reducible apply State.instFault_dram_canon | with_reducible refine both_dram_canon _ _ _ ?_ ?_ | split | simp +zetaDelta only [↓State.vDram_mk, State.vDram_eq, ↓foldl_vDram, ↓ite_vDram, ↓State.gateRefusal_frame, ↓State.setCore_frame, ite_self, implies_true] | (with_reducible refine foldl_dram_canon _ ?_ _ _ ?_ <;> intros))

theorem State.writeWide_dram_canon (s : State) (c : Nat) (place : Nat) (x : Slot) (hc : Canon s.vDram) :
    Canon (State.writeWide s c place x).vDram := by
  unfold State.writeWide
  repeat' (first | with_reducible assumption | extract_lets | with_reducible apply State.jobWrite_dram_canon | with_reducible refine both_dram_canon _ _ _ ?_ ?_ | split | simp +zetaDelta only [↓State.vDram_mk, State.vDram_eq, ↓foldl_vDram, ↓ite_vDram, ite_self, implies_true] | (with_reducible refine foldl_dram_canon _ ?_ _ _ ?_ <;> intros))

theorem slotSpill_dram_canon (c : CoreId) (j : Fin 32) (s : State) (hc : Canon s.vDram) :
    Canon (slotSpill c j s).vDram := by
  unfold slotSpill
  repeat' (first | with_reducible assumption | extract_lets | with_reducible refine State.accessBy_dram_canon _ _ _ _ _ _ _ (fun a ha => ?_) ?_ | with_reducible apply State.writeWide_dram_canon | with_reducible refine both_dram_canon _ _ _ ?_ ?_ | split | simp +zetaDelta only [↓State.vDram_mk, State.vDram_eq, ↓foldl_vDram, ↓ite_vDram, ↓State.setCore_frame, ite_self, implies_true] | (with_reducible refine foldl_dram_canon _ ?_ _ _ ?_ <;> intros))

theorem slotReload_dram_canon (c : CoreId) (j : Fin 32) (s : State) (hc : Canon s.vDram) :
    Canon (slotReload c j s).vDram := by
  unfold slotReload
  repeat' (first | with_reducible assumption | extract_lets | with_reducible refine State.whenReadable_dram_canon _ _ _ _ (fun a ha => ?_) ?_ | with_reducible refine both_dram_canon _ _ _ ?_ ?_ | split | simp +zetaDelta only [↓State.vDram_mk, State.vDram_eq, ↓foldl_vDram, ↓ite_vDram, ↓State.setCore_frame, ite_self, implies_true] | (with_reducible refine foldl_dram_canon _ ?_ _ _ ?_ <;> intros))

theorem addModeReload_dram_canon (c : CoreId) (j : Fin 32) (src : CoreId) (sj : Fin 32) (s : State) (hc : Canon s.vDram) :
    Canon (addModeReload c j src sj s).vDram := by
  unfold addModeReload
  repeat' (first | with_reducible assumption | extract_lets | with_reducible refine State.accessBy_dram_canon _ _ _ _ _ _ _ (fun a ha => ?_) ?_ | with_reducible apply State.writeWide_dram_canon | with_reducible apply State.hwError_dram_canon | with_reducible refine both_dram_canon _ _ _ ?_ ?_ | split | simp +zetaDelta only [↓State.vDram_mk, State.vDram_eq, ↓foldl_vDram, ↓ite_vDram, ↓State.gateRefusal_frame, ↓State.setCore_frame, ite_self, implies_true] | (with_reducible refine foldl_dram_canon _ ?_ _ _ ?_ <;> intros))

theorem passIssue_dram_canon (c : CoreId) (io : PassIo) (s : State) (hc : Canon s.vDram) :
    Canon (passIssue c io s).vDram := by
  unfold passIssue
  repeat' (first | with_reducible assumption | extract_lets | with_reducible apply State.hwError_dram_canon | with_reducible refine both_dram_canon _ _ _ ?_ ?_ | split | simp +zetaDelta only [↓State.vDram_mk, State.vDram_eq, ↓foldl_vDram, ↓ite_vDram, ↓State.setArith_frame, ↓State.setCore_frame, ↓State.moveRegions_frame, ↓State.freeTiles_frame, ite_self, implies_true] | (with_reducible refine foldl_dram_canon _ ?_ _ _ ?_ <;> intros))

theorem State.setCr_dram_canon (s : State) (p : Nat) (i : Nat) (r : Cr) (hc : Canon s.vDram) :
    Canon (State.setCr s p i r).vDram := by
  unfold State.setCr
  repeat' (first | with_reducible assumption | extract_lets | with_reducible apply State.setJobNat_dram_canon | with_reducible refine both_dram_canon _ _ _ ?_ ?_ | split | simp +zetaDelta only [↓State.vDram_mk, State.vDram_eq, ↓foldl_vDram, ↓ite_vDram, ite_self, implies_true] | (with_reducible refine foldl_dram_canon _ ?_ _ _ ?_ <;> intros))

theorem State.postCr_dram_canon (s : State) (p : Nat) (i : Nat) (r : Cr) (hc : Canon s.vDram) :
    Canon (State.postCr s p i r).vDram := by
  unfold State.postCr
  repeat' (first | with_reducible assumption | extract_lets | with_reducible apply State.postJobNat_dram_canon | with_reducible refine both_dram_canon _ _ _ ?_ ?_ | split | simp +zetaDelta only [↓State.vDram_mk, State.vDram_eq, ↓foldl_vDram, ↓ite_vDram, ite_self, implies_true] | (with_reducible refine foldl_dram_canon _ ?_ _ _ ?_ <;> intros))

theorem State.setCh_dram_canon (s : State) (p : Nat) (d : GroupDesc) (t : Nat) (h : Ch) (hc : Canon s.vDram) :
    Canon (State.setCh s p d t h).vDram := by
  unfold State.setCh
  repeat' (first | with_reducible assumption | extract_lets | with_reducible apply State.setJobNat_dram_canon | with_reducible refine both_dram_canon _ _ _ ?_ ?_ | split | simp +zetaDelta only [↓State.vDram_mk, State.vDram_eq, ↓foldl_vDram, ↓ite_vDram, ite_self, implies_true] | (with_reducible refine foldl_dram_canon _ ?_ _ _ ?_ <;> intros))

theorem State.addI64_dram_canon (s : State) (p : Nat) (addr : Nat) (z : Int) (hc : Canon s.vDram) :
    Canon (State.addI64 s p addr z).vDram := by
  unfold State.addI64
  repeat' (first | with_reducible assumption | extract_lets | with_reducible apply State.setJobNat_dram_canon | with_reducible refine both_dram_canon _ _ _ ?_ ?_ | split | simp +zetaDelta only [↓State.vDram_mk, State.vDram_eq, ↓foldl_vDram, ↓ite_vDram, ite_self, implies_true] | (with_reducible refine foldl_dram_canon _ ?_ _ _ ?_ <;> intros))

theorem State.jobZero_dram_canon (s : State) (p : Nat) (addr : Nat) (n : Nat) (hc : Canon s.vDram) :
    Canon (State.jobZero s p addr n).vDram := by
  unfold State.jobZero
  repeat' (first | with_reducible assumption | extract_lets | with_reducible apply State.jobWrite_dram_canon | with_reducible refine both_dram_canon _ _ _ ?_ ?_ | split | simp +zetaDelta only [↓State.vDram_mk, State.vDram_eq, ↓foldl_vDram, ↓ite_vDram, ite_self, implies_true] | (with_reducible refine foldl_dram_canon _ ?_ _ _ ?_ <;> intros))

theorem State.postZero_dram_canon (s : State) (p : Nat) (addr : Nat) (n : Nat) (hc : Canon s.vDram) :
    Canon (State.postZero s p addr n).vDram := by
  unfold State.postZero
  repeat' (first | with_reducible assumption | extract_lets | with_reducible apply State.jobPost_dram_canon | with_reducible refine both_dram_canon _ _ _ ?_ ?_ | split | simp +zetaDelta only [↓State.vDram_mk, State.vDram_eq, ↓foldl_vDram, ↓ite_vDram, ite_self, implies_true] | (with_reducible refine foldl_dram_canon _ ?_ _ _ ?_ <;> intros))

theorem State.setOrec_dram_canon (s : State) (p : Nat) (d : GroupDesc) (t : Nat) (r : Or) (hc : Canon s.vDram) :
    Canon (State.setOrec s p d t r).vDram := by
  unfold State.setOrec
  repeat' (first | with_reducible assumption | extract_lets | with_reducible apply State.setJobNat_dram_canon | with_reducible refine both_dram_canon _ _ _ ?_ ?_ | split | simp +zetaDelta only [↓State.vDram_mk, State.vDram_eq, ↓foldl_vDram, ↓ite_vDram, ite_self, implies_true] | (with_reducible refine foldl_dram_canon _ ?_ _ _ ?_ <;> intros))

theorem State.postOrec_dram_canon (s : State) (p : Nat) (d : GroupDesc) (t : Nat) (r : Or) (hc : Canon s.vDram) :
    Canon (State.postOrec s p d t r).vDram := by
  unfold State.postOrec
  repeat' (first | with_reducible assumption | extract_lets | with_reducible apply State.postJobNat_dram_canon | with_reducible refine both_dram_canon _ _ _ ?_ ?_ | split | simp +zetaDelta only [↓State.vDram_mk, State.vDram_eq, ↓foldl_vDram, ↓ite_vDram, ite_self, implies_true] | (with_reducible refine foldl_dram_canon _ ?_ _ _ ?_ <;> intros))

theorem State.setGs_dram_canon (s : State) (p : Nat) (d : GroupDesc) (g : Gs) (hc : Canon s.vDram) :
    Canon (State.setGs s p d g).vDram := by
  unfold State.setGs
  repeat' (first | with_reducible assumption | extract_lets | with_reducible apply State.setJobNat_dram_canon | with_reducible refine both_dram_canon _ _ _ ?_ ?_ | split | simp +zetaDelta only [↓State.vDram_mk, State.vDram_eq, ↓foldl_vDram, ↓ite_vDram, ite_self, implies_true] | (with_reducible refine foldl_dram_canon _ ?_ _ _ ?_ <;> intros))

theorem State.recastTile_dram_canon (s : State) (p : Nat) (e : Nat) (x : Nat) (be : Nat) (bx : Nat) (hc : Canon s.vDram) :
    Canon (State.recastTile s p e x be bx).vDram := by
  unfold State.recastTile
  repeat' (first | with_reducible assumption | extract_lets | with_reducible apply State.jobWrite_dram_canon | with_reducible refine both_dram_canon _ _ _ ?_ ?_ | split | simp +zetaDelta only [↓State.vDram_mk, State.vDram_eq, ↓foldl_vDram, ↓ite_vDram, ite_self, implies_true] | (with_reducible refine foldl_dram_canon _ ?_ _ _ ?_ <;> intros))

theorem State.recastFrozen_dram_canon (s : State) (p : Nat) (hc : Canon s.vDram) :
    Canon (State.recastFrozen s p).vDram := by
  unfold State.recastFrozen
  repeat' (first | with_reducible assumption | extract_lets | with_reducible apply State.recastTile_dram_canon | with_reducible refine both_dram_canon _ _ _ ?_ ?_ | split | simp +zetaDelta only [↓State.vDram_mk, State.vDram_eq, ↓foldl_vDram, ↓ite_vDram, ite_self, implies_true] | (with_reducible refine foldl_dram_canon _ ?_ _ _ ?_ <;> intros))

theorem State.whenScaling_dram_canon (s : State) (p c : Nat) (tensor : BitVec 32) (posts : Bool) (f : State → State)
    (h : ∀ a, Canon a.vDram → Canon (f a).vDram) (hc : Canon s.vDram) :
    Canon (State.whenScaling s p c tensor posts f).vDram := by
  unfold State.whenScaling
  split
  · exact h s hc
  · split
    · exact State.whenUnit_dram_canon _ _ _ _ _ _ _ h hc
    · exact h s hc

theorem State.postScaling_dram_canon (s : State) (p : Nat) (tensor : BitVec 32) (step : Nat) (sat : Nat) (amax : BitVec 32) (hc : Canon s.vDram) :
    Canon (State.postScaling s p tensor step sat amax).vDram := by
  unfold State.postScaling
  repeat' (first | with_reducible assumption | extract_lets | with_reducible apply State.setJobNat_dram_canon | with_reducible refine both_dram_canon _ _ _ ?_ ?_ | split | simp +zetaDelta only [↓State.vDram_mk, State.vDram_eq, ↓foldl_vDram, ↓ite_vDram, ite_self, implies_true] | (with_reducible refine foldl_dram_canon _ ?_ _ _ ?_ <;> intros))

theorem drainComplete_dram_canon (c : CoreId) (s : State) (hc : Canon s.vDram) :
    Canon (drainComplete c s).vDram := by
  unfold drainComplete
  repeat' (first | with_reducible assumption | extract_lets | with_reducible refine State.whenScaling_dram_canon _ _ _ _ _ _ (fun a ha => ?_) ?_ | with_reducible apply State.postScaling_dram_canon | with_reducible refine both_dram_canon _ _ _ ?_ ?_ | split | simp +zetaDelta only [↓State.vDram_mk, State.vDram_eq, ↓foldl_vDram, ↓ite_vDram, ↓State.setCore_frame, ↓State.sendMarker_frame, ↓State.moveRegions_frame, ↓State.noteWritten_frame, ite_self, implies_true] | (with_reducible refine foldl_dram_canon _ ?_ _ _ ?_ <;> intros))

theorem vectorIssue_dram_canon (c : CoreId) (io : IssueIo) (s : State) (hc : Canon s.vDram) :
    Canon (vectorIssue c io s).vDram := by
  unfold vectorIssue
  repeat' (first | with_reducible assumption | extract_lets | with_reducible refine State.whenScaling_dram_canon _ _ _ _ _ _ (fun a ha => ?_) ?_ | with_reducible apply State.postScaling_dram_canon | with_reducible refine both_dram_canon _ _ _ ?_ ?_ | split | simp +zetaDelta only [↓State.vDram_mk, State.vDram_eq, ↓foldl_vDram, ↓ite_vDram, ↓State.sendMarker_frame, ↓State.setCore_frame, ↓State.gateRefusal_frame, ↓State.setArith_frame, ↓State.sendTile_frame, ↓State.moveRegions_frame, ↓State.noteWritten_frame, ↓State.freeTiles_frame, ite_self, implies_true] | (with_reducible refine foldl_dram_canon _ ?_ _ _ ?_ <;> intros))

theorem State.respondFault_dram_canon (s : State) (k : Nat) (r : MemReq) (code : Nat) (hc : Canon s.vDram) :
    Canon (State.respondFault s k r code).vDram := by
  unfold State.respondFault
  repeat' (first | with_reducible assumption | extract_lets | with_reducible apply State.programFault_dram_canon | with_reducible refine both_dram_canon _ _ _ ?_ ?_ | split | simp +zetaDelta only [↓State.vDram_mk, State.vDram_eq, ↓foldl_vDram, ↓ite_vDram, ↓State.respond_frame, ↓State.logError_frame, ite_self, implies_true] | (with_reducible refine foldl_dram_canon _ ?_ _ _ ?_ <;> intros))

theorem State.serve_dram_canon (s : State) (k : Nat) (r : MemReq) (f : LineFound) (hc : Canon s.vDram) :
    Canon (State.serve s k r f).vDram := by
  unfold State.serve
  repeat' (first | with_reducible assumption | extract_lets | with_reducible apply State.dramUe_dram_canon | with_reducible apply State.respondFault_dram_canon | with_reducible apply State.setDramBytes_dram_canon | with_reducible refine both_dram_canon _ _ _ ?_ ?_ | split | simp +zetaDelta only [↓State.vDram_mk, State.vDram_eq, ↓foldl_vDram, ↓ite_vDram, ↓State.bar2Refuse_frame, ↓State.poisonSeen_frame, ↓State.respondData_frame, ↓State.countCe_frame, ↓State.respondAck_frame, ↓State.setChan_frame, ite_self, implies_true] | (with_reducible refine foldl_dram_canon _ ?_ _ _ ?_ <;> intros))

theorem State.admitLine_dram_canon (s : State) (k : Nat) (r : MemReq) (f : LineFound) (hc : Canon s.vDram) :
    Canon (s.admitLine k r f).1.vDram := by
  unfold State.admitLine
  extract_lets t
  split
  · dsimp only; split
    · simpa only [↓State.bar2Refuse_frame] using hc
    · exact State.respondFault_dram_canon _ _ _ _ hc
  · exact State.respondFault_dram_canon _ _ _ _ hc
  · exact State.serve_dram_canon _ _ _ _ hc
  · have h1 : Canon (if r.act.isWrite = true then s.firstTouch (chanTower k) r.frame else s).vDram := by
      split
      · simpa only [↓State.firstTouch_frame] using hc
      · exact hc
    split
    · simpa only [↓State.setChan_frame] using h1
    · exact h1

theorem State.arrive_dram_canon (s : State) (k : Nat) (r : MemReq) (f : LineFound) (hc : Canon s.vDram) :
    Canon (s.arrive k r f).vDram := by
  have a := State.admitLine_dram_canon s k r f hc
  unfold State.arrive
  split
  · exact hc
  · split
    · simpa only [↓State.refuse_frame] using hc
    · split <;> rename_i s1 h <;> simp only [h] at a
      · exact a
      · simpa only [↓State.refuse_frame] using a

theorem State.portRequest_dram_canon (s : State) (c : CoreId) (k : Nat) (r : MemReq) (f : LineFound) (hc : Canon s.vDram) :
    Canon (State.portRequest s c k r f).vDram := by
  unfold State.portRequest
  repeat' (first | with_reducible assumption | extract_lets | with_reducible apply State.arrive_dram_canon | with_reducible refine both_dram_canon _ _ _ ?_ ?_ | split | simp +zetaDelta only [↓State.vDram_mk, State.vDram_eq, ↓foldl_vDram, ↓ite_vDram, ↓State.gateRefusal_frame, ite_self, implies_true] | (with_reducible refine foldl_dram_canon _ ?_ _ _ ?_ <;> intros))

theorem channelRequest_dram_canon (a : ChanArrival) (f : LineFound) (s : State) (hc : Canon s.vDram) :
    Canon (channelRequest a f s).vDram := by
  unfold channelRequest
  repeat' (first | with_reducible assumption | extract_lets | with_reducible apply State.arrive_dram_canon | with_reducible apply State.portRequest_dram_canon | with_reducible apply State.programFault_dram_canon | with_reducible apply State.external_dram_canon | with_reducible refine both_dram_canon _ _ _ ?_ ?_ | split | simp +zetaDelta only [↓State.vDram_mk, State.vDram_eq, ↓foldl_vDram, ↓ite_vDram, ↓State.modCtx_frame, ↓State.readBack_frame, ↓State.hostSend_frame, ite_self, implies_true] | (with_reducible refine foldl_dram_canon _ ?_ _ _ ?_ <;> intros))

theorem memsideOp_dram_canon (c : CoreId) (addr : BitVec 64) (code : BitVec 4) (mask : BitVec 64) (operand : BitVec 512) (f : LineFound) (s : State) (hc : Canon s.vDram) :
    Canon (memsideOp c addr code mask operand f s).vDram := by
  unfold memsideOp
  repeat' (first | with_reducible assumption | extract_lets | with_reducible apply State.programFault_dram_canon | with_reducible apply State.portRequest_dram_canon | with_reducible refine both_dram_canon _ _ _ ?_ ?_ | split | simp +zetaDelta only [↓State.vDram_mk, State.vDram_eq, ↓foldl_vDram, ↓ite_vDram, ite_self, implies_true] | (with_reducible refine foldl_dram_canon _ ?_ _ _ ?_ <;> intros))

theorem retryResend_dram_canon (k : ChannelId) (src : Fin 1026) (f : LineFound) (s : State) (hc : Canon s.vDram) :
    Canon (retryResend k src f s).vDram := by
  unfold retryResend
  extract_lets c
  split
  · exact hc
  · split
    · exact hc
    · split
      · exact hc
      · rename_i r hr
        have a := State.admitLine_dram_canon s k.val r f hc
        split <;> rename_i s1 h <;> simp only [h] at a
        · simpa only [↓State.setChan_frame] using a
        · extract_lets c1 s2
          simpa only [↓State.markRefused_frame, s2, ↓State.setChan_frame] using a

theorem State.applyHeld_dram_canon (s : State) (t : Nat) (g : Nat) (hc : Canon s.vDram) :
    Canon (State.applyHeld s t g).vDram := by
  unfold State.applyHeld
  repeat' (first | with_reducible assumption | extract_lets | with_reducible apply State.serve_dram_canon | with_reducible refine both_dram_canon _ _ _ ?_ ?_ | split | simp +zetaDelta only [↓State.vDram_mk, State.vDram_eq, ↓foldl_vDram, ↓ite_vDram, ↓State.setChan_frame, ite_self, implies_true] | (with_reducible refine foldl_dram_canon _ ?_ _ _ ?_ <;> intros))

theorem State.writeFrame_dram_canon (s : State) (t : Nat) (g : Nat) (f : Frame) (hc : Canon s.vDram) :
    Canon (State.writeFrame s t g f).vDram := by
  unfold State.writeFrame
  repeat' (first | with_reducible assumption | extract_lets | with_reducible apply State.applyHeld_dram_canon | with_reducible refine both_dram_canon _ _ _ ?_ ?_ | split | simp +zetaDelta only [↓State.vDram_mk, State.vDram_eq, ↓foldl_vDram, ↓ite_vDram, ↓State.setFrame_frame, ite_self, implies_true] | (with_reducible refine foldl_dram_canon _ ?_ _ _ ?_ <;> intros))

theorem frameTableWrite_dram_canon (t : TowerId) (g : Fin 49152) (v : BitVec 64) (s : State) (hc : Canon s.vDram) :
    Canon (frameTableWrite t g v s).vDram := by
  unfold frameTableWrite
  repeat' (first | with_reducible assumption | extract_lets | with_reducible apply State.writeFrame_dram_canon | with_reducible refine both_dram_canon _ _ _ ?_ ?_ | split | simp +zetaDelta only [↓State.vDram_mk, State.vDram_eq, ↓foldl_vDram, ↓ite_vDram, ite_self, implies_true] | (with_reducible refine foldl_dram_canon _ ?_ _ _ ?_ <;> intros))

theorem State.scrubLine_dram_canon (s : State) (k : Nat) (addr : Nat) (corrected : Bool) (bad : Bool) (hc : Canon s.vDram) :
    Canon (State.scrubLine s k addr corrected bad).vDram := by
  unfold State.scrubLine
  repeat' (first | with_reducible assumption | extract_lets | with_reducible apply State.dramUe_dram_canon | with_reducible refine both_dram_canon _ _ _ ?_ ?_ | split | simp +zetaDelta only [↓State.vDram_mk, State.vDram_eq, ↓foldl_vDram, ↓ite_vDram, ↓State.setChan_frame, ite_self, implies_true] | (with_reducible refine foldl_dram_canon _ ?_ _ _ ?_ <;> intros))

theorem scrubSlot_dram_canon (k : ChannelId) (corrected : BitVec 32) (bad : BitVec 32) (odecc : Nat) (s : State) (hc : Canon s.vDram) :
    Canon (scrubSlot k corrected bad odecc s).vDram := by
  unfold scrubSlot
  repeat' (first | with_reducible assumption | extract_lets | with_reducible apply State.scrubLine_dram_canon | with_reducible refine both_dram_canon _ _ _ ?_ ?_ | split | simp +zetaDelta only [↓State.vDram_mk, State.vDram_eq, ↓foldl_vDram, ↓ite_vDram, ↓State.setChan_frame, ite_self, implies_true] | (with_reducible refine foldl_dram_canon _ ?_ _ _ ?_ <;> intros))

theorem sramUe_dram_canon (c : CoreId) (store : Fin 5) (bank : BitVec 8) (hit : SramHit) (s : State) (hc : Canon s.vDram) :
    Canon (sramUe c store bank hit s).vDram := by
  unfold sramUe
  repeat' (first | with_reducible assumption | extract_lets | with_reducible apply State.hwError_dram_canon | with_reducible refine both_dram_canon _ _ _ ?_ ?_ | split | simp +zetaDelta only [↓State.vDram_mk, State.vDram_eq, ↓foldl_vDram, ↓ite_vDram, ↓State.setCore_frame, ite_self, implies_true] | (with_reducible refine foldl_dram_canon _ ?_ _ _ ?_ <;> intros))

theorem State.openOwned_dram_canon (s : State) (p : Nat) (step : Nat) (d : GroupDesc) (t : Nat) (hc : Canon s.vDram) :
    Canon (State.openOwned s p step d t).vDram := by
  unfold State.openOwned
  repeat' (first | with_reducible assumption | extract_lets | with_reducible apply State.postZero_dram_canon | with_reducible apply State.postOrec_dram_canon | with_reducible refine both_dram_canon _ _ _ ?_ ?_ | split | simp +zetaDelta only [↓State.vDram_mk, State.vDram_eq, ↓foldl_vDram, ↓ite_vDram, ite_self, implies_true] | (with_reducible refine foldl_dram_canon _ ?_ _ _ ?_ <;> intros))

theorem State.openGroup_dram_canon (s : State) (p : Nat) (step : Nat) (d : GroupDesc) (hc : Canon s.vDram) :
    Canon (State.openGroup s p step d).vDram := by
  unfold State.openGroup
  repeat' (first | with_reducible assumption | extract_lets | with_reducible apply State.setGs_dram_canon | with_reducible refine both_dram_canon _ _ _ ?_ ?_ | split | simp +zetaDelta only [↓State.vDram_mk, State.vDram_eq, ↓foldl_vDram, ↓ite_vDram, ite_self, implies_true] | (with_reducible refine foldl_dram_canon _ ?_ _ _ ?_ <;> intros))

theorem State.openGroups_dram_canon (s : State) (p : Nat) (step : BitVec 64) (hc : Canon s.vDram) :
    Canon (State.openGroups s p step).vDram := by
  unfold State.openGroups
  repeat' (first | with_reducible assumption | extract_lets | with_reducible apply State.openGroup_dram_canon | with_reducible refine both_dram_canon _ _ _ ?_ ?_ | split | simp +zetaDelta only [↓State.vDram_mk, State.vDram_eq, ↓foldl_vDram, ↓ite_vDram, ↓State.modJob_frame, ite_self, implies_true] | (with_reducible refine foldl_dram_canon _ ?_ _ _ ?_ <;> intros))

theorem stepStart_dram_canon (c : CoreId) (wait : BitVec 32) (s : State) (hc : Canon s.vDram) :
    Canon (stepStart c wait s).vDram := by
  unfold stepStart
  repeat' (first | with_reducible assumption | extract_lets | with_reducible apply State.openGroups_dram_canon | with_reducible apply State.openOwned_dram_canon | with_reducible refine both_dram_canon _ _ _ ?_ ?_ | split | simp +zetaDelta only [↓State.vDram_mk, State.vDram_eq, ↓foldl_vDram, ↓ite_vDram, ↓State.setCore_frame, ↓State.modCtx_frame, ↓State.modCore_frame, ↓State.modJob_frame, ↓State.applyRejoins_frame, ite_self, implies_true] | (with_reducible refine foldl_dram_canon _ ?_ _ _ ?_ <;> intros))

theorem stepEnd_dram_canon (c : CoreId) (idle0 : BitVec 32) (idle1 : BitVec 32) (idle2 : BitVec 32) (s : State) (hc : Canon s.vDram) :
    Canon (stepEnd c idle0 idle1 idle2 s).vDram := by
  unfold stepEnd
  repeat' (first | with_reducible assumption | extract_lets | with_reducible apply State.commitLog_dram_canon | with_reducible refine both_dram_canon _ _ _ ?_ ?_ | split | simp +zetaDelta only [↓State.vDram_mk, State.vDram_eq, ↓foldl_vDram, ↓ite_vDram, ↓State.setCore_frame, ↓State.modJob_frame, ↓State.partStepEnd_frame, ite_self, implies_true] | (with_reducible refine foldl_dram_canon _ ?_ _ _ ?_ <;> intros))

theorem State.diverge_dram_canon (s : State) (c : Nat) (step : BitVec 64) (x : Nat × Nat × Nat) (hc : Canon s.vDram) :
    Canon (State.diverge s c step x).vDram := by
  unfold State.diverge
  repeat' (first | with_reducible assumption | extract_lets | with_reducible apply State.hwError_dram_canon | with_reducible refine both_dram_canon _ _ _ ?_ ?_ | split | simp +zetaDelta only [↓State.vDram_mk, State.vDram_eq, ↓foldl_vDram, ↓ite_vDram, ↓State.jobEvent_frame, ↓State.logError_frame, ↓State.schedule_frame, ite_self, implies_true] | (with_reducible refine foldl_dram_canon _ ?_ _ _ ?_ <;> intros))

theorem State.compareStep_dram_canon (s : State) (c : Nat) (recs : List LogRec) (n : StepCounts) (hc : Canon s.vDram) :
    Canon (State.compareStep s c recs n).vDram := by
  unfold State.compareStep
  repeat' (first | with_reducible assumption | extract_lets | with_reducible apply State.diverge_dram_canon | with_reducible refine both_dram_canon _ _ _ ?_ ?_ | split | simp +zetaDelta only [↓State.vDram_mk, State.vDram_eq, ↓foldl_vDram, ↓ite_vDram, ite_self, implies_true] | (with_reducible refine foldl_dram_canon _ ?_ _ _ ?_ <;> intros))

theorem State.compareCore_dram_canon (s : State) (c : Nat) (hc : Canon s.vDram) :
    Canon (State.compareCore s c).vDram := by
  unfold State.compareCore
  repeat' (first | with_reducible assumption | extract_lets | with_reducible apply State.compareStep_dram_canon | with_reducible refine both_dram_canon _ _ _ ?_ ?_ | split | simp +zetaDelta only [↓State.vDram_mk, State.vDram_eq, ↓foldl_vDram, ↓ite_vDram, ↓State.modCore_frame, ite_self, implies_true] | (with_reducible refine foldl_dram_canon _ ?_ _ _ ?_ <;> intros))

theorem reportCompare_dram_canon (t : TowerId) (s : State) (hc : Canon s.vDram) :
    Canon (reportCompare t s).vDram := by
  unfold reportCompare
  repeat' (first | with_reducible assumption | extract_lets | with_reducible apply State.compareCore_dram_canon | with_reducible refine both_dram_canon _ _ _ ?_ ?_ | split | simp +zetaDelta only [↓State.vDram_mk, State.vDram_eq, ↓foldl_vDram, ↓ite_vDram, ite_self, implies_true] | (with_reducible refine foldl_dram_canon _ ?_ _ _ ?_ <;> intros))

theorem State.unstick_dram_canon (s : State) (c : Nat) (e : Nat) (hc : Canon s.vDram) :
    Canon (State.unstick s c e).vDram := by
  unfold State.unstick
  repeat' (first | with_reducible assumption | extract_lets | with_reducible apply State.coreFault_dram_canon | with_reducible apply State.spillAll_dram_canon | with_reducible refine both_dram_canon _ _ _ ?_ ?_ | split | simp +zetaDelta only [↓State.vDram_mk, State.vDram_eq, ↓foldl_vDram, ↓ite_vDram, ↓State.setCore_frame, ↓State.logError_frame, ite_self, implies_true] | (with_reducible refine foldl_dram_canon _ ?_ _ _ ?_ <;> intros))

theorem stallTimerExpire_dram_canon (c : CoreId) (eps : BitVec 32) (s : State) (hc : Canon s.vDram) :
    Canon (stallTimerExpire c eps s).vDram := by
  unfold stallTimerExpire
  repeat' (first | with_reducible assumption | extract_lets | with_reducible apply State.unstick_dram_canon | with_reducible refine both_dram_canon _ _ _ ?_ ?_ | split | simp +zetaDelta only [↓State.vDram_mk, State.vDram_eq, ↓foldl_vDram, ↓ite_vDram, ite_self, implies_true] | (with_reducible refine foldl_dram_canon _ ?_ _ _ ?_ <;> intros))

theorem State.resumeFar_dram_canon (s : State) (p : Nat) (port : Nat) (page : Nat) (hc : Canon s.vDram) :
    Canon (State.resumeFar s p port page).vDram := by
  unfold State.resumeFar
  repeat' (first | with_reducible assumption | extract_lets | with_reducible apply strResume_dram_canon | with_reducible refine both_dram_canon _ _ _ ?_ ?_ | split | simp +zetaDelta only [↓State.vDram_mk, State.vDram_eq, ↓foldl_vDram, ↓ite_vDram, ite_self, implies_true] | (with_reducible refine foldl_dram_canon _ ?_ _ _ ?_ <;> intros))

theorem State.farUnmapped_dram_canon (s : State) (p : Nat) (addr : Nat) (hc : Canon s.vDram) :
    Canon (State.farUnmapped s p addr).vDram := by
  unfold State.farUnmapped
  repeat' (first | with_reducible assumption | extract_lets | with_reducible apply State.programFault_dram_canon | with_reducible refine both_dram_canon _ _ _ ?_ ?_ | split | simp +zetaDelta only [↓State.vDram_mk, State.vDram_eq, ↓foldl_vDram, ↓ite_vDram, ite_self, implies_true] | (with_reducible refine foldl_dram_canon _ ?_ _ _ ?_ <;> intros))

theorem farFaultResolve_dram_canon (k : CtxKey) (s : State) (hc : Canon s.vDram) :
    Canon (farFaultResolve k s).vDram := by
  unfold farFaultResolve
  repeat' (first | with_reducible assumption | extract_lets | with_reducible refine State.whenFtt_dram_canon _ _ _ _ _ (fun a ha => ?_) ?_ | with_reducible apply State.resumeFar_dram_canon | with_reducible apply State.farUnmapped_dram_canon | with_reducible refine both_dram_canon _ _ _ ?_ ?_ | split | simp +zetaDelta only [↓State.vDram_mk, State.vDram_eq, ↓foldl_vDram, ↓ite_vDram, ↓State.startFill_frame, ↓State.jobEvent_frame, ↓State.logError_frame, ite_self, implies_true] | (with_reducible refine foldl_dram_canon _ ?_ _ _ ?_ <;> intros))

theorem farFillComplete_dram_canon (p : PartId) (port : Fin 2) (page : Fin 2097152) (host : List Byte) (s : State) (hc : Canon s.vDram) :
    Canon (farFillComplete p port page host s).vDram := by
  unfold farFillComplete
  repeat' (first | with_reducible assumption | extract_lets | with_reducible refine State.whenFtt_dram_canon _ _ _ _ _ (fun a ha => ?_) ?_ | with_reducible apply State.setFtt_dram_canon | with_reducible apply State.resumeFar_dram_canon | with_reducible refine both_dram_canon _ _ _ ?_ ?_ | split | simp +zetaDelta only [↓State.vDram_mk, State.vDram_eq, ↓foldl_vDram, ↓ite_vDram, ↓State.modPart_frame, ite_self, implies_true] | (with_reducible refine foldl_dram_canon _ ?_ _ _ ?_ <;> intros) | with_reducible apply canon_set | with_reducible apply canon_filter | with_reducible apply canon_dramWrite)

theorem State.beginEvict_dram_canon (s : State) (p : Nat) (port : Nat) (page : Nat) (hc : Canon s.vDram) :
    Canon (State.beginEvict s p port page).vDram := by
  unfold State.beginEvict
  repeat' (first | with_reducible assumption | extract_lets | with_reducible apply State.setFtt_dram_canon | with_reducible refine both_dram_canon _ _ _ ?_ ?_ | split | simp +zetaDelta only [↓State.vDram_mk, State.vDram_eq, ↓foldl_vDram, ↓ite_vDram, ↓State.refuseEvict_frame, ↓State.evicting_frame, ite_self, implies_true] | (with_reducible refine foldl_dram_canon _ ?_ _ _ ?_ <;> intros))

theorem farEvict_dram_canon (p : PartId) (addr : BitVec 64) (s : State) (hc : Canon s.vDram) :
    Canon (farEvict p addr s).vDram := by
  unfold farEvict
  repeat' (first | with_reducible assumption | extract_lets | with_reducible refine State.whenFtt_dram_canon _ _ _ _ _ (fun a ha => ?_) ?_ | with_reducible apply State.beginEvict_dram_canon | with_reducible refine both_dram_canon _ _ _ ?_ ?_ | split | simp +zetaDelta only [↓State.vDram_mk, State.vDram_eq, ↓foldl_vDram, ↓ite_vDram, ↓State.refuseEvict_frame, ↓State.evicting_frame, id_eq, ite_self, implies_true] | (with_reducible refine foldl_dram_canon _ ?_ _ _ ?_ <;> intros))

theorem evictComplete_dram_canon (p : PartId) (s : State) (hc : Canon s.vDram) :
    Canon (evictComplete p s).vDram := by
  unfold evictComplete
  repeat' (first | with_reducible assumption | extract_lets | with_reducible refine State.whenFtt_dram_canon _ _ _ _ _ (fun a ha => ?_) ?_ | with_reducible apply State.beginEvict_dram_canon | with_reducible apply State.setFtt_dram_canon | with_reducible refine both_dram_canon _ _ _ ?_ ?_ | split | simp +zetaDelta only [↓State.vDram_mk, State.vDram_eq, ↓foldl_vDram, ↓ite_vDram, ↓State.refuseEvict_frame, ↓State.returnPage_frame, ↓State.modJcp_frame, ↓State.modPart_frame, ↓State.retryAllFar_frame, ↓State.jobEvent_frame, ite_self, implies_true] | (with_reducible refine foldl_dram_canon _ ?_ _ _ ?_ <;> intros))

theorem cxlLinkDown_dram_canon (port : Fin 2) (s : State) (hc : Canon s.vDram) :
    Canon (cxlLinkDown port s).vDram := by
  unfold cxlLinkDown
  repeat' (first | with_reducible assumption | extract_lets | with_reducible apply State.setFtt_dram_canon | with_reducible refine both_dram_canon _ _ _ ?_ ?_ | split | simp +zetaDelta only [↓State.vDram_mk, State.vDram_eq, ↓foldl_vDram, ↓ite_vDram, ↓State.timeoutPort_frame, ↓State.setCxlPort_frame, ↓State.modPart_frame, ↓State.logError_frame, ite_self, implies_true] | (with_reducible refine foldl_dram_canon _ ?_ _ _ ?_ <;> intros))

theorem State.addRow_dram_canon (s : State) (p addr offset : Nat) (l : List Int) (hc : Canon s.vDram) :
    Canon (s.addRow p addr offset l).vDram := by
  induction l generalizing s addr with
  | nil => exact hc
  | cons z t ih => exact ih _ _ (State.addI64_dram_canon _ _ _ _ hc)

theorem State.addRows_dram_canon (s : State) (p addr offset : Nat) (l : List RedRow) (hc : Canon s.vDram) :
    Canon (s.addRows p addr offset l).vDram := by
  induction l generalizing s addr with
  | nil => exact hc
  | cons z t ih =>
    apply ih
    split
    · exact hc
    · exact State.addRow_dram_canon _ _ _ _ _ hc

theorem reductionAdd_dram_canon (c : CoreId) (s : State) (hc : Canon s.vDram) :
    Canon (reductionAdd c s).vDram := by
  unfold reductionAdd
  repeat' (first | with_reducible assumption | extract_lets | with_reducible refine State.whenUnit_dram_canon _ _ _ _ _ _ _ (fun a ha => ?_) ?_ | with_reducible apply State.addRows_dram_canon | with_reducible apply State.setCh_dram_canon | with_reducible apply State.setCr_dram_canon | with_reducible refine both_dram_canon _ _ _ ?_ ?_ | split | simp +zetaDelta only [↓State.vDram_mk, State.vDram_eq, ↓foldl_vDram, ↓ite_vDram, ↓State.modCore_frame, ite_self, implies_true] | (with_reducible refine foldl_dram_canon _ ?_ _ _ ?_ <;> intros))

theorem redrain_dram_canon (c : CoreId) (s : State) (hc : Canon s.vDram) :
    Canon (redrain c s).vDram := by
  unfold redrain
  repeat' (first | with_reducible assumption | extract_lets | with_reducible refine State.whenUnit_dram_canon _ _ _ _ _ _ _ (fun a ha => ?_) ?_ | with_reducible apply State.setCh_dram_canon | with_reducible refine both_dram_canon _ _ _ ?_ ?_ | split | simp +zetaDelta only [↓State.vDram_mk, State.vDram_eq, ↓foldl_vDram, ↓ite_vDram, ↓State.markResend_frame, ↓State.setArith_frame, ↓State.setCore_frame, ↓State.modCore_frame, ite_self, implies_true] | (with_reducible refine foldl_dram_canon _ ?_ _ _ ?_ <;> intros))

theorem State.report_dram_canon (s : State) (p : Nat) (i : Nat) (step : BitVec 32) (hc : Canon s.vDram) :
    Canon (State.report s p i step).vDram := by
  unfold State.report
  repeat' (first | with_reducible assumption | extract_lets | with_reducible apply State.setCr_dram_canon | with_reducible refine both_dram_canon _ _ _ ?_ ?_ | split | simp +zetaDelta only [↓State.vDram_mk, State.vDram_eq, ↓foldl_vDram, ↓ite_vDram, ↓State.sendRc_frame, ite_self, implies_true] | (with_reducible refine foldl_dram_canon _ ?_ _ _ ?_ <;> intros))

theorem tileCloseReport_dram_canon (c : CoreId) (s : State) (hc : Canon s.vDram) :
    Canon (tileCloseReport c s).vDram := by
  unfold tileCloseReport
  repeat' (first | with_reducible assumption | extract_lets | with_reducible refine State.whenUnit_dram_canon _ _ _ _ _ _ _ (fun a ha => ?_) ?_ | with_reducible apply State.report_dram_canon | with_reducible refine both_dram_canon _ _ _ ?_ ?_ | split | simp +zetaDelta only [↓State.vDram_mk, State.vDram_eq, ↓foldl_vDram, ↓ite_vDram, ↓State.setCore_frame, ite_self, implies_true] | (with_reducible refine foldl_dram_canon _ ?_ _ _ ?_ <;> intros))

theorem State.reopen_dram_canon (s : State) (p : Nat) (d : GroupDesc) (t : Nat) (scale : Nat) (hc : Canon s.vDram) :
    Canon (State.reopen s p d t scale).vDram := by
  unfold State.reopen
  repeat' (first | with_reducible assumption | extract_lets | with_reducible apply State.setOrec_dram_canon | with_reducible apply State.jobZero_dram_canon | with_reducible apply State.setGs_dram_canon | with_reducible refine both_dram_canon _ _ _ ?_ ?_ | split | simp +zetaDelta only [↓State.vDram_mk, State.vDram_eq, ↓foldl_vDram, ↓ite_vDram, ↓State.sendRc_frame, ↓State.markResend_frame, ite_self, implies_true] | (with_reducible refine foldl_dram_canon _ ?_ _ _ ?_ <;> intros))

theorem State.decideTile_dram_canon (s : State) (p : Nat) (d : GroupDesc) (t : Nat) (hc : Canon s.vDram) :
    Canon (State.decideTile s p d t).vDram := by
  unfold State.decideTile
  repeat' (first | with_reducible assumption | extract_lets | with_reducible apply State.setOrec_dram_canon | with_reducible apply State.reopen_dram_canon | with_reducible refine both_dram_canon _ _ _ ?_ ?_ | split | simp +zetaDelta only [↓State.vDram_mk, State.vDram_eq, ↓foldl_vDram, ↓ite_vDram, ↓State.formGrads_frame, ite_self, implies_true] | (with_reducible refine foldl_dram_canon _ ?_ _ _ ?_ <;> intros))

theorem State.discardRc_dram_canon (s : State) (p : Nat) (c : Nat) (d : GroupDesc) (hc : Canon s.vDram) :
    Canon (State.discardRc s p c d).vDram := by
  unfold State.discardRc
  repeat' (first | with_reducible assumption | extract_lets | with_reducible apply State.setGs_dram_canon | with_reducible refine both_dram_canon _ _ _ ?_ ?_ | split | simp +zetaDelta only [↓State.vDram_mk, State.vDram_eq, ↓foldl_vDram, ↓ite_vDram, ↓State.markResend_frame, ite_self, implies_true] | (with_reducible refine foldl_dram_canon _ ?_ _ _ ?_ <;> intros))

theorem State.discardPart_dram_canon (s : State) (p : Nat) (i : Nat) (c : Nat) (d : GroupDesc) (hc : Canon s.vDram) :
    Canon (State.discardPart s p i c d).vDram := by
  unfold State.discardPart
  repeat' (first | with_reducible assumption | extract_lets | with_reducible refine State.whenUnit_dram_canon _ _ _ _ _ _ _ (fun a ha => ?_) ?_ | with_reducible apply State.discardRc_dram_canon | with_reducible refine both_dram_canon _ _ _ ?_ ?_ | split | simp +zetaDelta only [↓State.vDram_mk, State.vDram_eq, ↓foldl_vDram, ↓ite_vDram, ↓State.dropRx_frame, ite_self, implies_true] | (with_reducible refine foldl_dram_canon _ ?_ _ _ ?_ <;> intros))

theorem State.reduceProtocol_dram_canon (s : State) (c : Nat) (rc : Rc) (hc : Canon s.vDram) :
    Canon (State.reduceProtocol s c rc).vDram := by
  unfold State.reduceProtocol
  repeat' (first | with_reducible assumption | extract_lets | with_reducible apply State.programFault_dram_canon | with_reducible refine both_dram_canon _ _ _ ?_ ?_ | split | simp +zetaDelta only [↓State.vDram_mk, State.vDram_eq, ↓foldl_vDram, ↓ite_vDram, ite_self, implies_true] | (with_reducible refine foldl_dram_canon _ ?_ _ _ ?_ <;> intros))

theorem segmentReceive_dram_canon (p : PartId) (i : Nat) (s : State) (hc : Canon s.vDram) :
    Canon (segmentReceive p i s).vDram := by
  unfold segmentReceive
  repeat' (first | with_reducible assumption | extract_lets | with_reducible apply State.reduceProtocol_dram_canon | with_reducible refine State.whenUnit_dram_canon _ _ _ _ _ _ _ (fun a ha => ?_) ?_ | with_reducible apply State.discardRc_dram_canon | with_reducible apply State.addRow_dram_canon | with_reducible apply State.decideTile_dram_canon | with_reducible apply State.setOrec_dram_canon | with_reducible refine both_dram_canon _ _ _ ?_ ?_ | split | simp +zetaDelta only [↓State.vDram_mk, State.vDram_eq, ↓foldl_vDram, ↓ite_vDram, ↓State.dropRx_frame, ite_self, implies_true] | (with_reducible refine foldl_dram_canon _ ?_ _ _ ?_ <;> intros))

theorem noticeReceive_dram_canon (p : PartId) (i : Nat) (s : State) (hc : Canon s.vDram) :
    Canon (noticeReceive p i s).vDram := by
  unfold noticeReceive
  repeat' (first | with_reducible assumption | extract_lets | with_reducible apply State.reduceProtocol_dram_canon | with_reducible refine State.whenUnit_dram_canon _ _ _ _ _ _ _ (fun a ha => ?_) ?_ | with_reducible apply State.discardRc_dram_canon | with_reducible apply State.decideTile_dram_canon | with_reducible apply State.setOrec_dram_canon | with_reducible refine both_dram_canon _ _ _ ?_ ?_ | split | simp +zetaDelta only [↓State.vDram_mk, State.vDram_eq, ↓foldl_vDram, ↓ite_vDram, ↓State.dropRx_frame, ite_self, implies_true] | (with_reducible refine foldl_dram_canon _ ?_ _ _ ?_ <;> intros))

theorem rescaleReceive_dram_canon (p : PartId) (i : Nat) (s : State) (hc : Canon s.vDram) :
    Canon (rescaleReceive p i s).vDram := by
  unfold rescaleReceive
  repeat' (first | with_reducible assumption | extract_lets | with_reducible refine State.whenUnit_dram_canon _ _ _ _ _ _ _ (fun a ha => ?_) ?_ | with_reducible apply State.setCr_dram_canon | with_reducible apply State.report_dram_canon | with_reducible refine both_dram_canon _ _ _ ?_ ?_ | split | simp +zetaDelta only [↓State.vDram_mk, State.vDram_eq, ↓foldl_vDram, ↓ite_vDram, ↓State.released_frame, ↓State.dropRx_frame, ↓State.markResend_frame, ite_self, implies_true] | (with_reducible refine foldl_dram_canon _ ?_ _ _ ?_ <;> intros))

theorem State.afterRemoval_dram_canon (s : State) (p : Nat) (d : GroupDesc) (t : Nat) (hc : Canon s.vDram) :
    Canon (State.afterRemoval s p d t).vDram := by
  unfold State.afterRemoval
  repeat' (first | with_reducible assumption | extract_lets | with_reducible apply State.reopen_dram_canon | with_reducible apply State.decideTile_dram_canon | with_reducible refine both_dram_canon _ _ _ ?_ ?_ | split | simp +zetaDelta only [↓State.vDram_mk, State.vDram_eq, ↓foldl_vDram, ↓ite_vDram, ite_self, implies_true] | (with_reducible refine foldl_dram_canon _ ?_ _ _ ?_ <;> intros))

theorem State.removeMember_dram_canon (s : State) (p : Nat) (g : Nat) (m : Nat) (hc : Canon s.vDram) :
    Canon (State.removeMember s p g m).vDram := by
  unfold State.removeMember
  repeat' (first | with_reducible assumption | extract_lets | with_reducible apply State.rollbackHold_dram_canon | with_reducible apply State.setGs_dram_canon | with_reducible apply State.afterRemoval_dram_canon | with_reducible refine both_dram_canon _ _ _ ?_ ?_ | split | simp +zetaDelta only [↓State.vDram_mk, State.vDram_eq, ↓foldl_vDram, ↓ite_vDram, ↓State.jobEvent_frame, ↓State.logError_frame, ↓State.clearLive_frame, ite_self, implies_true] | (with_reducible refine foldl_dram_canon _ ?_ _ _ ?_ <;> intros))

theorem memberRemoval_dram_canon (p : PartId) (g : BitVec 8) (m : BitVec 12) (s : State) (hc : Canon s.vDram) :
    Canon (memberRemoval p g m s).vDram := by
  unfold memberRemoval
  repeat' (first | with_reducible assumption | extract_lets | with_reducible apply State.removeMember_dram_canon | with_reducible refine both_dram_canon _ _ _ ?_ ?_ | split | simp +zetaDelta only [↓State.vDram_mk, State.vDram_eq, ↓foldl_vDram, ↓ite_vDram, ite_self, implies_true] | (with_reducible refine foldl_dram_canon _ ?_ _ _ ?_ <;> intros))

theorem State.clearGroup_dram_canon (s : State) (p : Nat) (d : GroupDesc) (hc : Canon s.vDram) :
    Canon (State.clearGroup s p d).vDram := by
  unfold State.clearGroup
  repeat' (first | with_reducible assumption | extract_lets | with_reducible apply State.postZero_dram_canon | with_reducible apply State.openOwned_dram_canon | with_reducible refine both_dram_canon _ _ _ ?_ ?_ | split | simp +zetaDelta only [↓State.vDram_mk, State.vDram_eq, ↓foldl_vDram, ↓ite_vDram, ite_self, implies_true] | (with_reducible refine foldl_dram_canon _ ?_ _ _ ?_ <;> intros))

theorem State.clearReduction_dram_canon (s : State) (p : Nat) (hc : Canon s.vDram) :
    Canon (State.clearReduction s p).vDram := by
  unfold State.clearReduction
  repeat' (first | with_reducible assumption | extract_lets | with_reducible apply State.postCr_dram_canon | with_reducible apply State.clearGroup_dram_canon | with_reducible refine both_dram_canon _ _ _ ?_ ?_ | split | simp +zetaDelta only [↓State.vDram_mk, State.vDram_eq, ↓foldl_vDram, ↓ite_vDram, ↓State.modCoresOf_frame, ite_self, implies_true] | (with_reducible refine foldl_dram_canon _ ?_ _ _ ?_ <;> intros))

theorem withdrawStep_dram_canon (p : PartId) (s : State) (hc : Canon s.vDram) :
    Canon (withdrawStep p s).vDram := by
  unfold withdrawStep
  repeat' (first | with_reducible assumption | extract_lets | with_reducible apply State.clearReduction_dram_canon | with_reducible refine both_dram_canon _ _ _ ?_ ?_ | split | simp +zetaDelta only [↓State.vDram_mk, State.vDram_eq, ↓foldl_vDram, ↓ite_vDram, ite_self, implies_true] | (with_reducible refine foldl_dram_canon _ ?_ _ _ ?_ <;> intros))

theorem State.recast_dram_canon (s : State) (p : Nat) (c : Nat) (r : Region) (gen : Nat) (t : Nat) (hc : Canon s.vDram) :
    Canon (State.recast s p c r gen t).vDram := by
  unfold State.recast
  repeat' (first | with_reducible assumption | extract_lets | with_reducible apply State.recastTile_dram_canon | with_reducible refine both_dram_canon _ _ _ ?_ ?_ | split | simp +zetaDelta only [↓State.vDram_mk, State.vDram_eq, ↓foldl_vDram, ↓ite_vDram, ↓State.setArith_frame, ite_self, implies_true] | (with_reducible refine foldl_dram_canon _ ?_ _ _ ?_ <;> intros))

theorem State.ackTile_dram_canon (s : State) (p : Nat) (d : GroupDesc) (t : Nat) (next : Nat) (hc : Canon s.vDram) :
    Canon (State.ackTile s p d t next).vDram := by
  unfold State.ackTile
  repeat' (first | with_reducible assumption | extract_lets | with_reducible apply State.jobZero_dram_canon | with_reducible apply State.setCr_dram_canon | with_reducible refine both_dram_canon _ _ _ ?_ ?_ | split | simp +zetaDelta only [↓State.vDram_mk, State.vDram_eq, ↓foldl_vDram, ↓ite_vDram, ite_self, implies_true] | (with_reducible refine foldl_dram_canon _ ?_ _ _ ?_ <;> intros))

theorem paramPartReceive_dram_canon (p : PartId) (i : Nat) (s : State) (hc : Canon s.vDram) :
    Canon (paramPartReceive p i s).vDram := by
  unfold paramPartReceive
  repeat' (first | with_reducible assumption | extract_lets | with_reducible apply State.discardPart_dram_canon | with_reducible refine State.whenUnit_dram_canon _ _ _ _ _ _ _ (fun a ha => ?_) ?_ | with_reducible apply State.jobWrite_dram_canon | with_reducible apply State.ackTile_dram_canon | with_reducible apply State.recast_dram_canon | with_reducible refine both_dram_canon _ _ _ ?_ ?_ | split | simp +zetaDelta only [↓State.vDram_mk, State.vDram_eq, ↓foldl_vDram, ↓ite_vDram, ↓State.dropRx_frame, ↓State.released_frame, ↓State.modJob_frame, ↓State.sendToken_frame, ite_self, implies_true] | (with_reducible refine foldl_dram_canon _ ?_ _ _ ?_ <;> intros))

theorem tensorShiftUpdate_dram_canon (p : PartId) (k : Nat) (s : State) (hc : Canon s.vDram) :
    Canon (tensorShiftUpdate p k s).vDram := by
  unfold tensorShiftUpdate
  repeat' (first | with_reducible assumption | extract_lets | with_reducible refine State.whenWritable_dram_canon _ _ _ _ (fun a ha => ?_) ?_ | with_reducible apply State.setJobNat_dram_canon | with_reducible refine both_dram_canon _ _ _ ?_ ?_ | split | simp +zetaDelta only [↓State.vDram_mk, State.vDram_eq, ↓foldl_vDram, ↓ite_vDram, ↓State.readShifts_frame, ite_self, implies_true] | (with_reducible refine foldl_dram_canon _ ?_ _ _ ?_ <;> intros))

theorem State.adamBlock_dram_canon (s : State) (p : Nat) (c : Nat) (o : OptDesc) (x : AdamScalars) (n : Nat) (gs : List F32) (hc : Canon s.vDram) :
    Canon (State.adamBlock s p c o x n gs).vDram := by
  unfold State.adamBlock
  repeat' (first | with_reducible assumption | extract_lets | with_reducible apply State.jobWrite_dram_canon | with_reducible refine both_dram_canon _ _ _ ?_ ?_ | split | simp +zetaDelta only [↓State.vDram_mk, State.vDram_eq, ↓foldl_vDram, ↓ite_vDram, ↓State.setArith_frame, ite_self, implies_true] | (with_reducible refine foldl_dram_canon _ ?_ _ _ ?_ <;> intros))

theorem State.updateTile_dram_canon (s : State) (p : Nat) (c : Nat) (d : GroupDesc) (r : Region) (t : Nat) (tl : Nat) (step : BitVec 32) (blocks : List (Option (List F32))) (hc : Canon s.vDram) :
    Canon (State.updateTile s p c d r t tl step blocks).vDram := by
  unfold State.updateTile
  repeat' (first | with_reducible assumption | extract_lets | with_reducible apply State.adamBlock_dram_canon | with_reducible apply State.setOrec_dram_canon | with_reducible refine both_dram_canon _ _ _ ?_ ?_ | split | simp +zetaDelta only [↓State.vDram_mk, State.vDram_eq, ↓foldl_vDram, ↓ite_vDram, ↓State.setArith_frame, ↓State.logError_frame, ↓State.broadcast_frame, ↓State.modJob_frame, ↓State.broadcastRide_frame, ite_self, implies_true] | (with_reducible refine foldl_dram_canon _ ?_ _ _ ?_ <;> intros))

theorem adamwUpdate_dram_canon (c : CoreId) (io : IssueIo) (s : State) (hc : Canon s.vDram) :
    Canon (adamwUpdate c io s).vDram := by
  unfold adamwUpdate
  repeat' (first | with_reducible assumption | extract_lets | with_reducible apply State.programFault_dram_canon | with_reducible refine State.whenUnit_dram_canon _ _ _ _ _ _ _ (fun a ha => ?_) ?_ | with_reducible apply State.updateTile_dram_canon | with_reducible refine both_dram_canon _ _ _ ?_ ?_ | split | simp +zetaDelta only [↓State.vDram_mk, State.vDram_eq, ↓foldl_vDram, ↓ite_vDram, ↓State.released_frame, ↓State.moveRegions_frame, ↓State.modCore_frame, ite_self, implies_true] | (with_reducible refine foldl_dram_canon _ ?_ _ _ ?_ <;> intros))

theorem packetSend_dram_canon (i : Nat) (s : State) (hc : Canon s.vDram) :
    Canon (packetSend i s).vDram := by
  unfold packetSend
  repeat' (first | with_reducible assumption | extract_lets | with_reducible apply State.programFault_dram_canon | with_reducible refine both_dram_canon _ _ _ ?_ ?_ | split | simp +zetaDelta only [↓State.vDram_mk, State.vDram_eq, ↓foldl_vDram, ↓ite_vDram, ↓State.portCount_frame, ↓State.unpinSent_frame, ↓State.deliver_frame, ↓State.countPacket_frame, ↓State.modPort_frame, ite_self, implies_true] | (with_reducible refine foldl_dram_canon _ ?_ _ _ ?_ <;> intros))

theorem State.loseJobMember_dram_canon (s : State) (p : Nat) (m : Nat) (idx : Nat) (hc : Canon s.vDram) :
    Canon (State.loseJobMember s p m idx).vDram := by
  unfold State.loseJobMember
  repeat' (first | with_reducible assumption | extract_lets | with_reducible apply State.rollbackHold_dram_canon | with_reducible refine both_dram_canon _ _ _ ?_ ?_ | split | simp +zetaDelta only [↓State.vDram_mk, State.vDram_eq, ↓foldl_vDram, ↓ite_vDram, ↓State.modJob_frame, ite_self, implies_true] | (with_reducible refine foldl_dram_canon _ ?_ _ _ ?_ <;> intros))

theorem memberUnreachable_dram_canon (p : PartId) (s : State) (hc : Canon s.vDram) :
    Canon (memberUnreachable p s).vDram := by
  unfold memberUnreachable
  repeat' (first | with_reducible assumption | extract_lets | with_reducible apply State.loseJobMember_dram_canon | with_reducible apply State.removeMember_dram_canon | with_reducible refine both_dram_canon _ _ _ ?_ ?_ | split | simp +zetaDelta only [↓State.vDram_mk, State.vDram_eq, ↓foldl_vDram, ↓ite_vDram, ↓State.modPart_frame, ↓State.logError_frame, ite_self, implies_true] | (with_reducible refine foldl_dram_canon _ ?_ _ _ ?_ <;> intros))

theorem State.scrubTower_dram_canon (s : State) (t : Nat) (hc : Canon s.vDram) :
    Canon (s.scrubTower t).vDram := by
  simp only [State.scrubTower, State.vDram_mk]
  rw [← State.vDram_eq] at hc
  exact canon_filter _ _ hc

theorem State.joinUnits_dram_canon (s : State) (p : Nat) (units : List Nat) (hc : Canon s.vDram) :
    Canon (s.joinUnits p units).vDram := by
  have h0 : Canon (units.foldl (fun (a : State) u =>
      if s.stale p u = true then if u < 32 then a.scrubTower u else a.writeEpoch (u - 32) (s.part p).jcp.epochAck else a) s).vDram := by
    refine foldl_dram_canon _ (fun a x ha => ?_) _ _ hc
    split
    · split
      · exact State.scrubTower_dram_canon _ _ ha
      · simpa only [↓State.writeEpoch_frame] using ha
    · exact ha
  unfold State.joinUnits
  extract_lets s0 s1
  have h1 : Canon s1.vDram := by
    simp only [s1, State.vDram_mk]
    rw [← State.vDram_eq] at h0
    exact canon_foldSet _ _ _ _ h0
  simpa only [State.vDram_mk, State.vDram_eq] using h1

theorem State.copyFrame_dram_canon (s : State) (t g h : Nat) (hc : Canon s.vDram) : Canon (s.copyFrame t g h).vDram := by
  unfold State.copyFrame
  extract_lets src dst
  refine foldl_dram_canon _ ?_ _ _ hc
  intro a b ha
  extract_lets k c moved kept
  simp only [↓State.setChan_frame, State.vDram_mk]
  rw [← State.vDram_eq] at ha
  exact canon_copyRun _ _ _ _ ha

theorem State.resumePage_dram_canon (s : State) (p : Nat) (page : Nat) (hc : Canon s.vDram) :
    Canon (State.resumePage s p page).vDram := by
  unfold State.resumePage
  repeat' (first | with_reducible assumption | extract_lets | with_reducible apply strResume_dram_canon | with_reducible refine both_dram_canon _ _ _ ?_ ?_ | split | simp +zetaDelta only [↓State.vDram_mk, State.vDram_eq, ↓foldl_vDram, ↓ite_vDram, ite_self, implies_true] | (with_reducible refine foldl_dram_canon _ ?_ _ _ ?_ <;> intros))

theorem State.moveFrame_dram_canon (s : State) (t : Nat) (g : Nat) (h : Nat) (hc : Canon s.vDram) :
    Canon (State.moveFrame s t g h).vDram := by
  unfold State.moveFrame
  repeat' (first | with_reducible assumption | extract_lets | with_reducible apply State.copyFrame_dram_canon | with_reducible apply State.resumePage_dram_canon | with_reducible refine both_dram_canon _ _ _ ?_ ?_ | split | simp +zetaDelta only [↓State.vDram_mk, State.vDram_eq, ↓foldl_vDram, ↓ite_vDram, ↓State.setFrame_frame, ite_self, implies_true] | (with_reducible refine foldl_dram_canon _ ?_ _ _ ?_ <;> intros))

theorem State.vacate_dram_canon (s : State) (index : Nat) (hc : Canon s.vDram) :
    Canon (State.vacate s index).vDram := by
  unfold State.vacate
  repeat' (first | with_reducible assumption | extract_lets | with_reducible apply State.moveFrame_dram_canon | with_reducible refine both_dram_canon _ _ _ ?_ ?_ | split | simp +zetaDelta only [↓State.vDram_mk, State.vDram_eq, ↓foldl_vDram, ↓ite_vDram, ↓State.setFrame_frame, ite_self, implies_true] | (with_reducible refine foldl_dram_canon _ ?_ _ _ ?_ <;> intros))

theorem State.carryPages_dram_canon (s : State) (p : Nat) (layout : List (Amap × Bool)) (map : List (Amap × Bool)) (hc : Canon s.vDram) :
    Canon (State.carryPages s p layout map).vDram := by
  unfold State.carryPages
  repeat' (first | with_reducible assumption | extract_lets | with_reducible apply State.copyFrame_dram_canon | with_reducible refine both_dram_canon _ _ _ ?_ ?_ | split | simp +zetaDelta only [↓State.vDram_mk, State.vDram_eq, ↓foldl_vDram, ↓ite_vDram, ite_self, implies_true] | (with_reducible refine foldl_dram_canon _ ?_ _ _ ?_ <;> intros))

theorem State.loadVariant_dram_canon (s : State) (p : Nat) (n : Nat) (first : BitVec 64) (start : Bool) (hc : Canon s.vDram) :
    Canon (State.loadVariant s p n first start).vDram := by
  unfold State.loadVariant
  repeat' (first | with_reducible assumption | extract_lets | with_reducible apply State.carryPages_dram_canon | with_reducible apply State.joinUnits_dram_canon | with_reducible refine both_dram_canon _ _ _ ?_ ?_ | split | simp +zetaDelta only [↓State.vDram_mk, State.vDram_eq, ↓foldl_vDram, ↓ite_vDram, ↓State.loadMaps_frame, ↓State.loadCores_frame, ↓State.loadRoutes_frame, ↓State.modJob_frame, ↓State.enableCtxs_frame, ite_self, implies_true] | (with_reducible refine foldl_dram_canon _ ?_ _ _ ?_ <;> intros))

theorem State.initCrs_dram_canon (s : State) (p : Nat) (hc : Canon s.vDram) :
    Canon (State.initCrs s p).vDram := by
  unfold State.initCrs
  repeat' (first | with_reducible assumption | extract_lets | with_reducible apply State.setJobNat_dram_canon | with_reducible refine both_dram_canon _ _ _ ?_ ?_ | split | simp +zetaDelta only [↓State.vDram_mk, State.vDram_eq, ↓foldl_vDram, ↓ite_vDram, ite_self, implies_true] | (with_reducible refine foldl_dram_canon _ ?_ _ _ ?_ <;> intros))

theorem State.placeContents_dram_canon (s : State) (p : Nat) (hc : Canon s.vDram) :
    Canon (State.placeContents s p).vDram := by
  unfold State.placeContents
  repeat' (first | with_reducible assumption | extract_lets | with_reducible apply State.jobWrite_dram_canon | with_reducible refine both_dram_canon _ _ _ ?_ ?_ | split | simp +zetaDelta only [↓State.vDram_mk, State.vDram_eq, ↓foldl_vDram, ↓ite_vDram, ite_self, implies_true] | (with_reducible refine foldl_dram_canon _ ?_ _ _ ?_ <;> intros))

theorem State.startJob_dram_canon (s : State) (p : Nat) (img : StartImage) (hc : Canon s.vDram) :
    Canon (State.startJob s p img).vDram := by
  unfold State.startJob
  repeat' (first | with_reducible assumption | extract_lets | with_reducible apply State.openCatalogue_dram_canon | with_reducible apply State.recastFrozen_dram_canon | with_reducible apply State.placeContents_dram_canon | with_reducible apply State.initCrs_dram_canon | with_reducible apply State.loadVariant_dram_canon | with_reducible refine both_dram_canon _ _ _ ?_ ?_ | split | simp +zetaDelta only [↓State.vDram_mk, State.vDram_eq, ↓foldl_vDram, ↓ite_vDram, ↓State.setJobState_frame, ↓State.refuseStart_frame, ↓State.modPart_frame, ↓State.applyEpoch_frame, ite_self, implies_true] | (with_reducible refine foldl_dram_canon _ ?_ _ _ ?_ <;> intros))

theorem State.abortJob_dram_canon (s : State) (p : Nat) (hc : Canon s.vDram) :
    Canon (State.abortJob s p).vDram := by
  unfold State.abortJob
  repeat' (first | with_reducible assumption | extract_lets | with_reducible apply State.abandonSnap_dram_canon | with_reducible apply State.clearReduction_dram_canon | with_reducible refine both_dram_canon _ _ _ ?_ ?_ | split | simp +zetaDelta only [↓State.vDram_mk, State.vDram_eq, ↓foldl_vDram, ↓ite_vDram, ↓State.abandonFlash_frame, ↓State.abandonPart_frame, ↓State.modJob_frame, ↓State.setJobState_frame, ↓State.dropEpoch_frame, ite_self, implies_true] | (with_reducible refine foldl_dram_canon _ ?_ _ _ ?_ <;> intros))

theorem State.resumeJob_dram_canon (s : State) (p : Nat) (hc : Canon s.vDram) :
    Canon (State.resumeJob s p).vDram := by
  unfold State.resumeJob
  repeat' (first | with_reducible assumption | extract_lets | with_reducible apply State.setCatHold_dram_canon | with_reducible refine both_dram_canon _ _ _ ?_ ?_ | split | simp +zetaDelta only [↓State.vDram_mk, State.vDram_eq, ↓foldl_vDram, ↓ite_vDram, ↓State.setJobState_frame, ↓State.returnCtxs_frame, ↓State.enableCores_frame, ↓State.modJob_frame, ↓State.stopAt_frame, ite_self, implies_true] | (with_reducible refine foldl_dram_canon _ ?_ _ _ ?_ <;> intros))

theorem State.runCmd_dram_canon (s : State) (p : Nat) (c : JobCmd) (img : StartImage) (hc : Canon s.vDram) :
    Canon (State.runCmd s p c img).vDram := by
  unfold State.runCmd
  repeat' (first | with_reducible assumption | extract_lets | with_reducible apply State.startJob_dram_canon | with_reducible apply State.resumeJob_dram_canon | with_reducible apply State.abortJob_dram_canon | with_reducible refine both_dram_canon _ _ _ ?_ ?_ | split | simp +zetaDelta only [↓State.vDram_mk, State.vDram_eq, ↓foldl_vDram, ↓ite_vDram, ↓State.stopAt_frame, ↓State.clearJob_frame, ite_self, implies_true] | (with_reducible refine foldl_dram_canon _ ?_ _ _ ?_ <;> intros))

theorem State.jobCommand_dram_canon (s : State) (p : Nat) (c : JobCmd) (img : StartImage) (hc : Canon s.vDram) :
    Canon (State.jobCommand s p c img).vDram := by
  unfold State.jobCommand
  repeat' (first | with_reducible assumption | extract_lets | with_reducible apply State.runCmd_dram_canon | with_reducible refine both_dram_canon _ _ _ ?_ ?_ | split | simp +zetaDelta only [↓State.vDram_mk, State.vDram_eq, ↓foldl_vDram, ↓ite_vDram, ↓State.modJcp_frame, ↓State.wakeFor_frame, ↓State.modJob_frame, ite_self, implies_true] | (with_reducible refine foldl_dram_canon _ ?_ _ _ ?_ <;> intros))

theorem State.retryFirst_dram_canon (s : State) (p : Nat) (hc : Canon s.vDram) :
    Canon (State.retryFirst s p).vDram := by
  unfold State.retryFirst
  repeat' (first | with_reducible assumption | extract_lets | with_reducible apply State.runCmd_dram_canon | with_reducible refine both_dram_canon _ _ _ ?_ ?_ | split | simp +zetaDelta only [↓State.vDram_mk, State.vDram_eq, ↓foldl_vDram, ↓ite_vDram, ↓State.modJob_frame, ↓State.modJcp_frame, ite_self, implies_true] | (with_reducible refine foldl_dram_canon _ ?_ _ _ ?_ <;> intros))

theorem State.retryCmd_dram_canon (s : State) (p : Nat) (hc : Canon s.vDram) :
    Canon (State.retryCmd s p).vDram := by
  unfold State.retryCmd
  repeat' (first | with_reducible assumption | extract_lets | with_reducible apply State.retryFirst_dram_canon | with_reducible refine both_dram_canon _ _ _ ?_ ?_ | split | simp +zetaDelta only [↓State.vDram_mk, State.vDram_eq, ↓foldl_vDram, ↓ite_vDram, ite_self, implies_true] | (with_reducible refine foldl_dram_canon _ ?_ _ _ ?_ <;> intros))

theorem State.retryCmds_dram_canon (s : State) (hc : Canon s.vDram) :
    Canon (State.retryCmds s).vDram := by
  unfold State.retryCmds
  repeat' (first | with_reducible assumption | extract_lets | with_reducible apply State.retryCmd_dram_canon | with_reducible refine both_dram_canon _ _ _ ?_ ?_ | split | simp +zetaDelta only [↓State.vDram_mk, State.vDram_eq, ↓foldl_vDram, ↓ite_vDram, ite_self, implies_true] | (with_reducible refine foldl_dram_canon _ ?_ _ _ ?_ <;> intros))

theorem State.changeVariant_dram_canon (s : State) (p : Nat) (cause : BitVec 32) (first : BitVec 64) (hc : Canon s.vDram) :
    Canon (State.changeVariant s p cause first).vDram := by
  unfold State.changeVariant
  repeat' (first | with_reducible assumption | extract_lets | with_reducible apply State.programFault_dram_canon | with_reducible apply State.rollbackHold_dram_canon | with_reducible apply State.loadVariant_dram_canon | with_reducible refine both_dram_canon _ _ _ ?_ ?_ | split | simp +zetaDelta only [↓State.vDram_mk, State.vDram_eq, ↓foldl_vDram, ↓ite_vDram, ↓State.modJob_frame, ↓State.rejoinNow_frame, ↓State.enableCores_frame, ↓State.setStep_frame, ↓State.sendRejoin_frame, ite_self, implies_true] | (with_reducible refine foldl_dram_canon _ ?_ _ _ ?_ <;> intros))

theorem functionLevelReset_dram_canon (unsent : List (Fin 16 × CtxKey)) (s : State) (hc : Canon s.vDram) :
    Canon (functionLevelReset unsent s).vDram := by
  unfold functionLevelReset
  repeat' (first | with_reducible assumption | extract_lets | with_reducible apply State.jobCommand_dram_canon | with_reducible refine both_dram_canon _ _ _ ?_ ?_ | split | simp +zetaDelta only [↓State.vDram_mk, State.vDram_eq, ↓foldl_vDram, ↓ite_vDram, ↓State.modJcp_frame, ↓State.settleMsix_frame, ↓State.disableWindow_frame, ite_self, implies_true] | (with_reducible refine foldl_dram_canon _ ?_ _ _ ?_ <;> intros))

theorem State.bar2Serve_dram_canon (s : State) (act : MemAct) (f : LineFound) (x : Option Place) (hc : Canon s.vDram) :
    Canon (s.bar2Serve act f x).vDram := by
  cases x with
  | none => simpa only [State.bar2Serve, ↓State.bar2Refuse_frame] using hc
  | some pl =>
    unfold State.bar2Serve
    exact State.arrive_dram_canon _ _ _ _ hc

theorem State.bar2Apply_dram_canon (s : State) (off : BitVec 36) (act : MemAct) (f : LineFound) (hc : Canon s.vDram) :
    Canon (State.bar2Apply s off act f).vDram := by
  unfold State.bar2Apply
  repeat' (first | with_reducible assumption | extract_lets | with_reducible apply State.bar2Serve_dram_canon | with_reducible refine both_dram_canon _ _ _ ?_ ?_ | split | simp +zetaDelta only [↓State.vDram_mk, State.vDram_eq, ↓foldl_vDram, ↓ite_vDram, ite_self, implies_true] | (with_reducible refine foldl_dram_canon _ ?_ _ _ ?_ <;> intros))

theorem bar2Access_dram_canon (off : BitVec 36) (act : MemAct) (f : LineFound) (s : State) (hc : Canon s.vDram) :
    Canon (bar2Access off act f s).vDram := by
  unfold bar2Access
  repeat' (first | with_reducible assumption | extract_lets | with_reducible apply State.bar2Apply_dram_canon | with_reducible refine both_dram_canon _ _ _ ?_ ?_ | split | simp +zetaDelta only [↓State.vDram_mk, State.vDram_eq, ↓foldl_vDram, ↓ite_vDram, ↓State.hostWaits_frame, ite_self, implies_true] | (with_reducible refine foldl_dram_canon _ ?_ _ _ ?_ <;> intros))

theorem jobStart_dram_canon (p : PartId) (img : StartImage) (s : State) (hc : Canon s.vDram) :
    Canon (jobStart p img s).vDram := by
  unfold jobStart
  repeat' (first | with_reducible assumption | extract_lets | with_reducible apply State.jobCommand_dram_canon | with_reducible refine both_dram_canon _ _ _ ?_ ?_ | split | simp +zetaDelta only [↓State.vDram_mk, State.vDram_eq, ↓foldl_vDram, ↓ite_vDram, ite_self, implies_true] | (with_reducible refine foldl_dram_canon _ ?_ _ _ ?_ <;> intros))

theorem jobPause_dram_canon (p : PartId) (s : State) (hc : Canon s.vDram) :
    Canon (jobPause p s).vDram := by
  unfold jobPause
  repeat' (first | with_reducible assumption | extract_lets | with_reducible apply State.jobCommand_dram_canon | with_reducible refine both_dram_canon _ _ _ ?_ ?_ | split | simp +zetaDelta only [↓State.vDram_mk, State.vDram_eq, ↓foldl_vDram, ↓ite_vDram, ite_self, implies_true] | (with_reducible refine foldl_dram_canon _ ?_ _ _ ?_ <;> intros))

theorem jobResume_dram_canon (p : PartId) (s : State) (hc : Canon s.vDram) :
    Canon (jobResume p s).vDram := by
  unfold jobResume
  repeat' (first | with_reducible assumption | extract_lets | with_reducible apply State.jobCommand_dram_canon | with_reducible refine both_dram_canon _ _ _ ?_ ?_ | split | simp +zetaDelta only [↓State.vDram_mk, State.vDram_eq, ↓foldl_vDram, ↓ite_vDram, ite_self, implies_true] | (with_reducible refine foldl_dram_canon _ ?_ _ _ ?_ <;> intros))

theorem jobStop_dram_canon (p : PartId) (s : State) (hc : Canon s.vDram) :
    Canon (jobStop p s).vDram := by
  unfold jobStop
  repeat' (first | with_reducible assumption | extract_lets | with_reducible apply State.jobCommand_dram_canon | with_reducible refine both_dram_canon _ _ _ ?_ ?_ | split | simp +zetaDelta only [↓State.vDram_mk, State.vDram_eq, ↓foldl_vDram, ↓ite_vDram, ite_self, implies_true] | (with_reducible refine foldl_dram_canon _ ?_ _ _ ?_ <;> intros))

theorem jobAbort_dram_canon (p : PartId) (s : State) (hc : Canon s.vDram) :
    Canon (jobAbort p s).vDram := by
  unfold jobAbort
  repeat' (first | with_reducible assumption | extract_lets | with_reducible apply State.jobCommand_dram_canon | with_reducible refine both_dram_canon _ _ _ ?_ ?_ | split | simp +zetaDelta only [↓State.vDram_mk, State.vDram_eq, ↓foldl_vDram, ↓ite_vDram, ite_self, implies_true] | (with_reducible refine foldl_dram_canon _ ?_ _ _ ?_ <;> intros))

theorem jobClear_dram_canon (p : PartId) (s : State) (hc : Canon s.vDram) :
    Canon (jobClear p s).vDram := by
  unfold jobClear
  repeat' (first | with_reducible assumption | extract_lets | with_reducible apply State.jobCommand_dram_canon | with_reducible refine both_dram_canon _ _ _ ?_ ?_ | split | simp +zetaDelta only [↓State.vDram_mk, State.vDram_eq, ↓foldl_vDram, ↓ite_vDram, ite_self, implies_true] | (with_reducible refine foldl_dram_canon _ ?_ _ _ ?_ <;> intros))

theorem stopStepReached_dram_canon (p : PartId) (s : State) (hc : Canon s.vDram) :
    Canon (stopStepReached p s).vDram := by
  unfold stopStepReached
  repeat' (first | with_reducible assumption | extract_lets | with_reducible apply State.abandonSnap_dram_canon | with_reducible refine both_dram_canon _ _ _ ?_ ?_ | split | simp +zetaDelta only [↓State.vDram_mk, State.vDram_eq, ↓foldl_vDram, ↓ite_vDram, ↓State.setJobState_frame, ↓State.modJob_frame, ite_self, implies_true] | (with_reducible refine foldl_dram_canon _ ?_ _ _ ?_ <;> intros))

theorem clearComplete_dram_canon (p : PartId) (s : State) (hc : Canon s.vDram) :
    Canon (clearComplete p s).vDram := by
  unfold clearComplete
  repeat' (first | with_reducible assumption | extract_lets | with_reducible refine both_dram_canon _ _ _ ?_ ?_ | split | simp +zetaDelta only [↓State.vDram_mk, State.vDram_eq, ↓foldl_vDram, ↓ite_vDram, ↓State.modPart_frame, ↓State.retryAllFar_frame, ↓State.setJobState_frame, ↓State.settleMsix_frame, ite_self, implies_true] | (with_reducible refine foldl_dram_canon _ ?_ _ _ ?_ <;> intros) | with_reducible apply canon_set | with_reducible apply canon_filter | with_reducible apply canon_dramWrite)

theorem epochWrite_dram_canon (p : PartId) (v : BitVec 32) (s : State) (hc : Canon s.vDram) :
    Canon (epochWrite p v s).vDram := by
  unfold epochWrite
  repeat' (first | with_reducible assumption | extract_lets | with_reducible apply State.setCatHold_dram_canon | with_reducible refine both_dram_canon _ _ _ ?_ ?_ | split | simp +zetaDelta only [↓State.vDram_mk, State.vDram_eq, ↓foldl_vDram, ↓ite_vDram, ↓State.modJcp_frame, ↓State.applyEpoch_frame, ↓State.modJob_frame, ite_self, implies_true] | (with_reducible refine foldl_dram_canon _ ?_ _ _ ?_ <;> intros))

theorem State.commitSerge_dram_canon (s : State) (p : Nat) (hc : Canon s.vDram) :
    Canon (State.commitSerge s p).vDram := by
  unfold State.commitSerge
  repeat' (first | with_reducible assumption | extract_lets | with_reducible apply State.setCatEntry_dram_canon | with_reducible refine both_dram_canon _ _ _ ?_ ?_ | split | simp +zetaDelta only [↓State.vDram_mk, State.vDram_eq, ↓foldl_vDram, ↓ite_vDram, ↓State.modJob_frame, ↓State.jobEvent_frame, ite_self, implies_true] | (with_reducible refine foldl_dram_canon _ ?_ _ _ ?_ <;> intros))

theorem persistAckWrite_dram_canon (p : PartId) (half : Option Bool) (w : BitVec 64) (s : State) (hc : Canon s.vDram) :
    Canon (persistAckWrite p half w s).vDram := by
  unfold persistAckWrite
  repeat' (first | with_reducible assumption | extract_lets | with_reducible apply State.commitSerge_dram_canon | with_reducible refine both_dram_canon _ _ _ ?_ ?_ | split | simp +zetaDelta only [↓State.vDram_mk, State.vDram_eq, ↓foldl_vDram, ↓ite_vDram, ↓State.modJcp_frame, ite_self, implies_true] | (with_reducible refine foldl_dram_canon _ ?_ _ _ ?_ <;> intros))

theorem variantChange_dram_canon (p : PartId) (s : State) (hc : Canon s.vDram) :
    Canon (variantChange p s).vDram := by
  unfold variantChange
  repeat' (first | with_reducible assumption | extract_lets | with_reducible apply State.changeVariant_dram_canon | with_reducible refine both_dram_canon _ _ _ ?_ ?_ | split | simp +zetaDelta only [↓State.vDram_mk, State.vDram_eq, ↓foldl_vDram, ↓ite_vDram, ite_self, implies_true] | (with_reducible refine foldl_dram_canon _ ?_ _ _ ?_ <;> intros))

theorem State.putBytes_dram_canon (s : State) (p : Nat) (addr : Nat) (bs : List Byte) (hc : Canon s.vDram) :
    Canon (State.putBytes s p addr bs).vDram := by
  unfold State.putBytes
  repeat' (first | with_reducible assumption | extract_lets | with_reducible apply State.jobPost_dram_canon | with_reducible refine both_dram_canon _ _ _ ?_ ?_ | split | simp +zetaDelta only [↓State.vDram_mk, State.vDram_eq, ↓foldl_vDram, ↓ite_vDram, ite_self, implies_true] | (with_reducible refine foldl_dram_canon _ ?_ _ _ ?_ <;> intros))

theorem State.skipSnap_dram_canon (s : State) (p : Nat) (reason : Nat) (step : BitVec 64) (hc : Canon s.vDram) :
    Canon (State.skipSnap s p reason step).vDram := by
  unfold State.skipSnap
  repeat' (first | with_reducible assumption | extract_lets | with_reducible apply State.postJobNat_dram_canon | with_reducible refine both_dram_canon _ _ _ ?_ ?_ | split | simp +zetaDelta only [↓State.vDram_mk, State.vDram_eq, ↓foldl_vDram, ↓ite_vDram, ↓State.logError_frame, ite_self, implies_true] | (with_reducible refine foldl_dram_canon _ ?_ _ _ ?_ <;> intros))

theorem State.zeroBlock_dram_canon (s : State) (p : Nat) (page : Nat) (hc : Canon s.vDram) :
    Canon (State.zeroBlock s p page).vDram := by
  unfold State.zeroBlock
  repeat' (first | with_reducible assumption | extract_lets | with_reducible refine both_dram_canon _ _ _ ?_ ?_ | split | simp +zetaDelta only [↓State.vDram_mk, State.vDram_eq, ↓foldl_vDram, ↓ite_vDram, ite_self, implies_true] | (with_reducible refine foldl_dram_canon _ ?_ _ _ ?_ <;> intros) | with_reducible apply canon_set | with_reducible apply canon_filter | with_reducible apply canon_dramWrite)

theorem State.writeJobState_dram_canon (s : State) (p : Nat) (page : Nat) (step : BitVec 64) (hc : Canon s.vDram) :
    Canon (State.writeJobState s p page step).vDram := by
  unfold State.writeJobState
  repeat' (first | with_reducible assumption | extract_lets | with_reducible apply State.setJobNat_dram_canon | with_reducible apply State.zeroBlock_dram_canon | with_reducible refine both_dram_canon _ _ _ ?_ ?_ | split | simp +zetaDelta only [↓State.vDram_mk, State.vDram_eq, ↓foldl_vDram, ↓ite_vDram, ite_self, implies_true] | (with_reducible refine foldl_dram_canon _ ?_ _ _ ?_ <;> intros))

theorem State.freePage_dram_canon (s : State) (p : Nat) (page : Nat) (hc : Canon s.vDram) :
    Canon (State.freePage s p page).vDram := by
  unfold State.freePage
  repeat' (first | with_reducible assumption | extract_lets | with_reducible apply State.writeFrame_dram_canon | with_reducible refine both_dram_canon _ _ _ ?_ ?_ | split | simp +zetaDelta only [↓State.vDram_mk, State.vDram_eq, ↓foldl_vDram, ↓ite_vDram, ite_self, implies_true] | (with_reducible refine foldl_dram_canon _ ?_ _ _ ?_ <;> intros))

theorem State.handOver_dram_canon (s : State) (p : Nat) (begun : List Nat) (hc : Canon s.vDram) :
    Canon (State.handOver s p begun).vDram := by
  unfold State.handOver
  repeat' (first | with_reducible assumption | extract_lets | with_reducible apply State.freePage_dram_canon | with_reducible refine both_dram_canon _ _ _ ?_ ?_ | split | simp +zetaDelta only [↓State.vDram_mk, State.vDram_eq, ↓foldl_vDram, ↓ite_vDram, ↓State.modJob_frame, ↓State.modCoresOf_frame, ite_self, implies_true] | (with_reducible refine foldl_dram_canon _ ?_ _ _ ?_ <;> intros))

theorem State.openSnap_dram_canon (s : State) (p : Nat) (x : SnapPlan) (page0 : Nat) (step : BitVec 64) (hc : Canon s.vDram) :
    Canon (State.openSnap s p x page0 step).vDram := by
  unfold State.openSnap
  repeat' (first | with_reducible assumption | extract_lets | with_reducible apply State.writeJobState_dram_canon | with_reducible apply State.setCatEntry_dram_canon | with_reducible apply State.handOver_dram_canon | with_reducible refine both_dram_canon _ _ _ ?_ ?_ | split | simp +zetaDelta only [↓State.vDram_mk, State.vDram_eq, ↓foldl_vDram, ↓ite_vDram, ↓State.protectPage_frame, ↓State.modJob_frame, ↓State.sendCtl_frame, ite_self, implies_true] | (with_reducible refine foldl_dram_canon _ ?_ _ _ ?_ <;> intros))

theorem State.checkComplete_dram_canon (s : State) (p : Nat) (hc : Canon s.vDram) :
    Canon (State.checkComplete s p).vDram := by
  unfold State.checkComplete
  repeat' (first | with_reducible assumption | extract_lets | with_reducible apply State.postJobNat_dram_canon | with_reducible refine both_dram_canon _ _ _ ?_ ?_ | split | simp +zetaDelta only [↓State.vDram_mk, State.vDram_eq, ↓foldl_vDram, ↓ite_vDram, ↓State.modJob_frame, ite_self, implies_true] | (with_reducible refine foldl_dram_canon _ ?_ _ _ ?_ <;> intros))

theorem State.beginFlash_dram_canon (s : State) (p : Nat) (r : SnapRun) (number : Nat) (hc : Canon s.vDram) :
    Canon (State.beginFlash s p r number).vDram := by
  unfold State.beginFlash
  repeat' (first | with_reducible assumption | extract_lets | with_reducible apply State.skipSnap_dram_canon | with_reducible refine both_dram_canon _ _ _ ?_ ?_ | split | simp +zetaDelta only [↓State.vDram_mk, State.vDram_eq, ↓foldl_vDram, ↓ite_vDram, ↓State.sendCtl_frame, ↓State.modJob_frame, ite_self, implies_true] | (with_reducible refine foldl_dram_canon _ ?_ _ _ ?_ <;> intros))

theorem State.openFlash_dram_canon (s : State) (p : Nat) (f : FlashRun) (hc : Canon s.vDram) :
    Canon (State.openFlash s p f).vDram := by
  unfold State.openFlash
  repeat' (first | with_reducible assumption | extract_lets | with_reducible apply State.setCatEntry_dram_canon | with_reducible refine both_dram_canon _ _ _ ?_ ?_ | split | simp +zetaDelta only [↓State.vDram_mk, State.vDram_eq, ↓foldl_vDram, ↓ite_vDram, ↓State.modJob_frame, ↓State.setFlash_frame, ite_self, implies_true] | (with_reducible refine foldl_dram_canon _ ?_ _ _ ?_ <;> intros))

theorem State.dropFlash_dram_canon (s : State) (p : Nat) (f : FlashRun) (hc : Canon s.vDram) :
    Canon (State.dropFlash s p f).vDram := by
  unfold State.dropFlash
  repeat' (first | with_reducible assumption | extract_lets | with_reducible apply State.setCatEntry_dram_canon | with_reducible refine both_dram_canon _ _ _ ?_ ?_ | split | simp +zetaDelta only [↓State.vDram_mk, State.vDram_eq, ↓foldl_vDram, ↓ite_vDram, ↓State.modJob_frame, ite_self, implies_true] | (with_reducible refine foldl_dram_canon _ ?_ _ _ ?_ <;> intros))

theorem State.beginSerge_dram_canon (s : State) (p : Nat) (f : FlashRun) (pages : Nat) (hc : Canon s.vDram) :
    Canon (State.beginSerge s p f pages).vDram := by
  unfold State.beginSerge
  repeat' (first | with_reducible assumption | extract_lets | with_reducible apply State.skipSnap_dram_canon | with_reducible apply State.setCatEntry_dram_canon | with_reducible refine both_dram_canon _ _ _ ?_ ?_ | split | simp +zetaDelta only [↓State.vDram_mk, State.vDram_eq, ↓foldl_vDram, ↓ite_vDram, ↓State.modJob_frame, ite_self, implies_true] | (with_reducible refine foldl_dram_canon _ ?_ _ _ ?_ <;> intros))

theorem State.tryCommit_dram_canon (s : State) (p : Nat) (k : Nat) (hc : Canon s.vDram) :
    Canon (State.tryCommit s p k).vDram := by
  unfold State.tryCommit
  repeat' (first | with_reducible assumption | extract_lets | with_reducible apply State.putBytes_dram_canon | with_reducible apply State.setCatEntry_dram_canon | with_reducible refine both_dram_canon _ _ _ ?_ ?_ | split | simp +zetaDelta only [↓State.vDram_mk, State.vDram_eq, ↓foldl_vDram, ↓ite_vDram, ↓State.setHeld_frame, ↓State.sendCtl_frame, ite_self, implies_true] | (with_reducible refine foldl_dram_canon _ ?_ _ _ ?_ <;> intros))

theorem State.placePiece_dram_canon (s : State) (p : Nat) (k : Nat) (x : SnapPlan) (h : Sn) (ride : Bool) (bs : List Byte) (hc : Canon s.vDram) :
    Canon (State.placePiece s p k x h ride bs).vDram := by
  unfold State.placePiece
  repeat' (first | with_reducible assumption | extract_lets | with_reducible apply State.putBytes_dram_canon | with_reducible refine both_dram_canon _ _ _ ?_ ?_ | split | simp +zetaDelta only [↓State.vDram_mk, State.vDram_eq, ↓foldl_vDram, ↓ite_vDram, ↓State.setHeld_frame, ite_self, implies_true] | (with_reducible refine foldl_dram_canon _ ?_ _ _ ?_ <;> intros))

theorem State.clearTarget_dram_canon (s : State) (p : Nat) (hc : Canon s.vDram) :
    Canon (State.clearTarget s p).vDram := by
  unfold State.clearTarget
  repeat' (first | with_reducible assumption | extract_lets | with_reducible apply State.postJobNat_dram_canon | with_reducible refine both_dram_canon _ _ _ ?_ ?_ | split | simp +zetaDelta only [↓State.vDram_mk, State.vDram_eq, ↓foldl_vDram, ↓ite_vDram, ite_self, implies_true] | (with_reducible refine foldl_dram_canon _ ?_ _ _ ?_ <;> intros))

theorem State.failRestore_dram_canon (s : State) (p : Nat) (rule : Nat) (hc : Canon s.vDram) :
    Canon (State.failRestore s p rule).vDram := by
  unfold State.failRestore
  repeat' (first | with_reducible assumption | extract_lets | with_reducible apply State.clearTarget_dram_canon | with_reducible apply State.setCatHold_dram_canon | with_reducible refine both_dram_canon _ _ _ ?_ ?_ | split | simp +zetaDelta only [↓State.vDram_mk, State.vDram_eq, ↓foldl_vDram, ↓ite_vDram, ↓State.modJob_frame, ↓State.refuseStart_frame, ite_self, implies_true] | (with_reducible refine foldl_dram_canon _ ?_ _ _ ?_ <;> intros))

theorem State.restorePage_dram_canon (s t : State) (p : Nat) (slot : Option Nat) (serge : List (List Byte)) (e : Me) (i : Nat)
    (hc : Canon s.vDram) (h : s.restorePage p slot serge e i = some t) : Canon t.vDram := by
  unfold State.restorePage at h
  extract_lets fl se at h
  split at h
  · simp only [Option.some.injEq] at h; subst h; exact State.putBytes_dram_canon _ _ _ _ hc
  · split at h
    · simp only [Option.some.injEq] at h; subst h; exact State.putBytes_dram_canon _ _ _ _ hc
    · cases h

theorem State.restorePages_dram_canon (s t : State) (p : Nat) (placed : List Nat) (slot : Option Nat) (serge : List (List Byte))
    (m : List Byte) (l : List Nat) (hc : Canon s.vDram) (h : s.restorePages p placed slot serge m l = .ok t) : Canon t.vDram := by
  induction l generalizing s with
  | nil => simp only [State.restorePages, Except.ok.injEq] at h; subst h; exact hc
  | cons i l ih =>
    simp only [State.restorePages] at h
    split at h
    · split at h
      · exact ih s hc h
      · cases h
    · split at h
      · exact ih s hc h
      · split at h
        · rename_i s1 hs
          exact ih s1 (State.restorePage_dram_canon s s1 p slot serge _ i hc hs) h
        · cases h

theorem State.reselectFor_dram_canon (s t : State) (p : Nat) (id : BitVec 64) (hc : Canon s.vDram)
    (h : s.reselectFor p id = some t) : Canon t.vDram := by
  simp only [State.reselectFor] at h
  split at h
  · cases h
  · simp only [Option.some.injEq] at h; subst h
    apply State.loadVariant_dram_canon
    simpa only [↓State.modJob_frame] using hc

theorem State.clearFar_dram_canon (s : State) (p : Nat) (hc : Canon s.vDram) :
    Canon (State.clearFar s p).vDram := by
  unfold State.clearFar
  repeat' (first | with_reducible assumption | extract_lets | with_reducible apply State.setFtt_dram_canon | with_reducible refine both_dram_canon _ _ _ ?_ ?_ | split | simp +zetaDelta only [↓State.vDram_mk, State.vDram_eq, ↓foldl_vDram, ↓ite_vDram, ↓State.returnPage_frame, ite_self, implies_true] | (with_reducible refine foldl_dram_canon _ ?_ _ _ ?_ <;> intros))

theorem snapshotPoint_dram_canon (p : PartId) (s : State) (hc : Canon s.vDram) :
    Canon (snapshotPoint p s).vDram := by
  unfold snapshotPoint
  repeat' (first | with_reducible assumption | extract_lets | with_reducible apply State.skipSnap_dram_canon | with_reducible refine State.whenAccess_dram_canon _ _ _ _ _ _ (fun a ha => ?_) ?_ | with_reducible apply State.openSnap_dram_canon | with_reducible refine both_dram_canon _ _ _ ?_ ?_ | split | simp +zetaDelta only [↓State.vDram_mk, State.vDram_eq, ↓foldl_vDram, ↓ite_vDram, ↓State.modJob_frame, ite_self, implies_true] | (with_reducible refine foldl_dram_canon _ ?_ _ _ ?_ <;> intros))

theorem frameCopied_dram_canon (t : TowerId) (g : Fin 49152) (bad : Option (Fin 32768)) (s : State) (hc : Canon s.vDram) :
    Canon (frameCopied t g bad s).vDram := by
  unfold frameCopied
  repeat' (first | with_reducible assumption | extract_lets | with_reducible apply State.vacate_dram_canon | with_reducible apply State.writeFrame_dram_canon | with_reducible apply State.abandonSnap_dram_canon | with_reducible apply State.dramUe_dram_canon | with_reducible refine both_dram_canon _ _ _ ?_ ?_ | split | simp +zetaDelta only [↓State.vDram_mk, State.vDram_eq, ↓foldl_vDram, ↓ite_vDram, ↓State.sendPieces_frame, ↓State.modSnap_frame, ↓State.trySeal_frame, ite_self, implies_true] | (with_reducible refine foldl_dram_canon _ ?_ _ _ ?_ <;> intros))

theorem copyBudgetExpire_dram_canon (p : PartId) (begun : List Nat) (s : State) (hc : Canon s.vDram) :
    Canon (copyBudgetExpire p begun s).vDram := by
  unfold copyBudgetExpire
  repeat' (first | with_reducible assumption | extract_lets | with_reducible apply State.handOver_dram_canon | with_reducible refine both_dram_canon _ _ _ ?_ ?_ | split | simp +zetaDelta only [↓State.vDram_mk, State.vDram_eq, ↓foldl_vDram, ↓ite_vDram, ↓State.trySeal_frame, ite_self, implies_true] | (with_reducible refine foldl_dram_canon _ ?_ _ _ ?_ <;> intros))

theorem snapCommitted_dram_canon (p : PartId) (i : Nat) (s : State) (hc : Canon s.vDram) :
    Canon (snapCommitted p i s).vDram := by
  unfold snapCommitted
  repeat' (first | with_reducible assumption | extract_lets | with_reducible apply State.setCatEntry_dram_canon | with_reducible apply State.checkComplete_dram_canon | with_reducible apply State.beginFlash_dram_canon | with_reducible refine both_dram_canon _ _ _ ?_ ?_ | split | simp +zetaDelta only [↓State.vDram_mk, State.vDram_eq, ↓foldl_vDram, ↓ite_vDram, ↓State.dropRx_frame, ↓State.modJob_frame, ↓State.jobEvent_frame, ↓State.sendCtl_frame, ite_self, implies_true] | (with_reducible refine foldl_dram_canon _ ?_ _ _ ?_ <;> intros))

theorem snapDone_dram_canon (p : PartId) (i : Nat) (s : State) (hc : Canon s.vDram) :
    Canon (snapDone p i s).vDram := by
  unfold snapDone
  repeat' (first | with_reducible assumption | extract_lets | with_reducible apply State.checkComplete_dram_canon | with_reducible refine both_dram_canon _ _ _ ?_ ?_ | split | simp +zetaDelta only [↓State.vDram_mk, State.vDram_eq, ↓foldl_vDram, ↓ite_vDram, ↓State.modJob_frame, ↓State.dropRx_frame, ite_self, implies_true] | (with_reducible refine foldl_dram_canon _ ?_ _ _ ?_ <;> intros))

theorem snapAbort_dram_canon (p : PartId) (i : Nat) (s : State) (hc : Canon s.vDram) :
    Canon (snapAbort p i s).vDram := by
  unfold snapAbort
  repeat' (first | with_reducible assumption | extract_lets | with_reducible apply State.setCatEntry_dram_canon | with_reducible refine both_dram_canon _ _ _ ?_ ?_ | split | simp +zetaDelta only [↓State.vDram_mk, State.vDram_eq, ↓foldl_vDram, ↓ite_vDram, ↓State.dropRx_frame, ↓State.modJob_frame, ↓State.setHeld_frame, ite_self, implies_true] | (with_reducible refine foldl_dram_canon _ ?_ _ _ ?_ <;> intros))

theorem snapOpen_dram_canon (p : PartId) (i : Nat) (s : State) (hc : Canon s.vDram) :
    Canon (snapOpen p i s).vDram := by
  unfold snapOpen
  repeat' (first | with_reducible assumption | extract_lets | with_reducible apply State.putBytes_dram_canon | with_reducible apply State.setCatEntry_dram_canon | with_reducible refine both_dram_canon _ _ _ ?_ ?_ | split | simp +zetaDelta only [↓State.vDram_mk, State.vDram_eq, ↓foldl_vDram, ↓ite_vDram, ↓State.dropRx_frame, ↓State.sendCtl_frame, ↓State.setHeld_frame, ite_self, implies_true] | (with_reducible refine foldl_dram_canon _ ?_ _ _ ?_ <;> intros))

theorem State.holderTake_dram_canon (s : State) (p i : Nat) (kind : BitVec 3) (f : State → Nat → SnapPlan → Sn → Packet → State)
    (h : ∀ a k y z x, Canon a.vDram → Canon (f a k y z x).vDram) (hc : Canon s.vDram) : Canon (s.holderTake p i kind f).vDram := by
  have hd : ∀ i, Canon (s.dropRx i).vDram := by intro i; simpa only [↓State.dropRx_frame] using hc
  unfold State.holderTake
  split
  · exact hc
  · extract_lets z
    clear_value z
    split
    · exact hc
    · split
      · exact h _ _ _ _ _ (hd i)
      · exact hd i

theorem pageData_dram_canon (p : PartId) (i : Nat) (s : State) (hc : Canon s.vDram) :
    Canon (pageData p i s).vDram := by
  unfold pageData
  repeat' (first | with_reducible assumption | extract_lets | with_reducible refine State.holderTake_dram_canon _ _ _ _ _ (fun a b c d e ha => ?_) ?_ | with_reducible apply State.tryCommit_dram_canon | with_reducible apply State.placePiece_dram_canon | with_reducible refine both_dram_canon _ _ _ ?_ ?_ | split | simp +zetaDelta only [↓State.vDram_mk, State.vDram_eq, ↓foldl_vDram, ↓ite_vDram, ite_self, implies_true] | (with_reducible refine foldl_dram_canon _ ?_ _ _ ?_ <;> intros))

theorem snapManifest_dram_canon (p : PartId) (i : Nat) (s : State) (hc : Canon s.vDram) :
    Canon (snapManifest p i s).vDram := by
  unfold snapManifest
  repeat' (first | with_reducible assumption | extract_lets | with_reducible refine State.holderTake_dram_canon _ _ _ _ _ (fun a b c d e ha => ?_) ?_ | with_reducible apply State.tryCommit_dram_canon | with_reducible apply State.putBytes_dram_canon | with_reducible refine both_dram_canon _ _ _ ?_ ?_ | split | simp +zetaDelta only [↓State.vDram_mk, State.vDram_eq, ↓foldl_vDram, ↓ite_vDram, ↓State.setHeld_frame, ite_self, implies_true] | (with_reducible refine foldl_dram_canon _ ?_ _ _ ?_ <;> intros))

theorem rideData_dram_canon (p : PartId) (i : Nat) (s : State) (hc : Canon s.vDram) :
    Canon (rideData p i s).vDram := by
  unfold rideData
  repeat' (first | with_reducible assumption | extract_lets | with_reducible refine State.holderTake_dram_canon _ _ _ _ _ (fun a b c d e ha => ?_) ?_ | with_reducible apply State.placePiece_dram_canon | with_reducible apply State.tryCommit_dram_canon | with_reducible refine both_dram_canon _ _ _ ?_ ?_ | split | simp +zetaDelta only [↓State.vDram_mk, State.vDram_eq, ↓foldl_vDram, ↓ite_vDram, ↓State.sendSn_frame, ite_self, implies_true] | (with_reducible refine foldl_dram_canon _ ?_ _ _ ?_ <;> intros))

theorem snapSeal_dram_canon (p : PartId) (i : Nat) (s : State) (hc : Canon s.vDram) :
    Canon (snapSeal p i s).vDram := by
  unfold snapSeal
  repeat' (first | with_reducible assumption | extract_lets | with_reducible apply State.tryCommit_dram_canon | with_reducible refine both_dram_canon _ _ _ ?_ ?_ | split | simp +zetaDelta only [↓State.vDram_mk, State.vDram_eq, ↓foldl_vDram, ↓ite_vDram, ↓State.dropRx_frame, ↓State.setHeld_frame, ite_self, implies_true] | (with_reducible refine foldl_dram_canon _ ?_ _ _ ?_ <;> intros))

theorem State.flashTake_dram_canon (s : State) (p : Nat) (f : FlashRun) (h : Sn) (bs : List Byte) (hc : Canon s.vDram) :
    Canon (State.flashTake s p f h bs).vDram := by
  unfold State.flashTake
  repeat' (first | with_reducible assumption | extract_lets | with_reducible apply State.openFlash_dram_canon | with_reducible apply State.setCatEntry_dram_canon | with_reducible apply State.dropFlash_dram_canon | with_reducible refine both_dram_canon _ _ _ ?_ ?_ | split | simp +zetaDelta only [↓State.vDram_mk, State.vDram_eq, ↓foldl_vDram, ↓ite_vDram, ↓State.modJob_frame, ↓State.setFlash_frame, ↓State.logError_frame, ite_self, implies_true] | (with_reducible refine foldl_dram_canon _ ?_ _ _ ?_ <;> intros))

theorem State.restoreTake_dram_canon (s : State) (p : Nat) (r : Restore) (h : Sn) (bs : List Byte) (hc : Canon s.vDram) :
    Canon (State.restoreTake s p r h bs).vDram := by
  unfold State.restoreTake
  repeat' (first | with_reducible assumption | extract_lets | with_reducible apply State.putBytes_dram_canon | with_reducible refine both_dram_canon _ _ _ ?_ ?_ | split | simp +zetaDelta only [↓State.vDram_mk, State.vDram_eq, ↓foldl_vDram, ↓ite_vDram, ↓State.modJob_frame, ite_self, implies_true] | (with_reducible refine foldl_dram_canon _ ?_ _ _ ?_ <;> intros))

theorem fetchData_dram_canon (p : PartId) (i : Nat) (s : State) (hc : Canon s.vDram) :
    Canon (fetchData p i s).vDram := by
  unfold fetchData
  repeat' (first | with_reducible assumption | extract_lets | with_reducible apply State.restoreTake_dram_canon | with_reducible apply State.flashTake_dram_canon | with_reducible refine both_dram_canon _ _ _ ?_ ?_ | split | simp +zetaDelta only [↓State.vDram_mk, State.vDram_eq, ↓foldl_vDram, ↓ite_vDram, ↓State.dropRx_frame, ite_self, implies_true] | (with_reducible refine foldl_dram_canon _ ?_ _ _ ?_ <;> intros))

theorem fetchEnd_dram_canon (p : PartId) (i : Nat) (s : State) (hc : Canon s.vDram) :
    Canon (fetchEnd p i s).vDram := by
  unfold fetchEnd
  repeat' (first | with_reducible assumption | extract_lets | with_reducible apply State.skipSnap_dram_canon | with_reducible apply State.dropFlash_dram_canon | with_reducible refine both_dram_canon _ _ _ ?_ ?_ | split | simp +zetaDelta only [↓State.vDram_mk, State.vDram_eq, ↓foldl_vDram, ↓ite_vDram, ↓State.dropRx_frame, ↓State.modJob_frame, ite_self, implies_true] | (with_reducible refine foldl_dram_canon _ ?_ _ _ ?_ <;> intros))

theorem flashWriteComplete_dram_canon (p : PartId) (s : State) (hc : Canon s.vDram) :
    Canon (flashWriteComplete p s).vDram := by
  unfold flashWriteComplete
  repeat' (first | with_reducible assumption | extract_lets | with_reducible apply State.openFlash_dram_canon | with_reducible apply State.setCatEntry_dram_canon | with_reducible apply State.beginSerge_dram_canon | with_reducible refine both_dram_canon _ _ _ ?_ ?_ | split | simp +zetaDelta only [↓State.vDram_mk, State.vDram_eq, ↓foldl_vDram, ↓ite_vDram, ↓State.setFlash_frame, ↓State.jobEvent_frame, ↓State.modJob_frame, ite_self, implies_true] | (with_reducible refine foldl_dram_canon _ ?_ _ _ ?_ <;> intros))

theorem State.beginRestore_dram_canon (s : State) (p : Nat) (r : Restore) (muslin : Option HeaderArea) (hc : Canon s.vDram) :
    Canon (s.beginRestore p r muslin).vDram := by
  unfold State.beginRestore
  split
  · apply State.programFault_dram_canon
    simpa only [↓State.modJob_frame] using hc
  · rename_i s1 h
    have a : Canon s1.vDram := by
      split at h
      · exact State.reselectFor_dram_canon s s1 p _ hc h
      · cases h; exact hc
    extract_lets good
    clear_value good
    split
    · simpa only [↓State.modJob_frame] using a
    · split
      · exact State.failRestore_dram_canon _ _ _ a
      · extract_lets slot
        simpa only [↓State.sendCtl_frame, ↓State.modJob_frame] using a

theorem State.endRestore_dram_canon (s : State) (p : Nat) (r : Restore) (flashSig : Option (List Byte)) (serge : Option SergeCopy)
    (hc : Canon s.vDram) : Canon (s.endRestore p r flashSig serge).vDram := by
  unfold State.endRestore
  extract_lets id slot flash store good pages m fail
  have b : ∀ i, Canon (fail i).vDram := by
    intro i
    apply State.failRestore_dram_canon
    simpa only [↓State.logError_frame] using hc
  split
  · exact b 0
  · split
    · exact State.failRestore_dram_canon _ _ _ hc
    · split
      · exact b _
      · rename_i s1 h
        have a := State.restorePages_dram_canon s s1 p _ _ _ _ _ hc h
        simpa only [↓State.modJob_frame] using a

theorem snapRestore_dram_canon (p : PartId) (muslin : Option HeaderArea) (flashSig : Option (List Byte)) (serge : Option SergeCopy) (s : State) (hc : Canon s.vDram) :
    Canon (snapRestore p muslin flashSig serge s).vDram := by
  unfold snapRestore
  repeat' (first | with_reducible assumption | extract_lets | with_reducible apply State.beginRestore_dram_canon | with_reducible apply State.endRestore_dram_canon | with_reducible refine both_dram_canon _ _ _ ?_ ?_ | split | simp +zetaDelta only [↓State.vDram_mk, State.vDram_eq, ↓foldl_vDram, ↓ite_vDram, ite_self, implies_true] | (with_reducible refine foldl_dram_canon _ ?_ _ _ ?_ <;> intros))

theorem State.restoreRoutes_dram_canon (s : State) (p : Nat) (page0 : Nat) (step : BitVec 64) (hc : Canon s.vDram) :
    Canon (State.restoreRoutes s p page0 step).vDram := by
  unfold State.restoreRoutes
  repeat' (first | with_reducible assumption | extract_lets | with_reducible apply State.setGs_dram_canon | with_reducible refine both_dram_canon _ _ _ ?_ ?_ | split | simp +zetaDelta only [↓State.vDram_mk, State.vDram_eq, ↓foldl_vDram, ↓ite_vDram, ↓State.modLinkDies_frame, ↓State.loadRoutes_frame, ite_self, implies_true] | (with_reducible refine foldl_dram_canon _ ?_ _ _ ?_ <;> intros))

theorem restoreComplete_dram_canon (p : PartId) (s : State) (hc : Canon s.vDram) :
    Canon (restoreComplete p s).vDram := by
  unfold restoreComplete
  repeat' (first | with_reducible assumption | extract_lets | with_reducible apply State.clearReduction_dram_canon | with_reducible apply State.openOwned_dram_canon | with_reducible apply State.restoreRoutes_dram_canon | with_reducible apply State.postJobNat_dram_canon | with_reducible apply State.setCatEntry_dram_canon | with_reducible apply State.clearFar_dram_canon | with_reducible apply State.retryCmds_dram_canon | with_reducible apply State.clearTarget_dram_canon | with_reducible apply State.setCatHold_dram_canon | with_reducible refine both_dram_canon _ _ _ ?_ ?_ | split | simp +zetaDelta only [↓State.vDram_mk, State.vDram_eq, ↓foldl_vDram, ↓ite_vDram, ↓State.modCoresOf_frame, ↓State.setStep_frame, ↓State.rebroadcast_frame, ↓State.modPart_frame, ↓State.retryAllFar_frame, ↓State.jobEvent_frame, ↓State.modJob_frame, ite_self, implies_true] | (with_reducible refine foldl_dram_canon _ ?_ _ _ ?_ <;> intros))

theorem State.resetJob_dram_canon (s : State) (r : Reach) (src : Nat) (hc : Canon s.vDram) :
    Canon (State.resetJob s r src).vDram := by
  unfold State.resetJob
  repeat' (first | with_reducible assumption | extract_lets | with_reducible apply State.clearReduction_dram_canon | with_reducible apply State.failJob_dram_canon | with_reducible apply State.hwError_dram_canon | with_reducible refine both_dram_canon _ _ _ ?_ ?_ | split | simp +zetaDelta only [↓State.vDram_mk, State.vDram_eq, ↓foldl_vDram, ↓ite_vDram, ↓State.abandonFlash_frame, ↓State.abandonPart_frame, ↓State.logError_frame, ↓State.modJob_frame, ↓State.dropEpoch_frame, ite_self, implies_true] | (with_reducible refine foldl_dram_canon _ ?_ _ _ ?_ <;> intros))

theorem State.applyReset_dram_canon (s : State) (r : Reach) (src : Nat) (hc : Canon s.vDram) :
    Canon (State.applyReset s r src).vDram := by
  unfold State.applyReset
  repeat' (first | with_reducible assumption | extract_lets | with_reducible apply State.resetJob_dram_canon | with_reducible refine both_dram_canon _ _ _ ?_ ?_ | split | simp +zetaDelta only [↓State.vDram_mk, State.vDram_eq, ↓foldl_vDram, ↓ite_vDram, ↓State.abortTests_frame, ↓State.discardRecord_frame, ↓State.loseDram_frame, ↓State.resetUnits_frame, ↓State.markReset_frame, ↓State.resetHub_frame, ↓State.repeatTests_frame, ite_self, implies_true] | (with_reducible refine foldl_dram_canon _ ?_ _ _ ?_ <;> intros))

theorem State.assertReset_dram_canon (s : State) (src : RstSource) (r : Reach) (hc : Canon s.vDram) :
    Canon (State.assertReset s src r).vDram := by
  unfold State.assertReset
  repeat' (first | with_reducible assumption | extract_lets | with_reducible apply State.applyReset_dram_canon | with_reducible refine both_dram_canon _ _ _ ?_ ?_ | split | simp +zetaDelta only [↓State.vDram_mk, State.vDram_eq, ↓foldl_vDram, ↓ite_vDram, ↓State.setRst_frame, ↓State.stampReset_frame, ite_self, implies_true] | (with_reducible refine foldl_dram_canon _ ?_ _ _ ?_ <;> intros))

theorem State.endEpisode_dram_canon (s : State) (e : Episode) (hc : Canon s.vDram) :
    Canon (State.endEpisode s e).vDram := by
  unfold State.endEpisode
  repeat' (first | with_reducible assumption | extract_lets | with_reducible apply State.retryCmds_dram_canon | with_reducible refine both_dram_canon _ _ _ ?_ ?_ | split | simp +zetaDelta only [↓State.vDram_mk, State.vDram_eq, ↓foldl_vDram, ↓ite_vDram, ↓State.openGates_frame, ↓State.finishActivation_frame, ↓State.setEpisode_frame, ↓State.reenter_frame, ite_self, implies_true] | (with_reducible refine foldl_dram_canon _ ?_ _ _ ?_ <;> intros))

theorem powerOn_dram_canon (v12 : InputVolts) (s : State) (hc : Canon s.vDram) :
    Canon (powerOn v12 s).vDram := by
  unfold powerOn
  repeat' (first | with_reducible assumption | extract_lets | with_reducible apply State.assertReset_dram_canon | with_reducible refine both_dram_canon _ _ _ ?_ ?_ | split | simp +zetaDelta only [↓State.vDram_mk, State.vDram_eq, ↓foldl_vDram, ↓ite_vDram, ↓State.setRst_frame, ite_self, implies_true] | (with_reducible refine foldl_dram_canon _ ?_ _ _ ?_ <;> intros))

theorem brownOut_dram_canon (x : Input48) (s : State) (hc : Canon s.vDram) :
    Canon (brownOut x s).vDram := by
  unfold brownOut
  repeat' (first | with_reducible assumption | extract_lets | with_reducible apply State.assertReset_dram_canon | with_reducible refine both_dram_canon _ _ _ ?_ ?_ | split | simp +zetaDelta only [↓State.vDram_mk, State.vDram_eq, ↓foldl_vDram, ↓ite_vDram, ite_self, implies_true] | (with_reducible refine foldl_dram_canon _ ?_ _ _ ?_ <;> intros))

theorem mrstN_dram_canon (lowNs : Nat) (s : State) (hc : Canon s.vDram) :
    Canon (mrstN lowNs s).vDram := by
  unfold mrstN
  repeat' (first | with_reducible assumption | extract_lets | with_reducible apply State.assertReset_dram_canon | with_reducible refine both_dram_canon _ _ _ ?_ ?_ | split | simp +zetaDelta only [↓State.vDram_mk, State.vDram_eq, ↓foldl_vDram, ↓ite_vDram, ↓State.markHubWake_frame, ↓State.drawn_frame, ite_self, implies_true] | (with_reducible refine foldl_dram_canon _ ?_ _ _ ?_ <;> intros))

theorem watchdogExpire_dram_canon (u : Fin 39) (cycles : Nat) (s : State) (hc : Canon s.vDram) :
    Canon (watchdogExpire u cycles s).vDram := by
  unfold watchdogExpire
  repeat' (first | with_reducible assumption | extract_lets | with_reducible apply State.assertReset_dram_canon | with_reducible refine both_dram_canon _ _ _ ?_ ?_ | split | simp +zetaDelta only [↓State.vDram_mk, State.vDram_eq, ↓foldl_vDram, ↓ite_vDram, ↓State.setRst_frame, ite_self, implies_true] | (with_reducible refine foldl_dram_canon _ ?_ _ _ ?_ <;> intros))

theorem rstSwRequest_dram_canon (r : SwRequest) (s : State) (hc : Canon s.vDram) :
    Canon (rstSwRequest r s).vDram := by
  unfold rstSwRequest
  repeat' (first | with_reducible assumption | extract_lets | with_reducible apply State.assertReset_dram_canon | with_reducible refine both_dram_canon _ _ _ ?_ ?_ | split | simp +zetaDelta only [↓State.vDram_mk, State.vDram_eq, ↓foldl_vDram, ↓ite_vDram, ite_self, implies_true] | (with_reducible refine foldl_dram_canon _ ?_ _ _ ?_ <;> intros))

theorem debugRequest_dram_canon (r : DbgRequest) (s : State) (hc : Canon s.vDram) :
    Canon (debugRequest r s).vDram := by
  unfold debugRequest
  repeat' (first | with_reducible assumption | extract_lets | with_reducible apply State.assertReset_dram_canon | with_reducible refine both_dram_canon _ _ _ ?_ ?_ | split | simp +zetaDelta only [↓State.vDram_mk, State.vDram_eq, ↓foldl_vDram, ↓ite_vDram, ↓State.drawn_frame, ↓State.setRst_frame, ↓State.haltCtl_frame, ite_self, implies_true] | (with_reducible refine foldl_dram_canon _ ?_ _ _ ?_ <;> intros))

theorem State.refclkFails_dram_canon (s : State) (unsent : List (Fin 16 × CtxKey)) (hc : Canon s.vDram) :
    Canon (State.refclkFails s unsent).vDram := by
  unfold State.refclkFails
  repeat' (first | with_reducible assumption | extract_lets | with_reducible apply functionLevelReset_dram_canon | with_reducible refine both_dram_canon _ _ _ ?_ ?_ | split | simp +zetaDelta only [↓State.vDram_mk, State.vDram_eq, ↓foldl_vDram, ↓ite_vDram, ↓State.setRst_frame, ite_self, implies_true] | (with_reducible refine foldl_dram_canon _ ?_ _ _ ?_ <;> intros))

theorem clockFailure_dram_canon (c : ClockSource) (unsent : List (Fin 16 × CtxKey)) (s : State) (hc : Canon s.vDram) :
    Canon (clockFailure c unsent s).vDram := by
  unfold clockFailure
  repeat' (first | with_reducible assumption | extract_lets | with_reducible apply State.assertReset_dram_canon | with_reducible apply State.refclkFails_dram_canon | with_reducible refine both_dram_canon _ _ _ ?_ ?_ | split | simp +zetaDelta only [↓State.vDram_mk, State.vDram_eq, ↓foldl_vDram, ↓ite_vDram, ite_self, implies_true] | (with_reducible refine foldl_dram_canon _ ?_ _ _ ?_ <;> intros))

theorem controlCoreLockup_dram_canon (u : Fin 78) (s : State) (hc : Canon s.vDram) :
    Canon (controlCoreLockup u s).vDram := by
  unfold controlCoreLockup
  repeat' (first | with_reducible assumption | extract_lets | with_reducible apply State.assertReset_dram_canon | with_reducible refine both_dram_canon _ _ _ ?_ ?_ | split | simp +zetaDelta only [↓State.vDram_mk, State.vDram_eq, ↓foldl_vDram, ↓ite_vDram, ite_self, implies_true] | (with_reducible refine foldl_dram_canon _ ?_ _ _ ?_ <;> intros))

theorem sourceRelease_dram_canon (src : RstSource) (r : Reach) (x : InputPair) (s : State) (hc : Canon s.vDram) :
    Canon (sourceRelease src r x s).vDram := by
  unfold sourceRelease
  repeat' (first | with_reducible assumption | extract_lets | with_reducible apply State.assertReset_dram_canon | with_reducible refine both_dram_canon _ _ _ ?_ ?_ | split | simp +zetaDelta only [↓State.vDram_mk, State.vDram_eq, ↓foldl_vDram, ↓ite_vDram, ↓State.clearRecords_frame, ↓State.setRst_frame, ↓State.releaseReset_frame, ↓State.restamp_frame, ite_self, implies_true] | (with_reducible refine foldl_dram_canon _ ?_ _ _ ?_ <;> intros))

theorem State.wakeDram_dram_canon (s : State) (t : Nat) (hc : Canon s.vDram) : Canon (s.wakeDram t).vDram := by
  simp only [State.wakeDram, State.vDram_mk]
  rw [← State.vDram_eq] at hc
  split
  · exact canon_filter _ _ hc
  · exact hc

theorem bringUp_dram_canon (d : Fin 36) (s : State) (hc : Canon s.vDram) :
    Canon (bringUp d s).vDram := by
  unfold bringUp
  repeat' (first | with_reducible assumption | extract_lets | with_reducible apply State.wakeDram_dram_canon | with_reducible apply State.endEpisode_dram_canon | with_reducible refine both_dram_canon _ _ _ ?_ ?_ | split | simp +zetaDelta only [↓State.vDram_mk, State.vDram_eq, ↓foldl_vDram, ↓ite_vDram, ↓State.setEpisode_frame, ↓State.takeTrims_frame, ↓State.quadUp_frame, ↓State.enterPhase_frame, ite_self, implies_true] | (with_reducible refine foldl_dram_canon _ ?_ _ _ ?_ <;> intros))

theorem islandExit_dram_canon (i : Island) (s : State) (hc : Canon s.vDram) :
    Canon (islandExit i s).vDram := by
  unfold islandExit
  repeat' (first | with_reducible assumption | extract_lets | with_reducible apply State.endEpisode_dram_canon | with_reducible refine both_dram_canon _ _ _ ?_ ?_ | split | simp +zetaDelta only [↓State.vDram_mk, State.vDram_eq, ↓foldl_vDram, ↓ite_vDram, ↓State.setChan_frame, ↓State.takeTrims_frame, ite_self, implies_true] | (with_reducible refine foldl_dram_canon _ ?_ _ _ ?_ <;> intros))

theorem moduleReady_dram_canon (c0 : Option (Fin 2097153)) (c1 : Option (Fin 2097153)) (s : State) (hc : Canon s.vDram) :
    Canon (moduleReady c0 c1 s).vDram := by
  unfold moduleReady
  repeat' (first | with_reducible assumption | extract_lets | with_reducible apply State.endEpisode_dram_canon | with_reducible refine both_dram_canon _ _ _ ?_ ?_ | split | simp +zetaDelta only [↓State.vDram_mk, State.vDram_eq, ↓foldl_vDram, ↓ite_vDram, ↓State.setCxlPort_frame, ite_self, implies_true] | (with_reducible refine foldl_dram_canon _ ?_ _ _ ?_ <;> intros))

theorem State.prepare_dram_canon (s : State) (t : Test) (hc : Canon s.vDram) :
    Canon (State.prepare s t).vDram := by
  unfold State.prepare
  repeat' (first | with_reducible assumption | extract_lets | with_reducible apply State.moveFrame_dram_canon | with_reducible refine both_dram_canon _ _ _ ?_ ?_ | split | simp +zetaDelta only [↓State.vDram_mk, State.vDram_eq, ↓foldl_vDram, ↓ite_vDram, ↓State.modCore_frame, ↓State.modPort_frame, ite_self, implies_true] | (with_reducible refine foldl_dram_canon _ ?_ _ _ ?_ <;> intros))

theorem ginghamTest_dram_canon (cl : Fin 39) (s : State) (hc : Canon s.vDram) :
    Canon (ginghamTest cl s).vDram := by
  unfold ginghamTest
  repeat' (first | with_reducible assumption | extract_lets | with_reducible apply State.prepare_dram_canon | with_reducible refine both_dram_canon _ _ _ ?_ ?_ | split | simp +zetaDelta only [↓State.vDram_mk, State.vDram_eq, ↓foldl_vDram, ↓ite_vDram, ↓State.nextHalf_frame, ↓State.setFrame_frame, ↓State.disableUnit_frame, ↓State.closeGatesIn_frame, ↓State.settleQuiesced_frame, ite_self, implies_true] | (with_reducible refine foldl_dram_canon _ ?_ _ _ ?_ <;> intros))

theorem State.fenceUnit_dram_canon (s : State) (kind : Nat) (index : Nat) (code : BitVec 16) (cause : Nat) (part : Option Nat) (hc : Canon s.vDram) :
    Canon (State.fenceUnit s kind index code cause part).vDram := by
  unfold State.fenceUnit
  repeat' (first | with_reducible assumption | extract_lets | with_reducible apply State.vacate_dram_canon | with_reducible refine both_dram_canon _ _ _ ?_ ?_ | split | simp +zetaDelta only [↓State.vDram_mk, State.vDram_eq, ↓foldl_vDram, ↓ite_vDram, ↓State.fence_frame, ↓State.fenceArea_frame, ite_self, implies_true] | (with_reducible refine foldl_dram_canon _ ?_ _ _ ?_ <;> intros))

theorem State.lasting_dram_canon (s : State) (t : Test) (cause : Nat) (addr : Nat) (code : Bool) (hc : Canon s.vDram) :
    Canon (State.lasting s t cause addr code).vDram := by
  unfold State.lasting
  repeat' (first | with_reducible assumption | extract_lets | with_reducible apply State.fenceUnit_dram_canon | with_reducible refine both_dram_canon _ _ _ ?_ ?_ | split | simp +zetaDelta only [↓State.vDram_mk, State.vDram_eq, ↓foldl_vDram, ↓ite_vDram, ↓State.logError_frame, ↓State.holdNotReady_frame, ite_self, implies_true] | (with_reducible refine foldl_dram_canon _ ?_ _ _ ?_ <;> intros))

theorem State.afterTest_dram_canon (s : State) (t : Test) (hc : Canon s.vDram) :
    Canon (State.afterTest s t).vDram := by
  unfold State.afterTest
  repeat' (first | with_reducible assumption | extract_lets | with_reducible apply State.retryCmds_dram_canon | with_reducible refine both_dram_canon _ _ _ ?_ ?_ | split | simp +zetaDelta only [↓State.vDram_mk, State.vDram_eq, ↓foldl_vDram, ↓ite_vDram, ↓State.rejoinNow_frame, ↓State.retarget_frame, ite_self, implies_true] | (with_reducible refine foldl_dram_canon _ ?_ _ _ ?_ <;> intros))

theorem ginghamTestComplete_dram_canon (cl : Fin 39) (e : TestEnd) (s : State) (hc : Canon s.vDram) :
    Canon (ginghamTestComplete cl e s).vDram := by
  unfold ginghamTestComplete
  repeat' (first | with_reducible assumption | extract_lets | with_reducible apply State.lasting_dram_canon | with_reducible apply State.afterTest_dram_canon | with_reducible refine both_dram_canon _ _ _ ?_ ?_ | split | simp +zetaDelta only [↓State.vDram_mk, State.vDram_eq, ↓foldl_vDram, ↓ite_vDram, ↓State.openGates_frame, ↓State.restoreUnit_frame, ↓State.settleQuiesced_frame, ↓State.comesBack_frame, ↓State.logError_frame, ↓State.drawn_frame, ite_self, implies_true] | (with_reducible refine foldl_dram_canon _ ?_ _ _ ?_ <;> intros))

theorem fenceAdd_dram_canon (key : BitVec 8) (s : State) (hc : Canon s.vDram) :
    Canon (fenceAdd key s).vDram := by
  unfold fenceAdd
  repeat' (first | with_reducible assumption | extract_lets | with_reducible apply State.fenceUnit_dram_canon | with_reducible refine both_dram_canon _ _ _ ?_ ?_ | split | simp +zetaDelta only [↓State.vDram_mk, State.vDram_eq, ↓foldl_vDram, ↓ite_vDram, ite_self, implies_true] | (with_reducible refine foldl_dram_canon _ ?_ _ _ ?_ <;> intros))

theorem State.startPart_dram_canon (s : State) (p : Nat) (lost : Bool) (hc : Canon s.vDram) :
    Canon (State.startPart s p lost).vDram := by
  unfold State.startPart
  repeat' (first | with_reducible assumption | extract_lets | with_reducible apply State.wakeDram_dram_canon | with_reducible refine both_dram_canon _ _ _ ?_ ?_ | split | simp +zetaDelta only [↓State.vDram_mk, State.vDram_eq, ↓foldl_vDram, ↓ite_vDram, ite_self, implies_true] | (with_reducible refine foldl_dram_canon _ ?_ _ _ ?_ <;> intros))

theorem State.wakeEpoch_dram_canon (s : State) (p : Nat) (hc : Canon s.vDram) :
    Canon (State.wakeEpoch s p).vDram := by
  unfold State.wakeEpoch
  repeat' (first | with_reducible assumption | extract_lets | with_reducible apply State.rollbackHold_dram_canon | with_reducible refine both_dram_canon _ _ _ ?_ ?_ | split | simp +zetaDelta only [↓State.vDram_mk, State.vDram_eq, ↓foldl_vDram, ↓ite_vDram, ↓State.applyEpoch_frame, ↓State.drawn_frame, ↓State.modJob_frame, ite_self, implies_true] | (with_reducible refine foldl_dram_canon _ ?_ _ _ ?_ <;> intros))

theorem wakeComplete_dram_canon (p : PartId) (s : State) (hc : Canon s.vDram) :
    Canon (wakeComplete p s).vDram := by
  unfold wakeComplete
  repeat' (first | with_reducible assumption | extract_lets | with_reducible apply State.startPart_dram_canon | with_reducible apply State.wakeEpoch_dram_canon | with_reducible apply State.retryCmds_dram_canon | with_reducible refine both_dram_canon _ _ _ ?_ ?_ | split | simp +zetaDelta only [↓State.vDram_mk, State.vDram_eq, ↓foldl_vDram, ↓ite_vDram, ↓State.modPart_frame, ↓State.modCoresOf_frame, ↓State.retarget_frame, ↓State.modEvent_frame, ite_self, implies_true] | (with_reducible refine foldl_dram_canon _ ?_ _ _ ?_ <;> intros))

theorem dieThermalTrip_dram_canon (die : Option LinkDieId) (temp : BitVec 8) (s : State) (hc : Canon s.vDram) :
    Canon (dieThermalTrip die temp s).vDram := by
  unfold dieThermalTrip
  repeat' (first | with_reducible assumption | extract_lets | with_reducible apply State.assertReset_dram_canon | with_reducible refine both_dram_canon _ _ _ ?_ ?_ | split | simp +zetaDelta only [↓State.vDram_mk, State.vDram_eq, ↓foldl_vDram, ↓ite_vDram, ↓State.setPwr_frame, ↓State.modEvent_frame, ↓klpEnable_frame, ite_self, implies_true] | (with_reducible refine foldl_dram_canon _ ?_ _ _ ?_ <;> intros))

theorem State.activateDie_dram_canon (s : State) (d : Nat) (h : d < 36) (hc : Canon s.vDram) :
    Canon (State.activateDie s d h).vDram := by
  unfold State.activateDie
  repeat' (first | with_reducible assumption | extract_lets | with_reducible apply State.applyReset_dram_canon | with_reducible refine both_dram_canon _ _ _ ?_ ?_ | split | simp +zetaDelta only [↓State.vDram_mk, State.vDram_eq, ↓foldl_vDram, ↓ite_vDram, ↓State.setRst_frame, ite_self, implies_true] | (with_reducible refine foldl_dram_canon _ ?_ _ _ ?_ <;> intros))

theorem activateQuad_dram_canon (key : BitVec 8) (s : State) (hc : Canon s.vDram) :
    Canon (activateQuad key s).vDram := by
  unfold activateQuad
  repeat' (first | with_reducible assumption | extract_lets | with_reducible apply State.activateDie_dram_canon | with_reducible refine both_dram_canon _ _ _ ?_ ?_ | split | simp +zetaDelta only [↓State.vDram_mk, State.vDram_eq, ↓foldl_vDram, ↓ite_vDram, ↓State.fwuRefuse_frame, ↓State.closeGatesOf_frame, ↓State.settleQuiesced_frame, ↓State.setFw_frame, ite_self, implies_true] | (with_reducible refine foldl_dram_canon _ ?_ _ _ ?_ <;> intros))

theorem State.wakeHub_dram_canon (s : State) (hc : Canon s.vDram) :
    Canon (State.wakeHub s).vDram := by
  unfold State.wakeHub
  repeat' (first | with_reducible assumption | extract_lets | with_reducible apply State.applyReset_dram_canon | with_reducible refine both_dram_canon _ _ _ ?_ ?_ | split | simp +zetaDelta only [↓State.vDram_mk, State.vDram_eq, ↓foldl_vDram, ↓ite_vDram, ↓State.stampReset_frame, ↓State.setRst_frame, ↓State.beginExit_frame, ite_self, implies_true] | (with_reducible refine foldl_dram_canon _ ?_ _ _ ?_ <;> intros))

theorem pldmRequest_dram_canon (r : PldmReq) (s : State) (hc : Canon s.vDram) :
    Canon (pldmRequest r s).vDram := by
  unfold pldmRequest
  repeat' (first | with_reducible assumption | extract_lets | with_reducible apply State.wakeHub_dram_canon | with_reducible refine both_dram_canon _ _ _ ?_ ?_ | split | simp +zetaDelta only [↓State.vDram_mk, State.vDram_eq, ↓foldl_vDram, ↓ite_vDram, ↓State.takeAddress_frame, ↓State.bootImage_frame, ↓State.writeSlot_frame, ↓State.selectSlot_frame, ↓State.mgmtWrite_frame, ↓State.attestDrawn_frame, ite_self, implies_true] | (with_reducible refine foldl_dram_canon _ ?_ _ _ ?_ <;> intros))

theorem State.hostApply_dram_canon (s : State) (x : Instr) (hc : Canon s.vDram) : Canon (s.hostApply x).vDram := by
  cases x
  case registerWrite r w v h =>
    cases r <;> dsimp only [State.hostApply] <;> first
      | exact hc
      | simpa only [↓State.bar0Apply_frame] using hc
  all_goals dsimp only [State.hostApply]
  all_goals first
    | with_reducible exact hc
    | with_reducible exact Machine.State.bar2Apply_dram_canon _ _ _ _  hc
    | with_reducible exact Machine.jobStart_dram_canon _ _ _  hc
    | with_reducible exact Machine.jobPause_dram_canon _ _  hc
    | with_reducible exact Machine.jobResume_dram_canon _ _  hc
    | with_reducible exact Machine.jobStop_dram_canon _ _  hc
    | with_reducible exact Machine.jobAbort_dram_canon _ _  hc
    | with_reducible exact Machine.jobClear_dram_canon _ _  hc
    | with_reducible exact Machine.epochWrite_dram_canon _ _ _  hc
    | with_reducible exact Machine.persistAckWrite_dram_canon _ _ _ _  hc
    | with_reducible exact Machine.farEvict_dram_canon _ _ _  hc
    | with_reducible exact Machine.rstSwRequest_dram_canon _ _  hc
    | with_reducible exact Machine.activateQuad_dram_canon _ _  hc
    | with_reducible exact Machine.fenceAdd_dram_canon _ _  hc
    | simpa only [↓Machine.State.bar0Apply_frame, ↓Machine.State.bar2Apply_frame, ↓Machine.hostMaxVersionWrite_frame, ↓Machine.partCfgWrite_frame, ↓Machine.jobStart_frame, ↓Machine.jobPause_frame, ↓Machine.jobResume_frame, ↓Machine.jobStop_frame, ↓Machine.jobAbort_frame, ↓Machine.jobClear_frame, ↓Machine.endStepWrite_frame, ↓Machine.epochWrite_frame, ↓Machine.eventEnableWrite_frame, ↓Machine.swEnable_frame, ↓Machine.swDisable_frame, ↓Machine.persistAckWrite_frame, ↓Machine.latTolWrite_frame, ↓Machine.farQuotaWrite_frame, ↓Machine.farEvict_frame, ↓Machine.rstSwRequest_frame, ↓Machine.recSnapAck_frame, ↓Machine.bootGo_frame, ↓Machine.writeSlot_frame, ↓Machine.fwuSelect_frame, ↓Machine.fwuConfirm_frame, ↓Machine.svnCommit_frame, ↓Machine.activateQuad_frame, ↓Machine.mgmtWrite_frame, ↓Machine.claim_frame, ↓Machine.ownerTransfer_frame, ↓Machine.revokeImage_frame, ↓Machine.ownerRelease_frame, ↓Machine.debugUnlock_frame, ↓Machine.lifecycleToken_frame, ↓Machine.attGo_frame, ↓Machine.ghReq_frame, ↓Machine.ghClrCounts_frame, ↓Machine.fenceAdd_frame, ↓Machine.fenceRemove_frame, ↓Machine.pwrCapWrite_frame, ↓Machine.pwrCalGo_frame] using hc

theorem State.drainHost_dram_canon (s : State) (l : List Instr) (hc : Canon s.vDram) : Canon (s.drainHost l).vDram := by
  induction l generalizing s with
  | nil => simpa only [State.drainHost, ↓State.vDram_mk, State.vDram_eq] using hc
  | cons a t ih =>
    unfold State.drainHost
    split
    · simpa only [↓State.vDram_mk, State.vDram_eq] using hc
    · exact ih _ (State.hostApply_dram_canon _ _ hc)

theorem resendInOrder_dram_canon (k : ChannelId) (src : Fin 1026) (f : LineFound) (s : State) (hc : Canon s.vDram) :
    Canon (resendInOrder k src f s).vDram := by
  unfold resendInOrder
  repeat' (first | with_reducible assumption | extract_lets | with_reducible apply retryResend_dram_canon | with_reducible apply State.drainHost_dram_canon | with_reducible refine both_dram_canon _ _ _ ?_ ?_ | split | simp +zetaDelta only [↓State.vDram_mk, State.vDram_eq, ↓foldl_vDram, ↓ite_vDram, ite_self, implies_true] | (with_reducible refine foldl_dram_canon _ ?_ _ _ ?_ <;> intros))

theorem State.accessCow_far_canon (s : State) (p : Nat) (src : ReqSrc) (use merge full : List (Nat × Nat)) (l : List Place) (f : State → State)
    (h : ∀ a, Canon a.kept.far → Canon (f a).kept.far) (hc : Canon s.kept.far) :
    Canon (State.accessCow s p src use merge full l f).kept.far := by
  unfold State.accessCow
  extract_lets s1
  have h1 : Canon s1.kept.far := by simpa only [s1, ↓foldl_kept, ↓State.touch_frame, implies_true] using hc
  clear_value s1
  split
  · exact h1
  · rename_i a w hn
    have ha : Canon a.kept.far := h _ (by simpa only [↓foldl_kept, ↓State.writeOver_frame, implies_true] using h1)
    clear_value w a
    split
    · simpa only [↓foldl_kept, ↓State.holdPiece_frame, implies_true] using ha
    · split
      · simpa only [↓State.markRefused_frame, ↓State.setChan_frame] using h1
      · exact h1

theorem State.accessBy_far_canon (s : State) (p : Nat) (src : ReqSrc) (use merge full : List (Nat × Nat)) (f : State → State)
    (h : ∀ a, Canon a.kept.far → Canon (f a).kept.far) (hc : Canon s.kept.far) :
    Canon (State.accessBy s p src use merge full f).kept.far := by
  unfold State.accessBy
  split
  · simpa only [↓State.placeRefused_frame] using hc
  · split
    · simpa only [↓State.dramUe_frame] using hc
    · split
      · exact h _ (by simpa only [↓foldl_kept, ↓State.writeOver_frame, implies_true] using hc)
      · exact State.accessCow_far_canon _ _ _ _ _ _ _ _ h hc

theorem State.whenAccess_far_canon (s : State) (p : Nat) (use merge full : List (Nat × Nat)) (f : State → State)
    (h : ∀ a, Canon a.kept.far → Canon (f a).kept.far) (hc : Canon s.kept.far) :
    Canon (State.whenAccess s p use merge full f).kept.far := by
  exact State.accessBy_far_canon _ _ _ _ _ _ _ h hc

theorem State.whenWritable_far_canon (s : State) (p : Nat) (rs : List (Nat × Nat)) (f : State → State)
    (h : ∀ a, Canon a.kept.far → Canon (f a).kept.far) (hc : Canon s.kept.far) :
    Canon (State.whenWritable s p rs f).kept.far := by
  exact State.whenAccess_far_canon _ _ _ _ _ _ h hc

theorem State.whenFtt_far_canon (s : State) (p port page : Nat) (f : State → State)
    (h : ∀ a, Canon a.kept.far → Canon (f a).kept.far) (hc : Canon s.kept.far) :
    Canon (State.whenFtt s p port page f).kept.far := by
  exact State.whenWritable_far_canon _ _ _ _ h hc

theorem State.extWrite_far_canon (s : State) (p : Nat) (a : Nat) (bs : List Byte) (hc : Canon s.kept.far) :
    Canon (State.extWrite s p a bs).kept.far := by
  unfold State.extWrite
  repeat' (first | with_reducible assumption | extract_lets | split | simp +zetaDelta only [↓State.kept_mk, State.queue_eq, State.layout_eq, State.far_eq, State.flash_eq, State.meter_eq, ↓foldl_queue, ↓foldl_layout, ↓foldl_far, ↓foldl_flash, ↓foldl_meter, ↓ite_kept, ↓State.setFtt_frame, ite_self, implies_true] | (with_reducible refine foldl_far_canon _ ?_ _ _ ?_ <;> intros) | with_reducible apply canon_set | with_reducible apply canon_filter | with_reducible apply canon_dramWrite)

theorem State.external_far_canon (s : State) (k : CtxKey) (i : Nat) (second : Bool) (write : Bool) (host : List Byte) (f : LineFound) (hc : Canon s.kept.far) :
    Canon (State.external s k i second write host f).kept.far := by
  unfold State.external
  repeat' (first | with_reducible assumption | extract_lets | with_reducible apply State.extWrite_far_canon | split | simp +zetaDelta only [↓State.kept_mk, State.queue_eq, State.layout_eq, State.far_eq, State.flash_eq, State.meter_eq, ↓foldl_queue, ↓foldl_layout, ↓foldl_far, ↓foldl_flash, ↓foldl_meter, ↓ite_kept, ↓State.respond_frame, ↓State.modCtx_frame, ↓State.hostSend_frame, ↓State.settleWindows_frame, ite_self, implies_true] | (with_reducible refine foldl_far_canon _ ?_ _ _ ?_ <;> intros))

theorem channelRequest_far_canon (a : ChanArrival) (f : LineFound) (s : State) (hc : Canon s.kept.far) :
    Canon (channelRequest a f s).kept.far := by
  unfold channelRequest
  repeat' (first | with_reducible assumption | extract_lets | with_reducible apply State.external_far_canon | split | simp +zetaDelta only [↓State.kept_mk, State.queue_eq, State.layout_eq, State.far_eq, State.flash_eq, State.meter_eq, ↓foldl_queue, ↓foldl_layout, ↓foldl_far, ↓foldl_flash, ↓foldl_meter, ↓ite_kept, ↓State.arrive_frame, ↓State.modCtx_frame, ↓State.portRequest_frame, ↓State.programFault_frame, ↓State.readBack_frame, ↓State.hostSend_frame, ite_self, implies_true] | (with_reducible refine foldl_far_canon _ ?_ _ _ ?_ <;> intros))

theorem farFillComplete_far_canon (p : PartId) (port : Fin 2) (page : Fin 2097152) (host : List Byte) (s : State)
    (hc : Canon s.kept.far) : Canon (farFillComplete p port page host s).kept.far := by
  unfold farFillComplete
  split
  · exact hc
  · refine State.whenFtt_far_canon _ _ _ _ _ (fun a ha => ?_) hc
    extract_lets f off d bs s1 s2 s3
    split
    · exact ha
    · simp only [s3, s2, s1, ↓State.resumeFar_frame, ↓State.modPart_frame, ↓State.setFtt_frame, ↓State.kept_mk]
      rw [← State.far_eq] at ha
      exact canon_dramWrite _ _ _ ha

theorem State.setFlash_flash_canon (s : State) (slot off : Nat) (bs : List Byte) (hc : Canon s.kept.flash) :
    Canon (s.setFlash slot off bs).kept.flash := by
  simp only [State.setFlash, State.kept_mk]
  rw [← State.flash_eq] at hc
  exact canon_dramWrite _ _ _ hc

theorem State.openFlash_flash_canon (s : State) (p : Nat) (f : FlashRun) (hc : Canon s.kept.flash) :
    Canon (State.openFlash s p f).kept.flash := by
  unfold State.openFlash
  repeat' (first | with_reducible assumption | extract_lets | with_reducible apply State.setFlash_flash_canon | split | simp +zetaDelta only [↓State.kept_mk, State.queue_eq, State.layout_eq, State.far_eq, State.flash_eq, State.meter_eq, ↓foldl_queue, ↓foldl_layout, ↓foldl_far, ↓foldl_flash, ↓foldl_meter, ↓ite_kept, ↓State.setCatEntry_frame, ↓State.modJob_frame, ite_self, implies_true] | (with_reducible refine foldl_flash_canon _ ?_ _ _ ?_ <;> intros))

theorem State.flashTake_flash_canon (s : State) (p : Nat) (f : FlashRun) (h : Sn) (bs : List Byte) (hc : Canon s.kept.flash) :
    Canon (State.flashTake s p f h bs).kept.flash := by
  unfold State.flashTake
  repeat' (first | with_reducible assumption | extract_lets | with_reducible apply State.setFlash_flash_canon | with_reducible apply State.openFlash_flash_canon | split | simp +zetaDelta only [↓State.kept_mk, State.queue_eq, State.layout_eq, State.far_eq, State.flash_eq, State.meter_eq, ↓foldl_queue, ↓foldl_layout, ↓foldl_far, ↓foldl_flash, ↓foldl_meter, ↓ite_kept, ↓State.modJob_frame, ↓State.logError_frame, ↓State.setCatEntry_frame, ↓State.dropFlash_frame, ite_self, implies_true] | (with_reducible refine foldl_flash_canon _ ?_ _ _ ?_ <;> intros))

theorem fetchData_flash_canon (p : PartId) (i : Nat) (s : State) (hc : Canon s.kept.flash) :
    Canon (fetchData p i s).kept.flash := by
  unfold fetchData
  repeat' (first | with_reducible assumption | extract_lets | with_reducible apply State.flashTake_flash_canon | split | simp +zetaDelta only [↓State.kept_mk, State.queue_eq, State.layout_eq, State.far_eq, State.flash_eq, State.meter_eq, ↓foldl_queue, ↓foldl_layout, ↓foldl_far, ↓foldl_flash, ↓foldl_meter, ↓ite_kept, ↓State.dropRx_frame, ↓State.restoreTake_frame, ite_self, implies_true] | (with_reducible refine foldl_flash_canon _ ?_ _ _ ?_ <;> intros))

theorem flashWriteComplete_flash_canon (p : PartId) (s : State) (hc : Canon s.kept.flash) :
    Canon (flashWriteComplete p s).kept.flash := by
  unfold flashWriteComplete
  repeat' (first | with_reducible assumption | extract_lets | with_reducible apply State.setFlash_flash_canon | with_reducible apply State.openFlash_flash_canon | split | simp +zetaDelta only [↓State.kept_mk, State.queue_eq, State.layout_eq, State.far_eq, State.flash_eq, State.meter_eq, ↓foldl_queue, ↓foldl_layout, ↓foldl_far, ↓foldl_flash, ↓foldl_meter, ↓ite_kept, ↓State.jobEvent_frame, ↓State.setCatEntry_frame, ↓State.modJob_frame, ↓State.beginSerge_frame, ite_self, implies_true] | (with_reducible refine foldl_flash_canon _ ?_ _ _ ?_ <;> intros))

theorem recSnapAck_flash_canon (s : State) (hc : Canon s.kept.flash) :
    Canon (recSnapAck s).kept.flash := by
  unfold recSnapAck
  repeat' (first | with_reducible assumption | extract_lets | with_reducible apply State.setFlash_flash_canon | split | simp +zetaDelta only [↓State.kept_mk, State.queue_eq, State.layout_eq, State.far_eq, State.flash_eq, State.meter_eq, ↓foldl_queue, ↓foldl_layout, ↓foldl_far, ↓foldl_flash, ↓foldl_meter, ↓ite_kept, ↓State.setRst_frame, ite_self, implies_true] | (with_reducible refine foldl_flash_canon _ ?_ _ _ ?_ <;> intros))

theorem State.hostApply_flash_canon (s : State) (x : Instr) (hc : Canon s.kept.flash) : Canon (s.hostApply x).kept.flash := by
  cases x
  case registerWrite r w v h =>
    cases r <;> dsimp only [State.hostApply] <;> first
      | exact hc
      | simpa only [↓State.bar0Apply_frame] using hc
  all_goals dsimp only [State.hostApply]
  all_goals first
    | with_reducible exact hc
    | with_reducible exact Machine.recSnapAck_flash_canon _  hc
    | simpa only [↓Machine.State.bar0Apply_frame, ↓Machine.State.bar2Apply_frame, ↓Machine.hostMaxVersionWrite_frame, ↓Machine.partCfgWrite_frame, ↓Machine.jobStart_frame, ↓Machine.jobPause_frame, ↓Machine.jobResume_frame, ↓Machine.jobStop_frame, ↓Machine.jobAbort_frame, ↓Machine.jobClear_frame, ↓Machine.endStepWrite_frame, ↓Machine.epochWrite_frame, ↓Machine.eventEnableWrite_frame, ↓Machine.swEnable_frame, ↓Machine.swDisable_frame, ↓Machine.persistAckWrite_frame, ↓Machine.latTolWrite_frame, ↓Machine.farQuotaWrite_frame, ↓Machine.farEvict_frame, ↓Machine.rstSwRequest_frame, ↓Machine.recSnapAck_frame, ↓Machine.bootGo_frame, ↓Machine.writeSlot_frame, ↓Machine.fwuSelect_frame, ↓Machine.fwuConfirm_frame, ↓Machine.svnCommit_frame, ↓Machine.activateQuad_frame, ↓Machine.mgmtWrite_frame, ↓Machine.claim_frame, ↓Machine.ownerTransfer_frame, ↓Machine.revokeImage_frame, ↓Machine.ownerRelease_frame, ↓Machine.debugUnlock_frame, ↓Machine.lifecycleToken_frame, ↓Machine.attGo_frame, ↓Machine.ghReq_frame, ↓Machine.ghClrCounts_frame, ↓Machine.fenceAdd_frame, ↓Machine.fenceRemove_frame, ↓Machine.pwrCapWrite_frame, ↓Machine.pwrCalGo_frame] using hc

theorem State.drainHost_flash_canon (s : State) (l : List Instr) (hc : Canon s.kept.flash) : Canon (s.drainHost l).kept.flash := by
  induction l generalizing s with
  | nil => simpa only [State.drainHost, ↓State.kept_mk, State.flash_eq] using hc
  | cons a t ih =>
    unfold State.drainHost
    split
    · simpa only [↓State.kept_mk, State.flash_eq] using hc
    · exact ih _ (State.hostApply_flash_canon _ _ hc)

theorem resendInOrder_flash_canon (k : ChannelId) (src : Fin 1026) (f : LineFound) (s : State) (hc : Canon s.kept.flash) :
    Canon (resendInOrder k src f s).kept.flash := by
  unfold resendInOrder
  repeat' (first | with_reducible assumption | extract_lets | with_reducible apply State.drainHost_flash_canon | split | simp +zetaDelta only [↓State.kept_mk, State.queue_eq, State.layout_eq, State.far_eq, State.flash_eq, State.meter_eq, ↓foldl_queue, ↓foldl_layout, ↓foldl_far, ↓foldl_flash, ↓foldl_meter, ↓ite_kept, ↓retryResend_frame, ite_self, implies_true] | (with_reducible refine foldl_flash_canon _ ?_ _ _ ?_ <;> intros))

end Sys2Proof.Machine
end

