-- ==== Sys2Proof/Laws/Layout.lean ====
section
/-! SUPPORT. The partition map stays legal: each definition that writes it keeps a legal layout. -/

namespace Sys2Proof.Machine

set_option linter.all false

/-- The partition map has one of the legal layouts (11 R301). -/
def Legal (v : BitVec 8) : Prop := layoutLegal v = true
theorem legal_reset : Legal 0xE4 := by
  unfold Legal; decide

theorem both_layout_legal (c : Prop) [Decidable c] (a b : State) (ha : Legal a.kept.layout) (hb : Legal b.kept.layout) :
    Legal (if c then a else b).kept.layout := by split <;> assumption
theorem foldl_layout_legal {β : Type} (f : State → β → State) (h : ∀ a x, Legal a.kept.layout → Legal (f a x).kept.layout)
    (l : List β) (s : State) (hs : Legal s.kept.layout) : Legal (l.foldl f s).kept.layout := by
  induction l generalizing s with
  | nil => exact hs
  | cons x t ih => exact ih _ (h s x hs)


theorem State.resetHub_layout_legal (s : State) (mgmt : Bool) (hc : Legal s.kept.layout) : Legal (s.resetHub mgmt).kept.layout := by
  simp only [State.resetHub, ↓State.kept_mk]
  exact legal_reset

theorem State.applyReset_layout_legal (s : State) (r : Reach) (src : Nat) (hc : Legal s.kept.layout) :
    Legal (State.applyReset s r src).kept.layout := by
  unfold State.applyReset
  repeat' (first | with_reducible assumption | extract_lets | with_reducible apply State.resetHub_layout_legal | split | simp +zetaDelta only [↓State.kept_mk, State.queue_eq, State.layout_eq, State.far_eq, State.flash_eq, State.meter_eq, ↓foldl_queue, ↓foldl_layout, ↓foldl_far, ↓foldl_flash, ↓foldl_meter, ↓ite_kept, ↓State.abortTests_frame, ↓State.resetJob_frame, ↓State.discardRecord_frame, ↓State.loseDram_frame, ↓State.resetUnits_frame, ↓State.markReset_frame, ↓State.repeatTests_frame, ite_self, implies_true] | (with_reducible refine foldl_layout_legal _ ?_ _ _ ?_ <;> intros))

theorem State.assertReset_layout_legal (s : State) (src : RstSource) (r : Reach) (hc : Legal s.kept.layout) :
    Legal (State.assertReset s src r).kept.layout := by
  unfold State.assertReset
  repeat' (first | with_reducible assumption | extract_lets | with_reducible apply State.applyReset_layout_legal | split | simp +zetaDelta only [↓State.kept_mk, State.queue_eq, State.layout_eq, State.far_eq, State.flash_eq, State.meter_eq, ↓foldl_queue, ↓foldl_layout, ↓foldl_far, ↓foldl_flash, ↓foldl_meter, ↓ite_kept, ↓State.setRst_frame, ↓State.stampReset_frame, ite_self, implies_true] | (with_reducible refine foldl_layout_legal _ ?_ _ _ ?_ <;> intros))

theorem powerOn_layout_legal (v12 : InputVolts) (s : State) (hc : Legal s.kept.layout) :
    Legal (powerOn v12 s).kept.layout := by
  unfold powerOn
  repeat' (first | with_reducible assumption | extract_lets | with_reducible apply State.assertReset_layout_legal | split | simp +zetaDelta only [↓State.kept_mk, State.queue_eq, State.layout_eq, State.far_eq, State.flash_eq, State.meter_eq, ↓foldl_queue, ↓foldl_layout, ↓foldl_far, ↓foldl_flash, ↓foldl_meter, ↓ite_kept, ↓State.setRst_frame, ite_self, implies_true] | (with_reducible refine foldl_layout_legal _ ?_ _ _ ?_ <;> intros))

theorem brownOut_layout_legal (x : Input48) (s : State) (hc : Legal s.kept.layout) :
    Legal (brownOut x s).kept.layout := by
  unfold brownOut
  repeat' (first | with_reducible assumption | extract_lets | with_reducible apply State.assertReset_layout_legal | split | simp +zetaDelta only [↓State.kept_mk, State.queue_eq, State.layout_eq, State.far_eq, State.flash_eq, State.meter_eq, ↓foldl_queue, ↓foldl_layout, ↓foldl_far, ↓foldl_flash, ↓foldl_meter, ↓ite_kept, ite_self, implies_true] | (with_reducible refine foldl_layout_legal _ ?_ _ _ ?_ <;> intros))

theorem mrstN_layout_legal (lowNs : Nat) (s : State) (hc : Legal s.kept.layout) :
    Legal (mrstN lowNs s).kept.layout := by
  unfold mrstN
  repeat' (first | with_reducible assumption | extract_lets | with_reducible apply State.assertReset_layout_legal | split | simp +zetaDelta only [↓State.kept_mk, State.queue_eq, State.layout_eq, State.far_eq, State.flash_eq, State.meter_eq, ↓foldl_queue, ↓foldl_layout, ↓foldl_far, ↓foldl_flash, ↓foldl_meter, ↓ite_kept, ↓State.markHubWake_frame, ↓State.drawn_frame, ite_self, implies_true] | (with_reducible refine foldl_layout_legal _ ?_ _ _ ?_ <;> intros))

theorem watchdogExpire_layout_legal (u : Fin 39) (cycles : Nat) (s : State) (hc : Legal s.kept.layout) :
    Legal (watchdogExpire u cycles s).kept.layout := by
  unfold watchdogExpire
  repeat' (first | with_reducible assumption | extract_lets | with_reducible apply State.assertReset_layout_legal | split | simp +zetaDelta only [↓State.kept_mk, State.queue_eq, State.layout_eq, State.far_eq, State.flash_eq, State.meter_eq, ↓foldl_queue, ↓foldl_layout, ↓foldl_far, ↓foldl_flash, ↓foldl_meter, ↓ite_kept, ↓State.setRst_frame, ite_self, implies_true] | (with_reducible refine foldl_layout_legal _ ?_ _ _ ?_ <;> intros))

theorem rstSwRequest_layout_legal (r : SwRequest) (s : State) (hc : Legal s.kept.layout) :
    Legal (rstSwRequest r s).kept.layout := by
  unfold rstSwRequest
  repeat' (first | with_reducible assumption | extract_lets | with_reducible apply State.assertReset_layout_legal | split | simp +zetaDelta only [↓State.kept_mk, State.queue_eq, State.layout_eq, State.far_eq, State.flash_eq, State.meter_eq, ↓foldl_queue, ↓foldl_layout, ↓foldl_far, ↓foldl_flash, ↓foldl_meter, ↓ite_kept, ite_self, implies_true] | (with_reducible refine foldl_layout_legal _ ?_ _ _ ?_ <;> intros))

theorem debugRequest_layout_legal (r : DbgRequest) (s : State) (hc : Legal s.kept.layout) :
    Legal (debugRequest r s).kept.layout := by
  unfold debugRequest
  repeat' (first | with_reducible assumption | extract_lets | with_reducible apply State.assertReset_layout_legal | split | simp +zetaDelta only [↓State.kept_mk, State.queue_eq, State.layout_eq, State.far_eq, State.flash_eq, State.meter_eq, ↓foldl_queue, ↓foldl_layout, ↓foldl_far, ↓foldl_flash, ↓foldl_meter, ↓ite_kept, ↓State.drawn_frame, ↓State.setRst_frame, ↓State.haltCtl_frame, ite_self, implies_true] | (with_reducible refine foldl_layout_legal _ ?_ _ _ ?_ <;> intros))

theorem clockFailure_layout_legal (c : ClockSource) (unsent : List (Fin 16 × CtxKey)) (s : State) (hc : Legal s.kept.layout) :
    Legal (clockFailure c unsent s).kept.layout := by
  unfold clockFailure
  repeat' (first | with_reducible assumption | extract_lets | with_reducible apply State.assertReset_layout_legal | split | simp +zetaDelta only [↓State.kept_mk, State.queue_eq, State.layout_eq, State.far_eq, State.flash_eq, State.meter_eq, ↓foldl_queue, ↓foldl_layout, ↓foldl_far, ↓foldl_flash, ↓foldl_meter, ↓ite_kept, ↓State.refclkFails_frame, ite_self, implies_true] | (with_reducible refine foldl_layout_legal _ ?_ _ _ ?_ <;> intros))

theorem controlCoreLockup_layout_legal (u : Fin 78) (s : State) (hc : Legal s.kept.layout) :
    Legal (controlCoreLockup u s).kept.layout := by
  unfold controlCoreLockup
  repeat' (first | with_reducible assumption | extract_lets | with_reducible apply State.assertReset_layout_legal | split | simp +zetaDelta only [↓State.kept_mk, State.queue_eq, State.layout_eq, State.far_eq, State.flash_eq, State.meter_eq, ↓foldl_queue, ↓foldl_layout, ↓foldl_far, ↓foldl_flash, ↓foldl_meter, ↓ite_kept, ite_self, implies_true] | (with_reducible refine foldl_layout_legal _ ?_ _ _ ?_ <;> intros))

theorem sourceRelease_layout_legal (src : RstSource) (r : Reach) (x : InputPair) (s : State) (hc : Legal s.kept.layout) :
    Legal (sourceRelease src r x s).kept.layout := by
  unfold sourceRelease
  repeat' (first | with_reducible assumption | extract_lets | with_reducible apply State.assertReset_layout_legal | split | simp +zetaDelta only [↓State.kept_mk, State.queue_eq, State.layout_eq, State.far_eq, State.flash_eq, State.meter_eq, ↓foldl_queue, ↓foldl_layout, ↓foldl_far, ↓foldl_flash, ↓foldl_meter, ↓ite_kept, ↓State.clearRecords_frame, ↓State.setRst_frame, ↓State.releaseReset_frame, ↓State.restamp_frame, ite_self, implies_true] | (with_reducible refine foldl_layout_legal _ ?_ _ _ ?_ <;> intros))

theorem partCfgWrite_layout_legal (v : BitVec 8) (s : State) (hc : Legal s.kept.layout) : Legal (partCfgWrite v s).kept.layout := by
  unfold partCfgWrite
  extract_lets changed free d1 s1 s2
  split
  · simpa only [d1, ↓State.kept_mk, State.layout_eq] using hc
  · rename_i h
    have hv : layoutLegal v = true := by
      revert h; cases layoutLegal v <;> simp
    simp only [↓foldl_layout, ↓State.joinPower_frame, ↓State.setLead_frame, implies_true, s2, s1, ↓State.kept_mk]
    exact hv

theorem dieThermalTrip_layout_legal (die : Option LinkDieId) (temp : BitVec 8) (s : State) (hc : Legal s.kept.layout) :
    Legal (dieThermalTrip die temp s).kept.layout := by
  unfold dieThermalTrip
  repeat' (first | with_reducible assumption | extract_lets | with_reducible apply State.assertReset_layout_legal | split | simp +zetaDelta only [↓State.kept_mk, State.queue_eq, State.layout_eq, State.far_eq, State.flash_eq, State.meter_eq, ↓foldl_queue, ↓foldl_layout, ↓foldl_far, ↓foldl_flash, ↓foldl_meter, ↓ite_kept, ↓State.setPwr_frame, ↓State.modEvent_frame, ↓klpEnable_frame, ite_self, implies_true] | (with_reducible refine foldl_layout_legal _ ?_ _ _ ?_ <;> intros))

theorem State.activateDie_layout_legal (s : State) (d : Nat) (h : d < 36) (hc : Legal s.kept.layout) :
    Legal (State.activateDie s d h).kept.layout := by
  unfold State.activateDie
  repeat' (first | with_reducible assumption | extract_lets | with_reducible apply State.applyReset_layout_legal | split | simp +zetaDelta only [↓State.kept_mk, State.queue_eq, State.layout_eq, State.far_eq, State.flash_eq, State.meter_eq, ↓foldl_queue, ↓foldl_layout, ↓foldl_far, ↓foldl_flash, ↓foldl_meter, ↓ite_kept, ↓State.setRst_frame, ite_self, implies_true] | (with_reducible refine foldl_layout_legal _ ?_ _ _ ?_ <;> intros))

theorem activateQuad_layout_legal (key : BitVec 8) (s : State) (hc : Legal s.kept.layout) :
    Legal (activateQuad key s).kept.layout := by
  unfold activateQuad
  repeat' (first | with_reducible assumption | extract_lets | with_reducible apply State.activateDie_layout_legal | split | simp +zetaDelta only [↓State.kept_mk, State.queue_eq, State.layout_eq, State.far_eq, State.flash_eq, State.meter_eq, ↓foldl_queue, ↓foldl_layout, ↓foldl_far, ↓foldl_flash, ↓foldl_meter, ↓ite_kept, ↓State.fwuRefuse_frame, ↓State.closeGatesOf_frame, ↓State.settleQuiesced_frame, ↓State.setFw_frame, ite_self, implies_true] | (with_reducible refine foldl_layout_legal _ ?_ _ _ ?_ <;> intros))

theorem State.wakeHub_layout_legal (s : State) (hc : Legal s.kept.layout) :
    Legal (State.wakeHub s).kept.layout := by
  unfold State.wakeHub
  repeat' (first | with_reducible assumption | extract_lets | with_reducible apply State.applyReset_layout_legal | split | simp +zetaDelta only [↓State.kept_mk, State.queue_eq, State.layout_eq, State.far_eq, State.flash_eq, State.meter_eq, ↓foldl_queue, ↓foldl_layout, ↓foldl_far, ↓foldl_flash, ↓foldl_meter, ↓ite_kept, ↓State.stampReset_frame, ↓State.setRst_frame, ↓State.beginExit_frame, ite_self, implies_true] | (with_reducible refine foldl_layout_legal _ ?_ _ _ ?_ <;> intros))

theorem pldmRequest_layout_legal (r : PldmReq) (s : State) (hc : Legal s.kept.layout) :
    Legal (pldmRequest r s).kept.layout := by
  unfold pldmRequest
  repeat' (first | with_reducible assumption | extract_lets | with_reducible apply State.wakeHub_layout_legal | split | simp +zetaDelta only [↓State.kept_mk, State.queue_eq, State.layout_eq, State.far_eq, State.flash_eq, State.meter_eq, ↓foldl_queue, ↓foldl_layout, ↓foldl_far, ↓foldl_flash, ↓foldl_meter, ↓ite_kept, ↓State.takeAddress_frame, ↓State.bootImage_frame, ↓State.writeSlot_frame, ↓State.selectSlot_frame, ↓State.mgmtWrite_frame, ↓State.attestDrawn_frame, ite_self, implies_true] | (with_reducible refine foldl_layout_legal _ ?_ _ _ ?_ <;> intros))

theorem State.hostApply_layout_legal (s : State) (x : Instr) (hc : Legal s.kept.layout) : Legal (s.hostApply x).kept.layout := by
  cases x
  case registerWrite r w v h =>
    cases r <;> dsimp only [State.hostApply] <;> first
      | exact hc
      | simpa only [↓State.bar0Apply_frame] using hc
  all_goals dsimp only [State.hostApply]
  all_goals first
    | with_reducible exact hc
    | with_reducible exact Machine.partCfgWrite_layout_legal _ _  hc
    | with_reducible exact Machine.rstSwRequest_layout_legal _ _  hc
    | with_reducible exact Machine.activateQuad_layout_legal _ _  hc
    | simpa only [↓Machine.State.bar0Apply_frame, ↓Machine.State.bar2Apply_frame, ↓Machine.hostMaxVersionWrite_frame, ↓Machine.partCfgWrite_frame, ↓Machine.jobStart_frame, ↓Machine.jobPause_frame, ↓Machine.jobResume_frame, ↓Machine.jobStop_frame, ↓Machine.jobAbort_frame, ↓Machine.jobClear_frame, ↓Machine.endStepWrite_frame, ↓Machine.epochWrite_frame, ↓Machine.eventEnableWrite_frame, ↓Machine.swEnable_frame, ↓Machine.swDisable_frame, ↓Machine.persistAckWrite_frame, ↓Machine.latTolWrite_frame, ↓Machine.farQuotaWrite_frame, ↓Machine.farEvict_frame, ↓Machine.rstSwRequest_frame, ↓Machine.recSnapAck_frame, ↓Machine.bootGo_frame, ↓Machine.writeSlot_frame, ↓Machine.fwuSelect_frame, ↓Machine.fwuConfirm_frame, ↓Machine.svnCommit_frame, ↓Machine.activateQuad_frame, ↓Machine.mgmtWrite_frame, ↓Machine.claim_frame, ↓Machine.ownerTransfer_frame, ↓Machine.revokeImage_frame, ↓Machine.ownerRelease_frame, ↓Machine.debugUnlock_frame, ↓Machine.lifecycleToken_frame, ↓Machine.attGo_frame, ↓Machine.ghReq_frame, ↓Machine.ghClrCounts_frame, ↓Machine.fenceAdd_frame, ↓Machine.fenceRemove_frame, ↓Machine.pwrCapWrite_frame, ↓Machine.pwrCalGo_frame] using hc

theorem State.drainHost_layout_legal (s : State) (l : List Instr) (hc : Legal s.kept.layout) : Legal (s.drainHost l).kept.layout := by
  induction l generalizing s with
  | nil => simpa only [State.drainHost, ↓State.kept_mk, State.layout_eq] using hc
  | cons a t ih =>
    unfold State.drainHost
    split
    · simpa only [↓State.kept_mk, State.layout_eq] using hc
    · exact ih _ (State.hostApply_layout_legal _ _ hc)

theorem resendInOrder_layout_legal (k : ChannelId) (src : Fin 1026) (f : LineFound) (s : State) (hc : Legal s.kept.layout) :
    Legal (resendInOrder k src f s).kept.layout := by
  unfold resendInOrder
  repeat' (first | with_reducible assumption | extract_lets | with_reducible apply State.drainHost_layout_legal | split | simp +zetaDelta only [↓State.kept_mk, State.queue_eq, State.layout_eq, State.far_eq, State.flash_eq, State.meter_eq, ↓foldl_queue, ↓foldl_layout, ↓foldl_far, ↓foldl_flash, ↓foldl_meter, ↓ite_kept, ↓retryResend_frame, ite_self, implies_true] | (with_reducible refine foldl_layout_legal _ ?_ _ _ ?_ <;> intros))

end Sys2Proof.Machine
end

