-- ==== Sys2Proof/Laws/Ops.lean ====
section
/-! SUPPORT. What shared operations do, said once. -/

namespace Sys2Proof.Machine

/-- No range, no poisoned line. -/
theorem State.poisonedIn_nil (s : State) (p : Nat) : s.poisonedIn p [] = [] := by
  simp only [State.poisonedIn, List.any_nil, Bool.and_false, Bool.false_eq_true, if_false, List.flatMap_eq_nil_iff,
    List.filterMap_eq_nil_iff, implies_true]

/-- R240, R245, R247, R255: an access to ranges that no fault, no COW_PENDING frame and no poisoned line meets happens. -/
theorem State.whenAccess_ready (s : State) (p : Nat) (use merge full : List (Nat × Nat)) (f : State → State)
    (h : s.placeFault p (use ++ merge ++ full) true = none) (hc : s.cowPlaces p (use ++ merge ++ full) = [])
    (hu : s.poisonedIn p use = []) (hw : s.poisonedIn p (merge ++ full) = []) : s.whenAccess p use merge full f = f s := by
  unfold State.whenAccess State.accessBy
  rw [h, hc, hu, hw]
  rfl

/-- R240, R245: an access that meets a fault does not happen. -/
theorem State.whenAccess_fault (s : State) (p : Nat) (use merge full : List (Nat × Nat)) (f : State → State) (e : Nat × Nat)
    (h : s.placeFault p (use ++ merge ++ full) true = some e) : s.whenAccess p use merge full f = s.placeRefused p e := by
  unfold State.whenAccess State.accessBy
  rw [h]

/-- R247: with a COW_PENDING frame under the ranges and no poisoned line in what is read, an access meets the frame's rules. -/
theorem State.accessBy_cow (s : State) (p : Nat) (src : ReqSrc) (use merge full : List (Nat × Nat)) (f : State → State)
    (h : s.placeFault p (use ++ merge ++ full) true = none) (hu : s.poisonedIn p use = [])
    (hc : s.cowPlaces p (use ++ merge ++ full) ≠ []) :
    s.accessBy p src use merge full f = s.accessCow p src use merge full (s.cowPlaces p (use ++ merge ++ full)) f := by
  unfold State.accessBy
  rw [h, hu]
  dsimp only
  split
  · contradiction
  · rfl

/-- R297: an access of the host with none waiting before it acts at once. -/
theorem State.inTurn_free (s : State) (a : Instr) (f : State → State) (h : s.hostBlocked = false) : s.inTurn a f = f s := by
  simp only [State.inTurn, h, Bool.false_eq_true, if_false]

/-- R297: an access of the host behind one that waits, waits. -/
theorem State.inTurn_blocked (s : State) (a : Instr) (f : State → State) (h : s.hostBlocked = true) :
    s.inTurn a f = s.hostWaits a := by
  simp only [State.inTurn, h, if_true]

/-- What `mayAccess` says of ranges. -/
theorem State.mayAccess_iff (s : State) (p : Nat) (rs : List (Nat × Nat)) :
    s.mayAccess p rs = true ↔ s.placeFault p rs true = none ∧ s.cowPlaces p rs = [] ∧ s.poisonedIn p rs = [] := by
  simp only [State.mayAccess, Bool.and_eq_true, Option.isNone_iff_eq_none, List.isEmpty_iff, and_assoc]

/-- R247: what is read and written where `mayAccess` says so happens. -/
theorem State.whenWritable_ready (s : State) (p : Nat) (rs : List (Nat × Nat)) (f : State → State) (h : s.mayAccess p rs = true) :
    s.whenWritable p rs f = f s := by
  obtain ⟨a, b, c⟩ := (s.mayAccess_iff p rs).1 h
  exact s.whenAccess_ready p rs [] [] f (by simpa using a) (by simpa using b) c (s.poisonedIn_nil p)

/-- What is only written happens where `mayAccess` says so. -/
theorem State.whenAccess_full (s : State) (p : Nat) (rs : List (Nat × Nat)) (f : State → State) (h : s.mayAccess p rs = true) :
    s.whenAccess p [] [] rs f = f s := by
  obtain ⟨a, b, c⟩ := (s.mayAccess_iff p rs).1 h
  exact s.whenAccess_ready p [] [] rs f (by simpa using a) (by simpa using b) (s.poisonedIn_nil p) (by simpa using c)

/-- What is merged into memory happens where `mayAccess` says so. -/
theorem State.whenAccess_merge (s : State) (p : Nat) (rs : List (Nat × Nat)) (f : State → State) (h : s.mayAccess p rs = true) :
    s.whenAccess p [] rs [] f = f s := by
  obtain ⟨a, b, c⟩ := (s.mayAccess_iff p rs).1 h
  exact s.whenAccess_ready p [] rs [] f (by simpa using a) (by simpa using b) (s.poisonedIn_nil p) (by simpa using c)

/-- R11: the bytes of a number are as many as asked. -/
theorem length_bytesOf (n k : Nat) : (bytesOf n k).length = k := by
  induction k generalizing n with
  | zero => rfl
  | succ k ih => simp [bytesOf, ih]
/-- R11: the bytes of a number read back as the number, modulo their range. -/
theorem ofBytes_bytesOf (n k : Nat) : ofBytes (bytesOf n k) = n % 256 ^ k := by
  induction k generalizing n with
  | zero => simp [bytesOf, ofBytes, Nat.mod_one]
  | succ k ih =>
    simp only [bytesOf, ofBytes, ih, BitVec.toNat_ofNat]
    rw [show (256 : Nat) ^ (k + 1) = 256 * 256 ^ k from Nat.pow_succ', Nat.mod_mul]

end Sys2Proof.Machine
end

