-- ==== Sys2Proof/Laws/State.lean ====
section
/-! SUPPORT. Each field of the state after each of the basic updates. -/

set_option linter.all false

namespace Sys2Proof.Machine

@[simp] theorem State.setCore_pending (s : State) (c : Nat) (k : Core) : (s.setCore c k).pending = s.pending := rfl
@[simp] theorem State.setCore_freeCounter (s : State) (c : Nat) (k : Core) : (s.setCore c k).freeCounter = s.freeCounter := rfl
@[simp] theorem State.setCore_cores (s : State) (c : Nat) (k : Core) : (s.setCore c k).cores = s.cores.set {} c k := rfl
@[simp] theorem State.setCore_parts (s : State) (c : Nat) (k : Core) : (s.setCore c k).parts = s.parts := rfl
@[simp] theorem State.setCore_err (s : State) (c : Nat) (k : Core) : (s.setCore c k).err = s.err := rfl
@[simp] theorem State.setCore_mod (s : State) (c : Nat) (k : Core) : (s.setCore c k).mod = s.mod := rfl
@[simp] theorem State.setCore_hostWait (s : State) (c : Nat) (k : Core) : (s.setCore c k).hostWait = s.hostWait := rfl
@[simp] theorem State.setCore_msixTable (s : State) (c : Nat) (k : Core) : (s.setCore c k).msixTable = s.msixTable := rfl
@[simp] theorem State.setCore_msixMask (s : State) (c : Nat) (k : Core) : (s.setCore c k).msixMask = s.msixMask := rfl
@[simp] theorem State.setCore_msixPend (s : State) (c : Nat) (k : Core) : (s.setCore c k).msixPend = s.msixPend := rfl
@[simp] theorem State.setCore_windows (s : State) (c : Nat) (k : Core) : (s.setCore c k).windows = s.windows := rfl
@[simp] theorem State.setCore_ctxs (s : State) (c : Nat) (k : Core) : (s.setCore c k).ctxs = s.ctxs := rfl
@[simp] theorem State.setCore_txq (s : State) (c : Nat) (k : Core) : (s.setCore c k).txq = s.txq := rfl
@[simp] theorem State.setCore_rx (s : State) (c : Nat) (k : Core) : (s.setCore c k).rx = s.rx := rfl
@[simp] theorem State.setCore_linkDies (s : State) (c : Nat) (k : Core) : (s.setCore c k).linkDies = s.linkDies := rfl
@[simp] theorem State.setCore_ports (s : State) (c : Nat) (k : Core) : (s.setCore c k).ports = s.ports := rfl
@[simp] theorem State.setCore_gates (s : State) (c : Nat) (k : Core) : (s.setCore c k).gates = s.gates := rfl
@[simp] theorem State.setCore_amaps (s : State) (c : Nat) (k : Core) : (s.setCore c k).amaps = s.amaps := rfl
@[simp] theorem State.setCore_frames (s : State) (c : Nat) (k : Core) : (s.setCore c k).frames = s.frames := rfl
@[simp] theorem State.setCore_channels (s : State) (c : Nat) (k : Core) : (s.setCore c k).channels = s.channels := rfl
@[simp] theorem State.setCore_dram (s : State) (c : Nat) (k : Core) : (s.setCore c k).dram = s.dram := rfl
@[simp] theorem State.setCore_far (s : State) (c : Nat) (k : Core) : (s.setCore c k).far = s.far := rfl
@[simp] theorem State.setCore_cxl (s : State) (c : Nat) (k : Core) : (s.setCore c k).cxl = s.cxl := rfl
@[simp] theorem State.setCore_flash (s : State) (c : Nat) (k : Core) : (s.setCore c k).flash = s.flash := rfl
@[simp] theorem State.setCore_flashSeq (s : State) (c : Nat) (k : Core) : (s.setCore c k).flashSeq = s.flashSeq := rfl
@[simp] theorem State.setCore_sergeSeq (s : State) (c : Nat) (k : Core) : (s.setCore c k).sergeSeq = s.sergeSeq := rfl
@[simp] theorem State.setCore_unitEpochs (s : State) (c : Nat) (k : Core) : (s.setCore c k).unitEpochs = s.unitEpochs := rfl
@[simp] theorem State.setCore_fromFence (s : State) (c : Nat) (k : Core) : (s.setCore c k).fromFence = s.fromFence := rfl
@[simp] theorem State.setCore_returned (s : State) (c : Nat) (k : Core) : (s.setCore c k).returned = s.returned := rfl
@[simp] theorem State.setCore_gh (s : State) (c : Nat) (k : Core) : (s.setCore c k).gh = s.gh := rfl
@[simp] theorem State.setCore_fw (s : State) (c : Nat) (k : Core) : (s.setCore c k).fw = s.fw := rfl
@[simp] theorem State.setCore_rst (s : State) (c : Nat) (k : Core) : (s.setCore c k).rst = s.rst := rfl
@[simp] theorem State.setCore_pwr (s : State) (c : Nat) (k : Core) : (s.setCore c k).pwr = s.pwr := rfl
@[simp] theorem State.setCore_banksOff (s : State) (c : Nat) (k : Core) : (s.setCore c k).banksOff = s.banksOff := rfl
@[simp] theorem State.setCore_hubOff (s : State) (c : Nat) (k : Core) : (s.setCore c k).hubOff = s.hubOff := rfl
@[simp] theorem State.setCore_switchOpen (s : State) (c : Nat) (k : Core) : (s.setCore c k).switchOpen = s.switchOpen := rfl
@[simp] theorem State.setCore_switchOver (s : State) (c : Nat) (k : Core) : (s.setCore c k).switchOver = s.switchOver := rfl
@[simp] theorem State.setCore_dramLost (s : State) (c : Nat) (k : Core) : (s.setCore c k).dramLost = s.dramLost := rfl
@[simp] theorem State.setCore_meter (s : State) (c : Nat) (k : Core) : (s.setCore c k).meter = s.meter := rfl
@[simp] theorem State.setCore_meterView (s : State) (c : Nat) (k : Core) : (s.setCore c k).meterView = s.meterView := rfl
@[simp] theorem State.setCore_notices (s : State) (c : Nat) (k : Core) : (s.setCore c k).notices = s.notices := rfl
@[simp] theorem State.setCore_userCal0 (s : State) (c : Nat) (k : Core) : (s.setCore c k).userCal0 = s.userCal0 := rfl
@[simp] theorem State.setCore_userCal1 (s : State) (c : Nat) (k : Core) : (s.setCore c k).userCal1 = s.userCal1 := rfl
@[simp] theorem State.setCore_out (s : State) (c : Nat) (k : Core) : (s.setCore c k).out = s.out := rfl

@[simp] theorem State.setPart_pending (s : State) (p : Nat) (k : Part) : (s.setPart p k).pending = s.pending := rfl
@[simp] theorem State.setPart_freeCounter (s : State) (p : Nat) (k : Part) : (s.setPart p k).freeCounter = s.freeCounter := rfl
@[simp] theorem State.setPart_cores (s : State) (p : Nat) (k : Part) : (s.setPart p k).cores = s.cores := rfl
@[simp] theorem State.setPart_parts (s : State) (p : Nat) (k : Part) : (s.setPart p k).parts = s.parts.set {} p k := rfl
@[simp] theorem State.setPart_err (s : State) (p : Nat) (k : Part) : (s.setPart p k).err = s.err := rfl
@[simp] theorem State.setPart_mod (s : State) (p : Nat) (k : Part) : (s.setPart p k).mod = s.mod := rfl
@[simp] theorem State.setPart_hostWait (s : State) (p : Nat) (k : Part) : (s.setPart p k).hostWait = s.hostWait := rfl
@[simp] theorem State.setPart_msixTable (s : State) (p : Nat) (k : Part) : (s.setPart p k).msixTable = s.msixTable := rfl
@[simp] theorem State.setPart_msixMask (s : State) (p : Nat) (k : Part) : (s.setPart p k).msixMask = s.msixMask := rfl
@[simp] theorem State.setPart_msixPend (s : State) (p : Nat) (k : Part) : (s.setPart p k).msixPend = s.msixPend := rfl
@[simp] theorem State.setPart_windows (s : State) (p : Nat) (k : Part) : (s.setPart p k).windows = s.windows := rfl
@[simp] theorem State.setPart_ctxs (s : State) (p : Nat) (k : Part) : (s.setPart p k).ctxs = s.ctxs := rfl
@[simp] theorem State.setPart_txq (s : State) (p : Nat) (k : Part) : (s.setPart p k).txq = s.txq := rfl
@[simp] theorem State.setPart_rx (s : State) (p : Nat) (k : Part) : (s.setPart p k).rx = s.rx := rfl
@[simp] theorem State.setPart_linkDies (s : State) (p : Nat) (k : Part) : (s.setPart p k).linkDies = s.linkDies := rfl
@[simp] theorem State.setPart_ports (s : State) (p : Nat) (k : Part) : (s.setPart p k).ports = s.ports := rfl
@[simp] theorem State.setPart_gates (s : State) (p : Nat) (k : Part) : (s.setPart p k).gates = s.gates := rfl
@[simp] theorem State.setPart_amaps (s : State) (p : Nat) (k : Part) : (s.setPart p k).amaps = s.amaps := rfl
@[simp] theorem State.setPart_frames (s : State) (p : Nat) (k : Part) : (s.setPart p k).frames = s.frames := rfl
@[simp] theorem State.setPart_channels (s : State) (p : Nat) (k : Part) : (s.setPart p k).channels = s.channels := rfl
@[simp] theorem State.setPart_dram (s : State) (p : Nat) (k : Part) : (s.setPart p k).dram = s.dram := rfl
@[simp] theorem State.setPart_far (s : State) (p : Nat) (k : Part) : (s.setPart p k).far = s.far := rfl
@[simp] theorem State.setPart_cxl (s : State) (p : Nat) (k : Part) : (s.setPart p k).cxl = s.cxl := rfl
@[simp] theorem State.setPart_flash (s : State) (p : Nat) (k : Part) : (s.setPart p k).flash = s.flash := rfl
@[simp] theorem State.setPart_flashSeq (s : State) (p : Nat) (k : Part) : (s.setPart p k).flashSeq = s.flashSeq := rfl
@[simp] theorem State.setPart_sergeSeq (s : State) (p : Nat) (k : Part) : (s.setPart p k).sergeSeq = s.sergeSeq := rfl
@[simp] theorem State.setPart_unitEpochs (s : State) (p : Nat) (k : Part) : (s.setPart p k).unitEpochs = s.unitEpochs := rfl
@[simp] theorem State.setPart_fromFence (s : State) (p : Nat) (k : Part) : (s.setPart p k).fromFence = s.fromFence := rfl
@[simp] theorem State.setPart_returned (s : State) (p : Nat) (k : Part) : (s.setPart p k).returned = s.returned := rfl
@[simp] theorem State.setPart_gh (s : State) (p : Nat) (k : Part) : (s.setPart p k).gh = s.gh := rfl
@[simp] theorem State.setPart_fw (s : State) (p : Nat) (k : Part) : (s.setPart p k).fw = s.fw := rfl
@[simp] theorem State.setPart_rst (s : State) (p : Nat) (k : Part) : (s.setPart p k).rst = s.rst := rfl
@[simp] theorem State.setPart_pwr (s : State) (p : Nat) (k : Part) : (s.setPart p k).pwr = s.pwr := rfl
@[simp] theorem State.setPart_banksOff (s : State) (p : Nat) (k : Part) : (s.setPart p k).banksOff = s.banksOff := rfl
@[simp] theorem State.setPart_hubOff (s : State) (p : Nat) (k : Part) : (s.setPart p k).hubOff = s.hubOff := rfl
@[simp] theorem State.setPart_switchOpen (s : State) (p : Nat) (k : Part) : (s.setPart p k).switchOpen = s.switchOpen := rfl
@[simp] theorem State.setPart_switchOver (s : State) (p : Nat) (k : Part) : (s.setPart p k).switchOver = s.switchOver := rfl
@[simp] theorem State.setPart_dramLost (s : State) (p : Nat) (k : Part) : (s.setPart p k).dramLost = s.dramLost := rfl
@[simp] theorem State.setPart_meter (s : State) (p : Nat) (k : Part) : (s.setPart p k).meter = s.meter := rfl
@[simp] theorem State.setPart_meterView (s : State) (p : Nat) (k : Part) : (s.setPart p k).meterView = s.meterView := rfl
@[simp] theorem State.setPart_notices (s : State) (p : Nat) (k : Part) : (s.setPart p k).notices = s.notices := rfl
@[simp] theorem State.setPart_userCal0 (s : State) (p : Nat) (k : Part) : (s.setPart p k).userCal0 = s.userCal0 := rfl
@[simp] theorem State.setPart_userCal1 (s : State) (p : Nat) (k : Part) : (s.setPart p k).userCal1 = s.userCal1 := rfl
@[simp] theorem State.setPart_out (s : State) (p : Nat) (k : Part) : (s.setPart p k).out = s.out := rfl

@[simp] theorem State.setCtx_pending (s : State) (k : Nat) (x : Ctx) : (s.setCtx k x).pending = s.pending := rfl
@[simp] theorem State.setCtx_freeCounter (s : State) (k : Nat) (x : Ctx) : (s.setCtx k x).freeCounter = s.freeCounter := rfl
@[simp] theorem State.setCtx_cores (s : State) (k : Nat) (x : Ctx) : (s.setCtx k x).cores = s.cores := rfl
@[simp] theorem State.setCtx_parts (s : State) (k : Nat) (x : Ctx) : (s.setCtx k x).parts = s.parts := rfl
@[simp] theorem State.setCtx_err (s : State) (k : Nat) (x : Ctx) : (s.setCtx k x).err = s.err := rfl
@[simp] theorem State.setCtx_mod (s : State) (k : Nat) (x : Ctx) : (s.setCtx k x).mod = s.mod := rfl
@[simp] theorem State.setCtx_hostWait (s : State) (k : Nat) (x : Ctx) : (s.setCtx k x).hostWait = s.hostWait := rfl
@[simp] theorem State.setCtx_msixTable (s : State) (k : Nat) (x : Ctx) : (s.setCtx k x).msixTable = s.msixTable := rfl
@[simp] theorem State.setCtx_msixMask (s : State) (k : Nat) (x : Ctx) : (s.setCtx k x).msixMask = s.msixMask := rfl
@[simp] theorem State.setCtx_msixPend (s : State) (k : Nat) (x : Ctx) : (s.setCtx k x).msixPend = s.msixPend := rfl
@[simp] theorem State.setCtx_windows (s : State) (k : Nat) (x : Ctx) : (s.setCtx k x).windows = s.windows := rfl
@[simp] theorem State.setCtx_ctxs (s : State) (k : Nat) (x : Ctx) : (s.setCtx k x).ctxs = s.ctxs.set {} k x := rfl
@[simp] theorem State.setCtx_txq (s : State) (k : Nat) (x : Ctx) : (s.setCtx k x).txq = s.txq := rfl
@[simp] theorem State.setCtx_rx (s : State) (k : Nat) (x : Ctx) : (s.setCtx k x).rx = s.rx := rfl
@[simp] theorem State.setCtx_linkDies (s : State) (k : Nat) (x : Ctx) : (s.setCtx k x).linkDies = s.linkDies := rfl
@[simp] theorem State.setCtx_ports (s : State) (k : Nat) (x : Ctx) : (s.setCtx k x).ports = s.ports := rfl
@[simp] theorem State.setCtx_gates (s : State) (k : Nat) (x : Ctx) : (s.setCtx k x).gates = s.gates := rfl
@[simp] theorem State.setCtx_amaps (s : State) (k : Nat) (x : Ctx) : (s.setCtx k x).amaps = s.amaps := rfl
@[simp] theorem State.setCtx_frames (s : State) (k : Nat) (x : Ctx) : (s.setCtx k x).frames = s.frames := rfl
@[simp] theorem State.setCtx_channels (s : State) (k : Nat) (x : Ctx) : (s.setCtx k x).channels = s.channels := rfl
@[simp] theorem State.setCtx_dram (s : State) (k : Nat) (x : Ctx) : (s.setCtx k x).dram = s.dram := rfl
@[simp] theorem State.setCtx_far (s : State) (k : Nat) (x : Ctx) : (s.setCtx k x).far = s.far := rfl
@[simp] theorem State.setCtx_cxl (s : State) (k : Nat) (x : Ctx) : (s.setCtx k x).cxl = s.cxl := rfl
@[simp] theorem State.setCtx_flash (s : State) (k : Nat) (x : Ctx) : (s.setCtx k x).flash = s.flash := rfl
@[simp] theorem State.setCtx_flashSeq (s : State) (k : Nat) (x : Ctx) : (s.setCtx k x).flashSeq = s.flashSeq := rfl
@[simp] theorem State.setCtx_sergeSeq (s : State) (k : Nat) (x : Ctx) : (s.setCtx k x).sergeSeq = s.sergeSeq := rfl
@[simp] theorem State.setCtx_unitEpochs (s : State) (k : Nat) (x : Ctx) : (s.setCtx k x).unitEpochs = s.unitEpochs := rfl
@[simp] theorem State.setCtx_fromFence (s : State) (k : Nat) (x : Ctx) : (s.setCtx k x).fromFence = s.fromFence := rfl
@[simp] theorem State.setCtx_returned (s : State) (k : Nat) (x : Ctx) : (s.setCtx k x).returned = s.returned := rfl
@[simp] theorem State.setCtx_gh (s : State) (k : Nat) (x : Ctx) : (s.setCtx k x).gh = s.gh := rfl
@[simp] theorem State.setCtx_fw (s : State) (k : Nat) (x : Ctx) : (s.setCtx k x).fw = s.fw := rfl
@[simp] theorem State.setCtx_rst (s : State) (k : Nat) (x : Ctx) : (s.setCtx k x).rst = s.rst := rfl
@[simp] theorem State.setCtx_pwr (s : State) (k : Nat) (x : Ctx) : (s.setCtx k x).pwr = s.pwr := rfl
@[simp] theorem State.setCtx_banksOff (s : State) (k : Nat) (x : Ctx) : (s.setCtx k x).banksOff = s.banksOff := rfl
@[simp] theorem State.setCtx_hubOff (s : State) (k : Nat) (x : Ctx) : (s.setCtx k x).hubOff = s.hubOff := rfl
@[simp] theorem State.setCtx_switchOpen (s : State) (k : Nat) (x : Ctx) : (s.setCtx k x).switchOpen = s.switchOpen := rfl
@[simp] theorem State.setCtx_switchOver (s : State) (k : Nat) (x : Ctx) : (s.setCtx k x).switchOver = s.switchOver := rfl
@[simp] theorem State.setCtx_dramLost (s : State) (k : Nat) (x : Ctx) : (s.setCtx k x).dramLost = s.dramLost := rfl
@[simp] theorem State.setCtx_meter (s : State) (k : Nat) (x : Ctx) : (s.setCtx k x).meter = s.meter := rfl
@[simp] theorem State.setCtx_meterView (s : State) (k : Nat) (x : Ctx) : (s.setCtx k x).meterView = s.meterView := rfl
@[simp] theorem State.setCtx_notices (s : State) (k : Nat) (x : Ctx) : (s.setCtx k x).notices = s.notices := rfl
@[simp] theorem State.setCtx_userCal0 (s : State) (k : Nat) (x : Ctx) : (s.setCtx k x).userCal0 = s.userCal0 := rfl
@[simp] theorem State.setCtx_userCal1 (s : State) (k : Nat) (x : Ctx) : (s.setCtx k x).userCal1 = s.userCal1 := rfl
@[simp] theorem State.setCtx_out (s : State) (k : Nat) (x : Ctx) : (s.setCtx k x).out = s.out := rfl

@[simp] theorem State.setChan_pending (s : State) (k : Nat) (c : Channel) : (s.setChan k c).pending = s.pending := rfl
@[simp] theorem State.setChan_freeCounter (s : State) (k : Nat) (c : Channel) : (s.setChan k c).freeCounter = s.freeCounter := rfl
@[simp] theorem State.setChan_cores (s : State) (k : Nat) (c : Channel) : (s.setChan k c).cores = s.cores := rfl
@[simp] theorem State.setChan_parts (s : State) (k : Nat) (c : Channel) : (s.setChan k c).parts = s.parts := rfl
@[simp] theorem State.setChan_err (s : State) (k : Nat) (c : Channel) : (s.setChan k c).err = s.err := rfl
@[simp] theorem State.setChan_mod (s : State) (k : Nat) (c : Channel) : (s.setChan k c).mod = s.mod := rfl
@[simp] theorem State.setChan_hostWait (s : State) (k : Nat) (c : Channel) : (s.setChan k c).hostWait = s.hostWait := rfl
@[simp] theorem State.setChan_msixTable (s : State) (k : Nat) (c : Channel) : (s.setChan k c).msixTable = s.msixTable := rfl
@[simp] theorem State.setChan_msixMask (s : State) (k : Nat) (c : Channel) : (s.setChan k c).msixMask = s.msixMask := rfl
@[simp] theorem State.setChan_msixPend (s : State) (k : Nat) (c : Channel) : (s.setChan k c).msixPend = s.msixPend := rfl
@[simp] theorem State.setChan_windows (s : State) (k : Nat) (c : Channel) : (s.setChan k c).windows = s.windows := rfl
@[simp] theorem State.setChan_ctxs (s : State) (k : Nat) (c : Channel) : (s.setChan k c).ctxs = s.ctxs := rfl
@[simp] theorem State.setChan_txq (s : State) (k : Nat) (c : Channel) : (s.setChan k c).txq = s.txq := rfl
@[simp] theorem State.setChan_rx (s : State) (k : Nat) (c : Channel) : (s.setChan k c).rx = s.rx := rfl
@[simp] theorem State.setChan_linkDies (s : State) (k : Nat) (c : Channel) : (s.setChan k c).linkDies = s.linkDies := rfl
@[simp] theorem State.setChan_ports (s : State) (k : Nat) (c : Channel) : (s.setChan k c).ports = s.ports := rfl
@[simp] theorem State.setChan_gates (s : State) (k : Nat) (c : Channel) : (s.setChan k c).gates = s.gates := rfl
@[simp] theorem State.setChan_amaps (s : State) (k : Nat) (c : Channel) : (s.setChan k c).amaps = s.amaps := rfl
@[simp] theorem State.setChan_frames (s : State) (k : Nat) (c : Channel) : (s.setChan k c).frames = s.frames := rfl
@[simp] theorem State.setChan_channels (s : State) (k : Nat) (c : Channel) : (s.setChan k c).channels = s.channels.set {} k c := rfl
@[simp] theorem State.setChan_dram (s : State) (k : Nat) (c : Channel) : (s.setChan k c).dram = s.dram := rfl
@[simp] theorem State.setChan_far (s : State) (k : Nat) (c : Channel) : (s.setChan k c).far = s.far := rfl
@[simp] theorem State.setChan_cxl (s : State) (k : Nat) (c : Channel) : (s.setChan k c).cxl = s.cxl := rfl
@[simp] theorem State.setChan_flash (s : State) (k : Nat) (c : Channel) : (s.setChan k c).flash = s.flash := rfl
@[simp] theorem State.setChan_flashSeq (s : State) (k : Nat) (c : Channel) : (s.setChan k c).flashSeq = s.flashSeq := rfl
@[simp] theorem State.setChan_sergeSeq (s : State) (k : Nat) (c : Channel) : (s.setChan k c).sergeSeq = s.sergeSeq := rfl
@[simp] theorem State.setChan_unitEpochs (s : State) (k : Nat) (c : Channel) : (s.setChan k c).unitEpochs = s.unitEpochs := rfl
@[simp] theorem State.setChan_fromFence (s : State) (k : Nat) (c : Channel) : (s.setChan k c).fromFence = s.fromFence := rfl
@[simp] theorem State.setChan_returned (s : State) (k : Nat) (c : Channel) : (s.setChan k c).returned = s.returned := rfl
@[simp] theorem State.setChan_gh (s : State) (k : Nat) (c : Channel) : (s.setChan k c).gh = s.gh := rfl
@[simp] theorem State.setChan_fw (s : State) (k : Nat) (c : Channel) : (s.setChan k c).fw = s.fw := rfl
@[simp] theorem State.setChan_rst (s : State) (k : Nat) (c : Channel) : (s.setChan k c).rst = s.rst := rfl
@[simp] theorem State.setChan_pwr (s : State) (k : Nat) (c : Channel) : (s.setChan k c).pwr = s.pwr := rfl
@[simp] theorem State.setChan_banksOff (s : State) (k : Nat) (c : Channel) : (s.setChan k c).banksOff = s.banksOff := rfl
@[simp] theorem State.setChan_hubOff (s : State) (k : Nat) (c : Channel) : (s.setChan k c).hubOff = s.hubOff := rfl
@[simp] theorem State.setChan_switchOpen (s : State) (k : Nat) (c : Channel) : (s.setChan k c).switchOpen = s.switchOpen := rfl
@[simp] theorem State.setChan_switchOver (s : State) (k : Nat) (c : Channel) : (s.setChan k c).switchOver = s.switchOver := rfl
@[simp] theorem State.setChan_dramLost (s : State) (k : Nat) (c : Channel) : (s.setChan k c).dramLost = s.dramLost := rfl
@[simp] theorem State.setChan_meter (s : State) (k : Nat) (c : Channel) : (s.setChan k c).meter = s.meter := rfl
@[simp] theorem State.setChan_meterView (s : State) (k : Nat) (c : Channel) : (s.setChan k c).meterView = s.meterView := rfl
@[simp] theorem State.setChan_notices (s : State) (k : Nat) (c : Channel) : (s.setChan k c).notices = s.notices := rfl
@[simp] theorem State.setChan_userCal0 (s : State) (k : Nat) (c : Channel) : (s.setChan k c).userCal0 = s.userCal0 := rfl
@[simp] theorem State.setChan_userCal1 (s : State) (k : Nat) (c : Channel) : (s.setChan k c).userCal1 = s.userCal1 := rfl
@[simp] theorem State.setChan_out (s : State) (k : Nat) (c : Channel) : (s.setChan k c).out = s.out := rfl

@[simp] theorem State.setFrame_pending (s : State) (t g : Nat) (f : Frame) : (s.setFrame t g f).pending = s.pending := rfl
@[simp] theorem State.setFrame_freeCounter (s : State) (t g : Nat) (f : Frame) : (s.setFrame t g f).freeCounter = s.freeCounter := rfl
@[simp] theorem State.setFrame_cores (s : State) (t g : Nat) (f : Frame) : (s.setFrame t g f).cores = s.cores := rfl
@[simp] theorem State.setFrame_parts (s : State) (t g : Nat) (f : Frame) : (s.setFrame t g f).parts = s.parts := rfl
@[simp] theorem State.setFrame_err (s : State) (t g : Nat) (f : Frame) : (s.setFrame t g f).err = s.err := rfl
@[simp] theorem State.setFrame_mod (s : State) (t g : Nat) (f : Frame) : (s.setFrame t g f).mod = s.mod := rfl
@[simp] theorem State.setFrame_hostWait (s : State) (t g : Nat) (f : Frame) : (s.setFrame t g f).hostWait = s.hostWait := rfl
@[simp] theorem State.setFrame_msixTable (s : State) (t g : Nat) (f : Frame) : (s.setFrame t g f).msixTable = s.msixTable := rfl
@[simp] theorem State.setFrame_msixMask (s : State) (t g : Nat) (f : Frame) : (s.setFrame t g f).msixMask = s.msixMask := rfl
@[simp] theorem State.setFrame_msixPend (s : State) (t g : Nat) (f : Frame) : (s.setFrame t g f).msixPend = s.msixPend := rfl
@[simp] theorem State.setFrame_windows (s : State) (t g : Nat) (f : Frame) : (s.setFrame t g f).windows = s.windows := rfl
@[simp] theorem State.setFrame_ctxs (s : State) (t g : Nat) (f : Frame) : (s.setFrame t g f).ctxs = s.ctxs := rfl
@[simp] theorem State.setFrame_txq (s : State) (t g : Nat) (f : Frame) : (s.setFrame t g f).txq = s.txq := rfl
@[simp] theorem State.setFrame_rx (s : State) (t g : Nat) (f : Frame) : (s.setFrame t g f).rx = s.rx := rfl
@[simp] theorem State.setFrame_linkDies (s : State) (t g : Nat) (f : Frame) : (s.setFrame t g f).linkDies = s.linkDies := rfl
@[simp] theorem State.setFrame_ports (s : State) (t g : Nat) (f : Frame) : (s.setFrame t g f).ports = s.ports := rfl
@[simp] theorem State.setFrame_gates (s : State) (t g : Nat) (f : Frame) : (s.setFrame t g f).gates = s.gates := rfl
@[simp] theorem State.setFrame_amaps (s : State) (t g : Nat) (f : Frame) : (s.setFrame t g f).amaps = s.amaps := rfl
@[simp] theorem State.setFrame_frames (s : State) (t g : Nat) (f : Frame) : (s.setFrame t g f).frames = s.frames.set {} (49152 * t + g) f := rfl
@[simp] theorem State.setFrame_channels (s : State) (t g : Nat) (f : Frame) : (s.setFrame t g f).channels = s.channels := rfl
@[simp] theorem State.setFrame_dram (s : State) (t g : Nat) (f : Frame) : (s.setFrame t g f).dram = s.dram := rfl
@[simp] theorem State.setFrame_far (s : State) (t g : Nat) (f : Frame) : (s.setFrame t g f).far = s.far := rfl
@[simp] theorem State.setFrame_cxl (s : State) (t g : Nat) (f : Frame) : (s.setFrame t g f).cxl = s.cxl := rfl
@[simp] theorem State.setFrame_flash (s : State) (t g : Nat) (f : Frame) : (s.setFrame t g f).flash = s.flash := rfl
@[simp] theorem State.setFrame_flashSeq (s : State) (t g : Nat) (f : Frame) : (s.setFrame t g f).flashSeq = s.flashSeq := rfl
@[simp] theorem State.setFrame_sergeSeq (s : State) (t g : Nat) (f : Frame) : (s.setFrame t g f).sergeSeq = s.sergeSeq := rfl
@[simp] theorem State.setFrame_unitEpochs (s : State) (t g : Nat) (f : Frame) : (s.setFrame t g f).unitEpochs = s.unitEpochs := rfl
@[simp] theorem State.setFrame_fromFence (s : State) (t g : Nat) (f : Frame) : (s.setFrame t g f).fromFence = s.fromFence := rfl
@[simp] theorem State.setFrame_returned (s : State) (t g : Nat) (f : Frame) : (s.setFrame t g f).returned = s.returned := rfl
@[simp] theorem State.setFrame_gh (s : State) (t g : Nat) (f : Frame) : (s.setFrame t g f).gh = s.gh := rfl
@[simp] theorem State.setFrame_fw (s : State) (t g : Nat) (f : Frame) : (s.setFrame t g f).fw = s.fw := rfl
@[simp] theorem State.setFrame_rst (s : State) (t g : Nat) (f : Frame) : (s.setFrame t g f).rst = s.rst := rfl
@[simp] theorem State.setFrame_pwr (s : State) (t g : Nat) (f : Frame) : (s.setFrame t g f).pwr = s.pwr := rfl
@[simp] theorem State.setFrame_banksOff (s : State) (t g : Nat) (f : Frame) : (s.setFrame t g f).banksOff = s.banksOff := rfl
@[simp] theorem State.setFrame_hubOff (s : State) (t g : Nat) (f : Frame) : (s.setFrame t g f).hubOff = s.hubOff := rfl
@[simp] theorem State.setFrame_switchOpen (s : State) (t g : Nat) (f : Frame) : (s.setFrame t g f).switchOpen = s.switchOpen := rfl
@[simp] theorem State.setFrame_switchOver (s : State) (t g : Nat) (f : Frame) : (s.setFrame t g f).switchOver = s.switchOver := rfl
@[simp] theorem State.setFrame_dramLost (s : State) (t g : Nat) (f : Frame) : (s.setFrame t g f).dramLost = s.dramLost := rfl
@[simp] theorem State.setFrame_meter (s : State) (t g : Nat) (f : Frame) : (s.setFrame t g f).meter = s.meter := rfl
@[simp] theorem State.setFrame_meterView (s : State) (t g : Nat) (f : Frame) : (s.setFrame t g f).meterView = s.meterView := rfl
@[simp] theorem State.setFrame_notices (s : State) (t g : Nat) (f : Frame) : (s.setFrame t g f).notices = s.notices := rfl
@[simp] theorem State.setFrame_userCal0 (s : State) (t g : Nat) (f : Frame) : (s.setFrame t g f).userCal0 = s.userCal0 := rfl
@[simp] theorem State.setFrame_userCal1 (s : State) (t g : Nat) (f : Frame) : (s.setFrame t g f).userCal1 = s.userCal1 := rfl
@[simp] theorem State.setFrame_out (s : State) (t g : Nat) (f : Frame) : (s.setFrame t g f).out = s.out := rfl

@[simp] theorem State.setWindow_pending (s : State) (w : Nat) (x : StoreWindow) : (s.setWindow w x).pending = s.pending := rfl
@[simp] theorem State.setWindow_freeCounter (s : State) (w : Nat) (x : StoreWindow) : (s.setWindow w x).freeCounter = s.freeCounter := rfl
@[simp] theorem State.setWindow_cores (s : State) (w : Nat) (x : StoreWindow) : (s.setWindow w x).cores = s.cores := rfl
@[simp] theorem State.setWindow_parts (s : State) (w : Nat) (x : StoreWindow) : (s.setWindow w x).parts = s.parts := rfl
@[simp] theorem State.setWindow_err (s : State) (w : Nat) (x : StoreWindow) : (s.setWindow w x).err = s.err := rfl
@[simp] theorem State.setWindow_mod (s : State) (w : Nat) (x : StoreWindow) : (s.setWindow w x).mod = s.mod := rfl
@[simp] theorem State.setWindow_hostWait (s : State) (w : Nat) (x : StoreWindow) : (s.setWindow w x).hostWait = s.hostWait := rfl
@[simp] theorem State.setWindow_msixTable (s : State) (w : Nat) (x : StoreWindow) : (s.setWindow w x).msixTable = s.msixTable := rfl
@[simp] theorem State.setWindow_msixMask (s : State) (w : Nat) (x : StoreWindow) : (s.setWindow w x).msixMask = s.msixMask := rfl
@[simp] theorem State.setWindow_msixPend (s : State) (w : Nat) (x : StoreWindow) : (s.setWindow w x).msixPend = s.msixPend := rfl
@[simp] theorem State.setWindow_windows (s : State) (w : Nat) (x : StoreWindow) : (s.setWindow w x).windows = s.windows.set {} w x := rfl
@[simp] theorem State.setWindow_ctxs (s : State) (w : Nat) (x : StoreWindow) : (s.setWindow w x).ctxs = s.ctxs := rfl
@[simp] theorem State.setWindow_txq (s : State) (w : Nat) (x : StoreWindow) : (s.setWindow w x).txq = s.txq := rfl
@[simp] theorem State.setWindow_rx (s : State) (w : Nat) (x : StoreWindow) : (s.setWindow w x).rx = s.rx := rfl
@[simp] theorem State.setWindow_linkDies (s : State) (w : Nat) (x : StoreWindow) : (s.setWindow w x).linkDies = s.linkDies := rfl
@[simp] theorem State.setWindow_ports (s : State) (w : Nat) (x : StoreWindow) : (s.setWindow w x).ports = s.ports := rfl
@[simp] theorem State.setWindow_gates (s : State) (w : Nat) (x : StoreWindow) : (s.setWindow w x).gates = s.gates := rfl
@[simp] theorem State.setWindow_amaps (s : State) (w : Nat) (x : StoreWindow) : (s.setWindow w x).amaps = s.amaps := rfl
@[simp] theorem State.setWindow_frames (s : State) (w : Nat) (x : StoreWindow) : (s.setWindow w x).frames = s.frames := rfl
@[simp] theorem State.setWindow_channels (s : State) (w : Nat) (x : StoreWindow) : (s.setWindow w x).channels = s.channels := rfl
@[simp] theorem State.setWindow_dram (s : State) (w : Nat) (x : StoreWindow) : (s.setWindow w x).dram = s.dram := rfl
@[simp] theorem State.setWindow_far (s : State) (w : Nat) (x : StoreWindow) : (s.setWindow w x).far = s.far := rfl
@[simp] theorem State.setWindow_cxl (s : State) (w : Nat) (x : StoreWindow) : (s.setWindow w x).cxl = s.cxl := rfl
@[simp] theorem State.setWindow_flash (s : State) (w : Nat) (x : StoreWindow) : (s.setWindow w x).flash = s.flash := rfl
@[simp] theorem State.setWindow_flashSeq (s : State) (w : Nat) (x : StoreWindow) : (s.setWindow w x).flashSeq = s.flashSeq := rfl
@[simp] theorem State.setWindow_sergeSeq (s : State) (w : Nat) (x : StoreWindow) : (s.setWindow w x).sergeSeq = s.sergeSeq := rfl
@[simp] theorem State.setWindow_unitEpochs (s : State) (w : Nat) (x : StoreWindow) : (s.setWindow w x).unitEpochs = s.unitEpochs := rfl
@[simp] theorem State.setWindow_fromFence (s : State) (w : Nat) (x : StoreWindow) : (s.setWindow w x).fromFence = s.fromFence := rfl
@[simp] theorem State.setWindow_returned (s : State) (w : Nat) (x : StoreWindow) : (s.setWindow w x).returned = s.returned := rfl
@[simp] theorem State.setWindow_gh (s : State) (w : Nat) (x : StoreWindow) : (s.setWindow w x).gh = s.gh := rfl
@[simp] theorem State.setWindow_fw (s : State) (w : Nat) (x : StoreWindow) : (s.setWindow w x).fw = s.fw := rfl
@[simp] theorem State.setWindow_rst (s : State) (w : Nat) (x : StoreWindow) : (s.setWindow w x).rst = s.rst := rfl
@[simp] theorem State.setWindow_pwr (s : State) (w : Nat) (x : StoreWindow) : (s.setWindow w x).pwr = s.pwr := rfl
@[simp] theorem State.setWindow_banksOff (s : State) (w : Nat) (x : StoreWindow) : (s.setWindow w x).banksOff = s.banksOff := rfl
@[simp] theorem State.setWindow_hubOff (s : State) (w : Nat) (x : StoreWindow) : (s.setWindow w x).hubOff = s.hubOff := rfl
@[simp] theorem State.setWindow_switchOpen (s : State) (w : Nat) (x : StoreWindow) : (s.setWindow w x).switchOpen = s.switchOpen := rfl
@[simp] theorem State.setWindow_switchOver (s : State) (w : Nat) (x : StoreWindow) : (s.setWindow w x).switchOver = s.switchOver := rfl
@[simp] theorem State.setWindow_dramLost (s : State) (w : Nat) (x : StoreWindow) : (s.setWindow w x).dramLost = s.dramLost := rfl
@[simp] theorem State.setWindow_meter (s : State) (w : Nat) (x : StoreWindow) : (s.setWindow w x).meter = s.meter := rfl
@[simp] theorem State.setWindow_meterView (s : State) (w : Nat) (x : StoreWindow) : (s.setWindow w x).meterView = s.meterView := rfl
@[simp] theorem State.setWindow_notices (s : State) (w : Nat) (x : StoreWindow) : (s.setWindow w x).notices = s.notices := rfl
@[simp] theorem State.setWindow_userCal0 (s : State) (w : Nat) (x : StoreWindow) : (s.setWindow w x).userCal0 = s.userCal0 := rfl
@[simp] theorem State.setWindow_userCal1 (s : State) (w : Nat) (x : StoreWindow) : (s.setWindow w x).userCal1 = s.userCal1 := rfl
@[simp] theorem State.setWindow_out (s : State) (w : Nat) (x : StoreWindow) : (s.setWindow w x).out = s.out := rfl

@[simp] theorem State.setLinkDie_pending (s : State) (d : Nat) (x : LinkDie) : (s.setLinkDie d x).pending = s.pending := rfl
@[simp] theorem State.setLinkDie_freeCounter (s : State) (d : Nat) (x : LinkDie) : (s.setLinkDie d x).freeCounter = s.freeCounter := rfl
@[simp] theorem State.setLinkDie_cores (s : State) (d : Nat) (x : LinkDie) : (s.setLinkDie d x).cores = s.cores := rfl
@[simp] theorem State.setLinkDie_parts (s : State) (d : Nat) (x : LinkDie) : (s.setLinkDie d x).parts = s.parts := rfl
@[simp] theorem State.setLinkDie_err (s : State) (d : Nat) (x : LinkDie) : (s.setLinkDie d x).err = s.err := rfl
@[simp] theorem State.setLinkDie_mod (s : State) (d : Nat) (x : LinkDie) : (s.setLinkDie d x).mod = s.mod := rfl
@[simp] theorem State.setLinkDie_hostWait (s : State) (d : Nat) (x : LinkDie) : (s.setLinkDie d x).hostWait = s.hostWait := rfl
@[simp] theorem State.setLinkDie_msixTable (s : State) (d : Nat) (x : LinkDie) : (s.setLinkDie d x).msixTable = s.msixTable := rfl
@[simp] theorem State.setLinkDie_msixMask (s : State) (d : Nat) (x : LinkDie) : (s.setLinkDie d x).msixMask = s.msixMask := rfl
@[simp] theorem State.setLinkDie_msixPend (s : State) (d : Nat) (x : LinkDie) : (s.setLinkDie d x).msixPend = s.msixPend := rfl
@[simp] theorem State.setLinkDie_windows (s : State) (d : Nat) (x : LinkDie) : (s.setLinkDie d x).windows = s.windows := rfl
@[simp] theorem State.setLinkDie_ctxs (s : State) (d : Nat) (x : LinkDie) : (s.setLinkDie d x).ctxs = s.ctxs := rfl
@[simp] theorem State.setLinkDie_txq (s : State) (d : Nat) (x : LinkDie) : (s.setLinkDie d x).txq = s.txq := rfl
@[simp] theorem State.setLinkDie_rx (s : State) (d : Nat) (x : LinkDie) : (s.setLinkDie d x).rx = s.rx := rfl
@[simp] theorem State.setLinkDie_linkDies (s : State) (d : Nat) (x : LinkDie) : (s.setLinkDie d x).linkDies = s.linkDies.set {} d x := rfl
@[simp] theorem State.setLinkDie_ports (s : State) (d : Nat) (x : LinkDie) : (s.setLinkDie d x).ports = s.ports := rfl
@[simp] theorem State.setLinkDie_gates (s : State) (d : Nat) (x : LinkDie) : (s.setLinkDie d x).gates = s.gates := rfl
@[simp] theorem State.setLinkDie_amaps (s : State) (d : Nat) (x : LinkDie) : (s.setLinkDie d x).amaps = s.amaps := rfl
@[simp] theorem State.setLinkDie_frames (s : State) (d : Nat) (x : LinkDie) : (s.setLinkDie d x).frames = s.frames := rfl
@[simp] theorem State.setLinkDie_channels (s : State) (d : Nat) (x : LinkDie) : (s.setLinkDie d x).channels = s.channels := rfl
@[simp] theorem State.setLinkDie_dram (s : State) (d : Nat) (x : LinkDie) : (s.setLinkDie d x).dram = s.dram := rfl
@[simp] theorem State.setLinkDie_far (s : State) (d : Nat) (x : LinkDie) : (s.setLinkDie d x).far = s.far := rfl
@[simp] theorem State.setLinkDie_cxl (s : State) (d : Nat) (x : LinkDie) : (s.setLinkDie d x).cxl = s.cxl := rfl
@[simp] theorem State.setLinkDie_flash (s : State) (d : Nat) (x : LinkDie) : (s.setLinkDie d x).flash = s.flash := rfl
@[simp] theorem State.setLinkDie_flashSeq (s : State) (d : Nat) (x : LinkDie) : (s.setLinkDie d x).flashSeq = s.flashSeq := rfl
@[simp] theorem State.setLinkDie_sergeSeq (s : State) (d : Nat) (x : LinkDie) : (s.setLinkDie d x).sergeSeq = s.sergeSeq := rfl
@[simp] theorem State.setLinkDie_unitEpochs (s : State) (d : Nat) (x : LinkDie) : (s.setLinkDie d x).unitEpochs = s.unitEpochs := rfl
@[simp] theorem State.setLinkDie_fromFence (s : State) (d : Nat) (x : LinkDie) : (s.setLinkDie d x).fromFence = s.fromFence := rfl
@[simp] theorem State.setLinkDie_returned (s : State) (d : Nat) (x : LinkDie) : (s.setLinkDie d x).returned = s.returned := rfl
@[simp] theorem State.setLinkDie_gh (s : State) (d : Nat) (x : LinkDie) : (s.setLinkDie d x).gh = s.gh := rfl
@[simp] theorem State.setLinkDie_fw (s : State) (d : Nat) (x : LinkDie) : (s.setLinkDie d x).fw = s.fw := rfl
@[simp] theorem State.setLinkDie_rst (s : State) (d : Nat) (x : LinkDie) : (s.setLinkDie d x).rst = s.rst := rfl
@[simp] theorem State.setLinkDie_pwr (s : State) (d : Nat) (x : LinkDie) : (s.setLinkDie d x).pwr = s.pwr := rfl
@[simp] theorem State.setLinkDie_banksOff (s : State) (d : Nat) (x : LinkDie) : (s.setLinkDie d x).banksOff = s.banksOff := rfl
@[simp] theorem State.setLinkDie_hubOff (s : State) (d : Nat) (x : LinkDie) : (s.setLinkDie d x).hubOff = s.hubOff := rfl
@[simp] theorem State.setLinkDie_switchOpen (s : State) (d : Nat) (x : LinkDie) : (s.setLinkDie d x).switchOpen = s.switchOpen := rfl
@[simp] theorem State.setLinkDie_switchOver (s : State) (d : Nat) (x : LinkDie) : (s.setLinkDie d x).switchOver = s.switchOver := rfl
@[simp] theorem State.setLinkDie_dramLost (s : State) (d : Nat) (x : LinkDie) : (s.setLinkDie d x).dramLost = s.dramLost := rfl
@[simp] theorem State.setLinkDie_meter (s : State) (d : Nat) (x : LinkDie) : (s.setLinkDie d x).meter = s.meter := rfl
@[simp] theorem State.setLinkDie_meterView (s : State) (d : Nat) (x : LinkDie) : (s.setLinkDie d x).meterView = s.meterView := rfl
@[simp] theorem State.setLinkDie_notices (s : State) (d : Nat) (x : LinkDie) : (s.setLinkDie d x).notices = s.notices := rfl
@[simp] theorem State.setLinkDie_userCal0 (s : State) (d : Nat) (x : LinkDie) : (s.setLinkDie d x).userCal0 = s.userCal0 := rfl
@[simp] theorem State.setLinkDie_userCal1 (s : State) (d : Nat) (x : LinkDie) : (s.setLinkDie d x).userCal1 = s.userCal1 := rfl
@[simp] theorem State.setLinkDie_out (s : State) (d : Nat) (x : LinkDie) : (s.setLinkDie d x).out = s.out := rfl

@[simp] theorem State.setPort_pending (s : State) (i : Nat) (x : Port) : (s.setPort i x).pending = s.pending := rfl
@[simp] theorem State.setPort_freeCounter (s : State) (i : Nat) (x : Port) : (s.setPort i x).freeCounter = s.freeCounter := rfl
@[simp] theorem State.setPort_cores (s : State) (i : Nat) (x : Port) : (s.setPort i x).cores = s.cores := rfl
@[simp] theorem State.setPort_parts (s : State) (i : Nat) (x : Port) : (s.setPort i x).parts = s.parts := rfl
@[simp] theorem State.setPort_err (s : State) (i : Nat) (x : Port) : (s.setPort i x).err = s.err := rfl
@[simp] theorem State.setPort_mod (s : State) (i : Nat) (x : Port) : (s.setPort i x).mod = s.mod := rfl
@[simp] theorem State.setPort_hostWait (s : State) (i : Nat) (x : Port) : (s.setPort i x).hostWait = s.hostWait := rfl
@[simp] theorem State.setPort_msixTable (s : State) (i : Nat) (x : Port) : (s.setPort i x).msixTable = s.msixTable := rfl
@[simp] theorem State.setPort_msixMask (s : State) (i : Nat) (x : Port) : (s.setPort i x).msixMask = s.msixMask := rfl
@[simp] theorem State.setPort_msixPend (s : State) (i : Nat) (x : Port) : (s.setPort i x).msixPend = s.msixPend := rfl
@[simp] theorem State.setPort_windows (s : State) (i : Nat) (x : Port) : (s.setPort i x).windows = s.windows := rfl
@[simp] theorem State.setPort_ctxs (s : State) (i : Nat) (x : Port) : (s.setPort i x).ctxs = s.ctxs := rfl
@[simp] theorem State.setPort_txq (s : State) (i : Nat) (x : Port) : (s.setPort i x).txq = s.txq := rfl
@[simp] theorem State.setPort_rx (s : State) (i : Nat) (x : Port) : (s.setPort i x).rx = s.rx := rfl
@[simp] theorem State.setPort_linkDies (s : State) (i : Nat) (x : Port) : (s.setPort i x).linkDies = s.linkDies := rfl
@[simp] theorem State.setPort_ports (s : State) (i : Nat) (x : Port) : (s.setPort i x).ports = s.ports.set {} i x := rfl
@[simp] theorem State.setPort_gates (s : State) (i : Nat) (x : Port) : (s.setPort i x).gates = s.gates := rfl
@[simp] theorem State.setPort_amaps (s : State) (i : Nat) (x : Port) : (s.setPort i x).amaps = s.amaps := rfl
@[simp] theorem State.setPort_frames (s : State) (i : Nat) (x : Port) : (s.setPort i x).frames = s.frames := rfl
@[simp] theorem State.setPort_channels (s : State) (i : Nat) (x : Port) : (s.setPort i x).channels = s.channels := rfl
@[simp] theorem State.setPort_dram (s : State) (i : Nat) (x : Port) : (s.setPort i x).dram = s.dram := rfl
@[simp] theorem State.setPort_far (s : State) (i : Nat) (x : Port) : (s.setPort i x).far = s.far := rfl
@[simp] theorem State.setPort_cxl (s : State) (i : Nat) (x : Port) : (s.setPort i x).cxl = s.cxl := rfl
@[simp] theorem State.setPort_flash (s : State) (i : Nat) (x : Port) : (s.setPort i x).flash = s.flash := rfl
@[simp] theorem State.setPort_flashSeq (s : State) (i : Nat) (x : Port) : (s.setPort i x).flashSeq = s.flashSeq := rfl
@[simp] theorem State.setPort_sergeSeq (s : State) (i : Nat) (x : Port) : (s.setPort i x).sergeSeq = s.sergeSeq := rfl
@[simp] theorem State.setPort_unitEpochs (s : State) (i : Nat) (x : Port) : (s.setPort i x).unitEpochs = s.unitEpochs := rfl
@[simp] theorem State.setPort_fromFence (s : State) (i : Nat) (x : Port) : (s.setPort i x).fromFence = s.fromFence := rfl
@[simp] theorem State.setPort_returned (s : State) (i : Nat) (x : Port) : (s.setPort i x).returned = s.returned := rfl
@[simp] theorem State.setPort_gh (s : State) (i : Nat) (x : Port) : (s.setPort i x).gh = s.gh := rfl
@[simp] theorem State.setPort_fw (s : State) (i : Nat) (x : Port) : (s.setPort i x).fw = s.fw := rfl
@[simp] theorem State.setPort_rst (s : State) (i : Nat) (x : Port) : (s.setPort i x).rst = s.rst := rfl
@[simp] theorem State.setPort_pwr (s : State) (i : Nat) (x : Port) : (s.setPort i x).pwr = s.pwr := rfl
@[simp] theorem State.setPort_banksOff (s : State) (i : Nat) (x : Port) : (s.setPort i x).banksOff = s.banksOff := rfl
@[simp] theorem State.setPort_hubOff (s : State) (i : Nat) (x : Port) : (s.setPort i x).hubOff = s.hubOff := rfl
@[simp] theorem State.setPort_switchOpen (s : State) (i : Nat) (x : Port) : (s.setPort i x).switchOpen = s.switchOpen := rfl
@[simp] theorem State.setPort_switchOver (s : State) (i : Nat) (x : Port) : (s.setPort i x).switchOver = s.switchOver := rfl
@[simp] theorem State.setPort_dramLost (s : State) (i : Nat) (x : Port) : (s.setPort i x).dramLost = s.dramLost := rfl
@[simp] theorem State.setPort_meter (s : State) (i : Nat) (x : Port) : (s.setPort i x).meter = s.meter := rfl
@[simp] theorem State.setPort_meterView (s : State) (i : Nat) (x : Port) : (s.setPort i x).meterView = s.meterView := rfl
@[simp] theorem State.setPort_notices (s : State) (i : Nat) (x : Port) : (s.setPort i x).notices = s.notices := rfl
@[simp] theorem State.setPort_userCal0 (s : State) (i : Nat) (x : Port) : (s.setPort i x).userCal0 = s.userCal0 := rfl
@[simp] theorem State.setPort_userCal1 (s : State) (i : Nat) (x : Port) : (s.setPort i x).userCal1 = s.userCal1 := rfl
@[simp] theorem State.setPort_out (s : State) (i : Nat) (x : Port) : (s.setPort i x).out = s.out := rfl

@[simp] theorem State.setGate_pending (s : State) (i : Nat) (g : Bool) : (s.setGate i g).pending = s.pending := rfl
@[simp] theorem State.setGate_freeCounter (s : State) (i : Nat) (g : Bool) : (s.setGate i g).freeCounter = s.freeCounter := rfl
@[simp] theorem State.setGate_cores (s : State) (i : Nat) (g : Bool) : (s.setGate i g).cores = s.cores := rfl
@[simp] theorem State.setGate_parts (s : State) (i : Nat) (g : Bool) : (s.setGate i g).parts = s.parts := rfl
@[simp] theorem State.setGate_err (s : State) (i : Nat) (g : Bool) : (s.setGate i g).err = s.err := rfl
@[simp] theorem State.setGate_mod (s : State) (i : Nat) (g : Bool) : (s.setGate i g).mod = s.mod := rfl
@[simp] theorem State.setGate_hostWait (s : State) (i : Nat) (g : Bool) : (s.setGate i g).hostWait = s.hostWait := rfl
@[simp] theorem State.setGate_msixTable (s : State) (i : Nat) (g : Bool) : (s.setGate i g).msixTable = s.msixTable := rfl
@[simp] theorem State.setGate_msixMask (s : State) (i : Nat) (g : Bool) : (s.setGate i g).msixMask = s.msixMask := rfl
@[simp] theorem State.setGate_msixPend (s : State) (i : Nat) (g : Bool) : (s.setGate i g).msixPend = s.msixPend := rfl
@[simp] theorem State.setGate_windows (s : State) (i : Nat) (g : Bool) : (s.setGate i g).windows = s.windows := rfl
@[simp] theorem State.setGate_ctxs (s : State) (i : Nat) (g : Bool) : (s.setGate i g).ctxs = s.ctxs := rfl
@[simp] theorem State.setGate_txq (s : State) (i : Nat) (g : Bool) : (s.setGate i g).txq = s.txq := rfl
@[simp] theorem State.setGate_rx (s : State) (i : Nat) (g : Bool) : (s.setGate i g).rx = s.rx := rfl
@[simp] theorem State.setGate_linkDies (s : State) (i : Nat) (g : Bool) : (s.setGate i g).linkDies = s.linkDies := rfl
@[simp] theorem State.setGate_ports (s : State) (i : Nat) (g : Bool) : (s.setGate i g).ports = s.ports := rfl
@[simp] theorem State.setGate_gates (s : State) (i : Nat) (g : Bool) : (s.setGate i g).gates = s.gates.set false i g := rfl
@[simp] theorem State.setGate_amaps (s : State) (i : Nat) (g : Bool) : (s.setGate i g).amaps = s.amaps := rfl
@[simp] theorem State.setGate_frames (s : State) (i : Nat) (g : Bool) : (s.setGate i g).frames = s.frames := rfl
@[simp] theorem State.setGate_channels (s : State) (i : Nat) (g : Bool) : (s.setGate i g).channels = s.channels := rfl
@[simp] theorem State.setGate_dram (s : State) (i : Nat) (g : Bool) : (s.setGate i g).dram = s.dram := rfl
@[simp] theorem State.setGate_far (s : State) (i : Nat) (g : Bool) : (s.setGate i g).far = s.far := rfl
@[simp] theorem State.setGate_cxl (s : State) (i : Nat) (g : Bool) : (s.setGate i g).cxl = s.cxl := rfl
@[simp] theorem State.setGate_flash (s : State) (i : Nat) (g : Bool) : (s.setGate i g).flash = s.flash := rfl
@[simp] theorem State.setGate_flashSeq (s : State) (i : Nat) (g : Bool) : (s.setGate i g).flashSeq = s.flashSeq := rfl
@[simp] theorem State.setGate_sergeSeq (s : State) (i : Nat) (g : Bool) : (s.setGate i g).sergeSeq = s.sergeSeq := rfl
@[simp] theorem State.setGate_unitEpochs (s : State) (i : Nat) (g : Bool) : (s.setGate i g).unitEpochs = s.unitEpochs := rfl
@[simp] theorem State.setGate_fromFence (s : State) (i : Nat) (g : Bool) : (s.setGate i g).fromFence = s.fromFence := rfl
@[simp] theorem State.setGate_returned (s : State) (i : Nat) (g : Bool) : (s.setGate i g).returned = s.returned := rfl
@[simp] theorem State.setGate_gh (s : State) (i : Nat) (g : Bool) : (s.setGate i g).gh = s.gh := rfl
@[simp] theorem State.setGate_fw (s : State) (i : Nat) (g : Bool) : (s.setGate i g).fw = s.fw := rfl
@[simp] theorem State.setGate_rst (s : State) (i : Nat) (g : Bool) : (s.setGate i g).rst = s.rst := rfl
@[simp] theorem State.setGate_pwr (s : State) (i : Nat) (g : Bool) : (s.setGate i g).pwr = s.pwr := rfl
@[simp] theorem State.setGate_banksOff (s : State) (i : Nat) (g : Bool) : (s.setGate i g).banksOff = s.banksOff := rfl
@[simp] theorem State.setGate_hubOff (s : State) (i : Nat) (g : Bool) : (s.setGate i g).hubOff = s.hubOff := rfl
@[simp] theorem State.setGate_switchOpen (s : State) (i : Nat) (g : Bool) : (s.setGate i g).switchOpen = s.switchOpen := rfl
@[simp] theorem State.setGate_switchOver (s : State) (i : Nat) (g : Bool) : (s.setGate i g).switchOver = s.switchOver := rfl
@[simp] theorem State.setGate_dramLost (s : State) (i : Nat) (g : Bool) : (s.setGate i g).dramLost = s.dramLost := rfl
@[simp] theorem State.setGate_meter (s : State) (i : Nat) (g : Bool) : (s.setGate i g).meter = s.meter := rfl
@[simp] theorem State.setGate_meterView (s : State) (i : Nat) (g : Bool) : (s.setGate i g).meterView = s.meterView := rfl
@[simp] theorem State.setGate_notices (s : State) (i : Nat) (g : Bool) : (s.setGate i g).notices = s.notices := rfl
@[simp] theorem State.setGate_userCal0 (s : State) (i : Nat) (g : Bool) : (s.setGate i g).userCal0 = s.userCal0 := rfl
@[simp] theorem State.setGate_userCal1 (s : State) (i : Nat) (g : Bool) : (s.setGate i g).userCal1 = s.userCal1 := rfl
@[simp] theorem State.setGate_out (s : State) (i : Nat) (g : Bool) : (s.setGate i g).out = s.out := rfl

@[simp] theorem State.setCxlPort_pending (s : State) (i : Nat) (x : CxlPort) : (s.setCxlPort i x).pending = s.pending := rfl
@[simp] theorem State.setCxlPort_freeCounter (s : State) (i : Nat) (x : CxlPort) : (s.setCxlPort i x).freeCounter = s.freeCounter := rfl
@[simp] theorem State.setCxlPort_cores (s : State) (i : Nat) (x : CxlPort) : (s.setCxlPort i x).cores = s.cores := rfl
@[simp] theorem State.setCxlPort_parts (s : State) (i : Nat) (x : CxlPort) : (s.setCxlPort i x).parts = s.parts := rfl
@[simp] theorem State.setCxlPort_err (s : State) (i : Nat) (x : CxlPort) : (s.setCxlPort i x).err = s.err := rfl
@[simp] theorem State.setCxlPort_mod (s : State) (i : Nat) (x : CxlPort) : (s.setCxlPort i x).mod = s.mod := rfl
@[simp] theorem State.setCxlPort_hostWait (s : State) (i : Nat) (x : CxlPort) : (s.setCxlPort i x).hostWait = s.hostWait := rfl
@[simp] theorem State.setCxlPort_msixTable (s : State) (i : Nat) (x : CxlPort) : (s.setCxlPort i x).msixTable = s.msixTable := rfl
@[simp] theorem State.setCxlPort_msixMask (s : State) (i : Nat) (x : CxlPort) : (s.setCxlPort i x).msixMask = s.msixMask := rfl
@[simp] theorem State.setCxlPort_msixPend (s : State) (i : Nat) (x : CxlPort) : (s.setCxlPort i x).msixPend = s.msixPend := rfl
@[simp] theorem State.setCxlPort_windows (s : State) (i : Nat) (x : CxlPort) : (s.setCxlPort i x).windows = s.windows := rfl
@[simp] theorem State.setCxlPort_ctxs (s : State) (i : Nat) (x : CxlPort) : (s.setCxlPort i x).ctxs = s.ctxs := rfl
@[simp] theorem State.setCxlPort_txq (s : State) (i : Nat) (x : CxlPort) : (s.setCxlPort i x).txq = s.txq := rfl
@[simp] theorem State.setCxlPort_rx (s : State) (i : Nat) (x : CxlPort) : (s.setCxlPort i x).rx = s.rx := rfl
@[simp] theorem State.setCxlPort_linkDies (s : State) (i : Nat) (x : CxlPort) : (s.setCxlPort i x).linkDies = s.linkDies := rfl
@[simp] theorem State.setCxlPort_ports (s : State) (i : Nat) (x : CxlPort) : (s.setCxlPort i x).ports = s.ports := rfl
@[simp] theorem State.setCxlPort_gates (s : State) (i : Nat) (x : CxlPort) : (s.setCxlPort i x).gates = s.gates := rfl
@[simp] theorem State.setCxlPort_amaps (s : State) (i : Nat) (x : CxlPort) : (s.setCxlPort i x).amaps = s.amaps := rfl
@[simp] theorem State.setCxlPort_frames (s : State) (i : Nat) (x : CxlPort) : (s.setCxlPort i x).frames = s.frames := rfl
@[simp] theorem State.setCxlPort_channels (s : State) (i : Nat) (x : CxlPort) : (s.setCxlPort i x).channels = s.channels := rfl
@[simp] theorem State.setCxlPort_dram (s : State) (i : Nat) (x : CxlPort) : (s.setCxlPort i x).dram = s.dram := rfl
@[simp] theorem State.setCxlPort_far (s : State) (i : Nat) (x : CxlPort) : (s.setCxlPort i x).far = s.far := rfl
@[simp] theorem State.setCxlPort_cxl (s : State) (i : Nat) (x : CxlPort) : (s.setCxlPort i x).cxl = s.cxl.set {} i x := rfl
@[simp] theorem State.setCxlPort_flash (s : State) (i : Nat) (x : CxlPort) : (s.setCxlPort i x).flash = s.flash := rfl
@[simp] theorem State.setCxlPort_flashSeq (s : State) (i : Nat) (x : CxlPort) : (s.setCxlPort i x).flashSeq = s.flashSeq := rfl
@[simp] theorem State.setCxlPort_sergeSeq (s : State) (i : Nat) (x : CxlPort) : (s.setCxlPort i x).sergeSeq = s.sergeSeq := rfl
@[simp] theorem State.setCxlPort_unitEpochs (s : State) (i : Nat) (x : CxlPort) : (s.setCxlPort i x).unitEpochs = s.unitEpochs := rfl
@[simp] theorem State.setCxlPort_fromFence (s : State) (i : Nat) (x : CxlPort) : (s.setCxlPort i x).fromFence = s.fromFence := rfl
@[simp] theorem State.setCxlPort_returned (s : State) (i : Nat) (x : CxlPort) : (s.setCxlPort i x).returned = s.returned := rfl
@[simp] theorem State.setCxlPort_gh (s : State) (i : Nat) (x : CxlPort) : (s.setCxlPort i x).gh = s.gh := rfl
@[simp] theorem State.setCxlPort_fw (s : State) (i : Nat) (x : CxlPort) : (s.setCxlPort i x).fw = s.fw := rfl
@[simp] theorem State.setCxlPort_rst (s : State) (i : Nat) (x : CxlPort) : (s.setCxlPort i x).rst = s.rst := rfl
@[simp] theorem State.setCxlPort_pwr (s : State) (i : Nat) (x : CxlPort) : (s.setCxlPort i x).pwr = s.pwr := rfl
@[simp] theorem State.setCxlPort_banksOff (s : State) (i : Nat) (x : CxlPort) : (s.setCxlPort i x).banksOff = s.banksOff := rfl
@[simp] theorem State.setCxlPort_hubOff (s : State) (i : Nat) (x : CxlPort) : (s.setCxlPort i x).hubOff = s.hubOff := rfl
@[simp] theorem State.setCxlPort_switchOpen (s : State) (i : Nat) (x : CxlPort) : (s.setCxlPort i x).switchOpen = s.switchOpen := rfl
@[simp] theorem State.setCxlPort_switchOver (s : State) (i : Nat) (x : CxlPort) : (s.setCxlPort i x).switchOver = s.switchOver := rfl
@[simp] theorem State.setCxlPort_dramLost (s : State) (i : Nat) (x : CxlPort) : (s.setCxlPort i x).dramLost = s.dramLost := rfl
@[simp] theorem State.setCxlPort_meter (s : State) (i : Nat) (x : CxlPort) : (s.setCxlPort i x).meter = s.meter := rfl
@[simp] theorem State.setCxlPort_meterView (s : State) (i : Nat) (x : CxlPort) : (s.setCxlPort i x).meterView = s.meterView := rfl
@[simp] theorem State.setCxlPort_notices (s : State) (i : Nat) (x : CxlPort) : (s.setCxlPort i x).notices = s.notices := rfl
@[simp] theorem State.setCxlPort_userCal0 (s : State) (i : Nat) (x : CxlPort) : (s.setCxlPort i x).userCal0 = s.userCal0 := rfl
@[simp] theorem State.setCxlPort_userCal1 (s : State) (i : Nat) (x : CxlPort) : (s.setCxlPort i x).userCal1 = s.userCal1 := rfl
@[simp] theorem State.setCxlPort_out (s : State) (i : Nat) (x : CxlPort) : (s.setCxlPort i x).out = s.out := rfl

@[simp] theorem State.setDramByte_pending (s : State) (key : Nat) (b : Byte) : (s.setDramByte key b).pending = s.pending := rfl
@[simp] theorem State.setDramByte_freeCounter (s : State) (key : Nat) (b : Byte) : (s.setDramByte key b).freeCounter = s.freeCounter := rfl
@[simp] theorem State.setDramByte_cores (s : State) (key : Nat) (b : Byte) : (s.setDramByte key b).cores = s.cores := rfl
@[simp] theorem State.setDramByte_parts (s : State) (key : Nat) (b : Byte) : (s.setDramByte key b).parts = s.parts := rfl
@[simp] theorem State.setDramByte_err (s : State) (key : Nat) (b : Byte) : (s.setDramByte key b).err = s.err := rfl
@[simp] theorem State.setDramByte_mod (s : State) (key : Nat) (b : Byte) : (s.setDramByte key b).mod = s.mod := rfl
@[simp] theorem State.setDramByte_hostWait (s : State) (key : Nat) (b : Byte) : (s.setDramByte key b).hostWait = s.hostWait := rfl
@[simp] theorem State.setDramByte_msixTable (s : State) (key : Nat) (b : Byte) : (s.setDramByte key b).msixTable = s.msixTable := rfl
@[simp] theorem State.setDramByte_msixMask (s : State) (key : Nat) (b : Byte) : (s.setDramByte key b).msixMask = s.msixMask := rfl
@[simp] theorem State.setDramByte_msixPend (s : State) (key : Nat) (b : Byte) : (s.setDramByte key b).msixPend = s.msixPend := rfl
@[simp] theorem State.setDramByte_windows (s : State) (key : Nat) (b : Byte) : (s.setDramByte key b).windows = s.windows := rfl
@[simp] theorem State.setDramByte_ctxs (s : State) (key : Nat) (b : Byte) : (s.setDramByte key b).ctxs = s.ctxs := rfl
@[simp] theorem State.setDramByte_txq (s : State) (key : Nat) (b : Byte) : (s.setDramByte key b).txq = s.txq := rfl
@[simp] theorem State.setDramByte_rx (s : State) (key : Nat) (b : Byte) : (s.setDramByte key b).rx = s.rx := rfl
@[simp] theorem State.setDramByte_linkDies (s : State) (key : Nat) (b : Byte) : (s.setDramByte key b).linkDies = s.linkDies := rfl
@[simp] theorem State.setDramByte_ports (s : State) (key : Nat) (b : Byte) : (s.setDramByte key b).ports = s.ports := rfl
@[simp] theorem State.setDramByte_gates (s : State) (key : Nat) (b : Byte) : (s.setDramByte key b).gates = s.gates := rfl
@[simp] theorem State.setDramByte_amaps (s : State) (key : Nat) (b : Byte) : (s.setDramByte key b).amaps = s.amaps := rfl
@[simp] theorem State.setDramByte_frames (s : State) (key : Nat) (b : Byte) : (s.setDramByte key b).frames = s.frames := rfl
@[simp] theorem State.setDramByte_channels (s : State) (key : Nat) (b : Byte) : (s.setDramByte key b).channels = s.channels := rfl
@[simp] theorem State.setDramByte_dram (s : State) (key : Nat) (b : Byte) : (s.setDramByte key b).dram = FMap.set 0 s.dram key b := rfl
@[simp] theorem State.setDramByte_far (s : State) (key : Nat) (b : Byte) : (s.setDramByte key b).far = s.far := rfl
@[simp] theorem State.setDramByte_cxl (s : State) (key : Nat) (b : Byte) : (s.setDramByte key b).cxl = s.cxl := rfl
@[simp] theorem State.setDramByte_flash (s : State) (key : Nat) (b : Byte) : (s.setDramByte key b).flash = s.flash := rfl
@[simp] theorem State.setDramByte_flashSeq (s : State) (key : Nat) (b : Byte) : (s.setDramByte key b).flashSeq = s.flashSeq := rfl
@[simp] theorem State.setDramByte_sergeSeq (s : State) (key : Nat) (b : Byte) : (s.setDramByte key b).sergeSeq = s.sergeSeq := rfl
@[simp] theorem State.setDramByte_unitEpochs (s : State) (key : Nat) (b : Byte) : (s.setDramByte key b).unitEpochs = s.unitEpochs := rfl
@[simp] theorem State.setDramByte_fromFence (s : State) (key : Nat) (b : Byte) : (s.setDramByte key b).fromFence = s.fromFence := rfl
@[simp] theorem State.setDramByte_returned (s : State) (key : Nat) (b : Byte) : (s.setDramByte key b).returned = s.returned := rfl
@[simp] theorem State.setDramByte_gh (s : State) (key : Nat) (b : Byte) : (s.setDramByte key b).gh = s.gh := rfl
@[simp] theorem State.setDramByte_fw (s : State) (key : Nat) (b : Byte) : (s.setDramByte key b).fw = s.fw := rfl
@[simp] theorem State.setDramByte_rst (s : State) (key : Nat) (b : Byte) : (s.setDramByte key b).rst = s.rst := rfl
@[simp] theorem State.setDramByte_pwr (s : State) (key : Nat) (b : Byte) : (s.setDramByte key b).pwr = s.pwr := rfl
@[simp] theorem State.setDramByte_banksOff (s : State) (key : Nat) (b : Byte) : (s.setDramByte key b).banksOff = s.banksOff := rfl
@[simp] theorem State.setDramByte_hubOff (s : State) (key : Nat) (b : Byte) : (s.setDramByte key b).hubOff = s.hubOff := rfl
@[simp] theorem State.setDramByte_switchOpen (s : State) (key : Nat) (b : Byte) : (s.setDramByte key b).switchOpen = s.switchOpen := rfl
@[simp] theorem State.setDramByte_switchOver (s : State) (key : Nat) (b : Byte) : (s.setDramByte key b).switchOver = s.switchOver := rfl
@[simp] theorem State.setDramByte_dramLost (s : State) (key : Nat) (b : Byte) : (s.setDramByte key b).dramLost = s.dramLost := rfl
@[simp] theorem State.setDramByte_meter (s : State) (key : Nat) (b : Byte) : (s.setDramByte key b).meter = s.meter := rfl
@[simp] theorem State.setDramByte_meterView (s : State) (key : Nat) (b : Byte) : (s.setDramByte key b).meterView = s.meterView := rfl
@[simp] theorem State.setDramByte_notices (s : State) (key : Nat) (b : Byte) : (s.setDramByte key b).notices = s.notices := rfl
@[simp] theorem State.setDramByte_userCal0 (s : State) (key : Nat) (b : Byte) : (s.setDramByte key b).userCal0 = s.userCal0 := rfl
@[simp] theorem State.setDramByte_userCal1 (s : State) (key : Nat) (b : Byte) : (s.setDramByte key b).userCal1 = s.userCal1 := rfl
@[simp] theorem State.setDramByte_out (s : State) (key : Nat) (b : Byte) : (s.setDramByte key b).out = s.out := rfl

@[simp] theorem State.setDramBytes_pending (s : State) (key : Nat) (bs : List Byte) : (s.setDramBytes key bs).pending = s.pending := rfl
@[simp] theorem State.setDramBytes_freeCounter (s : State) (key : Nat) (bs : List Byte) : (s.setDramBytes key bs).freeCounter = s.freeCounter := rfl
@[simp] theorem State.setDramBytes_cores (s : State) (key : Nat) (bs : List Byte) : (s.setDramBytes key bs).cores = s.cores := rfl
@[simp] theorem State.setDramBytes_parts (s : State) (key : Nat) (bs : List Byte) : (s.setDramBytes key bs).parts = s.parts := rfl
@[simp] theorem State.setDramBytes_err (s : State) (key : Nat) (bs : List Byte) : (s.setDramBytes key bs).err = s.err := rfl
@[simp] theorem State.setDramBytes_mod (s : State) (key : Nat) (bs : List Byte) : (s.setDramBytes key bs).mod = s.mod := rfl
@[simp] theorem State.setDramBytes_hostWait (s : State) (key : Nat) (bs : List Byte) : (s.setDramBytes key bs).hostWait = s.hostWait := rfl
@[simp] theorem State.setDramBytes_msixTable (s : State) (key : Nat) (bs : List Byte) : (s.setDramBytes key bs).msixTable = s.msixTable := rfl
@[simp] theorem State.setDramBytes_msixMask (s : State) (key : Nat) (bs : List Byte) : (s.setDramBytes key bs).msixMask = s.msixMask := rfl
@[simp] theorem State.setDramBytes_msixPend (s : State) (key : Nat) (bs : List Byte) : (s.setDramBytes key bs).msixPend = s.msixPend := rfl
@[simp] theorem State.setDramBytes_windows (s : State) (key : Nat) (bs : List Byte) : (s.setDramBytes key bs).windows = s.windows := rfl
@[simp] theorem State.setDramBytes_ctxs (s : State) (key : Nat) (bs : List Byte) : (s.setDramBytes key bs).ctxs = s.ctxs := rfl
@[simp] theorem State.setDramBytes_txq (s : State) (key : Nat) (bs : List Byte) : (s.setDramBytes key bs).txq = s.txq := rfl
@[simp] theorem State.setDramBytes_rx (s : State) (key : Nat) (bs : List Byte) : (s.setDramBytes key bs).rx = s.rx := rfl
@[simp] theorem State.setDramBytes_linkDies (s : State) (key : Nat) (bs : List Byte) : (s.setDramBytes key bs).linkDies = s.linkDies := rfl
@[simp] theorem State.setDramBytes_ports (s : State) (key : Nat) (bs : List Byte) : (s.setDramBytes key bs).ports = s.ports := rfl
@[simp] theorem State.setDramBytes_gates (s : State) (key : Nat) (bs : List Byte) : (s.setDramBytes key bs).gates = s.gates := rfl
@[simp] theorem State.setDramBytes_amaps (s : State) (key : Nat) (bs : List Byte) : (s.setDramBytes key bs).amaps = s.amaps := rfl
@[simp] theorem State.setDramBytes_frames (s : State) (key : Nat) (bs : List Byte) : (s.setDramBytes key bs).frames = s.frames := rfl
@[simp] theorem State.setDramBytes_channels (s : State) (key : Nat) (bs : List Byte) : (s.setDramBytes key bs).channels = s.channels := rfl
@[simp] theorem State.setDramBytes_dram (s : State) (key : Nat) (bs : List Byte) : (s.setDramBytes key bs).dram = dramWrite s.dram key bs := rfl
@[simp] theorem State.setDramBytes_far (s : State) (key : Nat) (bs : List Byte) : (s.setDramBytes key bs).far = s.far := rfl
@[simp] theorem State.setDramBytes_cxl (s : State) (key : Nat) (bs : List Byte) : (s.setDramBytes key bs).cxl = s.cxl := rfl
@[simp] theorem State.setDramBytes_flash (s : State) (key : Nat) (bs : List Byte) : (s.setDramBytes key bs).flash = s.flash := rfl
@[simp] theorem State.setDramBytes_flashSeq (s : State) (key : Nat) (bs : List Byte) : (s.setDramBytes key bs).flashSeq = s.flashSeq := rfl
@[simp] theorem State.setDramBytes_sergeSeq (s : State) (key : Nat) (bs : List Byte) : (s.setDramBytes key bs).sergeSeq = s.sergeSeq := rfl
@[simp] theorem State.setDramBytes_unitEpochs (s : State) (key : Nat) (bs : List Byte) : (s.setDramBytes key bs).unitEpochs = s.unitEpochs := rfl
@[simp] theorem State.setDramBytes_fromFence (s : State) (key : Nat) (bs : List Byte) : (s.setDramBytes key bs).fromFence = s.fromFence := rfl
@[simp] theorem State.setDramBytes_returned (s : State) (key : Nat) (bs : List Byte) : (s.setDramBytes key bs).returned = s.returned := rfl
@[simp] theorem State.setDramBytes_gh (s : State) (key : Nat) (bs : List Byte) : (s.setDramBytes key bs).gh = s.gh := rfl
@[simp] theorem State.setDramBytes_fw (s : State) (key : Nat) (bs : List Byte) : (s.setDramBytes key bs).fw = s.fw := rfl
@[simp] theorem State.setDramBytes_rst (s : State) (key : Nat) (bs : List Byte) : (s.setDramBytes key bs).rst = s.rst := rfl
@[simp] theorem State.setDramBytes_pwr (s : State) (key : Nat) (bs : List Byte) : (s.setDramBytes key bs).pwr = s.pwr := rfl
@[simp] theorem State.setDramBytes_banksOff (s : State) (key : Nat) (bs : List Byte) : (s.setDramBytes key bs).banksOff = s.banksOff := rfl
@[simp] theorem State.setDramBytes_hubOff (s : State) (key : Nat) (bs : List Byte) : (s.setDramBytes key bs).hubOff = s.hubOff := rfl
@[simp] theorem State.setDramBytes_switchOpen (s : State) (key : Nat) (bs : List Byte) : (s.setDramBytes key bs).switchOpen = s.switchOpen := rfl
@[simp] theorem State.setDramBytes_switchOver (s : State) (key : Nat) (bs : List Byte) : (s.setDramBytes key bs).switchOver = s.switchOver := rfl
@[simp] theorem State.setDramBytes_dramLost (s : State) (key : Nat) (bs : List Byte) : (s.setDramBytes key bs).dramLost = s.dramLost := rfl
@[simp] theorem State.setDramBytes_meter (s : State) (key : Nat) (bs : List Byte) : (s.setDramBytes key bs).meter = s.meter := rfl
@[simp] theorem State.setDramBytes_meterView (s : State) (key : Nat) (bs : List Byte) : (s.setDramBytes key bs).meterView = s.meterView := rfl
@[simp] theorem State.setDramBytes_notices (s : State) (key : Nat) (bs : List Byte) : (s.setDramBytes key bs).notices = s.notices := rfl
@[simp] theorem State.setDramBytes_userCal0 (s : State) (key : Nat) (bs : List Byte) : (s.setDramBytes key bs).userCal0 = s.userCal0 := rfl
@[simp] theorem State.setDramBytes_userCal1 (s : State) (key : Nat) (bs : List Byte) : (s.setDramBytes key bs).userCal1 = s.userCal1 := rfl
@[simp] theorem State.setDramBytes_out (s : State) (key : Nat) (bs : List Byte) : (s.setDramBytes key bs).out = s.out := rfl

@[simp] theorem State.setFlash_pending (s : State) (slot off : Nat) (bs : List Byte) : (s.setFlash slot off bs).pending = s.pending := rfl
@[simp] theorem State.setFlash_freeCounter (s : State) (slot off : Nat) (bs : List Byte) : (s.setFlash slot off bs).freeCounter = s.freeCounter := rfl
@[simp] theorem State.setFlash_cores (s : State) (slot off : Nat) (bs : List Byte) : (s.setFlash slot off bs).cores = s.cores := rfl
@[simp] theorem State.setFlash_parts (s : State) (slot off : Nat) (bs : List Byte) : (s.setFlash slot off bs).parts = s.parts := rfl
@[simp] theorem State.setFlash_err (s : State) (slot off : Nat) (bs : List Byte) : (s.setFlash slot off bs).err = s.err := rfl
@[simp] theorem State.setFlash_mod (s : State) (slot off : Nat) (bs : List Byte) : (s.setFlash slot off bs).mod = s.mod := rfl
@[simp] theorem State.setFlash_hostWait (s : State) (slot off : Nat) (bs : List Byte) : (s.setFlash slot off bs).hostWait = s.hostWait := rfl
@[simp] theorem State.setFlash_msixTable (s : State) (slot off : Nat) (bs : List Byte) : (s.setFlash slot off bs).msixTable = s.msixTable := rfl
@[simp] theorem State.setFlash_msixMask (s : State) (slot off : Nat) (bs : List Byte) : (s.setFlash slot off bs).msixMask = s.msixMask := rfl
@[simp] theorem State.setFlash_msixPend (s : State) (slot off : Nat) (bs : List Byte) : (s.setFlash slot off bs).msixPend = s.msixPend := rfl
@[simp] theorem State.setFlash_windows (s : State) (slot off : Nat) (bs : List Byte) : (s.setFlash slot off bs).windows = s.windows := rfl
@[simp] theorem State.setFlash_ctxs (s : State) (slot off : Nat) (bs : List Byte) : (s.setFlash slot off bs).ctxs = s.ctxs := rfl
@[simp] theorem State.setFlash_txq (s : State) (slot off : Nat) (bs : List Byte) : (s.setFlash slot off bs).txq = s.txq := rfl
@[simp] theorem State.setFlash_rx (s : State) (slot off : Nat) (bs : List Byte) : (s.setFlash slot off bs).rx = s.rx := rfl
@[simp] theorem State.setFlash_linkDies (s : State) (slot off : Nat) (bs : List Byte) : (s.setFlash slot off bs).linkDies = s.linkDies := rfl
@[simp] theorem State.setFlash_ports (s : State) (slot off : Nat) (bs : List Byte) : (s.setFlash slot off bs).ports = s.ports := rfl
@[simp] theorem State.setFlash_gates (s : State) (slot off : Nat) (bs : List Byte) : (s.setFlash slot off bs).gates = s.gates := rfl
@[simp] theorem State.setFlash_amaps (s : State) (slot off : Nat) (bs : List Byte) : (s.setFlash slot off bs).amaps = s.amaps := rfl
@[simp] theorem State.setFlash_frames (s : State) (slot off : Nat) (bs : List Byte) : (s.setFlash slot off bs).frames = s.frames := rfl
@[simp] theorem State.setFlash_channels (s : State) (slot off : Nat) (bs : List Byte) : (s.setFlash slot off bs).channels = s.channels := rfl
@[simp] theorem State.setFlash_dram (s : State) (slot off : Nat) (bs : List Byte) : (s.setFlash slot off bs).dram = s.dram := rfl
@[simp] theorem State.setFlash_far (s : State) (slot off : Nat) (bs : List Byte) : (s.setFlash slot off bs).far = s.far := rfl
@[simp] theorem State.setFlash_cxl (s : State) (slot off : Nat) (bs : List Byte) : (s.setFlash slot off bs).cxl = s.cxl := rfl
@[simp] theorem State.setFlash_flash (s : State) (slot off : Nat) (bs : List Byte) : (s.setFlash slot off bs).flash = dramWrite s.flash (flashKey slot off) bs := rfl
@[simp] theorem State.setFlash_flashSeq (s : State) (slot off : Nat) (bs : List Byte) : (s.setFlash slot off bs).flashSeq = s.flashSeq := rfl
@[simp] theorem State.setFlash_sergeSeq (s : State) (slot off : Nat) (bs : List Byte) : (s.setFlash slot off bs).sergeSeq = s.sergeSeq := rfl
@[simp] theorem State.setFlash_unitEpochs (s : State) (slot off : Nat) (bs : List Byte) : (s.setFlash slot off bs).unitEpochs = s.unitEpochs := rfl
@[simp] theorem State.setFlash_fromFence (s : State) (slot off : Nat) (bs : List Byte) : (s.setFlash slot off bs).fromFence = s.fromFence := rfl
@[simp] theorem State.setFlash_returned (s : State) (slot off : Nat) (bs : List Byte) : (s.setFlash slot off bs).returned = s.returned := rfl
@[simp] theorem State.setFlash_gh (s : State) (slot off : Nat) (bs : List Byte) : (s.setFlash slot off bs).gh = s.gh := rfl
@[simp] theorem State.setFlash_fw (s : State) (slot off : Nat) (bs : List Byte) : (s.setFlash slot off bs).fw = s.fw := rfl
@[simp] theorem State.setFlash_rst (s : State) (slot off : Nat) (bs : List Byte) : (s.setFlash slot off bs).rst = s.rst := rfl
@[simp] theorem State.setFlash_pwr (s : State) (slot off : Nat) (bs : List Byte) : (s.setFlash slot off bs).pwr = s.pwr := rfl
@[simp] theorem State.setFlash_banksOff (s : State) (slot off : Nat) (bs : List Byte) : (s.setFlash slot off bs).banksOff = s.banksOff := rfl
@[simp] theorem State.setFlash_hubOff (s : State) (slot off : Nat) (bs : List Byte) : (s.setFlash slot off bs).hubOff = s.hubOff := rfl
@[simp] theorem State.setFlash_switchOpen (s : State) (slot off : Nat) (bs : List Byte) : (s.setFlash slot off bs).switchOpen = s.switchOpen := rfl
@[simp] theorem State.setFlash_switchOver (s : State) (slot off : Nat) (bs : List Byte) : (s.setFlash slot off bs).switchOver = s.switchOver := rfl
@[simp] theorem State.setFlash_dramLost (s : State) (slot off : Nat) (bs : List Byte) : (s.setFlash slot off bs).dramLost = s.dramLost := rfl
@[simp] theorem State.setFlash_meter (s : State) (slot off : Nat) (bs : List Byte) : (s.setFlash slot off bs).meter = s.meter := rfl
@[simp] theorem State.setFlash_meterView (s : State) (slot off : Nat) (bs : List Byte) : (s.setFlash slot off bs).meterView = s.meterView := rfl
@[simp] theorem State.setFlash_notices (s : State) (slot off : Nat) (bs : List Byte) : (s.setFlash slot off bs).notices = s.notices := rfl
@[simp] theorem State.setFlash_userCal0 (s : State) (slot off : Nat) (bs : List Byte) : (s.setFlash slot off bs).userCal0 = s.userCal0 := rfl
@[simp] theorem State.setFlash_userCal1 (s : State) (slot off : Nat) (bs : List Byte) : (s.setFlash slot off bs).userCal1 = s.userCal1 := rfl
@[simp] theorem State.setFlash_out (s : State) (slot off : Nat) (bs : List Byte) : (s.setFlash slot off bs).out = s.out := rfl

@[simp] theorem State.setMeter_pending (s : State) (m : Meter) : (s.setMeter m).pending = s.pending := rfl
@[simp] theorem State.setMeter_freeCounter (s : State) (m : Meter) : (s.setMeter m).freeCounter = s.freeCounter := rfl
@[simp] theorem State.setMeter_cores (s : State) (m : Meter) : (s.setMeter m).cores = s.cores := rfl
@[simp] theorem State.setMeter_parts (s : State) (m : Meter) : (s.setMeter m).parts = s.parts := rfl
@[simp] theorem State.setMeter_err (s : State) (m : Meter) : (s.setMeter m).err = s.err := rfl
@[simp] theorem State.setMeter_mod (s : State) (m : Meter) : (s.setMeter m).mod = s.mod := rfl
@[simp] theorem State.setMeter_hostWait (s : State) (m : Meter) : (s.setMeter m).hostWait = s.hostWait := rfl
@[simp] theorem State.setMeter_msixTable (s : State) (m : Meter) : (s.setMeter m).msixTable = s.msixTable := rfl
@[simp] theorem State.setMeter_msixMask (s : State) (m : Meter) : (s.setMeter m).msixMask = s.msixMask := rfl
@[simp] theorem State.setMeter_msixPend (s : State) (m : Meter) : (s.setMeter m).msixPend = s.msixPend := rfl
@[simp] theorem State.setMeter_windows (s : State) (m : Meter) : (s.setMeter m).windows = s.windows := rfl
@[simp] theorem State.setMeter_ctxs (s : State) (m : Meter) : (s.setMeter m).ctxs = s.ctxs := rfl
@[simp] theorem State.setMeter_txq (s : State) (m : Meter) : (s.setMeter m).txq = s.txq := rfl
@[simp] theorem State.setMeter_rx (s : State) (m : Meter) : (s.setMeter m).rx = s.rx := rfl
@[simp] theorem State.setMeter_linkDies (s : State) (m : Meter) : (s.setMeter m).linkDies = s.linkDies := rfl
@[simp] theorem State.setMeter_ports (s : State) (m : Meter) : (s.setMeter m).ports = s.ports := rfl
@[simp] theorem State.setMeter_gates (s : State) (m : Meter) : (s.setMeter m).gates = s.gates := rfl
@[simp] theorem State.setMeter_amaps (s : State) (m : Meter) : (s.setMeter m).amaps = s.amaps := rfl
@[simp] theorem State.setMeter_frames (s : State) (m : Meter) : (s.setMeter m).frames = s.frames := rfl
@[simp] theorem State.setMeter_channels (s : State) (m : Meter) : (s.setMeter m).channels = s.channels := rfl
@[simp] theorem State.setMeter_dram (s : State) (m : Meter) : (s.setMeter m).dram = s.dram := rfl
@[simp] theorem State.setMeter_far (s : State) (m : Meter) : (s.setMeter m).far = s.far := rfl
@[simp] theorem State.setMeter_cxl (s : State) (m : Meter) : (s.setMeter m).cxl = s.cxl := rfl
@[simp] theorem State.setMeter_flash (s : State) (m : Meter) : (s.setMeter m).flash = s.flash := rfl
@[simp] theorem State.setMeter_flashSeq (s : State) (m : Meter) : (s.setMeter m).flashSeq = s.flashSeq := rfl
@[simp] theorem State.setMeter_sergeSeq (s : State) (m : Meter) : (s.setMeter m).sergeSeq = s.sergeSeq := rfl
@[simp] theorem State.setMeter_unitEpochs (s : State) (m : Meter) : (s.setMeter m).unitEpochs = s.unitEpochs := rfl
@[simp] theorem State.setMeter_fromFence (s : State) (m : Meter) : (s.setMeter m).fromFence = s.fromFence := rfl
@[simp] theorem State.setMeter_returned (s : State) (m : Meter) : (s.setMeter m).returned = s.returned := rfl
@[simp] theorem State.setMeter_gh (s : State) (m : Meter) : (s.setMeter m).gh = s.gh := rfl
@[simp] theorem State.setMeter_fw (s : State) (m : Meter) : (s.setMeter m).fw = s.fw := rfl
@[simp] theorem State.setMeter_rst (s : State) (m : Meter) : (s.setMeter m).rst = s.rst := rfl
@[simp] theorem State.setMeter_pwr (s : State) (m : Meter) : (s.setMeter m).pwr = s.pwr := rfl
@[simp] theorem State.setMeter_banksOff (s : State) (m : Meter) : (s.setMeter m).banksOff = s.banksOff := rfl
@[simp] theorem State.setMeter_hubOff (s : State) (m : Meter) : (s.setMeter m).hubOff = s.hubOff := rfl
@[simp] theorem State.setMeter_switchOpen (s : State) (m : Meter) : (s.setMeter m).switchOpen = s.switchOpen := rfl
@[simp] theorem State.setMeter_switchOver (s : State) (m : Meter) : (s.setMeter m).switchOver = s.switchOver := rfl
@[simp] theorem State.setMeter_dramLost (s : State) (m : Meter) : (s.setMeter m).dramLost = s.dramLost := rfl
@[simp] theorem State.setMeter_meter (s : State) (m : Meter) : (s.setMeter m).meter = m := rfl
@[simp] theorem State.setMeter_meterView (s : State) (m : Meter) : (s.setMeter m).meterView = s.meterView := rfl
@[simp] theorem State.setMeter_notices (s : State) (m : Meter) : (s.setMeter m).notices = s.notices := rfl
@[simp] theorem State.setMeter_userCal0 (s : State) (m : Meter) : (s.setMeter m).userCal0 = s.userCal0 := rfl
@[simp] theorem State.setMeter_userCal1 (s : State) (m : Meter) : (s.setMeter m).userCal1 = s.userCal1 := rfl
@[simp] theorem State.setMeter_out (s : State) (m : Meter) : (s.setMeter m).out = s.out := rfl

@[simp] theorem State.setPwr_pending (s : State) (x : Power) : (s.setPwr x).pending = s.pending := rfl
@[simp] theorem State.setPwr_freeCounter (s : State) (x : Power) : (s.setPwr x).freeCounter = s.freeCounter := rfl
@[simp] theorem State.setPwr_cores (s : State) (x : Power) : (s.setPwr x).cores = s.cores := rfl
@[simp] theorem State.setPwr_parts (s : State) (x : Power) : (s.setPwr x).parts = s.parts := rfl
@[simp] theorem State.setPwr_err (s : State) (x : Power) : (s.setPwr x).err = s.err := rfl
@[simp] theorem State.setPwr_mod (s : State) (x : Power) : (s.setPwr x).mod = s.mod := rfl
@[simp] theorem State.setPwr_hostWait (s : State) (x : Power) : (s.setPwr x).hostWait = s.hostWait := rfl
@[simp] theorem State.setPwr_msixTable (s : State) (x : Power) : (s.setPwr x).msixTable = s.msixTable := rfl
@[simp] theorem State.setPwr_msixMask (s : State) (x : Power) : (s.setPwr x).msixMask = s.msixMask := rfl
@[simp] theorem State.setPwr_msixPend (s : State) (x : Power) : (s.setPwr x).msixPend = s.msixPend := rfl
@[simp] theorem State.setPwr_windows (s : State) (x : Power) : (s.setPwr x).windows = s.windows := rfl
@[simp] theorem State.setPwr_ctxs (s : State) (x : Power) : (s.setPwr x).ctxs = s.ctxs := rfl
@[simp] theorem State.setPwr_txq (s : State) (x : Power) : (s.setPwr x).txq = s.txq := rfl
@[simp] theorem State.setPwr_rx (s : State) (x : Power) : (s.setPwr x).rx = s.rx := rfl
@[simp] theorem State.setPwr_linkDies (s : State) (x : Power) : (s.setPwr x).linkDies = s.linkDies := rfl
@[simp] theorem State.setPwr_ports (s : State) (x : Power) : (s.setPwr x).ports = s.ports := rfl
@[simp] theorem State.setPwr_gates (s : State) (x : Power) : (s.setPwr x).gates = s.gates := rfl
@[simp] theorem State.setPwr_amaps (s : State) (x : Power) : (s.setPwr x).amaps = s.amaps := rfl
@[simp] theorem State.setPwr_frames (s : State) (x : Power) : (s.setPwr x).frames = s.frames := rfl
@[simp] theorem State.setPwr_channels (s : State) (x : Power) : (s.setPwr x).channels = s.channels := rfl
@[simp] theorem State.setPwr_dram (s : State) (x : Power) : (s.setPwr x).dram = s.dram := rfl
@[simp] theorem State.setPwr_far (s : State) (x : Power) : (s.setPwr x).far = s.far := rfl
@[simp] theorem State.setPwr_cxl (s : State) (x : Power) : (s.setPwr x).cxl = s.cxl := rfl
@[simp] theorem State.setPwr_flash (s : State) (x : Power) : (s.setPwr x).flash = s.flash := rfl
@[simp] theorem State.setPwr_flashSeq (s : State) (x : Power) : (s.setPwr x).flashSeq = s.flashSeq := rfl
@[simp] theorem State.setPwr_sergeSeq (s : State) (x : Power) : (s.setPwr x).sergeSeq = s.sergeSeq := rfl
@[simp] theorem State.setPwr_unitEpochs (s : State) (x : Power) : (s.setPwr x).unitEpochs = s.unitEpochs := rfl
@[simp] theorem State.setPwr_fromFence (s : State) (x : Power) : (s.setPwr x).fromFence = s.fromFence := rfl
@[simp] theorem State.setPwr_returned (s : State) (x : Power) : (s.setPwr x).returned = s.returned := rfl
@[simp] theorem State.setPwr_gh (s : State) (x : Power) : (s.setPwr x).gh = s.gh := rfl
@[simp] theorem State.setPwr_fw (s : State) (x : Power) : (s.setPwr x).fw = s.fw := rfl
@[simp] theorem State.setPwr_rst (s : State) (x : Power) : (s.setPwr x).rst = s.rst := rfl
@[simp] theorem State.setPwr_pwr (s : State) (x : Power) : (s.setPwr x).pwr = x := rfl
@[simp] theorem State.setPwr_banksOff (s : State) (x : Power) : (s.setPwr x).banksOff = s.banksOff := rfl
@[simp] theorem State.setPwr_hubOff (s : State) (x : Power) : (s.setPwr x).hubOff = s.hubOff := rfl
@[simp] theorem State.setPwr_switchOpen (s : State) (x : Power) : (s.setPwr x).switchOpen = s.switchOpen := rfl
@[simp] theorem State.setPwr_switchOver (s : State) (x : Power) : (s.setPwr x).switchOver = s.switchOver := rfl
@[simp] theorem State.setPwr_dramLost (s : State) (x : Power) : (s.setPwr x).dramLost = s.dramLost := rfl
@[simp] theorem State.setPwr_meter (s : State) (x : Power) : (s.setPwr x).meter = s.meter := rfl
@[simp] theorem State.setPwr_meterView (s : State) (x : Power) : (s.setPwr x).meterView = s.meterView := rfl
@[simp] theorem State.setPwr_notices (s : State) (x : Power) : (s.setPwr x).notices = s.notices := rfl
@[simp] theorem State.setPwr_userCal0 (s : State) (x : Power) : (s.setPwr x).userCal0 = s.userCal0 := rfl
@[simp] theorem State.setPwr_userCal1 (s : State) (x : Power) : (s.setPwr x).userCal1 = s.userCal1 := rfl
@[simp] theorem State.setPwr_out (s : State) (x : Power) : (s.setPwr x).out = s.out := rfl

@[simp] theorem State.setRst_pending (s : State) (x : RstRegs) : (s.setRst x).pending = s.pending := rfl
@[simp] theorem State.setRst_freeCounter (s : State) (x : RstRegs) : (s.setRst x).freeCounter = s.freeCounter := rfl
@[simp] theorem State.setRst_cores (s : State) (x : RstRegs) : (s.setRst x).cores = s.cores := rfl
@[simp] theorem State.setRst_parts (s : State) (x : RstRegs) : (s.setRst x).parts = s.parts := rfl
@[simp] theorem State.setRst_err (s : State) (x : RstRegs) : (s.setRst x).err = s.err := rfl
@[simp] theorem State.setRst_mod (s : State) (x : RstRegs) : (s.setRst x).mod = s.mod := rfl
@[simp] theorem State.setRst_hostWait (s : State) (x : RstRegs) : (s.setRst x).hostWait = s.hostWait := rfl
@[simp] theorem State.setRst_msixTable (s : State) (x : RstRegs) : (s.setRst x).msixTable = s.msixTable := rfl
@[simp] theorem State.setRst_msixMask (s : State) (x : RstRegs) : (s.setRst x).msixMask = s.msixMask := rfl
@[simp] theorem State.setRst_msixPend (s : State) (x : RstRegs) : (s.setRst x).msixPend = s.msixPend := rfl
@[simp] theorem State.setRst_windows (s : State) (x : RstRegs) : (s.setRst x).windows = s.windows := rfl
@[simp] theorem State.setRst_ctxs (s : State) (x : RstRegs) : (s.setRst x).ctxs = s.ctxs := rfl
@[simp] theorem State.setRst_txq (s : State) (x : RstRegs) : (s.setRst x).txq = s.txq := rfl
@[simp] theorem State.setRst_rx (s : State) (x : RstRegs) : (s.setRst x).rx = s.rx := rfl
@[simp] theorem State.setRst_linkDies (s : State) (x : RstRegs) : (s.setRst x).linkDies = s.linkDies := rfl
@[simp] theorem State.setRst_ports (s : State) (x : RstRegs) : (s.setRst x).ports = s.ports := rfl
@[simp] theorem State.setRst_gates (s : State) (x : RstRegs) : (s.setRst x).gates = s.gates := rfl
@[simp] theorem State.setRst_amaps (s : State) (x : RstRegs) : (s.setRst x).amaps = s.amaps := rfl
@[simp] theorem State.setRst_frames (s : State) (x : RstRegs) : (s.setRst x).frames = s.frames := rfl
@[simp] theorem State.setRst_channels (s : State) (x : RstRegs) : (s.setRst x).channels = s.channels := rfl
@[simp] theorem State.setRst_dram (s : State) (x : RstRegs) : (s.setRst x).dram = s.dram := rfl
@[simp] theorem State.setRst_far (s : State) (x : RstRegs) : (s.setRst x).far = s.far := rfl
@[simp] theorem State.setRst_cxl (s : State) (x : RstRegs) : (s.setRst x).cxl = s.cxl := rfl
@[simp] theorem State.setRst_flash (s : State) (x : RstRegs) : (s.setRst x).flash = s.flash := rfl
@[simp] theorem State.setRst_flashSeq (s : State) (x : RstRegs) : (s.setRst x).flashSeq = s.flashSeq := rfl
@[simp] theorem State.setRst_sergeSeq (s : State) (x : RstRegs) : (s.setRst x).sergeSeq = s.sergeSeq := rfl
@[simp] theorem State.setRst_unitEpochs (s : State) (x : RstRegs) : (s.setRst x).unitEpochs = s.unitEpochs := rfl
@[simp] theorem State.setRst_fromFence (s : State) (x : RstRegs) : (s.setRst x).fromFence = s.fromFence := rfl
@[simp] theorem State.setRst_returned (s : State) (x : RstRegs) : (s.setRst x).returned = s.returned := rfl
@[simp] theorem State.setRst_gh (s : State) (x : RstRegs) : (s.setRst x).gh = s.gh := rfl
@[simp] theorem State.setRst_fw (s : State) (x : RstRegs) : (s.setRst x).fw = s.fw := rfl
@[simp] theorem State.setRst_rst (s : State) (x : RstRegs) : (s.setRst x).rst = x := rfl
@[simp] theorem State.setRst_pwr (s : State) (x : RstRegs) : (s.setRst x).pwr = s.pwr := rfl
@[simp] theorem State.setRst_banksOff (s : State) (x : RstRegs) : (s.setRst x).banksOff = s.banksOff := rfl
@[simp] theorem State.setRst_hubOff (s : State) (x : RstRegs) : (s.setRst x).hubOff = s.hubOff := rfl
@[simp] theorem State.setRst_switchOpen (s : State) (x : RstRegs) : (s.setRst x).switchOpen = s.switchOpen := rfl
@[simp] theorem State.setRst_switchOver (s : State) (x : RstRegs) : (s.setRst x).switchOver = s.switchOver := rfl
@[simp] theorem State.setRst_dramLost (s : State) (x : RstRegs) : (s.setRst x).dramLost = s.dramLost := rfl
@[simp] theorem State.setRst_meter (s : State) (x : RstRegs) : (s.setRst x).meter = s.meter := rfl
@[simp] theorem State.setRst_meterView (s : State) (x : RstRegs) : (s.setRst x).meterView = s.meterView := rfl
@[simp] theorem State.setRst_notices (s : State) (x : RstRegs) : (s.setRst x).notices = s.notices := rfl
@[simp] theorem State.setRst_userCal0 (s : State) (x : RstRegs) : (s.setRst x).userCal0 = s.userCal0 := rfl
@[simp] theorem State.setRst_userCal1 (s : State) (x : RstRegs) : (s.setRst x).userCal1 = s.userCal1 := rfl
@[simp] theorem State.setRst_out (s : State) (x : RstRegs) : (s.setRst x).out = s.out := rfl

@[simp] theorem State.setFw_pending (s : State) (f : Firmware) : (s.setFw f).pending = s.pending := rfl
@[simp] theorem State.setFw_freeCounter (s : State) (f : Firmware) : (s.setFw f).freeCounter = s.freeCounter := rfl
@[simp] theorem State.setFw_cores (s : State) (f : Firmware) : (s.setFw f).cores = s.cores := rfl
@[simp] theorem State.setFw_parts (s : State) (f : Firmware) : (s.setFw f).parts = s.parts := rfl
@[simp] theorem State.setFw_err (s : State) (f : Firmware) : (s.setFw f).err = s.err := rfl
@[simp] theorem State.setFw_mod (s : State) (f : Firmware) : (s.setFw f).mod = s.mod := rfl
@[simp] theorem State.setFw_hostWait (s : State) (f : Firmware) : (s.setFw f).hostWait = s.hostWait := rfl
@[simp] theorem State.setFw_msixTable (s : State) (f : Firmware) : (s.setFw f).msixTable = s.msixTable := rfl
@[simp] theorem State.setFw_msixMask (s : State) (f : Firmware) : (s.setFw f).msixMask = s.msixMask := rfl
@[simp] theorem State.setFw_msixPend (s : State) (f : Firmware) : (s.setFw f).msixPend = s.msixPend := rfl
@[simp] theorem State.setFw_windows (s : State) (f : Firmware) : (s.setFw f).windows = s.windows := rfl
@[simp] theorem State.setFw_ctxs (s : State) (f : Firmware) : (s.setFw f).ctxs = s.ctxs := rfl
@[simp] theorem State.setFw_txq (s : State) (f : Firmware) : (s.setFw f).txq = s.txq := rfl
@[simp] theorem State.setFw_rx (s : State) (f : Firmware) : (s.setFw f).rx = s.rx := rfl
@[simp] theorem State.setFw_linkDies (s : State) (f : Firmware) : (s.setFw f).linkDies = s.linkDies := rfl
@[simp] theorem State.setFw_ports (s : State) (f : Firmware) : (s.setFw f).ports = s.ports := rfl
@[simp] theorem State.setFw_gates (s : State) (f : Firmware) : (s.setFw f).gates = s.gates := rfl
@[simp] theorem State.setFw_amaps (s : State) (f : Firmware) : (s.setFw f).amaps = s.amaps := rfl
@[simp] theorem State.setFw_frames (s : State) (f : Firmware) : (s.setFw f).frames = s.frames := rfl
@[simp] theorem State.setFw_channels (s : State) (f : Firmware) : (s.setFw f).channels = s.channels := rfl
@[simp] theorem State.setFw_dram (s : State) (f : Firmware) : (s.setFw f).dram = s.dram := rfl
@[simp] theorem State.setFw_far (s : State) (f : Firmware) : (s.setFw f).far = s.far := rfl
@[simp] theorem State.setFw_cxl (s : State) (f : Firmware) : (s.setFw f).cxl = s.cxl := rfl
@[simp] theorem State.setFw_flash (s : State) (f : Firmware) : (s.setFw f).flash = s.flash := rfl
@[simp] theorem State.setFw_flashSeq (s : State) (f : Firmware) : (s.setFw f).flashSeq = s.flashSeq := rfl
@[simp] theorem State.setFw_sergeSeq (s : State) (f : Firmware) : (s.setFw f).sergeSeq = s.sergeSeq := rfl
@[simp] theorem State.setFw_unitEpochs (s : State) (f : Firmware) : (s.setFw f).unitEpochs = s.unitEpochs := rfl
@[simp] theorem State.setFw_fromFence (s : State) (f : Firmware) : (s.setFw f).fromFence = s.fromFence := rfl
@[simp] theorem State.setFw_returned (s : State) (f : Firmware) : (s.setFw f).returned = s.returned := rfl
@[simp] theorem State.setFw_gh (s : State) (f : Firmware) : (s.setFw f).gh = s.gh := rfl
@[simp] theorem State.setFw_fw (s : State) (f : Firmware) : (s.setFw f).fw = f := rfl
@[simp] theorem State.setFw_rst (s : State) (f : Firmware) : (s.setFw f).rst = s.rst := rfl
@[simp] theorem State.setFw_pwr (s : State) (f : Firmware) : (s.setFw f).pwr = s.pwr := rfl
@[simp] theorem State.setFw_banksOff (s : State) (f : Firmware) : (s.setFw f).banksOff = s.banksOff := rfl
@[simp] theorem State.setFw_hubOff (s : State) (f : Firmware) : (s.setFw f).hubOff = s.hubOff := rfl
@[simp] theorem State.setFw_switchOpen (s : State) (f : Firmware) : (s.setFw f).switchOpen = s.switchOpen := rfl
@[simp] theorem State.setFw_switchOver (s : State) (f : Firmware) : (s.setFw f).switchOver = s.switchOver := rfl
@[simp] theorem State.setFw_dramLost (s : State) (f : Firmware) : (s.setFw f).dramLost = s.dramLost := rfl
@[simp] theorem State.setFw_meter (s : State) (f : Firmware) : (s.setFw f).meter = s.meter := rfl
@[simp] theorem State.setFw_meterView (s : State) (f : Firmware) : (s.setFw f).meterView = s.meterView := rfl
@[simp] theorem State.setFw_notices (s : State) (f : Firmware) : (s.setFw f).notices = s.notices := rfl
@[simp] theorem State.setFw_userCal0 (s : State) (f : Firmware) : (s.setFw f).userCal0 = s.userCal0 := rfl
@[simp] theorem State.setFw_userCal1 (s : State) (f : Firmware) : (s.setFw f).userCal1 = s.userCal1 := rfl
@[simp] theorem State.setFw_out (s : State) (f : Firmware) : (s.setFw f).out = s.out := rfl

@[simp] theorem State.drawn_pending (s : State) : s.drawn.pending = s.pending := rfl
@[simp] theorem State.drawn_freeCounter (s : State) : s.drawn.freeCounter = s.freeCounter + 1 := rfl
@[simp] theorem State.drawn_cores (s : State) : s.drawn.cores = s.cores := rfl
@[simp] theorem State.drawn_parts (s : State) : s.drawn.parts = s.parts := rfl
@[simp] theorem State.drawn_err (s : State) : s.drawn.err = s.err := rfl
@[simp] theorem State.drawn_mod (s : State) : s.drawn.mod = s.mod := rfl
@[simp] theorem State.drawn_hostWait (s : State) : s.drawn.hostWait = s.hostWait := rfl
@[simp] theorem State.drawn_msixTable (s : State) : s.drawn.msixTable = s.msixTable := rfl
@[simp] theorem State.drawn_msixMask (s : State) : s.drawn.msixMask = s.msixMask := rfl
@[simp] theorem State.drawn_msixPend (s : State) : s.drawn.msixPend = s.msixPend := rfl
@[simp] theorem State.drawn_windows (s : State) : s.drawn.windows = s.windows := rfl
@[simp] theorem State.drawn_ctxs (s : State) : s.drawn.ctxs = s.ctxs := rfl
@[simp] theorem State.drawn_txq (s : State) : s.drawn.txq = s.txq := rfl
@[simp] theorem State.drawn_rx (s : State) : s.drawn.rx = s.rx := rfl
@[simp] theorem State.drawn_linkDies (s : State) : s.drawn.linkDies = s.linkDies := rfl
@[simp] theorem State.drawn_ports (s : State) : s.drawn.ports = s.ports := rfl
@[simp] theorem State.drawn_gates (s : State) : s.drawn.gates = s.gates := rfl
@[simp] theorem State.drawn_amaps (s : State) : s.drawn.amaps = s.amaps := rfl
@[simp] theorem State.drawn_frames (s : State) : s.drawn.frames = s.frames := rfl
@[simp] theorem State.drawn_channels (s : State) : s.drawn.channels = s.channels := rfl
@[simp] theorem State.drawn_dram (s : State) : s.drawn.dram = s.dram := rfl
@[simp] theorem State.drawn_far (s : State) : s.drawn.far = s.far := rfl
@[simp] theorem State.drawn_cxl (s : State) : s.drawn.cxl = s.cxl := rfl
@[simp] theorem State.drawn_flash (s : State) : s.drawn.flash = s.flash := rfl
@[simp] theorem State.drawn_flashSeq (s : State) : s.drawn.flashSeq = s.flashSeq := rfl
@[simp] theorem State.drawn_sergeSeq (s : State) : s.drawn.sergeSeq = s.sergeSeq := rfl
@[simp] theorem State.drawn_unitEpochs (s : State) : s.drawn.unitEpochs = s.unitEpochs := rfl
@[simp] theorem State.drawn_fromFence (s : State) : s.drawn.fromFence = s.fromFence := rfl
@[simp] theorem State.drawn_returned (s : State) : s.drawn.returned = s.returned := rfl
@[simp] theorem State.drawn_gh (s : State) : s.drawn.gh = s.gh := rfl
@[simp] theorem State.drawn_fw (s : State) : s.drawn.fw = s.fw := rfl
@[simp] theorem State.drawn_rst (s : State) : s.drawn.rst = s.rst := rfl
@[simp] theorem State.drawn_pwr (s : State) : s.drawn.pwr = s.pwr := rfl
@[simp] theorem State.drawn_banksOff (s : State) : s.drawn.banksOff = s.banksOff := rfl
@[simp] theorem State.drawn_hubOff (s : State) : s.drawn.hubOff = s.hubOff := rfl
@[simp] theorem State.drawn_switchOpen (s : State) : s.drawn.switchOpen = s.switchOpen := rfl
@[simp] theorem State.drawn_switchOver (s : State) : s.drawn.switchOver = s.switchOver := rfl
@[simp] theorem State.drawn_dramLost (s : State) : s.drawn.dramLost = s.dramLost := rfl
@[simp] theorem State.drawn_meter (s : State) : s.drawn.meter = s.meter := rfl
@[simp] theorem State.drawn_meterView (s : State) : s.drawn.meterView = s.meterView := rfl
@[simp] theorem State.drawn_notices (s : State) : s.drawn.notices = s.notices := rfl
@[simp] theorem State.drawn_userCal0 (s : State) : s.drawn.userCal0 = s.userCal0 := rfl
@[simp] theorem State.drawn_userCal1 (s : State) : s.drawn.userCal1 = s.userCal1 := rfl
@[simp] theorem State.drawn_out (s : State) : s.drawn.out = s.out := rfl

@[simp] theorem State.dropRx_pending (s : State) (i : Nat) : (s.dropRx i).pending = s.pending := rfl
@[simp] theorem State.dropRx_freeCounter (s : State) (i : Nat) : (s.dropRx i).freeCounter = s.freeCounter := rfl
@[simp] theorem State.dropRx_cores (s : State) (i : Nat) : (s.dropRx i).cores = s.cores := rfl
@[simp] theorem State.dropRx_parts (s : State) (i : Nat) : (s.dropRx i).parts = s.parts := rfl
@[simp] theorem State.dropRx_err (s : State) (i : Nat) : (s.dropRx i).err = s.err := rfl
@[simp] theorem State.dropRx_mod (s : State) (i : Nat) : (s.dropRx i).mod = s.mod := rfl
@[simp] theorem State.dropRx_hostWait (s : State) (i : Nat) : (s.dropRx i).hostWait = s.hostWait := rfl
@[simp] theorem State.dropRx_msixTable (s : State) (i : Nat) : (s.dropRx i).msixTable = s.msixTable := rfl
@[simp] theorem State.dropRx_msixMask (s : State) (i : Nat) : (s.dropRx i).msixMask = s.msixMask := rfl
@[simp] theorem State.dropRx_msixPend (s : State) (i : Nat) : (s.dropRx i).msixPend = s.msixPend := rfl
@[simp] theorem State.dropRx_windows (s : State) (i : Nat) : (s.dropRx i).windows = s.windows := rfl
@[simp] theorem State.dropRx_ctxs (s : State) (i : Nat) : (s.dropRx i).ctxs = s.ctxs := rfl
@[simp] theorem State.dropRx_txq (s : State) (i : Nat) : (s.dropRx i).txq = s.txq := rfl
@[simp] theorem State.dropRx_rx (s : State) (i : Nat) : (s.dropRx i).rx = s.rx.eraseIdx i := rfl
@[simp] theorem State.dropRx_linkDies (s : State) (i : Nat) : (s.dropRx i).linkDies = s.linkDies := rfl
@[simp] theorem State.dropRx_ports (s : State) (i : Nat) : (s.dropRx i).ports = s.ports := rfl
@[simp] theorem State.dropRx_gates (s : State) (i : Nat) : (s.dropRx i).gates = s.gates := rfl
@[simp] theorem State.dropRx_amaps (s : State) (i : Nat) : (s.dropRx i).amaps = s.amaps := rfl
@[simp] theorem State.dropRx_frames (s : State) (i : Nat) : (s.dropRx i).frames = s.frames := rfl
@[simp] theorem State.dropRx_channels (s : State) (i : Nat) : (s.dropRx i).channels = s.channels := rfl
@[simp] theorem State.dropRx_dram (s : State) (i : Nat) : (s.dropRx i).dram = s.dram := rfl
@[simp] theorem State.dropRx_far (s : State) (i : Nat) : (s.dropRx i).far = s.far := rfl
@[simp] theorem State.dropRx_cxl (s : State) (i : Nat) : (s.dropRx i).cxl = s.cxl := rfl
@[simp] theorem State.dropRx_flash (s : State) (i : Nat) : (s.dropRx i).flash = s.flash := rfl
@[simp] theorem State.dropRx_flashSeq (s : State) (i : Nat) : (s.dropRx i).flashSeq = s.flashSeq := rfl
@[simp] theorem State.dropRx_sergeSeq (s : State) (i : Nat) : (s.dropRx i).sergeSeq = s.sergeSeq := rfl
@[simp] theorem State.dropRx_unitEpochs (s : State) (i : Nat) : (s.dropRx i).unitEpochs = s.unitEpochs := rfl
@[simp] theorem State.dropRx_fromFence (s : State) (i : Nat) : (s.dropRx i).fromFence = s.fromFence := rfl
@[simp] theorem State.dropRx_returned (s : State) (i : Nat) : (s.dropRx i).returned = s.returned := rfl
@[simp] theorem State.dropRx_gh (s : State) (i : Nat) : (s.dropRx i).gh = s.gh := rfl
@[simp] theorem State.dropRx_fw (s : State) (i : Nat) : (s.dropRx i).fw = s.fw := rfl
@[simp] theorem State.dropRx_rst (s : State) (i : Nat) : (s.dropRx i).rst = s.rst := rfl
@[simp] theorem State.dropRx_pwr (s : State) (i : Nat) : (s.dropRx i).pwr = s.pwr := rfl
@[simp] theorem State.dropRx_banksOff (s : State) (i : Nat) : (s.dropRx i).banksOff = s.banksOff := rfl
@[simp] theorem State.dropRx_hubOff (s : State) (i : Nat) : (s.dropRx i).hubOff = s.hubOff := rfl
@[simp] theorem State.dropRx_switchOpen (s : State) (i : Nat) : (s.dropRx i).switchOpen = s.switchOpen := rfl
@[simp] theorem State.dropRx_switchOver (s : State) (i : Nat) : (s.dropRx i).switchOver = s.switchOver := rfl
@[simp] theorem State.dropRx_dramLost (s : State) (i : Nat) : (s.dropRx i).dramLost = s.dramLost := rfl
@[simp] theorem State.dropRx_meter (s : State) (i : Nat) : (s.dropRx i).meter = s.meter := rfl
@[simp] theorem State.dropRx_meterView (s : State) (i : Nat) : (s.dropRx i).meterView = s.meterView := rfl
@[simp] theorem State.dropRx_notices (s : State) (i : Nat) : (s.dropRx i).notices = s.notices := rfl
@[simp] theorem State.dropRx_userCal0 (s : State) (i : Nat) : (s.dropRx i).userCal0 = s.userCal0 := rfl
@[simp] theorem State.dropRx_userCal1 (s : State) (i : Nat) : (s.dropRx i).userCal1 = s.userCal1 := rfl
@[simp] theorem State.dropRx_out (s : State) (i : Nat) : (s.dropRx i).out = s.out := rfl

/-- Reading a Core after writing one. -/
@[simp] theorem State.core_setCore (s : State) (c j : Nat) (k : Core) :
    (s.setCore c k).core j = if j = c then k else s.core j := FMap.get_set _ _ _ _ _

/-- Reading a Part after writing one. -/
@[simp] theorem State.part_setPart (s : State) (p j : Nat) (k : Part) :
    (s.setPart p k).part j = if j = p then k else s.part j := FMap.get_set _ _ _ _ _

/-- Reading a Ctx after writing one. -/
@[simp] theorem State.ctx_setCtx (s : State) (k j : Nat) (x : Ctx) :
    (s.setCtx k x).ctx j = if j = k then x else s.ctx j := FMap.get_set _ _ _ _ _

/-- Reading a Channel after writing one. -/
@[simp] theorem State.chan_setChan (s : State) (k j : Nat) (c : Channel) :
    (s.setChan k c).chan j = if j = k then c else s.chan j := FMap.get_set _ _ _ _ _

/-- Reading a StoreWindow after writing one. -/
@[simp] theorem State.window_setWindow (s : State) (w j : Nat) (x : StoreWindow) :
    (s.setWindow w x).window j = if j = w then x else s.window j := FMap.get_set _ _ _ _ _

/-- Reading a LinkDie after writing one. -/
@[simp] theorem State.linkDie_setLinkDie (s : State) (d j : Nat) (x : LinkDie) :
    (s.setLinkDie d x).linkDie j = if j = d then x else s.linkDie j := FMap.get_set _ _ _ _ _

/-- Reading a Port after writing one. -/
@[simp] theorem State.port_setPort (s : State) (i j : Nat) (x : Port) :
    (s.setPort i x).port j = if j = i then x else s.port j := FMap.get_set _ _ _ _ _

/-- Reading a CxlPort after writing one. -/
@[simp] theorem State.cxlPort_setCxlPort (s : State) (i j : Nat) (x : CxlPort) :
    (s.setCxlPort i x).cxlPort j = if j = i then x else s.cxlPort j := FMap.get_set _ _ _ _ _

end Sys2Proof.Machine
end

