-- ==== Sys2Proof/WellFormed.lean ====
section
/-! DEFINITION. Well-formed commands: operands within what the rules allow and their types do not already say. -/

namespace Sys2Proof

open Sys2Proof.Machine

/-- Whether an access lies within one 64-byte line from an offset. -/
def memInLine (a : MemAct) (off : Nat) : Bool :=
  match a with
  | .read n => decide (0 < n) && decide (off % 64 + n ≤ 64)
  | .write bs => decide (0 < bs.length) && decide (off % 64 + bs.length ≤ 64)
  | .memside _ _ _ => true

/-- Whether an act is one the host can ask for. -/
def memByHost (a : MemAct) : Bool := match a with | .memside _ _ _ => false | _ => true

/-- Whether a command is one the rules describe. -/
def Instr.wf (i : Instr) : Bool :=
  match i with
  | .passIssue _ _ => true
  | .anchorCompute _ _ _ => true
  | .shadowLoad _ _ _ _ => true
  | .drainIssue _ _ => true
  | .drainComplete _ => true
  | .vectorIssue _ _ => true
  | .sramUe _ _ _ _ => true
  | .coreEnable _ _ => true
  | .coreHaltReq _ _ => true
  | .passBoundaryStop _ => true
  | .loopLengthLatch _ => true
  | .slotSpill _ _ => true
  | .slotReload _ _ => true
  | .addModeReload core _ source _ => decide (core ≠ source)
  | .boundaryGateClose _ _ => true
  | .tileArrive _ _ => true
  | .endOfStepMarker _ _ => true
  | .externalEventRelease _ _ _ => true
  | .creditReceive _ _ => true
  | .steerSwitch _ _ => true
  | .steerSelect _ _ => true
  | .steerMerge _ _ => true
  | .stallTimerExpire _ _ => true
  | .queueMoveBack _ _ => true
  | .stallSuspect _ _ _ => true
  | .stepStart _ _ => true
  | .stepEnd _ _ _ _ => true
  | .reportCompare _ => true
  | .variantChange _ => true
  | .strArm ctx addr => ctxExists ctx.val && (match addr with | some a => decide (a.toNat % 64 = 0) && decide (a ≠ 0) | none => true)
  | .descriptorActivate ctx => ctxExists ctx.val
  | .strEnable ctx => ctxExists ctx.val
  | .strDisableReq ctx _ => ctxExists ctx.val
  | .strResume ctx => ctxExists ctx.val
  | .endProgram ctx => ctxExists ctx.val
  | .loopb ctx => ctxExists ctx.val
  | .loope ctx => ctxExists ctx.val
  | .strStride ctx => ctxExists ctx.val
  | .strAdd ctx => ctxExists ctx.val
  | .emit ctx => ctxExists ctx.val
  | .strSkip ctx => ctxExists ctx.val
  | .plfetch ctx => ctxExists ctx.val
  | .bfetch ctx => ctxExists ctx.val
  | .twait ctx => ctxExists ctx.val
  | .mergeHoldExpire ctx => ctxExists ctx.val
  | .requestRetire ctx _ _ => ctxExists ctx.val
  | .requestTimeout ctx _ => ctxExists ctx.val
  | .streamFault ctx _ code _ => ctxExists ctx.val && decide (code.val ≠ 0)
  | .haltSettleDone x => ctxExists x.ctx.val
  | .settleTimeout ctx => ctxExists ctx.val
  | .saveAreaWritten ctx _ => ctxExists ctx.val
  | .ringPeriodEnd _ _ => true
  | .tensorShiftUpdate _ _ => true
  | .adamwUpdate _ _ => true
  | .reductionAdd _ => true
  | .redrain _ => true
  | .slotRelease _ _ => true
  | .memsideOp _ _ _ _ _ _ => true
  | .tileCloseReport _ => true
  | .segmentReceive _ _ => true
  | .noticeReceive _ _ => true
  | .rescaleReceive _ _ => true
  | .memberRemoval _ _ _ => true
  | .withdrawStep _ => true
  | .paramPartReceive _ _ => true
  | .channelRequest _ _ => true
  | .retryResend _ _ _ => true
  | .frameCopied _ _ _ => true
  | .frameTableWrite _ _ _ => true
  | .refreshSlot _ _ => true
  | .scrubSlot _ _ _ _ => true
  | .farFaultResolve ctx => ctxExists ctx.val
  | .farFillComplete _ _ _ host => decide (host.length ≤ 2097152)
  | .farEvict _ _ => true
  | .evictComplete _ => true
  | .cxlLinkDown _ => true
  | .flitSend _ => true
  | .flitReceive _ flit _ _ => decide (flit.heads.length ≤ 3) && decide (flit.data.length ≤ 2048) && flit.heads.all (fun h => decide (h.2 < 64))
  | .nakReceive _ => true
  | .replayTimeout _ => true
  | .signalDetect _ _ => true
  | .equalisationDone _ _ => true
  | .fecLockDone _ => true
  | .exchangeBlockReceive _ block _ => decide (block.cred.length = 5)
  | .trainingAttemptTimeout _ => true
  | .signalLoss _ => true
  | .linkRetrain _ _ => true
  | .packetSend _ => true
  | .packetReceive _ _ => true
  | .klpCredit _ _ => true
  | .unreachablePacket _ _ => true
  | .memberUnreachable _ => true
  | .epochAhead _ _ => true
  | .ldEpochWrite _ _ => true
  | .klpEnable _ _ => true
  | .klpRetrain _ => true
  | .klpCtrClr _ => true
  | .functionLevelReset _ => true
  | .bar2Access offset act _ => memInLine act offset.toNat && memByHost act
  | .hostMaxVersionWrite _ => true
  | .partCfgWrite _ => true
  | .layoutDone => true
  | .jobStart _ _ => true
  | .jobEnableComplete _ => true
  | .jobPause _ => true
  | .jobResume _ => true
  | .jobStop _ => true
  | .stopStepReached _ => true
  | .endStepWrite _ _ => true
  | .jobAbort _ => true
  | .abortComplete _ => true
  | .jobClear _ => true
  | .clearComplete _ => true
  | .epochWrite _ _ => true
  | .eventEnableWrite part value => part.isSome || decide (value.toNat < 16)
  | .swEnable _ => true
  | .swDisable _ _ _ => true
  | .sergeSegmentWrite _ => true
  | .persistAckWrite _ _ => true
  | .latTolWrite _ _ => true
  | .farQuotaWrite _ _ _ => true
  | .snapshotPoint _ => true
  | .snapOpen _ _ => true
  | .pageData _ _ => true
  | .snapManifest _ _ => true
  | .fetchData _ _ => true
  | .rideData _ _ => true
  | .rideDigest _ _ => true
  | .snapSeal _ _ => true
  | .snapCommitted _ _ => true
  | .snapDone _ _ => true
  | .snapAbort _ _ => true
  | .copyBudgetExpire _ _ => true
  | .snapFetch _ _ => true
  | .fetchEnd _ _ => true
  | .flashWriteComplete _ => true
  | .rejoin _ _ => true
  | .rejoinLate _ _ => true
  | .snapRestore _ _ _ _ => true
  | .restoreComplete _ => true
  | .powerOn _ => true
  | .brownOut _ => true
  | .mrstN _ => true
  | .watchdogExpire _ _ => true
  | .watchdogRestart _ => true
  | .rstSwRequest _ => true
  | .debugRequest _ => true
  | .clockFailure _ _ => true
  | .controlCoreLockup _ => true
  | .sourceRelease _ _ _ => true
  | .managementStart => true
  | .clockStart _ => true
  | .strapSample _ _ => true
  | .optionLoading _ _ => true
  | .hubStart => true
  | .configurationRead _ => true
  | .bringUp _ => true
  | .islandExit _ => true
  | .moduleReady _ _ => true
  | .recSnapAck => true
  | .bootGo _ => true
  | .writeSlot _ _ _ => true
  | .activateQuad _ => true
  | .fwuConfirm _ => true
  | .svnCommit _ => true
  | .mgmtWrite _ _ _ => true
  | .ownerClaim _ _ => true
  | .ownerTransfer _ _ => true
  | .revokeImage _ _ => true
  | .ownerRelease _ _ => true
  | .debugUnlock _ _ => true
  | .lifecycleToken _ _ => true
  | .attGo => true
  | .ginghamTest _ => true
  | .ginghamTestComplete _ _ => true
  | .cePoll _ => true
  | .suppressionWindowExpire _ => true
  | .ghReq _ _ _ => true
  | .ghClrCounts => true
  | .fenceAdd _ => true
  | .fenceRemove _ _ => true
  | .pstateEntryComplete _ => true
  | .wakeComplete _ => true
  | .bankPrechargeComplete _ => true
  | .thermalEvaluation _ _ _ => true
  | .coolantRead _ _ _ _ _ _ _ => true
  | .dieThermalTrip _ _ => true
  | .pwrCapWrite _ => true
  | .pwrCalGo _ _ _ _ => true
  | .meterSample _ _ _ _ => true
  | .meterBroadcast => true
  | .holdupCommit .. => true
  | .meterStart _ => true
  | .sealBroken => true
  | .getInfo _ => true
  | .meterRead _ _ => true
  | .readLog _ _ _ _ => true
  | .getCert _ => true
  | .frameGapTimeout => true
  | .meterRecordReceive _ _ => true
  | .meterStale _ => true
  | .registerWrite _ _ _ _ => true
  | .fwuSelect _ => true
  | .fetchResend _ => true
  | .meterError _ _ => true
  | .pldmRequest _ => true
  | .dieTripClear _ _ => true
  | .cxlLinkRetrain _ _ => true
  | .refclkReturn => true
  | .trstN _ => true

end Sys2Proof
end

