-- ==== Sys2Proof/Tests/Slice0.lean ====
section
/-! SUPPORT. Tests: ill-formed commands refused, worked examples of the spec, and for every statement with hypotheses
a state and operands that meet them together. -/

namespace Sys2Proof.Tests

open Sys2Proof Sys2Proof.Machine
set_option linter.all false
set_option Elab.async false

-- Well-formedness: an ill-formed term for each check, which the check refuses ------------------------------------------------

/-- A core reloads in add mode from another core, not from itself (04 R112). -/
theorem test_wf_addModeReload : Instr.wf (.addModeReload 3 0 3 1) = false ∧ Instr.wf (.addModeReload 3 0 4 1) = true := by decide
/-- A descriptor address is 64-byte aligned, not 0, and of a context that exists (06 R163, R164). -/
theorem test_wf_strArm : Instr.wf (.strArm 0 (some 32)) = false ∧ Instr.wf (.strArm 0 (some 0)) = false ∧ Instr.wf (.strArm 3072 (some 64)) = false ∧
    Instr.wf (.strArm 0 (some 64)) = true := by decide
/-- A core has 6 contexts, a die's bulk movers their own (06 Table 06.1); the keys between are no context. -/
theorem test_wf_ctx : Instr.wf (.strEnable 4095) = false ∧ Instr.wf (.strEnable 4096) = true ∧ Instr.wf (.strEnable 3071) = true := by decide
/-- Result code 0 is no fault (06 Table 06.11). -/
theorem test_wf_streamFault : Instr.wf (.streamFault 0 0 0 0) = false ∧ Instr.wf (.streamFault 0 0 3 0) = true := by decide
/-- A request retires in a context that exists (06 R154). -/
theorem test_wf_requestRetire : Instr.wf (.requestRetire 3072 0 0) = false ∧ Instr.wf (.requestRetire 0 0 0) = true := by decide
/-- A fill brings one 2 MiB far page (09 R263). -/
theorem test_wf_farFillComplete : Instr.wf (.farFillComplete 0 0 0 (List.replicate 2097153 0)) = false := by
  simp only [Instr.wf, List.length_replicate]; decide
/-- A flit starts at most 3 packets, in header slots 0 to 63 (10 R269). -/
theorem test_wf_flitReceive : Instr.wf (.flitReceive 0 { heads := List.replicate 4 ({}, 0) } 0 0) = false ∧
    Instr.wf (.flitReceive 0 { heads := [({}, 64)] } 0 0) = false ∧ Instr.wf (.flitReceive 0 {} 0 0) = true := by decide
/-- An exchange block advertises the credits of 5 virtual channels (10 Table 10.4). -/
theorem test_wf_exchangeBlock : Instr.wf (.exchangeBlockReceive 0 { cred := [1] } {}) = false := by decide
/-- A BAR2 access stays in a 64-byte line and names no memory-side operation (11 R300, 09 R258). -/
theorem test_wf_bar2Access : Instr.wf (.bar2Access 60 (.read 8) .good) = false ∧ Instr.wf (.bar2Access 0 (.memside 1 0 []) .good) = false ∧
    Instr.wf (.bar2Access 56 (.read 8) .good) = true := by decide
/-- MOD.EVENT_EN has 4 bits (11 Table 11.8). -/
theorem test_wf_eventEnable : Instr.wf (.eventEnableWrite none 16) = false ∧ Instr.wf (.eventEnableWrite none 15) = true := by decide

-- Worked examples of the spec ------------------------------------------------------------------------------------------------

/-- 02 R38: the E4M3 encoding 0x4A reads 5. -/
theorem test_e4m3_4A : decodeElem .e4m3 0x4A = .fin false 10 (-1) := by decide
/-- 02 R38: FP4's eight magnitudes 0, 0.5, 1, 1.5, 2, 3, 4 and 6, in halves. -/
theorem test_fp4_values : (List.range 8).map (fun n => match decodeElem .fp4 n with
    | .fin _ man exp => (man * 2 ^ (exp + 1).toNat) | _ => 99) = [0, 1, 2, 3, 4, 6, 8, 12] := by decide
/-- 02 R41: the scale bytes 0x00, 0xFE and 0xFF. -/
theorem test_e8m0 : e8m0 0 = some (-127) ∧ e8m0 0xFE = some 127 ∧ e8m0 0xFF = none := by decide
/-- 02 02.5, the E4M3 block with a tie: scale 122, 13.375 becomes 0x7D and 0.296875 becomes 0x52. -/
theorem test_block_tie : convertBlock .e4m3 0 [.fin false 107 (-3), .fin false 19 (-6)] [.rne, .rne] =
    (122, [(0x7D, {}), (0x52, {})]) := by decide
/-- 02 02.5: with 15 as the largest, it saturates to 0x7E and sets SAT_SEEN. -/
theorem test_block_saturates : convertBlock .e4m3 0 [.fin false 15 0] [.rne] = (122, [(0x7E, { sat := true })]) := by decide
/-- 02 R61: q = 111.5 with r = 0x7FFF_FFFF rounds to 111, with r = 0x8000_0000 to 112. -/
theorem test_stochastic : roundDiv (.sr 0x7FFFFFFF) 223 2 = 111 ∧ roundDiv (.sr 0x80000000) 223 2 = 112 := by decide
/-- 09 09.2, one address through both tables: pair 7, frame 103, channel 14 of the tower, address 0x0670_AD40. -/
theorem test_translate :
    let a : Amap := { jobPage := 0x600000, pages := 64, tower := 13, pairFirst := 4, pairSpan := 8, frameBase := 100, valid := true }
    ({ amaps := [(0, a)] } : State).translate 0 0x00000C0003615A40 = some (a.place 0x60001B 0x15A40) ∧
      (a.place 0x60001B 0x15A40).pair = 7 ∧ (a.place 0x60001B 0x15A40).frame = 103 ∧
      (a.place 0x60001B 0x15A40).channel = 32 * 13 + 14 ∧ (a.place 0x60001B 0x15A40).chanAddr = 0x0670AD40 := by decide
/-- 11 11.5: the layout with Q0 alone, Q1 and Q3 together and Q2 alone is 0x64; a diagonal pair is refused. -/
theorem test_layout : layoutLegal 0x64 = true ∧ layoutLegal 0xE4 = true ∧ layoutLegal 0x00 = true ∧ layoutLegal 0x24 = false ∧
    layoutLegal 0xC0 = false := by decide
/-- 16 R430: the ratio of OP3 is 435 in units of 1/1,024. -/
theorem test_vf_ratio : ({ points := 8 } : VfTables).ratio 0 3 = 435 ∧ ({ points := 1 } : VfTables).valid 0 3 = false := by decide
/-- 17 17.5: 52.00 V at 175.0 A for an hour of samples is 9,100,000 mWh. -/
theorem test_energy : integrate 0 0 (5200 * 1750 * 8000 * 3600) 28800000 = (9100000, 0) := by decide
/-- 10 R277: the check value of the IEEE 802.3 CRC-32 over the nine digits. -/
theorem test_crc32 : crc32 [0x31, 0x32, 0x33, 0x34, 0x35, 0x36, 0x37, 0x38, 0x39] = 0xCBF43926 := by decide +kernel
/-- 12 R329: SHAKE256 of the empty message, from its published standard. -/
theorem test_shake256_empty : ofBytes ((shake256 []).take 8) = 0x138DA80B2BDDB946 := by decide +kernel


-- Witnesses ----------------------------------------------------------------------------------------------------------

/-- The module with no reset in progress and every bank on. -/
def wLive : State := { State.reset with rst := {}, banksOff := 0, mod := { inReset := 0 } }
/-- A core that issues from its lists. -/
def wOn : Core := { ctrl := { enable := true }, report := { inStep := true } }
/-- Core 0 as given, everything else as in `wLive`. -/
def wCore (k : Core) : State := { wLive with cores := [(0, k)] }
/-- Job page 0 of tower 0, mapped and present in frame 0; core 0 issues. -/
def wMap : State :=
  { wLive with
    amaps := [(0, { valid := true, pages := 1, pairSpan := 1 })]
    frames := [(0, { present := true, prot := .rw })]
    cores := [(0, wOn)] }
/-- The same with core 0 as given. -/
def wMapCore (k : Core) : State := { wMap with cores := [(0, k)] }
theorem wCore_core (k : Core) : (wCore k).core 0 = k := rfl
theorem wCore_runs (k : Core) (h : k.debugHalted = false) : (wCore k).coreStopped 0 = false := by
  have e : (wCore k).coreStopped 0 = ((wCore k).core 0).debugHalted := rfl
  rw [e, wCore_core, h]
theorem wCore_issues (k : Core) (h : k.debugHalted = false) (h2 : k.issues = true) : (wCore k).coreIssues 0 = true := by
  simp only [State.coreIssues, wCore_core, h2, wCore_runs k h, Bool.not_false, Bool.and_self]
/-- A tiling descriptor of one array: order 4, RUN 1, the slot budget and the compiled lengths given, 8 spill slots. -/
def wTiling (budget lm ln lk : Nat) : BitVec 512 :=
  BitVec.ofNat 512 (4 * 2 ^ 13 + 2 ^ 20 + budget * 2 ^ 24 + 2 ^ 36 + 8 * 2 ^ 80 + lm * 2 ^ 160 + ln * 2 ^ 288 + lk * 2 ^ 416)
/-- An instance of one MXFP8 pass over one array, 64 by 64 with K of 64. -/
def wInst : Instance :=
  { op := { xFmt := .e4m3, wFmt := .e4m3, tilingBits := wTiling 8 64 64 64 }, serial := 1, lenM := 64,
    lenN := 64, lenK := 64, demand := 1, passes := [{ cnt := 1 }] }
/-- A store whose first `n` bytes hold 0. -/
def wFull (a n : Nat) : FMap (Option Byte) := (List.range' a n).map (fun j => (j, some 0))
theorem wFull_get (a n k : Nat) (h : a ≤ k) (h2 : k < a + n) : FMap.get none (wFull a n) k = some 0 := by
  induction n generalizing a with
  | zero => omega
  | succ n ih =>
    simp only [wFull, List.range'_succ, List.map_cons, FMap.get]
    split
    · rfl
    · exact ih (a + 1) (by omega) (by omega)
theorem wFull_present (n : Nat) (x : Stores) (i : StoreId) (h : x.map i = wFull 0 n) : x.present i 0 n = true := by
  simp only [Stores.present, h, List.all_eq_true, List.mem_range]
  intro k hk
  simp only [Nat.zero_add, wFull_get 0 n k (Nat.zero_le k) (by omega), Option.isSome_some]
theorem wFull_ready (n : Nat) (k : Core) (i : StoreId) (h : k.stores.map i = wFull 0 n) (he : k.eps = []) : k.rangeReady i 0 n = true := by
  simp only [Core.rangeReady, wFull_present n k.stores i h, he, List.all_nil, Bool.and_self]
/-- A core with the instance, the tile of its pass in array 0 as given, an anchor, and both operand stores full. -/
def wPassCore (t : FMap InTile) : Core :=
  { wOn with
    lists := { insts := [wInst] }
    active := t
    anchors := [{ tile := ⟨1, 0, 0⟩ }]
    stores := { input := wFull 0 4224, weights := wFull 0 4224 } }
theorem wInst_arrays : wInst.op.tiling.arrays = [0] ∧ opBytes wInst.op.wFmt wInst.op.wPlane (64 * 1) (tileK wInst.op.xFmt) = 4224 := by
  decide +kernel
theorem witness_passIssue :
    let k := wPassCore [(0, { inst := 1 })]
    k.lists.inst = some wInst ∧ wInst.passes = [{ cnt := 1 }] ∧ (wCore k).coreIssues 0 = true ∧ k.pendCtrl = none ∧
      k.inputReady wInst { cnt := 1 } = true ∧ k.weightsReady 0 wInst { cnt := 1 } {} = true ∧
      (Pass.named { cnt := 1 } wInst).all (k.tileReady wInst) = true ∧ (wInst.fresh = true → k.tokensReady wInst.op = true) := by
  refine ⟨rfl, rfl, wCore_issues _ rfl rfl, rfl, by decide +kernel, ?_, by decide +kernel, fun _ => rfl⟩
  simp only [Core.weightsReady, List.all_nil, Bool.true_and, Core.twillMoves, List.foldl_nil, wInst_arrays.2]
  exact wFull_ready 4224 (wPassCore _) .weights rfl rfl
theorem witness_anchorCompute :
    let k := wPassCore []
    k.lists.nextAnchor = some (0, 0, 0, 0) ∧ k.lists.insts[0]? = some wInst ∧ (wCore k).coreIssues 0 = true ∧
      k.anchors.length < 32 ∧ k.rangeReady .input 0 (kBlocks (wInst.op.fullK.getD wInst.lenK)) = true ∧
      k.rangeReady .weights 0 (kBlocks (wInst.op.fullK.getD wInst.lenK)) = true :=
  ⟨by decide +kernel, rfl, wCore_issues _ rfl rfl, by decide, by decide +kernel, by decide +kernel⟩
theorem witness_sramUe : (wCore wOn).coreStopped 0 = false := wCore_runs _ rfl
theorem witness_shadowLoad :
    let k := wPassCore []
    k.lists.inst = some wInst ∧ wInst.passes.find? (fun p => !(k.activeTile 0).isFor wInst p) = some { cnt := 1 } ∧
      (wCore k).coreIssues 0 = true ∧ wInst.op.tiling.arrays.contains 0 = true ∧ wInst.covers 0 0 = true ∧
      ([] : List TwillMove).all (k.twillReady wInst.op.xFmt wInst.op.xPlane) = true ∧
      (k.twillMoves 0 wInst.op.xFmt wInst.op.xPlane .input []).rangeReady .input 0
        (opBytes wInst.op.xFmt wInst.op.xPlane 64 (tileK wInst.op.xFmt)) = true := by
  refine ⟨rfl, by decide, wCore_issues _ rfl rfl, by decide +kernel, by decide +kernel, rfl, ?_⟩
  have h : opBytes wInst.op.xFmt wInst.op.xPlane 64 (tileK wInst.op.xFmt) = 4224 := by decide +kernel
  rw [h]; exact wFull_ready 4224 (wPassCore []) .input rfl rfl
/-- A drain of slot 0 into vector scratch, a queue or the reduction path. -/
def wDrain (kind : BitVec 3) (f : BitVec 4) : DrainItem := { tile := ⟨1, 0, 0⟩, desc := { destKind := kind, format := f } }
def wDrainCore (d : DrainItem) : Core :=
  { wOn with
    lists := { drains := [d] }
    slots := [(0, { state := .opened, tile := ⟨1, 0, 0⟩ })] }
theorem witness_drainIssue (kind : Fin 3) :
    let k := wDrainCore (wDrain (BitVec.ofNat 3 kind.val) 0)
    let d := wDrain (BitVec.ofNat 3 kind.val) 0
    k.lists.drains = [d] ∧ d.markerOnly = false ∧ Fmt.ofCode 0 = some .fp32 ∧ k.issuesDrains = true ∧ (wCore k).coreStopped 0 = false ∧ k.drain = none ∧
      k.drainable d .fp32 = true ∧ k.passesLeft d = false ∧
      d.at' + drainBytes .fp32 ≤ (destStore d.desc.destKind.toNat).size ∧
      (wCore k).placeFree 0 (destStore d.desc.destKind.toNat) d.at' (drainBytes .fp32) = true := by
  intro k d
  refine ⟨rfl, rfl, rfl, rfl, wCore_runs _ rfl, rfl, rfl, rfl, ?_, ?_⟩
  · revert d k; revert kind; decide +kernel
  · revert d k; revert kind; decide +kernel
theorem witness_drainIssue_queue :
    let k := wDrainCore (wDrain 3 0)
    k.drainable (wDrain 3 0) .fp32 = true ∧ k.canSend 0 = true ∧ (wCore k).edgeRefused 0 0 = false := ⟨rfl, rfl, rfl⟩
theorem witness_drainIssue_reduction :
    let s := wCore (wDrainCore (wDrain 4 7))
    Fmt.ofCode 7 = some .int24 ∧ (s.core 0).drainable (wDrain 4 7) .int24 = true ∧ s.takesTerm 0 0 = true := by decide +kernel
theorem witness_drainIssue_marker :
    let d : DrainItem := { wDrain 3 0 with markerOnly := true }
    let k := wDrainCore d
    k.lists.drains = [d] ∧ d.markerOnly = true ∧ k.issuesDrains = true ∧ k.drain = none ∧ (wCore k).coreStopped 0 = false ∧
      (wCore k).edgeRefused 0 0 = false := ⟨rfl, rfl, rfl, rfl, wCore_runs _ rfl, rfl⟩
theorem witness_drainComplete :
    let s := wCore { wOn with drain := some { item := wDrain 0 0, post := some (0, 0) } }
    (s.core 0).drain = some { item := wDrain 0 0, post := some (0, 0) } ∧ s.coreStopped 0 = false ∧
      (s.body (s.partOfCore 0)).managed.find? (fun m => m.tensor = 0) = none := ⟨rfl, wCore_runs _ rfl, rfl⟩
/-- An add of no operands, and a marker. -/
def wVec (d : VecDest) (m : Bool) : VecEntry := { op := .add, dest := d, markerOnly := m }
def wVecCore (e : VecEntry) : Core := { wOn with lists := { vecs := [e] } }
theorem witness_vectorIssue :
    let k := wVecCore (wVec (.scratch 0) false)
    k.lists.vecs = [wVec (.scratch 0) false] ∧ (wCore k).coreIssues 0 = true ∧ k.vecReady (wVec (.scratch 0) false) = true ∧
      0 + (wVec (.scratch 0) false).outBytes ≤ StoreId.scratch.size ∧
      (wCore k).placeFree 0 .scratch 0 (wVec (.scratch 0) false).outBytes = true ∧ (wVec (.scratch 0) false).op.posts = false :=
  ⟨rfl, wCore_issues _ rfl rfl, by decide, by decide +kernel, by decide +kernel, rfl⟩
/-- The last place of each store that takes a result, and one byte more than fits. -/
theorem witness_vectorIssue_edge : let e : VecEntry := { op := .add, count := 1 }
    e.outBytes = 4 ∧ (StoreId.scratch.size - 4) + e.outBytes ≤ StoreId.scratch.size ∧ (StoreId.input.size - 4) + e.outBytes ≤ StoreId.input.size ∧
      (StoreId.weights.size - 4) + e.outBytes ≤ StoreId.weights.size ∧ ¬ (StoreId.scratch.size - 3) + e.outBytes ≤ StoreId.scratch.size := by
  decide +kernel
theorem witness_vectorIssue_queue :
    let k := wVecCore (wVec (.queue 1 0) false)
    k.vecReady (wVec (.queue 1 0) false) = true ∧ k.canSend 1 = true ∧ (wCore k).edgeRefused 0 1 = false := by decide +kernel
theorem witness_vectorIssue_reduction :
    let s := wCore (wVecCore (wVec (.reduction 0) false))
    (s.core 0).vecReady (wVec (.reduction 0) false) = true ∧ s.takesTerm 0 0 = true := by decide +kernel
theorem witness_vectorIssue_marker :
    let k := wVecCore (wVec (.queue 1 0) true)
    k.lists.vecs = [wVec (.queue 1 0) true] ∧ (wCore k).coreIssues 0 = true := ⟨rfl, wCore_issues _ rfl rfl⟩
theorem witness_coreEnable_on : ((wCore wOn).core 0).wantCtrl.enable = true := rfl
theorem witness_coreEnable : (State.reset.core 0).wantCtrl.enable = false ∧ (State.reset.core 0).pass = none ∧
    (State.reset.core 0).drain = none := ⟨rfl, rfl, rfl⟩
theorem witness_coreHaltReq : State.reset.fw.production = false ∨ State.reset.fw.unlocked = true := by decide
theorem witness_passBoundaryStop :
    let s := wCore { wOn with pendCtrl := some {} }
    (s.core 0).pendCtrl = some {} ∧ s.coreStopped 0 = false ∧ (s.part (s.partOfCore 0)).power.state = .run ∧
      ((wCore wOn).core 0).pendCtrl = none ∧ (wCore wOn).coreStopped 0 = false := ⟨rfl, wCore_runs _ rfl, rfl, rfl, wCore_runs _ rfl⟩
/-- An operator of fixed lengths of 64, and one that its single slot overcommits. -/
def wOp (n budget : Nat) : OpEntry := { tilingBits := wTiling budget 64 n 64 }
def wLatchCore (n budget : Nat) : Core := { wOn with lists := { ops := [wOp n budget], overcommitSpill := true } }
theorem witness_loopLengthLatch :
    let k := wLatchCore 128 1
    let s := wCore k
    let o := wOp 128 1
    s.coreIssues 0 = true ∧ k.lists.ops = [o] ∧ k.lists.mayLatch o.tiling = true ∧ o.tiling.plMax = 0 ∧
      s.rangesRefused (s.partOfCore 0) 0 [] = false ∧ ¬ (o.tiling.m.src = 3 ∨ o.tiling.n.src = 3 ∨ o.tiling.k.src = 3) ∧ k.lists.plPending = none ∧
      latchLen s 0 k o.tiling.m none = some 64 ∧ latchLen s 0 k o.tiling.n none = some 128 ∧ latchLen s 0 k o.tiling.k none = some 64 ∧
      o.tiling.m.src = 0 ∧ o.tiling.n.src = 0 ∧ o.tiling.k.src = 0 ∧
      demandOf o.tiling (o.tiling.m.demandLen 64) (o.tiling.n.demandLen 128) = 2 ∧ o.tiling.slotBudget.toNat < 2 ∧
      k.lists.headFree = true ∧ k.lists.overcommitSpill = true ∧ spillPositions 2 1 * o.tiling.arrays.length ≤ o.tiling.spillSlots.toNat :=
  ⟨wCore_issues _ rfl rfl, by decide +kernel⟩
theorem witness_loopLengthLatch_skip :
    let k := wLatchCore 0 1
    (wCore k).coreIssues 0 = true ∧ k.lists.ops = [wOp 0 1] ∧ latchLen (wCore k) 0 k (wOp 0 1).tiling.n none = some 0 := ⟨wCore_issues _ rfl rfl, rfl, by decide +kernel⟩
/-- The first entry of a pointer list of one entry, valid and the last; a list of one entry that is not the last overruns. -/
theorem witness_loopLengthLatch_entry : let o : OpEntry := { tilingBits := BitVec.ofNat 512 (2 ^ 64) }
    o.tiling.plMax = 1 ∧ plFault o 0 { valid := true, last := true } = none ∧ plFault o 0 { valid := true } = some 0x0403 := by decide +kernel
/-- An instance of two N tiles in one slot, its second pass next. -/
def wSpillInst : Instance :=
  { op := wOp 128 1, serial := 1, lenM := 64, lenN := 128, lenK := 64, demand := 2, spilling := true,
    passes := [{ n0 := 1, cnt := 1 }] }
def wSpillCore (x : Slot) (l : List (Nat × TileRef)) : Core :=
  { wOn with
    lists := { insts := [wSpillInst] }
    slots := [(0, x)]
    spilled := l
    anchors := [{ tile := ⟨1, 0, 1⟩ }] }
/-- What the second pass needs: its tile, in the home slot that the first tile holds. -/
def wNeeded (nt : Nat) : Needed :=
  { array := 0, tile := ⟨1, 0, nt⟩, home := 0, place := wSpillInst.place 0 0 nt, group := (0, 0), op := wSpillInst.op, spilling := true }
theorem witness_slotSpill :
    let k := wSpillCore { state := .opened, tile := ⟨1, 0, 0⟩ } []
    let s := wMapCore k
    k.resident 0 = some (wNeeded 0) ∧ (k.slot 0).state = .opened ∧ k.needed = [wNeeded 1] ∧
      (wNeeded 1).tile ≠ (k.slot 0).tile ∧ (wNeeded 1).tile.inst = (k.slot 0).tile.inst ∧ (wNeeded 1).group = (wNeeded 0).group ∧
      k.drain = none ∧ s.coreStopped 0 = false ∧ s.mayAccess (s.partOfCore 0) [((wNeeded 0).place, 65536)] = true := by
  decide +kernel
theorem witness_slotReload :
    let k := wSpillCore { state := .spilled } [(0, ⟨1, 0, 1⟩)]
    let s := wMapCore k
    (k.slot 0).state = .spilled ∧ s.coreStopped 0 = false ∧ k.drain = none ∧
      k.needed.find? (fun n => n.spilling && decide (n.home = 0)) = some (wNeeded 1) ∧ k.spilled.contains (0, ⟨1, 0, 1⟩) = true ∧
      k.earlierWaits 0 1 (0, 0) = false ∧ s.placeFault 0 [((wNeeded 1).place, 65536)] false = none ∧
      s.poisonedIn 0 [((wNeeded 1).place, 65536)] = [] ∧
      (s.cowPlaces (s.partOfCore 0) [((wNeeded 1).place, 65536)]).any (fun pl => s.frameHeld pl.tower pl.g) = false := by decide +kernel
theorem witness_slotReload_first :
    let k := wSpillCore { state := .spilled } []
    (k.slot 0).state = .spilled ∧ (wMapCore k).coreStopped 0 = false ∧ k.needed.find? (fun n => n.spilling && decide (n.home = 0)) = some (wNeeded 1) ∧ k.spilled.contains (0, ⟨1, 0, 1⟩) = false ∧
      k.earlierWaits 0 1 (0, 0) = false ∧ k.anchorFor 0 ⟨1, 0, 1⟩ ≠ none :=
  ⟨rfl, by decide +kernel, by decide +kernel, rfl, by decide +kernel, by decide +kernel⟩
theorem witness_addModeReload :
    let k := wSpillCore { state := .opened, tile := ⟨1, 0, 0⟩ } []
    let s : State := { wMap with cores := [(0, k), (1, k)] }
    (s.core 0).resident 0 = some (wNeeded 0) ∧ (s.core 1).resident 0 = some (wNeeded 0) ∧ (k.slot 0).state = .opened ∧
      (k.slot 0).bf16 = false ∧ k.drain = none ∧ s.coreStopped 0 = false ∧ s.coreStopped 1 = false ∧ s.gateRefuses 0 0 = false ∧
      k.partialPlace (wNeeded 0) = some 0 ∧ s.mayAccess (s.partOfCore 0) [(0, 65536)] = true := by
  decide +kernel
theorem witness_boundaryGateClose :
    ({ State.reset with mod := { inReset := 1 } } : State).gateMayOpen 0 = false ∧
      ({ State.reset with mod := { qpart := 0, inReset := 0 } } : State).gateMayOpen 0 = true ∧
      ({ State.reset with gates := [(0, true)] } : State).gate 0 = true ∧ State.reset.gate 0 = false := by decide
/-- A core with one endpoint, number 1. -/
def wEpCore (x : Endpoint) (a : List Arrival) : Core := { wOn with eps := [(1, x)], arrivals := a }
theorem wEp_runs (x : Endpoint) (a : List Arrival) : (wCore (wEpCore x a)).coreStopped 0 = false := wCore_runs _ rfl
theorem witness_tileArrive :
    let k := wEpCore { dir := 1, depth := 2, slotUnits := 1 } [{ ep := 1, bytes := [7] }]
    k.nextArrival 1 = some ({ ep := 1, bytes := [7] }, { k with arrivals := [] }) ∧ (wCore k).coreStopped 0 = false ∧ (k.ep 1).dir = 1 ∧ (k.ep 1).seqBad 0 0 = false ∧
      (k.ep 1).spilled = false ∧ (k.ep 1).freeSlot = some 0 := ⟨rfl, wEp_runs _ _, by decide⟩
theorem witness_endOfStepMarker :
    let k := wEpCore { dir := 1 } [{ ep := 1, marker := true }]
    k.nextArrival 1 = some ({ ep := 1, marker := true }, { k with arrivals := [] }) ∧ (k.ep 1).closed.contains 0 = false ∧ (k.ep 1).dir = 1 ∧
      (wCore k).coreStopped 0 = false := ⟨rfl, rfl, rfl, wEp_runs _ _⟩
theorem witness_externalEventRelease :
    let x : Endpoint := { tiles := [{ seq := 3, visible := false }], releaseBase := 10, releasePeriod := 5 }
    let y : Endpoint := { spill := [{ seq := 2, visible := false }] }
    ((wEpCore x []).ep 1).reveal = some { x with tiles := [{ seq := 3, visible := true }] } ∧ x.hiddenSeq = some 3 ∧
      x.late 25 = false ∧ x.late 26 = true ∧
      ((wEpCore y []).ep 1).reveal = some { y with spill := [{ seq := 2, visible := true }] } ∧ y.hiddenSeq = some 2 := by decide
theorem witness_creditReceive :
    let k : Core := { wOn with creditsIn := [{ ep := 1, edge := 2 }] }
    k.nextCredit 1 = some (2, { k with creditsIn := [] }) ∧ (wCore k).coreStopped 0 = false := ⟨rfl, wCore_runs _ rfl⟩
/-- 01 R34: what entered a core's crossing first leaves it first: a credit that entered before a tile holds the tile back; a tile that the
core sent itself crosses nothing. -/
theorem test_crossing_order :
    let a : Arrival := { ep := 1, ord := 1 }
    let k : Core := { arrivals := [a], creditsIn := [{ ep := 2, edge := 0, ord := 0 }] }
    k.nextArrival 1 = none ∧ k.nextCredit 2 = some (0, { k with creditsIn := [] }) ∧
      ({ k with own := [a] } : Core).nextArrival 1 = some (a, { k with own := [] }) := by decide
theorem witness_queueMoveBack :
    let k := wEpCore { depth := 1, spill := [{}] } []
    (k.ep 1).spill = [{}] ∧ (k.ep 1).freeSlot = some 0 ∧ (wCore k).coreStopped 0 = false := ⟨rfl, rfl, wEp_runs _ _⟩
theorem witness_stallTimerExpire :
    let k : Core := { wEpCore { dir := 1, depth := 1, tiles := [{}] } [] with lists := { ops := [{}] } }
    (wCore k).stallWatchStopped 0 = false ∧ (k.ep 1).full = true ∧ k.waitsElsewhere 1 = true := by decide +kernel
/-- A core whose node 0 has data inputs 1 and 2 and token input 3. -/
def wSteerCore (kd : SteerKind) (a b t : Endpoint) (tok : Byte) : Core :=
  { wOn with
    steer := [(0, { kind := kd, inA := 1, inB := 2, token := 3, outA := 4, outB := 5 })]
    eps := [(1, a), (2, b), (3, t)]
    stores := { scratch := [(0, some tok), (1, some 0), (2, some 0), (3, some 0), (4, some 9), (5, some 0), (6, some 0), (7, some 0)] } }
def wTiles (l : List QTile) : Endpoint := { dir := 1, depth := 2, slotUnits := 1, store := 2, tiles := l }
def wMark : Endpoint := { dir := 1, markers := [0] }
theorem wSteer_runs (kd : SteerKind) (a b t : Endpoint) (tok : Byte) :
    let k := wSteerCore kd a b t tok
    (wCore k).coreStopped 0 = false ∧ (k.node 0).kind = kd ∧ (k.node 0).stopped = false ∧ k.canSend 4 = true ∧ k.canSend 5 = true ∧
      (wCore k).edgeRefused 0 4 = false ∧ (wCore k).edgeRefused 0 5 = false :=
  ⟨wCore_runs _ rfl, rfl, rfl, rfl, rfl, rfl, rfl⟩
theorem witness_steerSwitch (sel : Fin 3) :
    let k := wSteerCore .switch (wTiles [{ seq := 9 }]) {} (wTiles [{ len := 8 }]) (BitVec.ofNat 8 sel.val)
    let tok := tokenOf (k.tileBytes 0 3 { len := 8 })
    k.present 3 = some { len := 8 } ∧ k.present 1 = some { seq := 9 } ∧ tok.1 = 9 ∧ tok.2 = sel.val := by
  revert sel; decide
theorem witness_steerSwitch_marker :
    let k := wSteerCore .switch wMark {} {} 0
    k.present 1 = none ∧ k.atMarker 1 = true := by decide
theorem witness_steerSelect :
    let k := wSteerCore .select (wTiles []) (wTiles [{ seq := 9 }]) (wTiles [{ len := 8 }]) 1
    let tok := tokenOf (k.tileBytes 0 3 { len := 8 })
    k.present 3 = some { len := 8 } ∧ tok.2 = 1 ∧ k.present 2 = some { seq := 9 } ∧ tok.1 = 9 := by decide
theorem witness_steerSelect_gap :
    let k := wSteerCore .select (wTiles []) (wTiles []) (wTiles [{ len := 8 }]) 2
    k.present 3 = some { len := 8 } ∧ (tokenOf (k.tileBytes 0 3 { len := 8 })).2 = 2 := by decide
theorem witness_steerSelect_marker :
    let k := wSteerCore .select wMark wMark {} 0
    k.present 3 = none ∧ k.atMarker 1 = true ∧ k.atMarker 2 = true := by decide
theorem witness_steerMerge :
    let k := wSteerCore .merge (wTiles [{ seq := 8 }]) (wTiles [{ seq := 9 }]) {} 0
    k.present 1 = some { seq := 8 } ∧ k.present 2 = some { seq := 9 } := by decide
theorem witness_steerMerge_one :
    let k := wSteerCore .merge (wTiles [{ seq := 8 }]) wMark {} 0
    k.present 1 = some { seq := 8 } ∧ k.present 2 = none ∧ k.atMarker 2 = true := by decide
theorem witness_steerMerge_marker :
    let k := wSteerCore .merge wMark wMark {} 0
    k.present 1 = none ∧ k.present 2 = none ∧ k.atMarker 1 = true ∧ k.atMarker 2 = true := by decide
/-- Partition 0 with a job in the state given, and core 0. -/
def wJob (st : JobState) (j : Job) (k : Core) : State :=
  { wLive with parts := [(0, { jcp := { state := st }, job := j })], cores := [(0, k)] }
theorem wJob_runs (st : JobState) (j : Job) (k : Core) (h : k.debugHalted = false) : (wJob st j k).coreStopped 0 = false := by
  have hq : (wJob st j k).partOfQuad (dieQuad (coreIsland 0).die) = 0 := by
    show wLive.partOfQuad (dieQuad (coreIsland 0).die) = 0
    decide +kernel
  have hp : (wJob st j k).diePower (coreIsland 0).die = .run := by rw [State.diePower, hq]; rfl
  have ht : (wJob st j k).throttleStops (coreIsland 0) = false := rfl
  simp only [State.coreStopped, State.islandStopped, hp, ht]
  exact h
theorem witness_stepStart :
    let s := wJob .running {} { ctrl := { enable := true } }
    let k := s.core 0
    k.ctrl.enable = true ∧ k.report.inStep = false ∧ (s.part (s.partOfCore 0)).lets k.report.next = true ∧
      (s.part 0).snapLets k.report = true ∧ k.gateReady k.report.next = true ∧ s.shiftsReady 0 k.report.next.toNat = true ∧
      k.pendCtrl = none ∧ k.ctrl.haltReq = false ∧ k.faultStop = false ∧ k.passFault = false ∧
      s.coreStopped 0 = false := by decide +kernel
/-- 06 R152: a step starts its core's arm list afresh. -/
theorem test_stepStart_arms : (({ lists := { armList := [(0, 64)] } } : Core).beginStep 1 0 []).lists.arms = [(0, 64)] := by decide
theorem witness_stepEnd : ((wJob .running {} wOn).core 0).stepDone = true ∧ (wJob .running {} wOn).coreStopped 0 = false :=
  ⟨by decide, wJob_runs _ _ _ rfl⟩
theorem witness_reportCompare :
    let n : StepCounts := { step := 5 }
    let k : Core := { report := { ends := [n] } }
    let s : State := { wJob .running {} k with
      parts := [(0, { jcp := { state := .running, step := 5 }, job := { reportLoaded := true } })] }
    (s.part (s.partOfCore 0)).job.reportLoaded = true ∧
      k.report.ends.filter (fun n => decide (n.step ≤ (s.part 0).jcp.step) && !decide ((s.part 0).jcp.step = BitVec.allOnes 64)) = [n] := by
  decide +kernel
theorem witness_reportCompare_step :
    let n : StepCounts := { step := 5 }
    let e : ReportStep := { step := 5, predicted := true }
    n.variant = e.variant ∧
    let s := wJob .running { report := [e] } {}
    let mine : List LogRec := [{ engine := 3, step := 5 }]
    (s.part 0).job.report.find? (fun e => decide (e.step = n.step) && decide (e.core.toNat = logicalCore (s.part 0).job.quads 0)) = some e ∧
      mine.filter (fun r => r.step = n.step.setWidth 32) = mine ∧ mine.any (fun r => r.status.getLsbD 11) = false ∧
      mine.any (fun r => decide (r.engine = 3)) = true := by decide +kernel
/-- Stream context 0 of core 0 running a program of one word. -/
def wCtx (w : BitVec 32) : Ctx :=
  { enable := true, state := .running, active := 64, desc := { words := [w], areg := List.replicate 8 0, saveArea := 0 } }
def wStr (x : Ctx) : State := { wLive with ctxs := [(0, x)], cores := [(0, wOn)] }
theorem wStr_ctx (x : Ctx) : (wStr x).ctx 0 = x := rfl
/-- The context's clock runs, and with no response waiting nothing arrives before its word. -/
theorem wStr_runs (x : Ctx) (h : x.waiting = []) : (wStr x).ctxStopped 0 = false ∧ (wStr x).wake 0 = wStr x ∧ (wStr x).coreIssues 0 = true := by
  have e : (wStr x).ctxStopped 0 = false := rfl
  refine ⟨e, ?_, rfl⟩
  simp only [State.wake, wStr_ctx, h, List.isEmpty_nil, Bool.or_true, if_true]
theorem witness_strArm : let x := (wStr { enable := true }).ctx 0
    x.state = .idle ∧ x.enable = true ∧ x.active = 0 ∧ x.shadow = 0 := by decide
theorem witness_strArm_shadow : let x := (wStr (wCtx 0)).ctx 0
    x.active ≠ 0 ∧ x.shadow = 0 ∧ x.state ≠ .disabling ∧ x.state ≠ .disabled := by decide
theorem witness_strArm_list :
    let s : State := { wStr { enable := true } with cores := [(0, { wOn with lists := { arms := [(0, 64)] } })] }
    ctxCore 0 = some 0 ∧ (s.core 0).lists.arms = [(0, 64)] ∧ 6 * 0 + (0 : Fin 6).val = 0 ∧ s.coreIssues 0 = true ∧
      (s.ctx 0).takesArm = true := by decide +kernel
theorem witness_descriptorActivate : let x := (wStr { enable := true, shadow := 64 }).ctx 0
    x.state = .idle ∧ x.enable = true ∧ x.active = 0 ∧ x.shadow ≠ 0 := by decide
theorem witness_strEnable : (State.reset.ctx 0).state ≠ .disabling := by decide
theorem witness_strResume :
    let s : State := { wMap with ctxs := [(0, { state := .halted, faultCode := 0x0601, saveTrusted := true })] }
    let x := s.ctx 0
    x.state = .halted ∧ resumable x.faultCode.toNat = true ∧ x.saveTrusted = true ∧ s.ctxStopped 0 = false ∧
      s.readFault (s.ctxPart 0) x.desc.saveArea.toNat 256 = none := by decide +kernel
theorem witness_generator (o : Fin 10) : (wCtx (BitVec.ofNat 32 (o.val * 2 ^ 28))).at o.val = true := by
  revert o; decide
theorem witness_endProgram : (wCtx 0).at 0 = true ∧ (wCtx 0).drained = true := by decide
/-- The word PLFETCH or BFETCH with nothing outstanding, and with its read answered. -/
theorem witness_fetch (b : Bool) : (wCtx (if b then 0x70000000 else 0x80000000)).at (if b then 7 else 8) = true ∧
    (wCtx (if b then 0x70000000 else 0x80000000)).issued = [] ∧ (wCtx (if b then 0x70000000 else 0x80000000)).merge = none := by
  revert b; decide
/-- A context whose read of `n` zero bytes is in. -/
def wFetched (w : BitVec 32) (n : Nat) (lead : Bool) : Ctx :=
  { wCtx w with
    desc := { words := [w], plLead := lead }
    issued := [{ len := n, serial := true, data := (List.range n).map (fun i => (i, some 0)) }] }
theorem witness_plfetch (lead : Bool) :
    let x := wFetched 0x70000000 32 lead
    let s : State := { wStr x with cores := [(0, { wOn with lists := { ops := [{}] } })] }
    x.at 7 = true ∧ x.fetched = some (List.replicate 32 0) ∧ ctxCore 0 = some 0 ∧ (s.core 0).lists.plPending = none ∧
      (s.core 0).lists.ops = [{}] ∧ ({} : OpEntry).reportOp = x.desc.operator := by
  revert lead; decide +kernel
theorem witness_bfetch : (wFetched 0x80000000 4 false).at 8 = true ∧ (wFetched 0x80000000 4 false).fetched = some [0, 0, 0, 0] := by decide
theorem witness_twait (sel : Fin 2) :
    let k := wSteerCore .unused (wTiles [{ len := 8 }]) {} {} (BitVec.ofNat 8 sel.val)
    let x := wCtx 0x90800000
    x.at 9 = true ∧ x.drained = true ∧ k.present (bitsAt x.word 23 5) = some { len := 8 } ∧
      (tokenOf (k.tileBytes 0 (bitsAt x.word 23 5) { len := 8 })).2 = sel.val := by
  revert sel; decide
/-- A context at an EMIT of one byte, and of 4,096. -/
def wEmit (w : BitVec 32) (hold : Nat) (m : Option StrReq) : Ctx :=
  { enable := true, state := .running, active := 64, merge := m,
    desc := { words := [w], areg := List.replicate 8 0, mergeHold := hold, bufSize := 8192 } }
theorem witness_emit : (wEmit 0x50000FFF 0 none).at 5 = true ∧ (wStr (wEmit 0x50000FFF 0 none)).mayIssue 0 { len := 4096 } = true := by decide +kernel
theorem witness_emit_small (m : Bool) :
    (wEmit 0x50000000 1 (if m then some { len := 4 } else none)).at 5 = true ∧ (0 < (wEmit 0x50000000 1 none).desc.mergeHold) ∧
      joins { len := 0 } { len := 1 } = true ∧ joins { len := 4 } { len := 1 } = false ∧
      (wStr (wEmit 0x50000000 1 none)).mayIssue 0 { len := 4 } = true := by
  revert m; decide +kernel
theorem witness_mergeHoldExpire : (wEmit 0 1 (some { len := 4 })).runs = true := by decide
/-- A context with one request outstanding. -/
def wReq (st : StrState) (r : StrReq) : Ctx := { wEmit 0 0 none with state := st, issued := [r] }
theorem witness_requestRetire : let r : StrReq := { len := 1, data := [(0, some 7)] }
    (wReq .running r).issued = [r] ∧ (wReq .running r).mayRetire r = true ∧ (wReq .running r).state = .running ∧
      (wReq .running r).desc.release = false := by decide
theorem test_requestRetire_waits : let x : Ctx := { desc := { release := true, relBase := 10, relPeriod := 5 } }
    x.beforeRelease { index := 3 } 24 = true ∧ x.beforeRelease { index := 3 } 25 = false := by decide
theorem witness_requestTimeout (sp : Fin 2) :
    let r : StrReq := { addr := if sp = 0 then 0x1000000000000000 else 0x2000000000000000, len := 4 }
    (wReq .running r).issued[0]? = some r ∧ r.fault = none ∧ r.completed .inLoad = false ∧ r.addr.toNat / 2 ^ 60 = sp.val + 1 := by
  revert sp; decide
theorem witness_streamFault (q : Bool) :
    let r : StrReq := { len := 4, refused := if q then some (0x0602, 0, false) else none }
    (wReq .running r).issued[0]? = some r ∧ r.fault = none ∧ r.completed .inLoad = false ∧
      r.refused = if q then some (0x0602, 0, false) else none := by revert q; decide
theorem witness_haltSettleDone :
    let x := wReq .halting { len := 4, fault := some 0x0601 }
    x.state = .halting ∧ x.settled = false ∧ x.issued.all (fun r => r.fault.isSome || r.completed x.desc.kind) = true ∧
      x.settling.any (fun r => x.beforeRelease r 0) = false ∧ x.partEarly 0 = false ∧ x.settleBack x.settling.length = false := by decide
theorem witness_saveAreaWritten : let x : Ctx := { wReq .halting {} with settled := true }
    x.state = .halting ∧ x.settled = true ∧ (wStr x).translate 0 0 = none ∧ Access.protection ≠ .held := by decide +kernel
theorem witness_ringPeriodEnd :
    let s := wCore { wOn with ring := { en := true, size := 2, chunk := 4, sent := 4, got := 5 } }
    s.coreStopped 0 = false ∧ (s.core 0).ring.en = true ∧ 2 ≤ (s.core 0).ring.size.toNat ∧ (s.core 0).ring.chunk ≤ (s.core 0).ring.sent ∧
      (s.core 0).ring.chunk ≤ (s.core 0).ring.got ∧ (s.core 0).lists.halfPassed (s.core 0).ring.half = true :=
  ⟨wCore_runs _ rfl, by decide⟩
def wManaged : Managed := { tensor := 0 }
/-- Partition 0 with a job of the body given, job page 0 mapped, and core 0 as given. -/
def wRed (b : ImageBody) (k : Core) (mem : List Host.Cell) : State :=
  { wMap with
    parts := [(0, { jcp := { state := .running }, job := { body := b } })]
    cores := [(0, k)]
    dram := mem }
theorem wRed_runs (b : ImageBody) (k : Core) (mem : List Host.Cell) (h : k.debugHalted = false) : (wRed b k mem).coreStopped 0 = false := by
  have hq : (wRed b k mem).partOfQuad (dieQuad (coreIsland 0).die) = 0 := by
    show wLive.partOfQuad (dieQuad (coreIsland 0).die) = 0
    decide +kernel
  have hp : (wRed b k mem).diePower (coreIsland 0).die = .run := by rw [State.diePower, hq]; rfl
  have ht : (wRed b k mem).throttleStops (coreIsland 0) = false := rfl
  simp only [State.coreStopped, State.islandStopped, hp, ht]
  exact h
/-- Before the first step has ended, and at a record that owes the shift of the step before. -/
theorem witness_tensorShiftUpdate (b : Bool) :
    let s := (wRed { managed := [wManaged] } {} []).modJcp 0 (fun j => if b then { j with step := 0 } else j)
    let ended := (s.part 0).jcp.step
    let behind := decide (s.tscStep 0 wManaged = ended.toNat) && decide (ended + 1 ≠ (s.part 0).job.latched.startStep)
    behind = b ∧
    (s.body 0).managed[0]? = some wManaged ∧ (s.part 0).jcp.state.inJob = true ∧ (s.part 0).job.snapDue = none ∧
      s.tscStep 0 wManaged < ((if behind then ended - 1 else ended) + 2).toNat ∧
      s.mayAccess 0 [(wManaged.addr.toNat, 192)] = true := by revert b; decide +kernel
/-- One group of one tile, its owner record at job address 32; a region that stops the job where asked. -/
def wGroup (stop : Bool := false) : GroupDesc :=
  { ownCount := 1, orBase := 32, regions := [{ tiles := 1, opt := { count := if stop then 32 else 4096, nonfinite := stop } }] }
/-- An owner record as job memory from address 32 up. -/
def wOrec (o : Or) : List Host.Cell := dramWrite [] 32 (bytesOf o.toNat 32)
def wUpdate (stop : Bool) : State :=
  wRed { groups := [wGroup stop] }
    { wOn with
      lists := { vecs := [{ op := .adamw 0 0 }] }
      grads := [{}]
      stores := { scratch := [(0, some 0), (1, some 0), (2, some 0xC0), (3, some 0x7F)] } } (wOrec { state := 1 })
theorem witness_adamwUpdate :
    let s := wUpdate false
    s.groupOf 0 0 = some (wGroup false) ∧
      (s.core 0).grads.find? (fun x => decide (x.group = 0) && decide (x.tile = 0)) = some {} ∧
      s.rangesRefused 0 0 (({ count := 4096 } : OptDesc).ranges 0 (({ count := 4096 } : OptDesc).elems 0) ++ [((wGroup false).orAddr 0, 32)]) = false ∧
      (regionOf (wGroup false).regions 0 0).map (fun x => (x.1, x.2.2)) = some (0, 0) ∧ (s.orec 0 (wGroup false) 0).state = 1 ∧
      s.stopTiles 0 = [] ∧
      s.mayAccess 0 (({ count := 4096 } : OptDesc).ranges 0 (({ count := 4096 } : OptDesc).elems 0) ++ [((wGroup false).orAddr 0, 32)]) = true := by
  decide +kernel
theorem witness_adamwUpdate_issues : (wUpdate false).coreIssues 0 = true := by decide +kernel
theorem witness_adamwUpdate_stop :
    let s := wUpdate true
    let y : GroupDesc × Nat × Region × Nat := (wGroup true, 0, { tiles := 1, opt := { count := 32, nonfinite := true } }, 0)
    s.groupOf 0 0 = some (wGroup true) ∧ (s.orec 0 (wGroup true) 0).state = 1 ∧ s.stopTiles 0 = [] ++ y :: [] ∧
      s.tileBad 0 ((s.core 0).report.step.setWidth 32) y = some true := by decide +kernel
theorem witness_reductionAdd :
    let s := wRed { groups := [wGroup] } { wOn with red := [{}] } []
    firstWhere (fun t => !t.applied) (s.core 0).red = some (0, {}) ∧ s.groupOf 0 (s.cr 0 0).group = some wGroup ∧
      s.rangesRefused 0 0 [(s.crAddr 0 0, 16), (wGroup.combineAddr 0 0, 32768), (wGroup.headerAddr 0, 64)] = false ∧
      s.mayAccess 0 [(s.crAddr 0 0, 16), (wGroup.combineAddr 0 0, 32768), (wGroup.headerAddr 0, 64)] = true ∧
      s.coreStopped 0 = false := by decide +kernel
theorem witness_redrain (j : Bool) :
    let t : RedTerm := { slot := if j then some 0 else none, applied := true, rows := [{}] }
    firstWhere (fun t => t.applied && !t.done) [t] = some (0, t) ∧ wOn.drain = none ∧ t.offset + 8 ≤ 24 ∧
      t.scale + (t.offset + 8) ≤ 254 := by
  revert j; decide
theorem witness_redrain_lost :
    let s := wRed { groups := [wGroup] } { wOn with red := [{ applied := true, rows := [{}] }] } []
    s.groupOf 0 (s.cr 0 0).group = some wGroup ∧ s.mayAccess 0 [(wGroup.headerAddr (s.cr 0 0).tile, 64)] = true ∧
      (s.core 0).drain = none ∧ s.rangesRefused 0 0 [(wGroup.headerAddr (s.cr 0 0).tile, 64)] = false ∧
      s.coreStopped 0 = false := by decide +kernel
/-- The offset and the byte at which a re-drain still fits, and the first that do not. -/
theorem witness_redrain_edge : (16 : Nat) + 8 ≤ 24 ∧ (24 : Nat) < 24 + 8 ∧ (246 : Nat) + (0 + 8) ≤ 254 ∧ (254 : Nat) < 247 + (0 + 8) := by decide
theorem witness_slotRelease :
    let k : Core := { red := [{ slot := some 0, applied := true }], slots := [(0, { state := .held })] }
    k.red.filter (fun t => decide (t.slot = some 0)) ≠ [] ∧ (∀ t ∈ k.red.filter (fun t => decide (t.slot = some 0)), t.done = true) ∧
      (k.slot 0).state = .held ∧ (wCore k).coreStopped 0 = false := by
  refine ⟨by decide, by decide, by decide, wCore_runs _ (by decide)⟩
theorem witness_tileCloseReport :
    let s := wRed { groups := [wGroup] } { closes := [(0, 0)] } []
    (s.core 0).closes = [(0, 0)] ∧ (∀ t ∈ (s.core 0).red, t.record = 0 → t.done = true) ∧
      s.rangesRefused 0 0 [(s.crAddr 0 0, 16), (s.combineRange 0 0).1, (s.combineRange 0 0).2] = false ∧
      s.mayAccess 0 [(s.crAddr 0 0, 16), (s.combineRange 0 0).1, (s.combineRange 0 0).2] = true ∧ s.coreStopped 0 = false := by
  decide +kernel
/-- A packet of a class for partition 0. -/
def wRx (cls : BitVec 3) (bs : List Byte) : Delivered := { part := 0, pkt := { cls := cls, payload := bs } }
def wRedRx (cls : BitVec 3) (bs : List Byte) : State := { wRed { groups := [wGroup] } {} [] with rx := [wRx cls bs] }
theorem witness_segmentReceive :
    let s := wRedRx 2 (({} : Rc).bytes)
    let rc := Rc.ofBytes ({} : Rc).bytes
    (s.rxAt 0 0 2).isSome = true ∧ s.groupOf 0 rc.group.toNat = some wGroup ∧ rc.kind = 0 ∧ wGroup.owns rc.tile.toNat = true ∧
      s.coreStopped (s.runAt 0 (s.linkDie (s.rxDie 0)).ownerRuns rc.group.toNat 0) = false ∧
      s.rangesRefused 0 (s.runAt 0 (s.linkDie (s.rxDie 0)).ownerRuns rc.group.toNat 0 / 16) (State.ownerRanges wGroup 0) = false ∧
      s.mayAccess 0 (State.ownerRanges wGroup 0) = true ∧ (s.orec 0 wGroup 0).accepts rc = true := by decide +kernel
theorem witness_noticeReceive :
    let b := ({ kind := 1, scale := 9 } : Rc).bytes
    let s := wRedRx 2 b
    let rc := Rc.ofBytes b
    (s.rxAt 0 0 2).isSome = true ∧ s.groupOf 0 rc.group.toNat = some wGroup ∧ rc.kind = 1 ∧
      s.coreStopped (s.runAt 0 (s.linkDie (s.rxDie 0)).ownerRuns rc.group.toNat 0) = false ∧
      s.rangesRefused 0 (s.runAt 0 (s.linkDie (s.rxDie 0)).ownerRuns rc.group.toNat 0 / 16) (State.ownerRanges wGroup 0) = false ∧
      s.mayAccess 0 (State.ownerRanges wGroup 0) = true ∧ (s.orec 0 wGroup 0).accepts rc = true ∧
      (s.orec 0 wGroup 0).scale < rc.scale.toNat := by decide +kernel
theorem witness_rescaleReceive :
    let b := ({ kind := 2 } : Rc).bytes
    let rc := Rc.ofBytes b
    let s : State :=
      { wRed { groups := [wGroup], crs := [default] } {} (dramWrite [] 0 (bytesOf ({ state := 1 } : Cr).toNat 16)) with rx := [wRx 2 b] }
    (s.rxAt 0 0 2).isSome = true ∧ rc.kind = 2 ∧ s.groupOf 0 rc.group.toNat = some wGroup ∧
      s.crOf 0 rc.group.toNat rc.tile.toNat = some 0 ∧
      s.rangesRefused 0 (s.homeCore 0 wGroup 0 / 16) [(s.crAddr 0 0, 16), (s.combineRange 0 0).1, (s.combineRange 0 0).2] = false ∧
      s.mayAccess 0 [(s.crAddr 0 0, 16), (s.combineRange 0 0).1, (s.combineRange 0 0).2] = true ∧
      (s.part 0).job.withdrawn = none ∧ (s.part 0).job.hold = false ∧ s.coreStopped (s.homeCore 0 wGroup 0) = false ∧ (s.cr 0 0).state = 1 := by decide +kernel
theorem witness_withdrawStep :
    (({ parts := [(0, { job := { hold := true } })] } : State).part 0).job.hold = true := by decide
theorem witness_memberRemoval :
    let s : State := { wRed { groups := [wGroup] } {} [] with linkDies := [(0, { routes := [(1, { live := true })] })] }
    (s.part 0).jcp.state.inJob = true ∧ s.groupOf 0 0 = some wGroup ∧ (s.route 0 0 1).live = true := by decide
/-- A part of the step after its core's, and one of that step whose generation is not complete. -/
theorem witness_paramPartReceive (n : Fin 2) :
    let b := ({ step := BitVec.ofNat 32 n.val } : Pb).bytes
    let s := wRedRx 3 b
    let pb := Pb.ofBytes b
    let c := s.runAt 0 (s.linkDie (s.rxDie 0)).homeRuns pb.group.toNat pb.tile.toNat
    (s.rxAt 0 0 3).isSome = true ∧ s.groupOf 0 pb.group.toNat = some wGroup ∧
      (regionOf wGroup.regions 0 pb.tile.toNat).isSome = true ∧ s.coreStopped c = false ∧
      (pb.step = (s.core c).report.step.setWidth 32 + 1 ∨ (pb.step = (s.core c).report.step.setWidth 32 ∧
        (s.part 0).job.genParts.get 0 0 ≠ ({ tiles := 1, opt := { count := 4096 } } : Region).partsOfGen)) ∧
      s.crOf 0 0 0 = none ∧
      s.rangesRefused 0 (c / 16) ([] ++ [] ++ ([(0, 2048)] ++ [(0, 64)] ++ [] ++
        ({ tiles := 1, opt := { count := 4096 } } : Region).recastRanges n.val 0 pb)) = false ∧
      s.mayAccess 0 ([] ++ [] ++ ([(0, 2048)] ++ [(0, 64)] ++ [] ++
        ({ tiles := 1, opt := { count := 4096 } } : Region).recastRanges n.val 0 pb)) = true := by revert n; decide +kernel
theorem witness_channelRequest_port :
    wMap.reqFor 0 0 64 (.port 0) (.read 32) = some (0, { src := .port 0, frame := 0, addr := 64, act := .read 32 }) ∧
      wMap.chanStopped 0 = false ∧ wMap.coreStopped 0 = false ∧ wMap.gateRefuses 0 0 = false ∧ (wMap.chan 0).refused = [] ∧ wMap.outcome 0 { src := .port 0, addr := 64, act := .read 32 } = .served := by decide +kernel
/-- Context 0 loads from line 0 with one request outstanding. -/
def wReq9 (x : Ctx) : State := { wMap with ctxs := [(0, x)] }
theorem witness_channelRequest_stream :
    let s := wReq9 { wCtx 0x70000000 with issued := [{ addr := 0, len := 64 }] }
    let s1 := s.modCtx 0 (fun x => x.reached 0 0 false)
    (s.pieceOf 0 0 0 false).isSome = true ∧
      (match s.pieceOf 0 0 0 false with
       | some (c, r) => decide ((s1.chan c).refused = []) && decide (s1.outcome (chanTower c) r = .served)
       | none => false) = true := by decide +kernel
/-- A read of 4 bytes at the start of host window 0's space by context 0. -/
theorem witness_channelRequest_external :
    let r : StrReq := { addr := 0x2000000000000000, len := 4 }
    let x := wReq .running r
    x.issued[0]? = some r ∧ (wStr x).ctxHolds 0 0 = false ∧ partCut (r.side (x.onDst r false)) r.len = 4 ∧ r.side (x.onDst r false) / 2 ^ 60 = 2 ∧ r.already = false ∧
      r.dead (x.onDst r false) 0 = false ∧ x.sends r false = true ∧ r.data.get none 0 = none ∧
      ([1, 2, 3, 4] : List Byte).length = 4 := by decide +kernel
/-- A write of 4 bytes there by an OUT_STORE. -/
theorem witness_channelRequest_external_write :
    let r : StrReq := { addr := 0x2000000000000000, len := 4 }
    let x : Ctx := { wReq .running r with desc := { kind := .outStore } }
    x.issued[0]? = some r ∧ (wStr x).ctxHolds 0 0 = false ∧ partCut (r.side (x.onDst r true)) r.len = 4 ∧ r.side (x.onDst r true) / 2 ^ 60 = 2 ∧
      r.already = false ∧ r.dead (x.onDst r true) 0 = false ∧ x.sends r true = true ∧
      r.acked.any (fun q => decide (q.1 = 0)) = false ∧ x.externalTurn 0 0 (x.onDst r true) = true ∧ x.desc.kind.isCopy = false := by
  decide +kernel
theorem witness_channelRequest_readBack :
    let r : StrReq := { addr := 0x2000000000000000, len := 4, acked := [(0, 4)] }
    let x : Ctx := { wReq .running r with desc := { kind := .outStore } }
    x.issued[0]? = some r ∧ x.writesHost r = true ∧ (r.acked.map Prod.snd).sum = r.len ∧ (wStr x).ctxStopped 0 = false := by decide +kernel
theorem witness_memsideOp : (wMap.translate 0 64).isSome = true ∧ (wMap.chan 0).poisoned = [] ∧ (wMap.chan 0).refused = [] ∧
    wMap.chanStopped 0 = false ∧ wMap.coreStopped 0 = false ∧ wMap.gateRefuses 0 0 = false ∧ (64 : BitVec 64).toNat < 2 ^ 48 ∧
    wMap.outcome 0 { src := .port 0, addr := 64, act := .memside 1 15 (List.replicate 64 0) } = .served := by decide +kernel
theorem witness_retryResend :
    let r : MemReq := { src := .port 0, addr := 64, act := .read 32, retry := true }
    let s : State := { wMap with channels := [(0, { refused := [r] })] }
    (s.chan 0).refused.findIdx? (fun x => decide (x.src.source = 0)) = some 0 ∧ (s.chan 0).refused[0]? = some r ∧
      s.chanStopped 0 = false ∧ s.outcome 0 r = .served := by decide +kernel
theorem witness_refreshSlot : wLive.dramRuns 0 = true ∧ wLive.dramRuns 31 = true ∧ wLive.chanStopped 0 = false ∧
    wLive.chanStopped 1023 = false := by decide +kernel
/-- Partition 0 with a copy of one page in progress, whose frame is protected. -/
def wCow (r : Option SnapRun) : State :=
  { wMap with
    frames := [(0, { present := true, prot := .cowPending })]
    parts := [(0, { job := { snap := r, body := { plan := some { pages := [{}] } } } })] }
theorem witness_frameCopied :
    let s := wCow (some { queue := [0] })
    (s.frame 0 0).prot = .cowPending ∧ (s.frame 0 0).present = true ∧ (s.part 0).job.snap = some { queue := [0] } ∧
      s.plan 0 = some { pages := [{}] } ∧ [0].find? (fun i => decide (([({} : Ple)].getD i {}).page = 0)) = some 0 ∧
      ([0] : List Nat).head? = some 0 ∧ (s.chan 0).poisoned = [] ∧ (s.chan 1).poisoned = [] := by decide +kernel
theorem witness_frameCopied_free : ((wCow none).frame 0 0).prot = .cowPending ∧ ((wCow none).frame 0 0).present = true ∧ ((wCow none).part 0).job.snap = none := by decide
/-- Context 0 halted on far page 0 of port 0, which is mapped and absent; the port's link is up. -/
def wFar : State :=
  { wMap with
    cxl := [(0, { linkUp := true, pages := 4 })]
    ctxs := [(0, { wCtx 0 with state := .halted, faultCode := 0x0601, faultAddr := 0x1000000000000000 })]
    parts := [(0, { jcp := { farQuota0 := 1 } })] }
theorem witness_farFaultResolve :
    let s := wFar.setFtt 0 0 0 { fill := 1 }
    (s.ctx 0).state = .halted ∧ (s.ctx 0).faultCode = 0x0601 ∧ farPageOf (s.ctx 0).faultAddr.toNat = some (0, 0) ∧ (s.part 0).far = [] ∧
      (s.part 0).evict = none ∧ (s.ftt 0 0 0).present = false ∧ (s.ftt 0 0 0).fill = 1 ∧ (s.cxlPort 0).linkUp = true ∧
      (s.takePage 0 0).isSome = true ∧ s.mayAccess 0 [(s.fttAddr 0 0 0, 8)] = true := by decide +kernel
theorem witness_farFillComplete :
    let r : FarRes := { dpa := some 0 }
    [r].find? (fun r => decide (r.port = 0) && decide (r.page = 0) && r.dpa.isSome) = some r ∧
      ({ state := .enabled, size := 1 } : StoreWindow).takes 0 0 (2 ^ 21) = true := by decide
theorem witness_farTable : wFar.mayAccess 0 [(wFar.fttAddr 0 0 0, 8)] = true := by decide +kernel
theorem witness_farEvict :
    let s := wFar.setFtt 0 0 0 { present := true }
    (s.part 0).jcp.evictStatus ≠ 1 ∧ farPageOf 0x1000000000000000 = some (0, 0) ∧ (s.ftt 0 0 0).present = true ∧
      (s.ftt 0 0 0).dirty = false ∧ s.readFault 0 (s.fttAddr 0 0 0) 8 = none ∧ s.fttHeld 0 0 0 = false ∧ s.hostBlocked = false := by decide +kernel
theorem witness_evictComplete :
    let s : State := { wMap with parts := [(0, { evict := some (0, 0) })], cxl := [(0, { linkUp := true, pages := 4, used := [{ part := 0, page := 0 }] })] }
    (s.part 0).evict = some (0, 0) ∧ s.farBusy 0 0 0 = false ∧ s.farHeld 0 0 0 = true ∧ (s.ftt 0 0 0).present = false ∧
      (s.ftt 0 0 0).dirty = false ∧ s.mayAccess 0 [(s.fttAddr 0 0 0, 8)] = true := by decide +kernel
theorem witness_cxlLink : (wFar.cxlPort 0).linkUp = true ∧ (wFar.cxlPort 1).linkUp = false := by decide
/-- Port 0 as given. -/
def wPort (x : Port) : State := { wLive with ports := [(0, x)] }
theorem wPort_runs (x : Port) : (wPort x).portStopped 0 = false := rfl
theorem witness_flit : let s := wPort { state := .up, replay := [{}], resend := [{}], nakRead := true }
    let x := s.port 0
    x.state = .up ∧ x.resend = [{}] ∧ x.nakRead = true ∧ x.replay ≠ [] ∧ s.portStopped 0 = false := by decide +kernel
/-- The CRC of a flit or of a block does not cover its own field, so a flit and a block with a right CRC exist. -/
theorem wFlit_crc (f : Flit) (b : BitVec 32) : ({ f with crc := b } : Flit).crcOf = f.crcOf := by unfold Flit.crcOf; rfl
theorem wBlock_crc (f : ExBlock) (b : BitVec 32) : ({ f with crc := b } : ExBlock).crcOf = f.crcOf := by unfold ExBlock.crcOf; rfl
/-- Flits with a right and with a wrong CRC, of any number. -/
theorem witness_flitReceive (n : BitVec 12) :
    let f : Flit := ({ seq := n } : Flit).sealed
    let g : Flit := { f with crc := ~~~f.crcOf }
    f.crc = f.crcOf ∧ f.seq = n ∧ g.crc ≠ g.crcOf := by
  intro f g
  refine ⟨(wFlit_crc _ _).symm, rfl, ?_⟩
  rw [show g.crcOf = f.crcOf from wFlit_crc _ _]
  show ~~~f.crcOf ≠ f.crcOf
  generalize f.crcOf = x
  bv_omega
theorem witness_flitReceive_old : let x := ((wPort { state := .up, rxSeq := 5 }).port 0)
    x.state = .up ∧ (4 : BitVec 12) ≠ x.rxSeq ∧ (x.rxSeq - 4).toNat < 2048 ∧ ((x.count 2 1).rxSeq - 4).toNat < 2048 := by decide
theorem witness_flitSend_new : let x := (wPort { state := .up }).port 0
    x.state = .up ∧ x.resend = [] ∧ x.replay.length < 256 := by decide
theorem witness_flitSend_full : 256 ≤ (List.replicate 256 ({} : Flit)).length ∧ (List.replicate 255 ({} : Flit)).length < 256 := by
  simp only [List.length_replicate]; decide
theorem witness_flitSend_exchange : let x := (wPort { state := .exchange }).port 0
    x.state = .exchange ∧ x.peerAcked = false := by decide
theorem witness_signalDetect : let x := (wPort { state := .signal, enable := true }).port 0
    x.enable = true ∧ x.state = .signal ∧ 4 ≤ laneCount 0x0F ∧ ¬ 4 ≤ laneCount 0x07 := by decide
theorem witness_equalisationDone : let x := (wPort { state := .equalise }).port 0
    x.state = .equalise ∧ x.lanesFor 0xFF ≠ 0 ∧ x.lanesFor 0x07 = 0 := by decide
theorem witness_exchangeBlockReceive (major : BitVec 8) (b : ExBlock)
    (hb : b = { ({ magic := 0x4B4C5058, major := major, acked := true } : ExBlock) with
      crc := ({ magic := 0x4B4C5058, major := major, acked := true } : ExBlock).crcOf }) :
    let x : Port := { state := .exchange, lanes := 0xFF, lastBlock := some b, sameBlocks := 2, sentAcked := true }
    x.state = .exchange ∧ b.crc = b.crcOf ∧ b.magic = 0x4B4C5058 ∧ b.major = major ∧ x.lastBlock = some b ∧ 2 ≤ x.sameBlocks ∧
      x.sentAcked = true ∧ b.acked = true ∧ x.lanes = 0xFF := by
  refine ⟨rfl, ?_, ?_, ?_, rfl, Nat.le_refl 2, rfl, ?_, rfl⟩
  · rw [hb, wBlock_crc]
  all_goals rw [hb]
/-- At or above 1.2 on both ends, a port may go UP on fewer lanes than 8. -/
theorem witness_exchangeBlockReceive_degraded : 2 ≤ ({ maxVer := 0x102 } : Port).minor ∧ 2 ≤ (2 : BitVec 8).toNat := by decide
theorem witness_signalLoss : let x := (wPort { state := .signal }).port 0
    x.state ≠ .disabled ∧ x.state ≠ .down ∧ x.state ≠ .loopback := by decide
theorem witness_trainingAttemptTimeout : let s := wPort { state := .lock, attempts := 2 }
    (s.port 0).state = .lock ∧ s.portStopped 0 = false ∧ 3 ≤ (s.port 0).attempts + 1 := by decide +kernel
theorem witness_klpEnable : (State.reset.port 0).enable = false ∧ (State.reset.port 0).state ≠ .up ∧ (State.reset.port 0).state ≠ .retrain := by
  decide
/-- Link die 0 with one route to member 1 of group 0 by port 0, which is UP, and one to this module. -/
def wLink : State :=
  { wLive with
    linkDies := [(0, { routes := [(0, { valid := true, live := true, self := true }), (1, { valid := true, live := true })] })]
    ports := [(0, { state := .up, ver := 2, fwdEn := true })] }
theorem witness_packetSend :
    let e := (wLink.linkDie 0).routes.get {} 1
    let x : OutPkt := { dst := 1 }
    ({ wLink with txq := [x] } : State).txq[0]? = some x ∧ e.valid = true ∧ e.live = true ∧ e.self = false ∧
      wLink.islandStopped (.die (linkIsland 0)) = false ∧ wLink.outPort 0 e.first.toNat x.flow = some 0 ∧ ((wLink.linkDie 0).routes.get {} 0).self = true := by decide +kernel
theorem witness_packetReceive :
    let pkt : Packet := { src := 1, hops := 1 }
    takeFirst (fun q => decide (q.1.cls.toNat = 0)) [(pkt, false)] = some ((pkt, false), []) ∧
      wLink.portStopped 0 = false ∧ wLink.islandStopped (.die (linkIsland 0)) = false ∧
      pkt.epoch = (wLink.linkDie 0).epoch ∧ (wLink.port 0).ver ≠ 0 ∧ pkt.hop.toNat < pkt.hops.toNat ∧ (wLink.port 0).fwdEn = true ∧
      (∀ q ∈ wLink.outPorts 0 (bitsAt pkt.route.toNat 0 5), wLink.partOfPort q = wLink.partOfPort 0) ∧
      wLink.outPort 0 (bitsAt pkt.route.toNat 0 5) pkt.flow = some 0 := by decide +kernel
theorem witness_packetReceive_here :
    let pkt : Packet := { src := 1, hops := 1, hop := 1 }
    pkt.hops.toNat ≤ pkt.hop.toNat ∧ wLink.isMember 0 0 pkt.dst = true ∧ ((wLink.linkDie 0).routes.get {} pkt.src.toNat).live = true := by
  decide +kernel
theorem witness_packetReceive_old : ({} : Packet).epoch < ({ epoch := 1 } : LinkDie).epoch := by decide
theorem witness_control (k : Fin 2) :
    let b := ({ kind := if k = 0 then 1 else 2 } : Ctl).bytes
    ({ wLive with rx := [wRx 0 b] } : State).rxAt 0 0 0 = some { payload := b } ∧ (Ctl.ofBytes b).kind = if k = 0 then 1 else 2 := by
  revert k; decide +kernel
theorem witness_memberUnreachable (g : Nat) :
    (({ wLive with parts := [(0, { unreach := [(g, 1)] })] } : State).part 0).unreach = [(g, 1)] := rfl
theorem witness_epochAhead : (wLink.linkDie 0).epoch < ({ epoch := 1 } : Packet).epoch ∧ wLink.portStopped 0 = false ∧
    takeFirst (fun q => decide (q.1.cls.toNat = 0)) [(({ epoch := 1 } : Packet), true)] = some (({ epoch := 1 }, true), []) := by
  decide +kernel
/-- A ready module of version 1.1 whose partition 0 has the state and job given. -/
def wJob11 (st : JobState) (j : Job := {}) : State :=
  { wLive with mod := { ready := true, jcpVersion := 0x101, inReset := 0 }, parts := [(0, { jcp := { state := st }, job := j })] }
theorem witness_jobCommands (st : JobState) (c : JobCmd) :
    let s := wJob11 st
    s.mod.ready = true ∧ s.hostBlocked = false ∧ (s.part 0).jcp.state = st ∧ (s.part 0).job.waitingCmds = [] ∧ s.mod.jcpVersion &&& 0xFF ≠ 0 ∧ (s.part 0).job.hold = false ∧
      (s.modJcp 0 (fun j => { j with lastCmd := c.code })).cmdWaits 0 c = false := by cases st <;> cases c <;> decide
/-- The smallest image that START takes in development: a header, no section, one variant with no program. -/
def wHeader : List Byte :=
  bytesOf (0x56414557 + 2 ^ 260 + 2 ^ 264 + 0x100 * 2 ^ 272 + 0x100 * 2 ^ 288 + 0x100 * 2 ^ 304 + 0x100 * 2 ^ 320 + 0x100 * 2 ^ 336) 64 ++
    bytesOf (digestOf []).toNat 32
def wStart : State :=
  { wLive with
    mod := { ready := true, jcpVersion := 0x101, inReset := 0, qpart := 0xE4 }
    parts := [(0, { jcp := { epoch := 1, latch := { imageLen := 8320 } } })]
    dram := dramWrite [] 0 wHeader }
theorem witness_jobStart :
    (((wStart.modJcp 0 (fun j => { j with lastCmd := 1 })).setJobState 0 .loading).startCheck 0 { body := { variants := [{}] } }) matches .ok (0, 0) := by
  decide +kernel
theorem witness_jobStart_free : wStart.mod.ready = true ∧ wStart.hostBlocked = false ∧ (wStart.part 0).job.waitingCmds = [] ∧ (wStart.part 0).jcp.state = .idle ∧
    (wStart.modJcp 0 (fun j => { j with lastCmd := 1 })).cmdWaits 0 .start = false := by decide +kernel
theorem witness_jobEnableComplete :
    ((wJob11 .loading).part 0).jcp.state = .loading ∧ ((wJob11 .loading).part 0).job.restore = none := by decide
theorem witness_stopStepReached (st : JobState) :
    let s := wJob11 st { stopStep := some 0 }
    (s.part 0).job.stopStep = some 0 ∧ s.allEnded 0 0 = true ∧ (s.part 0).job.snapDue = none ∧ (s.part 0).job.snap = none ∧
      (s.part 0).job.latched.modes.getLsbD 4 = false := by cases st <;> decide
theorem witness_endStepWrite :
    (wJob11 .running).highBegun 0 = none ∧
      ({ wJob11 .running with cores := [(0, { report := { inStep := true } })] } : State).highBegun 0 = some 0 := by decide
theorem witness_abortComplete : (wJob11 .aborting).partBusy 0 = false := by decide
theorem witness_variantChange :
    let s := wJob11 .running { reselect := some 0 }
    (s.part 0).job.reselect = some 0 ∧ (s.part 0).job.hold = false ∧ s.returnTest 0 = false ∧
      (∀ c ∈ s.jobCores 0, (s.core c).report.inStep = false ∧ (s.core c).report.next = (s.part 0).jcp.step + 1) := by
  decide
theorem witness_bar2Access :
    let s : State := { wMap with mod := { bar2En := true, inReset := 0 } }
    (match mpaPlace 0 with
      | some pl => decide (s.partOfTower pl.tower = 0) && s.memoryOn (quadOfTower pl.tower) && decide (pl.frame < 3070)
      | none => false) = true ∧ s.hostBlocked = false ∧ s.bar2Held 0 = false := by decide +kernel
/-- With no access of the host refused or waiting. -/
theorem witness_hostFree (st : JobState) (j : Job) : State.reset.hostBlocked = false ∧ wLive.hostBlocked = false ∧ (wJob11 st j).hostBlocked = false :=
  ⟨rfl, rfl, rfl⟩
theorem witness_hostMaxVersionWrite : ∀ p < 4, ((wJob11 .idle).part p).jcp.state = .idle ∨ ((wJob11 .idle).part p).jcp.state = .notLead := by
  decide
theorem witness_partCfgWrite_legal : layoutLegal 0xE4 = true ∧ (wJob11 .idle).mod.cfgBusy = false := by decide
theorem witness_partCfgWrite_free : ∀ p < 4, (wJob11 .idle).testing p = false ∧ ((wJob11 .idle).part p).jcp.state = .idle := by decide
theorem witness_partCfgWrite_sets : (wJob11 .idle).setsDiffer 0xE4 = false := by decide
theorem witness_layoutDone : ({ State.reset with mod := { cfgBusy := true } } : State).gatesToClose = false := by decide
theorem witness_epochWrite : ((wJob11 .running).part 0).jcp.epoch < 1 ∧ ((wJob11 .running).part 0).power.state = .run := by decide
theorem witness_windows : (State.reset.window 0).state = .disabled ∧
    (({ windows := [(0, { state := .enabled })] } : State).window 0).state = .enabled := by decide
theorem witness_persistAckWrite :
    let s : State := { parts := [(0, { jcp := { segWritten := 1 } })] }
    ¬ (1 : BitVec 64) < (s.part 0).jcp.persistAck ∧ ¬ (s.part 0).jcp.segWritten < 1 := by decide
theorem witness_farQuotaWrite : ((List.range 4).map (fun q => if q = 0 then 0 else (wFar.part q).jcp.quota 0)).sum + 4 ≤
    (if (wFar.cxlPort 0).linkUp then (wFar.cxlPort 0).pages else 0) := by decide
/-- Partition 0 with the job given, whose plan has one page, and a delivered packet of a class. -/
def wSnap (j : Job) (cls : BitVec 3) (bs : List Byte) : State :=
  { wMap with
    parts := [(0, { job := { j with body := { plan := some { pages := [{}], partnerPages := 4 } } } })]
    rx := [wRx cls bs] }
/-- The payload of a snapshot packet's sub-header. -/
def wSn (k : BitVec 3) : List Byte := ({ kind := k } : Sn).bytes
theorem witness_snapshotPoint :
    let s := wSnap { snapDue := some 0 } 0 []
    (s.part 0).job.snapDue = some 0 ∧ s.plan 0 = some { pages := [{}], partnerPages := 4 } ∧ (s.part 0).job.skipReason = none ∧
      s.reductionsRest 0 = true ∧ s.mayAccess 0 [(0, 2 ^ 18)] = true := by decide +kernel
theorem witness_copyBudgetExpire : wLive.ctlHalted 72 = false ∧ wLive.ctlHalted 75 = false := by decide
theorem witness_snapshotPoint_skip :
    let s := wSnap { snapDue := some 0, partnerLost := true } 0 []
    (s.part 0).job.snapDue = some 0 ∧ (s.part 0).job.skipReason = some 3 := by decide
theorem witness_rideDigest : ((wSnap {} 4 (wSn 4)).rxAt 0 0 4).isSome = true ∧ (Sn.ofBytes (wSn 4)).kind = 4 := by decide
theorem witness_snapControl (k : Fin 7) :
    let c : Ctl := { kind := [0x10, 0x11, 0x12, 0x13, 0x14, 0x18, 0x19].getD k.val 0 }
    (Ctl.ofBytes c.bytes).kind = [0x10, 0x11, 0x12, 0x13, 0x14, 0x18, 0x19].getD k.val 0 := by revert k; decide
theorem witness_snapCommitted :
    let r : SnapRun := { sealed := true }
    let c := Ctl.ofBytes ({ kind := 0x12 } : Ctl).bytes
    ((wSnap { snap := some r } 0 []).part 0).job.snap = some r ∧ r.id = c.id := by decide
theorem witness_snapAbort :
    let s := wSnap { snap := some {} } 0 []
    (s.part 0).job.snap = some {} ∧ s.partnerOf 0 = 0 ∧ s.openSlot 0 0 0 = none := by decide
theorem witness_snapOpen :
    let c := Ctl.ofBytes ({ kind := 0x10 } : Ctl).bytes
    let s := wSnap {} 0 ({ kind := 0x10 } : Ctl).bytes
    (s.rxAt 0 0 0).isSome = true ∧ s.plan 0 = some { pages := [{}], partnerPages := 4 } ∧ s.partnerOf 0 = 0 ∧
      bitsAt c.rest 113 27 ≤ 4 ∧ (s.held 0 (bitsAt c.rest 112 1)).pinned = false := by decide
/-- As before, with slot 0 of the partner region opened. -/
def wHold (bs : List Byte) (cls : BitVec 3) : State := (wSnap {} cls bs).setHeld 0 0 { opened := true }
theorem witness_holder (k : Fin 4) :
    let b := wSn (BitVec.ofNat 3 k.val)
    let s := wHold b 4
    let h := Sn.ofBytes b
    (s.rxAt 0 0 4).isSome = true ∧ s.openSlot 0 h.id 0 = some 0 ∧ (s.plan 0).isSome = true ∧ h.kind.toNat = k.val := by revert k; decide
theorem witness_snapManifest : let h := Sn.ofBytes (wSn 1)
    manifestOff + (2 ^ 21 * h.index.toNat + h.offset.toNat) + 0 ≤ headerArea := by decide
theorem witness_snapSeal : ((wHold [] 0).dropRx 0).openSlot 0 0 0 = some 0 := by decide
theorem witness_snapFetch :
    let s : State := { (wSnap {} 0 []).setHeld 0 0 { committed := true } with dram := dramWrite [] 0 (bytesOf ({} : Cm).toNat 64) }
    [0, 1].find? (fun k => (s.held 0 k).committed &&
        (Cm.ofNat (s.jobNat 0 (({ pages := [{}], partnerPages := 4 } : SnapPlan).slotBase k) 64)).any (fun x => decide (x.id = 0))) =
      some 0 ∧ (s.held 0 0).member = 0 ∧
      (Ctl.ofBytes ({ kind := 0x18 } : Ctl).bytes).rest.testBit 85 = false := by decide +kernel
theorem witness_fetchData_piece : ({} : FetchRun).take 0 0 [1] = ({ got := [(0, [1])] }, none) := by decide
/-- A whole page, of any bytes, that the manifest names. -/
def wPageManifest (pg : List Byte) : List Byte := List.replicate 128 0 ++ bytesOf ({ digest := digestOf pg } : Me).toNat 48
theorem witness_fetchData_page (pg : List Byte) (h : pg.length = 2 ^ 21) :
    ({ manifest := wPageManifest pg } : FetchRun).take 0 0 pg = ({ manifest := wPageManifest pg }, some pg) ∧
      (manifestEntry (wPageManifest pg) 0).fits pg = true := by
  have hd := (digestOf pg).isLt
  refine ⟨by simp [FetchRun.take, FMap.get, FMap.erase, h], ?_⟩
  have e : (manifestEntry (wPageManifest pg) 0).digest = digestOf pg := by
    rw [manifestEntry, wPageManifest, List.drop_left' List.length_replicate, List.take_of_length_le (Nat.le_of_eq (length_bytesOf _ _)),
      ofBytes_bytesOf, Me.ofNat, Me.toNat]
    refine BitVec.eq_of_toNat_eq ?_
    simp only [BitVec.toNat_ofNat, bitsAt, bitOf, Bool.false_eq_true, if_false]
    omega
  simp [Me.fits, e, h]
theorem witness_fetchEnd :
    let c := Ctl.ofBytes ({ kind := 0x19 } : Ctl).bytes
    c.kind = 0x19 ∧ BitVec.ofNat 4 (bitsAt c.rest 136 4) = 0 := by decide
theorem witness_fetchResend :
    let f : FetchRun := { begun := true }
    f.begun = true ∧ f.ended = none ∧ f.placed = [] ∧ f.bad = [] ∧ f.got = [] ∧ f.resends < 64 := by decide
/-- The manifest of no page, and the fetch that has it. -/
def wManifest : List Byte := bytesOf ({} : Mf).toNat 128
theorem witness_flashWriteComplete : Mf.ofBytes wManifest = some {} ∧
    ({ manifest := wManifest, ended := some 0 } : FetchRun).all = true := by decide +kernel
theorem witness_snapRestore_begin :
    let h : HeaderArea := { commit := BitVec.ofNat 512 ({ tier := 1, digest := digestOf wManifest } : Cm).toNat, manifest := wManifest }
    let s := wSnap { restore := some {}, latched := { startStep := 1 } } 0 []
    h.good {} 0 1 = some {} ∧ s.restoreFits 0 {} {} = true ∧ s.restoreWaits 0 {} = false ∧ (s.part 0).job.partnerLost = false := by decide +kernel
theorem witness_snapRestore_end :
    let f : FetchRun := { begun := true, manifest := wManifest }
    let r : Restore := { fetch := f }
    let s := wSnap { restore := some r, latched := { startStep := 1 } } 0 []
    f.all = true ∧ f.manifest ≠ [] ∧ s.restoreFits 0 r {} = true ∧ s.restorePages 0 [] none [] wManifest [] = .ok s := by
  intro f r s
  exact ⟨by decide +kernel, by decide +kernel, by decide +kernel, rfl⟩
theorem witness_sergeSegmentWrite :
    let r : SergeRun := { total := 1 }
    [r].find? (fun r => decide (r.first ≤ 0) && decide (0 < r.first + BitVec.ofNat 64 r.total)) = some r ∧
      ({ state := .enabled, size := 64 } : StoreWindow).size.toNat / 32 = 2 ∧ (0 : Nat) < 0 + 2 ∧
      ({ state := .enabled, size := 64 } : StoreWindow).takes 0 0 (2 ^ 26) = true := by decide
theorem witness_rejoinLate : ((wSnap { withdrawn := some 0 } 0 []).part 0).job.withdrawn = some 0 ∧ (0 : BitVec 64) ≤ (Ctl.ofBytes ({ kind := 0x21 } : Ctl).bytes).id := by decide
theorem witness_restoreComplete :
    let r : Restore := { done := true }
    let s := wSnap { restore := some r } 0 []
    (s.part 0).job.restore = some r ∧ (s.plan 0).isSome = true ∧ r.rollback = false := by decide
/-- The machine in the exit phase given of an episode of a reach. -/
def wExit (x : RstPhase) (r : Reach) (e : Episode := {}) : State :=
  { State.reset with rst := { episodes := [{ e with phase := x, reach := r }] } }
theorem witness_resetSources : (wExit .ready .warm).power12 = true ∧ (wExit .ready .warm).present12 = true ∧
    (wExit .ready .warm).rst.trstLow = false ∧ wLive.clusterStopped 31 = false ∧
    reachOf 0 0 4 = some .warm ∧ bitsAt 0x5A008000 24 8 = 0x5A ∧ bitsAt 0x5A008000 13 3 = 4 ∧ (Reach.die 0).code ≤ 2 := by decide
/-- The inputs at the edges of Table 16.1, and absent. -/
theorem witness_inputs : InputVolts.below (none) 1050 = true ∧ InputVolts.below (some 1049) 1050 = true ∧
    InputVolts.below (some 1050) 1050 = false ∧ InputVolts.below (some 3999) 4000 = true ∧ InputVolts.below (some 5801) 5801 = false ∧
    InputVolts.below (some 5800) 5801 = true ∧ ({} : InputPair).good48 = true ∧ ({} : InputPair).good12 = true ∧
    InputVolts.below ({} : InputPair).v48 4000 = false ∧ ({ v48 := some 5650, v12 := some 1100 } : InputPair).good48 = true ∧
    ({ v48 := some 5650, v12 := some 1100 } : InputPair).good12 = true := by decide
theorem witness_sourceRelease :
    let s := wExit .ready .powerOn { asserted := [(.powerOn, .powerOn)] }
    s.power12 = false ∧ s.rst.absent12 = false ∧ s.switchOpen = false ∧ s.switchOver = false := by decide
/-- DBGREQ_N, the JTAG halt and the shifting TAP: with 12 V, TRST_N high, in development. -/
theorem witness_debugRequest : let s : State := { wExit .ready .warm with rst := { tapRequest := 4 } }
    s.present12 = true ∧ s.rst.trstLow = false ∧ s.debugOpen = true ∧ reachOf (bitsAt s.rst.tapRequest.toNat 5 6)
      (bitsAt s.rst.tapRequest.toNat 3 2) (bitsAt s.rst.tapRequest.toNat 0 3) = some .warm := by decide
theorem witness_lockup_notHalted : wLive.ctlHalted 0 = false ∧ wLive.ctlHalted 77 = false ∧ wLive.clusterHalted 31 = false := by decide
theorem witness_lockup : wLive.clusterStopped 0 = false ∧ wLive.clusterStopped 32 = false ∧ wLive.clusterStopped 35 = false ∧
    wLive.clusterStopped 36 = false ∧ wLive.clusterStopped 37 = false ∧ wLive.clusterStopped 38 = false := by decide +kernel
theorem witness_managementStart : (wExit .ready .warm).power12 = true ∧
    (∀ e ∈ (wExit .ready .warm).rst.episodes, ∀ x ∈ e.asserted, x.2 ≠ .powerOn) ∧ (wExit .ready .warm).rst.mgmtUp = false := by decide
theorem witness_exit : ((wExit .clockStart .warm).exiting .clockStart (fun x => decide (x = .warm))).isSome = true ∧
    ((wExit .strapSample .warm).exiting .strapSample Reach.hub).isSome = true ∧
    ((wExit .optionLoading .warm).exiting .optionLoading Reach.hub).isSome = true ∧
    ((wExit .configRead .warm).exiting .configRead Reach.hub).isSome = true ∧
    ((wExit .bringUp .warm).exiting .bringUp (fun r => r.hasDie 0)).isSome = true ∧
    ((wExit .islandExit (.island (.channel 0))).exiting .islandExit (fun r => decide (r = .island (.channel 0)))).isSome = true ∧
    ((wExit .ready .warm).exiting .ready Reach.hub).isSome = true ∧ (wExit .bringUp .warm).rst.loadFail = false := by decide
/-- A load reads its rows where a copy of each is right. -/
theorem witness_optionLoading : ({} : Fuses).readable = true ∧
    ({ fwSvn := { copy0 := { parityBad := true }, copy1 := { parityBad := true } } } : Fuses).readable = false := by decide
theorem witness_bringUp : wLive.banksOff.getLsbD (dieQuad 0) = false ∧ 0 ∉ ({} : Episode).dies := by decide
theorem witness_refclkReturn : let r : RstRegs := { strapClk := 2, refclkLost := true }
    r.strapClk = 2 ∧ r.refclkLost = true := by decide
theorem witness_recSnapAck : ({ recSnapValid := true } : RstRegs).recSnapValid = true := rfl
/-- The certificate of a class 2 key of zero bytes, issued by the key of hash `r`; its hash; the message that its issuer signs. -/
def wCert (r : BitVec 256) : List Byte := certBytes r 0 2 0 false [] [0]
def wKey (r : BitVec 256) : BitVec 256 := digestOf (((wCert r).drop 64).take 1793)
def wIssued (r : BitVec 256) : Option (List Byte) := some (sigMessage .certificate (digestOf ((wCert r).take 1920)))
/-- The bytes of a signature block by that key (14 R384), its fields as Table 14.5 places them. -/
def wHead (r : BitVec 256) : Nat := 2 ^ 199 + 2 * 2 ^ 204 + 2 ^ 208 + 0x53494742 * 2 ^ 224 + (wKey r).toNat * 2 ^ 256
def wBlock (r : BitVec 256) : List Byte :=
  bytesOf (wHead r) 64 ++ (List.replicate 1472 0 ++ (wCert r ++ List.replicate 3264 0))
/-- The block over a digest in a context. -/
def wSig (r : BitVec 256) (c : SigContext) (dg : BitVec 256) : SigBlock := SigBlock.ofBytes (wBlock r) (wIssued r) (some (sigMessage c dg))
def wCertHead (r : BitVec 256) : Nat := 2 * 2 ^ 140 + 2 ^ 144 + 0x43455254 * 2 ^ 160 + r.toNat * 2 ^ 256
theorem wCert_length (r : BitVec 256) : (wCert r).length = 3392 := by
  simp only [wCert, certBytes, List.length_append, length_bytesOf, List.length_take, padTo, List.length_replicate]
  decide
theorem wCert_head (r : BitVec 256) : ofBytes ((wCert r).take 64) = wCertHead r := by
  have h : (wCert r).take 64 = bytesOf (wCertHead r) 64 := by
    have e : wCert r = bytesOf (wCertHead r) 64 ++ ((padTo 1856 []).take 1856 ++ (padTo 1472 [0]).take 1472) := by
      rw [wCert, certBytes]
      congr 2
    rw [e, List.take_left' (length_bytesOf _ _)]
  rw [h, ofBytes_bytesOf]
  have := r.isLt
  simp only [wCertHead]
  omega
theorem wBlock_head (r : BitVec 256) : ofBytes ((wBlock r).take 64) = wHead r := by
  rw [wBlock, List.take_left' (length_bytesOf _ _), ofBytes_bytesOf]
  have := (wKey r).isLt
  simp only [wHead]
  omega
theorem wBlock_cert (r : BitVec 256) : ((wBlock r).drop 1536).take 3392 = wCert r := by
  rw [wBlock, ← List.append_assoc, List.drop_left' (by simp only [List.length_append, length_bytesOf, List.length_replicate]),
    List.take_left' (wCert_length r)]
/-- What the block's fields read. -/
theorem wSig_fields (r : BitVec 256) (c : SigContext) (dg : BitVec 256) : let b := wSig r c dg
    b.magic = 0x53494742 ∧ b.cls = 2 ∧ b.cert = true ∧ b.keyIndex = 0 ∧ b.len = 1 ∧ b.signerHash = wKey r ∧ b.certificate = wCert r := by
  have h := wBlock_head r
  have := (wKey r).isLt
  have hb : (wHead r).testBit 199 = true := by
    rw [Nat.testBit_eq_decide_div_mod_eq]; exact decide_eq_true (by simp only [wHead]; omega)
  refine ⟨?_, ?_, ?_, ?_, ?_, ?_, ?_⟩ <;>
    simp only [wSig, SigBlock.ofBytes, h, bitsAt, hb, if_true]
  · exact congrArg (BitVec.ofNat 32) (by simp only [wHead]; omega)
  · exact congrArg (BitVec.ofNat 4) (by simp only [wHead]; omega)
  · exact congrArg (BitVec.ofNat 4) (by simp only [wHead]; omega)
  · exact congrArg (BitVec.ofNat 16) (by simp only [wHead]; omega)
  · refine BitVec.eq_of_toNat_eq ?_; simp only [BitVec.toNat_ofNat, wHead]; omega
  · exact wBlock_cert r
/-- What its certificate's fields read. -/
theorem wCert_fields (r : BitVec 256) (b : SigBlock) (h : b.certificate = wCert r) :
    b.certOk = true ∧ b.certIssuer = r ∧ b.certCls = 2 ∧ b.certIndex = 0 ∧ b.certDev = false ∧ b.certModule = 0 ∧
      digestOf b.subject = wKey r ∧ some (sigMessage .certificate b.certDigest) = wIssued r := by
  have hh : b.certHead = wCertHead r := by rw [SigBlock.certHead, h, wCert_head]
  have := r.isLt
  refine ⟨?_, ?_, ?_, ?_, ?_, ?_, ?_, ?_⟩
  · simp only [SigBlock.certOk, hh, bitsAt, wCertHead, Bool.and_eq_true, decide_eq_true_eq]; omega
  · rw [SigBlock.certIssuer, hh]
    refine BitVec.eq_of_toNat_eq ?_
    simp only [BitVec.toNat_ofNat, wCertHead, bitsAt]
    omega
  · rw [SigBlock.certCls, hh]; exact congrArg (BitVec.ofNat 4) (by simp only [wCertHead, bitsAt]; omega)
  · rw [SigBlock.certIndex, hh]; exact congrArg (BitVec.ofNat 4) (by simp only [wCertHead, bitsAt]; omega)
  · rw [SigBlock.certDev, hh]; simp only [Nat.testBit_eq_decide_div_mod_eq, wCertHead, decide_eq_false_iff_not]; omega
  · rw [SigBlock.certModule, hh]; exact congrArg (BitVec.ofNat 64) (by simp only [wCertHead, bitsAt]; omega)
  · rw [SigBlock.subject, h, wKey]
  · rw [SigBlock.certDigest, h, wIssued]
/-- A module in development whose root key has that hash. -/
def wFw (r : BitVec 256) : Firmware := { loaded := { rootHash := r } }
/-- The block passes every check of 14 R387 but the last, for which its signature must be one over the digest in the object's context. -/
theorem wFw_check (f : Firmware) (r : BitVec 256) (c c' : SigContext) (dg : BitVec 256) (l : List Nat) (h : l.contains 2 = true)
    (hf : f.loaded = (wFw r).loaded) :
    f.sigCheck c dg l (wSig r c' dg) = if sigMessage c' dg = sigMessage c dg then none else some 5 := by
  obtain ⟨h1, h2, h3, h4, h5, h6, h7⟩ := wSig_fields r c' dg
  obtain ⟨k1, k2, k3, k4, k5, k6, k7, k8⟩ := wCert_fields r _ h7
  have i1 : (wSig r c' dg).issuerMsg = wIssued r := rfl
  have i2 : (wSig r c' dg).objectMsg = some (sigMessage c' dg) := rfl
  have e : f.anchor 2 = some r := by rw [Firmware.anchor, hf]; rfl
  have rv : f.loaded.keyRevoke.value.getLsbD 0 = false := by rw [hf]; simp [wFw, FuseRow.value, FuseRow.read]
  have hm : 2 ∈ l := by simpa using h
  have rv' : f.loaded.keyRevoke.value[0] = false := by simpa using rv
  simp only [Firmware.sigCheck, h1, h2, h3, h4, h5, h6, k1, k2, k3, k4, k5, k6, k7, i1, ← k8, i2, SigBlock.lenOk]
  by_cases q : sigMessage c' dg = sigMessage c dg <;> simp [q, hm, e, rv']
theorem wFw_sig (r : BitVec 256) (c : SigContext) (dg : BitVec 256) (l : List Nat) (h : l.contains 2 = true) :
    (wFw r).sigCheck c dg l (wSig r c dg) = none := by rw [wFw_check (wFw r) r c c dg l h rfl, if_pos rfl]
/-- A signature of another context does not verify (14 R386, 14.6). -/
theorem test_sigCheck_context (r dg : BitVec 256) : (wFw r).sigCheck .factory dg [2] (wSig r .manifest dg) = some 5 := by
  have h : sigMessage .manifest dg ≠ sigMessage .factory dg := fun e => absurd (List.append_inj_left e rfl) (by decide)
  rw [wFw_check (wFw r) r .factory .manifest dg [2] rfl rfl, if_neg h]
/-- SHAKE256 of no bytes, from its published standard. -/
def wNone : BitVec 256 := 0x2f76d56e64270cb5821bb862ea52cd3f24eb3e74eb3f3b23138da80b2bddb946
theorem test_shake256_none : digestOf [] = wNone := by decide +kernel
/-- An image with one empty part for each of the targets 0, 2 and 3 (14 R389, Tables 14.9 and 14.10). -/
def wPart (k t off : Nat) : Nat := (t + off * 2 ^ 64 + wNone.toNat * 2 ^ 128) * 2 ^ (1024 + 384 * k)
def wParts : List Byte :=
  bytesOf (0x4657494D + 2 ^ 110 + 3 * 2 ^ 136 + wPart 0 0 0x10000 + wPart 1 2 0x810000 + wPart 2 3 0x810000) 512
/-- Its commit record with the header's digest `d`, and the slot's bytes as R389 lays them out. -/
def wRec (d : BitVec 256) : FwRec := { digest := d }
def wSlotBytes (r d : BitVec 256) : List Byte :=
  bytesOf ((wRec d).word fcCommit).toNat 64 ++ (List.replicate 4032 0 ++ (wParts ++ (List.replicate 3584 0 ++ wBlock r)))
def wSupply (r d : BitVec 256) : FwSupply :=
  { bytes := wSlotBytes r d, issuerMsg := wIssued r, objectMsg := some (sigMessage .firmware d) }
def wImage (r d : BitVec 256) : FwImage := { header := wParts, sig := wSig r .firmware d, digests := List.replicate 3 (digestOf []) }
theorem wBlock_length (r : BitVec 256) : (wBlock r).length = 8192 := by
  simp only [wBlock, List.length_append, length_bytesOf, List.length_replicate, wCert_length]
theorem wParts_length : wParts.length = 512 := length_bytesOf _ _
theorem wSlot_length (r d : BitVec 256) : (wSlotBytes r d).length = 16384 := by
  simp only [wSlotBytes, List.length_append, length_bytesOf, List.length_replicate, wBlock_length, wParts_length]
theorem wSlot_header (r d : BitVec 256) : ((wSlotBytes r d).drop 0x1000).take 512 = wParts := by
  rw [wSlotBytes, ← List.append_assoc, List.drop_left' (by simp only [List.length_append, length_bytesOf, List.length_replicate]),
    List.take_left' wParts_length]
theorem wSlot_block (r d : BitVec 256) : ((wSlotBytes r d).drop 0x2000).take 8192 = wBlock r := by
  rw [wSlotBytes, ← List.append_assoc, ← List.append_assoc, ← List.append_assoc,
    List.drop_left' (by simp only [List.length_append, length_bytesOf, List.length_replicate, wParts_length]),
    List.take_of_length_le (Nat.le_of_eq (wBlock_length r))]
/-- The header's bits: three parts, each empty; then what the checks of R392 read. -/
theorem wParts_bits : let b := ofBytes wParts
    bitsAt b 136 8 = 3 ∧ (∀ k < 3, bitsAt b (1120 + 384 * k) 32 = 0) ∧ bitsAt b 32 32 = 0 := by decide +kernel
theorem wParts_checks : let i : FwImage := { header := wParts, digests := List.replicate 3 wNone }
    i.hubCheck = none ∧ i.ctlCheck = none ∧ i.bits.testBit 110 = true ∧ i.svn = 0 ∧
      (List.range i.partCount).all (fun k => decide (i.digests.getD k 0 = i.partDigest k)) = true := by decide +kernel
theorem wSupply_image (r d : BitVec 256) : (wSupply r d).image = wImage r d := by
  obtain ⟨h1, h2, _⟩ := wParts_bits
  have hd (f : Nat → List Byte) : (List.range 3).map (fun k => digestOf ((f k).take (bitsAt (ofBytes wParts) (1120 + 384 * k) 32))) =
      List.replicate 3 (digestOf []) := by
    simp only [show List.range 3 = [0, 1, 2] from rfl, List.map_cons, List.map_nil, h2 0 (by decide), h2 1 (by decide), h2 2 (by decide),
      List.take_zero, List.replicate]
  simp only [FwSupply.image, wSupply, FwImage.ofSlot, wSlot_header, wSlot_block, h1, hd, wImage, wSig]
/-- The part checks do not read the signature block. -/
theorem hubCheck_sig (h : List Byte) (x y : SigBlock) (l : List (BitVec 256)) :
    ({ header := h, sig := x, digests := l } : FwImage).hubCheck = ({ header := h, sig := y, digests := l } : FwImage).hubCheck ∧
    ({ header := h, sig := x, digests := l } : FwImage).ctlCheck = ({ header := h, sig := y, digests := l } : FwImage).ctlCheck := ⟨rfl, rfl⟩
theorem wImage_ok (r d : BitVec 256) : (wImage r d).hubCheck = none ∧ (wImage r d).ctlCheck = none := by
  obtain ⟨h1, h2, _⟩ := wParts_checks
  rw [wImage, test_shake256_none, (hubCheck_sig wParts _ {} _).1, (hubCheck_sig wParts _ {} _).2]
  exact ⟨h1, h2⟩
theorem wImage_header (r d : BitVec 256) : (wImage r d).header = wParts ∧ (wImage r d).sig = wSig r .firmware d := by
  simp only [wImage, and_self]
theorem wFw_header (f : Firmware) (r d : BitVec 256) (hf : f.loaded = (wFw r).loaded) (x : FwImage) (hx : x.header = wParts)
    (hy : x.sig = wSig r .firmware d) (hd : digestOf wParts = d) : f.headerCheck 0 x d = none := by
  have hp : f.production = false := by rw [Firmware.production, hf]; simp [Fuses.production, wFw, FuseRow.value, FuseRow.read]
  have hc : f.headerClasses = [2, 4] := by rw [Firmware.headerClasses, hp]; rfl
  have hg : x.digest = d := by rw [FwImage.digest, hx, List.take_of_length_le (Nat.le_of_eq wParts_length), hd]
  have hb : x.bits.testBit 110 = true := by rw [FwImage.bits, hx]; exact wParts_checks.2.2.1
  have hs : f.sigCheck .firmware d [2, 4] x.sig = none := by
    rw [hy]; exact (wFw_check f r .firmware .firmware d [2, 4] rfl hf).trans (if_pos rfl)
  simp [Firmware.headerCheck, hc, hg, hs, hp, hb]
/-- Table 14.11: a record reads back from its word. -/
theorem ofWord_word (x : FwRec) (m : Nat) (h : m < 2 ^ 32) : FwRec.ofWord m (x.word m) = some x := by
  have h1 := x.seq.isLt
  have h2 := x.version.isLt
  have h3 := x.digest.isLt
  obtain ⟨n, hn⟩ : ∃ n, x.seq.toNat * 2 ^ 176 + x.version.toNat * 2 ^ 192 + x.digest.toNat * 2 ^ 224 + m * 2 ^ 480 = n := ⟨_, rfl⟩
  obtain ⟨w, hw⟩ : ∃ w, withCrc n = w := ⟨_, rfl⟩
  obtain ⟨c, hc⟩ : ∃ c, (crc32 (bytesOf (n / 2 ^ 32) 60)).toNat = c := ⟨_, rfl⟩
  have c0 : c < 2 ^ 32 := hc ▸ (crc32 (bytesOf (n / 2 ^ 32) 60)).isLt
  have c1 : n / 2 ^ 32 * 2 ^ 32 + c = w := by rw [← hw, withCrc, hc]
  have c2 : w / 2 ^ 32 = n / 2 ^ 32 := by omega
  have e : (x.word m).toNat = w := by rw [FwRec.word, BitVec.toNat_ofNat, hn, hw]; omega
  rw [FwRec.ofWord, recordOk, fcDigest, e, if_pos]
  · congr 1
    cases x
    simp only [FwRec.mk.injEq]
    refine ⟨?_, ?_, ?_⟩ <;> refine BitVec.eq_of_toNat_eq ?_ <;> simp only [BitVec.toNat_ofNat, bitsAt] <;> simp only at hn h1 h2 h3 <;> omega
  · simp only [bitsAt, Bool.and_eq_true, decide_eq_true_eq, c2, hc]
    exact ⟨decide_eq_true (by omega), by omega⟩
theorem fcCommit_lt : fcCommit < 2 ^ 32 := by unfold fcCommit; omega
theorem wFw_minSvn (r : BitVec 256) : (wFw r).minSvn = 0 ∧ popCount 32 (wFw r).loaded.mgmtSvn.value.toNat = 0 := by
  constructor <;> simp [Firmware.minSvn, wFw, FuseRow.value, FuseRow.read, popCount]
theorem slotCheck_ok (r d : BitVec 256) (x : FwSlot) (hx : x.committed = some (wRec d)) (hi : x.image = wImage r d)
    (hd : digestOf wParts = d) : (wFw r).slotCheck x = none := by
  have h2 := wFw_header (wFw r) r d rfl (wImage r d) (wImage_header r d).1 (wImage_header r d).2 hd
  have h5 : (wRec d).digest = d := rfl
  simp only [Firmware.slotCheck, hx, hi, (wFw_minSvn r).1, h2, (wImage_ok r d).1, h5, Option.map_none]
theorem wSlot_committed (r d : BitVec 256) : FwSlot.committed { commit := (wRec d).word fcCommit, image := wImage r d } = some (wRec d) := by
  rw [FwSlot.committed]
  exact ofWord_word (wRec d) fcCommit fcCommit_lt
theorem wSlot_ok (r d : BitVec 256) (hd : digestOf wParts = d) :
    (wFw r).slotCheck { commit := (wRec d).word fcCommit, image := wImage r d } = none :=
  slotCheck_ok r d _ (wSlot_committed r d) rfl hd
theorem wSupply_upTo (r d : BitVec 256) (n : Nat) (h : 16384 ≤ n) : (wSupply r d).upTo n = wSupply r d := by
  have e : (wSupply r d).bytes.take n = (wSupply r d).bytes := List.take_of_length_le (Nat.le_trans (Nat.le_of_eq (wSlot_length r d)) h)
  rw [FwSupply.upTo, e]
theorem wSupply_commit (r d : BitVec 256) : fcDigest (wSupply r d).commit = d := by
  have h : FwRec.ofWord fcCommit ((wRec d).word fcCommit) = some (wRec d) := ofWord_word (wRec d) fcCommit fcCommit_lt
  have e : (wSupply r d).commit = (wRec d).word fcCommit := by
    rw [FwSupply.commit, wSupply, wSlotBytes, List.take_left' (length_bytesOf _ _), ofBytes_bytesOf]
    have := ((wRec d).word fcCommit).isLt
    refine BitVec.eq_of_toNat_eq ?_
    rw [BitVec.toNat_ofNat]
    omega
  rw [e]
  unfold FwRec.ofWord at h
  split at h
  · exact congrArg FwRec.digest (Option.some.inj h)
  · cases h
theorem supplyCheck_ok (r d : BitVec 256) (x : FwSupply) (hr : x.readError = false) (hi : x.image = wImage r d)
    (hc : fcDigest x.commit = d) (hd : digestOf wParts = d) : (wFw r).supplyCheck x = none := by
  have h2 := wFw_header (wFw r) r d rfl (wImage r d) (wImage_header r d).1 (wImage_header r d).2 hd
  simp only [Firmware.supplyCheck, hr, hi, hc, (wFw_minSvn r).1, h2, (wImage_ok r d).1, (wImage_ok r d).2, Option.map_none,
    Bool.false_eq_true, if_false]
theorem mgmtCheck_ok (r d : BitVec 256) (x : FwImage) (hr : x.readError = false) (hh : x.header = wParts) (hs : x.sig = wSig r .firmware d)
    (hg : x.digests = List.replicate 3 wNone) (hd : digestOf wParts = d) : (wFw r).mgmtCheck x d = none := by
  have h2 := wFw_header (wFw r) r d rfl x hh hs hd
  have h3 : (List.range x.partCount).all (fun k => decide (x.digests.getD k 0 = x.partDigest k)) = true := by
    have h := wParts_checks.2.2.2.2
    simp only [FwImage.partCount, FwImage.partDigest, FwImage.bits, hh, hg] at h ⊢
    exact h
  simp only [Firmware.mgmtCheck, hr, (wFw_minSvn r).2, h2, h3, Bool.false_eq_true, if_false, if_true]
theorem wSupply_ok (r d : BitVec 256) (hd : digestOf wParts = d) : (wFw r).supplyCheck (wSupply r d) = none ∧
    (wFw r).mgmtCheck { (wSupply r d).image with readError := (wSupply r d).image.readError || (wSupply r d).readError }
      (fcDigest (wSupply r d).commit) = none ∧
    bitsAt (wSupply r d).image.bits 32 32 = 0 := by
  refine ⟨supplyCheck_ok r d _ (by rw [wSupply]) (wSupply_image r d) (wSupply_commit r d) hd, ?_, ?_⟩
  · rw [wSupply_commit, wSupply_image]
    exact mgmtCheck_ok r d _ (by simp only [wImage, wSupply, Bool.or_self]) (wImage_header r d).1 (wImage_header r d).2
      (by simp only [wImage, test_shake256_none]) hd
  · rw [wSupply_image, FwImage.bits, (wImage_header r d).1, List.take_of_length_le (Nat.le_of_eq wParts_length)]
    exact wParts_bits.2.2
theorem witness_slotCheck (r : BitVec 256) :
    (wFw r).slotCheck { commit := (wRec (digestOf wParts)).word fcCommit, image := wImage r (digestOf wParts) } = none := wSlot_ok r _ rfl
theorem witness_supplyCheck (r : BitVec 256) : (wFw r).supplyCheck (wSupply r (digestOf wParts)) = none := (wSupply_ok r _ rfl).1
/-- A token for an operation (14 R400): its header, a key area of some bytes, a signature block; it names the module and the sequence 0. -/
def wTokenHead (op : BitVec 8) (subject : BitVec 256) : Nat := op.toNat * 2 ^ 120 + subject.toNat * 2 ^ 256
def wArea (key : List Byte) : List Byte := (padTo 1856 key).take 1856
def wTokenBytes (op : BitVec 8) (subject : BitVec 256) (key block : List Byte) : List Byte :=
  bytesOf (wTokenHead op subject) 64 ++ (wArea key ++ block)
def wTokenOf (op : BitVec 8) (subject : BitVec 256) (key block : List Byte) (issued : Option (List Byte)) : Token :=
  { bytes := wTokenBytes op subject key block, issuerMsg := issued
    objectMsg := some (sigMessage .token (digestOf ((wTokenBytes op subject key block).take 1920))) }
theorem wArea_length (key : List Byte) : (wArea key).length = 1856 := by
  simp only [wArea, padTo, List.length_take, List.length_append, List.length_replicate]; omega
theorem wToken_head (op : BitVec 8) (subject : BitVec 256) (key block : List Byte) :
    ofBytes ((wTokenBytes op subject key block).take 64) = wTokenHead op subject := by
  rw [wTokenBytes, List.take_left' (length_bytesOf _ _), ofBytes_bytesOf]
  have := op.isLt
  have := subject.isLt
  simp only [wTokenHead]
  omega
theorem wToken_area (op : BitVec 8) (subject : BitVec 256) (key block : List Byte) :
    ((wTokenBytes op subject key block).drop 64).take 1856 = wArea key := by
  rw [wTokenBytes, List.drop_left' (length_bytesOf _ _), List.take_left' (wArea_length key)]
theorem wToken_block (op : BitVec 8) (subject : BitVec 256) (key block : List Byte) (h : block.length = 8192) :
    ((wTokenBytes op subject key block).drop 1920).take 8192 = block := by
  rw [wTokenBytes, ← List.append_assoc, List.drop_left' (by simp only [List.length_append, length_bytesOf, wArea_length]),
    List.take_of_length_le (Nat.le_of_eq h)]
/-- What its fields read. -/
theorem wToken_fields (op : BitVec 8) (subject : BitVec 256) (key block : List Byte) (m : Option (List Byte)) (h : block.length = 8192) :
    let t := wTokenOf op subject key block m
    t.bytes.length = 10112 ∧ t.op = op ∧ t.subjectHash = subject ∧ t.moduleId = 0 ∧ t.seq = 0 ∧ t.challenge = 0 ∧ t.keyArea = wArea key ∧
      t.key = (wArea key).take 1793 ∧ t.block = block := by
  have hh : Token.head (wTokenOf op subject key block m) = wTokenHead op subject := by rw [Token.head, wTokenOf, wToken_head]
  have := op.isLt
  have := subject.isLt
  have ha : Token.keyArea (wTokenOf op subject key block m) = wArea key := by rw [Token.keyArea, wTokenOf, wToken_area]
  refine ⟨?_, ?_, ?_, ?_, ?_, ?_, ha, ?_, ?_⟩
  · simp only [wTokenOf, wTokenBytes, List.length_append, length_bytesOf, wArea_length, h]
  · rw [Token.op, hh]; refine BitVec.eq_of_toNat_eq ?_; simp only [BitVec.toNat_ofNat, wTokenHead, bitsAt]; omega
  · rw [Token.subjectHash, hh]; refine BitVec.eq_of_toNat_eq ?_; simp only [BitVec.toNat_ofNat, wTokenHead, bitsAt]; omega
  · rw [Token.moduleId, hh]; exact congrArg (BitVec.ofNat 64) (by simp only [wTokenHead, bitsAt]; omega)
  · rw [Token.seq, hh]; exact congrArg (BitVec.ofNat 32) (by simp only [wTokenHead, bitsAt]; omega)
  · rw [Token.challenge, hh]; exact congrArg (BitVec.ofNat 64) (by simp only [wTokenHead, bitsAt]; omega)
  · rw [Token.key, ha]
  · rw [Token.block, wTokenOf, wToken_block op subject key block h]
theorem tokenCheck_ok (f : Firmware) (t : Token) (op cls : Nat) (k : Bool) (hf : f.tokenFields t op k = true)
    (hs : f.sigCheck .token t.digest [cls] t.sig = none) : (f.tokenCheck t op cls k).1 = true := by
  simp only [Firmware.tokenCheck, hf, hs, Option.isNone_none, Bool.and_self]
theorem allZero_replicate (n : Nat) : allZero (List.replicate n (0 : Byte)) = true := by
  simp only [allZero, List.all_replicate, decide_true]; split <;> rfl
theorem wArea_nil : allZero (wArea []) = true := by
  simp only [wArea, padTo, List.length_nil, List.nil_append, Nat.sub_zero, List.take_replicate, Nat.min_self, allZero_replicate]
/-- RELEASE and LIFECYCLE, by the class 2 key. -/
def wToken (op : BitVec 8) : Token := wTokenOf op 0 [] (wBlock 0) (wIssued 0)
theorem wToken_ok (op : BitVec 8) (n : Nat) (hn : op.toNat = n) : ((wFw 0).tokenCheck (wToken op) n 2 false).1 = true ∧
    (wToken op).seq = (wFw 0).owner.seq := by
  obtain ⟨h1, h2, h3, h4, h5, _, h7, _, h9⟩ := wToken_fields op 0 [] (wBlock 0) (wIssued 0) (wBlock_length 0)
  refine ⟨tokenCheck_ok _ _ _ _ _ ?_ ?_, h5⟩
  · simp only [Firmware.tokenFields, wToken, h1, h2, h3, h4, h7, hn, wArea_nil, wFw]
    simp
  · have e : (wToken op).sig = wSig 0 .token (wToken op).digest := by
      rw [Token.sig, show (wToken op).block = wBlock 0 from h9, wSig]
      rfl
    rw [e]
    exact wFw_sig 0 .token _ [2] rfl
theorem witness_token : ((wFw 0).tokenCheck (wToken 4) 4 2 false).1 = true ∧ ((wFw 0).tokenCheck (wToken 6) 6 2 false).1 = true ∧
    (wToken 4).seq = (wFw 0).owner.seq ∧ (wFw 0).production = false :=
  ⟨(wToken_ok 4 4 rfl).1, (wToken_ok 6 6 rfl).1, (wToken_ok 4 4 rfl).2, by simp [Firmware.production, Fuses.production, wFw, FuseRow.value, FuseRow.read]⟩
/-- A module with an owner, whose key is any bytes but none; the owner signs with its own key, class 5, without a certificate. -/
def wOwned (key : List Byte) : Firmware := { own0 := some { key := key } }
def wOwnHead (key : List Byte) : Nat := 5 * 2 ^ 204 + 2 ^ 208 + 0x53494742 * 2 ^ 224 + (digestOf key).toNat * 2 ^ 256
def wOwnBlock (key : List Byte) : List Byte := bytesOf (wOwnHead key) 64 ++ List.replicate 8128 0
def wOwnSig (key : List Byte) (c : SigContext) (dg : BitVec 256) : SigBlock := SigBlock.ofBytes (wOwnBlock key) none (some (sigMessage c dg))
theorem wOwnBlock_length (key : List Byte) : (wOwnBlock key).length = 8192 := by
  simp only [wOwnBlock, List.length_append, length_bytesOf, List.length_replicate]
theorem wOwnSig_fields (key : List Byte) (c : SigContext) (dg : BitVec 256) : let b := wOwnSig key c dg
    b.magic = 0x53494742 ∧ b.cls = 5 ∧ b.cert = false ∧ b.len = 1 ∧ b.signerHash = digestOf key := by
  have h : ofBytes ((wOwnBlock key).take 64) = wOwnHead key := by
    rw [wOwnBlock, List.take_left' (length_bytesOf _ _), ofBytes_bytesOf]
    have := (digestOf key).isLt
    simp only [wOwnHead]
    omega
  have := (digestOf key).isLt
  refine ⟨?_, ?_, ?_, ?_, ?_⟩ <;> simp only [wOwnSig, SigBlock.ofBytes, h, bitsAt]
  · exact congrArg (BitVec.ofNat 32) (by simp only [wOwnHead]; omega)
  · exact congrArg (BitVec.ofNat 4) (by simp only [wOwnHead]; omega)
  · rw [Nat.testBit_eq_decide_div_mod_eq]; exact decide_eq_false (by simp only [wOwnHead]; omega)
  · exact congrArg (BitVec.ofNat 16) (by simp only [wOwnHead]; omega)
  · refine BitVec.eq_of_toNat_eq ?_; simp only [BitVec.toNat_ofNat, wOwnHead]; omega
theorem wOwned_owner (key : List Byte) : (wOwned key).owner = { key := key } := by simp [Firmware.owner, Firmware.opens, wOwned, Option.filter]
theorem wOwned_sig (key : List Byte) (hk : key ≠ []) (dg : BitVec 256) : (wOwned key).sigCheck .token dg [5] (wOwnSig key .token dg) = none := by
  obtain ⟨h1, h2, h3, h4, h5⟩ := wOwnSig_fields key .token dg
  have a : (wOwned key).anchor 5 = some (digestOf key) := by
    simp [Firmware.anchor, Firmware.ownKey, wOwned_owner, hk]
  have o : (wOwnSig key .token dg).objectMsg = some (sigMessage .token dg) := rfl
  simp only [Firmware.sigCheck, h1, h2, h3, h4, h5, a, o, SigBlock.lenOk]
  simp
def wOwnToken (key : List Byte) (op : BitVec 8) (subject : BitVec 256) (area : List Byte) : Token := wTokenOf op subject area (wOwnBlock key) none
theorem wOwnToken_sig (key : List Byte) (hk : key ≠ []) (op : BitVec 8) (subject : BitVec 256) (area : List Byte) :
    (wOwned key).sigCheck .token (wOwnToken key op subject area).digest [5] (wOwnToken key op subject area).sig = none := by
  obtain ⟨_, _, _, _, _, _, _, _, h9⟩ := wToken_fields op subject area (wOwnBlock key) none (wOwnBlock_length key)
  have e : (wOwnToken key op subject area).sig = wOwnSig key .token (wOwnToken key op subject area).digest := by
    rw [Token.sig, show (wOwnToken key op subject area).block = wOwnBlock key from h9, wOwnSig]
    rfl
  rw [e]
  exact wOwned_sig key hk _
/-- REVOKE_IMAGE and DEBUG_UNLOCK by the owner's key; TRANSFER to a new key; CLAIM of an empty record. -/
theorem witness_ownerToken (key : List Byte) (hk : key ≠ []) (op : BitVec 8) (n : Nat) (hn : op.toNat = n) :
    ((wOwned key).tokenCheck (wOwnToken key op 0 []) n 5 false).1 = true ∧ (wOwnToken key op 0 []).seq = (wOwned key).owner.seq ∧
    (wOwnToken key op 0 []).challenge = (wOwned key).challenge := by
  obtain ⟨h1, h2, h3, h4, h5, h6, h7, _, _⟩ := wToken_fields op 0 [] (wOwnBlock key) none (wOwnBlock_length key)
  refine ⟨tokenCheck_ok _ _ _ _ _ ?_ (wOwnToken_sig key hk op 0 []), ?_, h6⟩
  · simp only [Firmware.tokenFields, wOwnToken, h1, h2, h3, h4, h7, hn, wArea_nil, wOwned]
    simp
  · rw [wOwned_owner]; exact h5
theorem witness_transfer (key area : List Byte) (hk : key ≠ []) :
    ((wOwned key).tokenCheck (wOwnToken key 2 (digestOf ((wArea area).take 1793)) area) 2 5 true).1 = true ∧
      (wOwnToken key 2 (digestOf ((wArea area).take 1793)) area).seq = (wOwned key).owner.seq := by
  obtain ⟨h1, h2, h3, h4, h5, _, _, h8, _⟩ :=
    wToken_fields 2 (digestOf ((wArea area).take 1793)) area (wOwnBlock key) none (wOwnBlock_length key)
  refine ⟨tokenCheck_ok _ _ _ _ _ ?_ (wOwnToken_sig key hk 2 _ area), ?_⟩
  · simp only [Firmware.tokenFields, wOwnToken, h1, h2, h3, h4, h8, wOwned, decide_true]
    simp
  · rw [wOwned_owner]; exact h5
theorem witness_claim (area : List Byte) :
    let t : Token := { wTokenOf 1 (digestOf ((wArea area).take 1793)) area (List.replicate 8192 0) none with i3c := true }
    t.i3c = true ∧ t.bytes.length = 10112 ∧ t.op = 1 ∧ t.moduleId = ({} : Firmware).loaded.moduleId ∧ t.subjectHash = digestOf t.key ∧
      allZero t.block = true ∧ ({} : Firmware).owner.key = [] := by
  obtain ⟨h1, h2, h3, h4, _, _, _, h8, h9⟩ :=
    wToken_fields 1 (digestOf ((wArea area).take 1793)) area (List.replicate 8192 0) none List.length_replicate
  refine ⟨rfl, h1, h2, h4, h3.trans (congrArg digestOf h8.symm), ?_, rfl⟩
  exact (congrArg allZero h9).trans (allZero_replicate 8192)
/-- The hub's exit is at its start, on its first source, with the record of the root key (its empty key's hash) and slot A. -/
def wHub (e : Episode) (d : BitVec 256) : State :=
  { wExit .hubStart .warm e with
    banksOff := 0
    fw := { wFw (digestOf []) with slots := [(0, { commit := (wRec d).word fcCommit, image := wImage (digestOf []) d })] } }
theorem selector_erased (f : Firmware) (h0 : f.sel0 = 0) (h1 : f.sel1 = 0) : f.selector = {} := by
  rw [Firmware.selector, h0, h1]; decide +kernel
theorem witness_hubStart (d : BitVec 256) :
    ((wHub {} d).exiting .hubStart Reach.hub).isSome = true ∧ (wHub {} d).hubPowered { phase := .hubStart, reach := .warm } = true ∧
      (wHub {} d).rst.strapBoot = 0 ∧ (wHub {} d).fw.selector.trial = false ∧ slotKey (wHub {} d).fw.selector.slot = 0 ∧
      digestOf (wHub {} d).fw.rootKey = (wHub {} d).fw.loaded.rootHash ∧
      (wHub {} d).fw.slots.get {} 0 = { commit := (wRec d).word fcCommit, image := wImage (digestOf []) d } := by
  have hs : (wHub {} d).fw.selector = {} := selector_erased _ rfl rfl
  refine ⟨rfl, by simp [State.hubPowered, wHub], rfl, ?_, ?_, rfl, rfl⟩
  · rw [hs]
  · rw [hs]; rfl
theorem witness_hubStart_slot : (wFw (digestOf [])).slotCheck
    { commit := (wRec (digestOf wParts)).word fcCommit, image := wImage (digestOf []) (digestOf wParts) } = none := wSlot_ok _ _ rfl
/-- An image of 16,384 bytes, taken whole by a length of that or more: for WRITE_SLOT, for MGMT_WRITE, for BOOT_GO. -/
theorem witness_supply (n : Nat) (h : 16384 ≤ n) : let d := digestOf wParts
    let x := wSupply 0 d
    (wFw 0).supplyCheck (x.upTo n) = none ∧ bitsAt (x.upTo n).image.bits 32 32 ≤ n ∧
      (wFw 0).mgmtCheck { (x.upTo n).image with readError := (x.upTo n).image.readError || (x.upTo n).readError }
        (fcDigest (x.upTo n).commit) = none := by
  intro d x
  obtain ⟨h1, h2, h3⟩ := wSupply_ok 0 (digestOf wParts) rfl
  rw [show x.upTo n = wSupply 0 (digestOf wParts) from wSupply_upTo 0 (digestOf wParts) n h]
  exact ⟨h1, h3 ▸ Nat.zero_le n, h2⟩
theorem witness_bootGo : let s : State := { wExit .hubStart .warm { waiting := true } with fw := wFw 0 }
    let s := s.setRst { s.rst with bootLen := 16384, recoveryWait := true }
    s.rst.recoveryWait = true ∧ s.rst.bootLen ≠ 0 ∧ s.rst.bootLen.toNat = 16384 ∧ (16384 : Nat) ≤ 33554432 ∧ s.hostBlocked = false ∧
      ((s.exiting .hubStart Reach.hub).map Episode.waiting) = some true ∧ s.fw = wFw 0 := ⟨rfl, by decide, rfl, by decide, rfl, rfl, rfl⟩
theorem witness_fwuTakes : State.reset.fwuTakes 0xA5 = true ∧ State.reset.hostBlocked = false ∧
    ({ State.reset with fw := { wFw 0 with len := 16384 } } : State).fwuTakes 0xA5 = true ∧ (16384 : Nat) ≤ 4194304 := ⟨by decide, by decide, rfl, by decide⟩
theorem witness_fwuSelect (d : BitVec 256) :
    let f : Firmware := { lastSlot := some false, slots := [(0, { commit := (wRec d).word fcCommit, image := wImage 0 d })] }
    f.lastSlot = some false ∧ (f.slots.get {} (slotKey false)).committed ≠ none :=
  ⟨rfl, fun h => absurd ((wSlot_committed 0 d).symm.trans h) (by simp)⟩
theorem witness_fwuConfirm : let f : Firmware := { bootedTrial := true }
    f.bootedTrial = true ∧ ({ bootSrc := 0 } : RstRegs).bootSrc.toNat = slotKey f.selector.slot := by decide +kernel
theorem witness_svnCommit : ({ loaded := { lifecycle := FuseRow.of 1 } } : Firmware).production = true ∧ ({} : Firmware).bootedTrial = false := by
  decide
theorem witness_activateQuad :
    ifaceFits ({} : FwImage).iface ({} : Firmware).hub.iface = true ∧ (State.reset.part (State.reset.partOfQuad 0)).jcp.state = .idle := by
  decide +kernel
/-- The configuration read's factory block and control region are good. -/
theorem witness_configurationRead (d : BitVec 256) : let f : Firmware := { wFw 0 with factory := d, factorySig := wSig 0 .factory d, hub := wImage 0 d }
    f.sigCheck .factory f.factory [2] f.factorySig = none ∧ f.hub.ctlCheck = none := by
  intro f
  exact ⟨(wFw_check f 0 .factory .factory d [2] rfl rfl).trans (if_pos rfl), (wImage_ok 0 d).2⟩
theorem witness_attGo : State.reset.fw.attStatus ≠ 1 := by decide
theorem witness_pldmRequest :
    let s : State := { State.reset with rst := { mgmtUp := true, i3cAddr := some 9 }, hubOff := true }
    s.rst.mgmtUp = true ∧ s.hubOff = true ∧ s.rst.i3cAddr.isSome = true ∧ ({ mgmtUp := true } : RstRegs).i3cAddr = none ∧
      State.reset.hubOff = false := by decide
theorem witness_ginghamTest :
    let t : Test := { target := ⟨7, 0⟩ }
    let s : State := { State.reset with gh := { queue := [t] }, rst := {} }
    s.gh.queue.findIdx? (s.testReady 32) = some 0 ∧ (s.disableUnit t.target).unitFree t.target = true ∧ s.testFrame t = none := by decide +kernel
/-- A scheduled test of a frame that holds a page, and one whose page has been moved. -/
theorem witness_ginghamTest_frame :
    let t : Test := { target := ⟨13, 5⟩ }
    let s : State := { State.reset with gh := { queue := [t] }, rst := {}, frames := [(5, { present := true })] }
    let s' : State := { State.reset with gh := { queue := [{ t with was := true }] }, rst := {} }
    s.gh.queue.findIdx? (s.testReady 0) = some 0 ∧ s.testFrame t = some 5 ∧ (s.frame 0 5).present = true ∧
      s'.gh.queue.findIdx? (s'.testReady 0) = some 0 ∧ (s'.frame 0 5).present = false := by decide +kernel
theorem witness_ginghamTestComplete :
    let t : Test := { target := ⟨7, 0⟩ }
    let g : Gingham := { running := [(32, t)], repeatLimit := 3 }
    g.running.find? (fun x => decide (x.1 = 32)) = some (32, t) ∧ g.counts.get 0 t.target.key + 1 < g.repeatLimit.toNat ∧
      ({ State.reset with ports := [(0, { loopback := 3 })] } : State).wholeTest t = true ∧
      ({ State.reset with ports := [(0, { loopback := 1 })] } : State).wholeTest t = false := by
  decide +kernel
theorem witness_ghReq : let x : UnitRef := { kind := 1, index := 5 }
    x.test ≠ 0 ∧ State.reset.unitPart x = some 0 ∧ (State.reset.part 0).jcp.state.testable = true := by decide +kernel
theorem witness_suppressionWindowExpire :
    let x : Suppress := { unitKind := 1, unit := 0, count := 3 }
    State.reset.windowOf x = 0 ∧ x.part = none ∧ x.count ≠ 0 ∧ ({} : ErrLog).suppress = [] ∧ wLive.clusterStopped 0 = false := by decide +kernel
theorem witness_fenceAdd : let e := FenceEntry.ofBits 0x1000000500000000
    fenceable { kind := e.kind, index := e.index } = true ∧ ({} : Gingham).running = [] ∧ (({} : Gingham).fences.get {} 0).valid = false := by decide +kernel
theorem witness_fenceRemove : let g : Gingham := { fences := [(0, { kind := 1, index := 5, valid := true }), (1, { kind := 13, valid := true })] }
    (g.fences.get {} 0).valid = true ∧ fenceHome 1 5 = some (3, 0) ∧ (g.fences.get {} 1).kind = 13 ∧ (g.fences.get {} 1).valid = true ∧
    ({ kind := 1, index := 5 } : UnitRef).test ≠ 0 ∧ ({ kind := 13, index := 0 } : UnitRef).test ≠ 0 := by
  decide +kernel
theorem witness_pstateEntryComplete :
    (({ parts := [(0, { power := { moving := some .standby } })] } : State).part 0).power.moving = some .standby := by decide
theorem witness_wakeComplete :
    let s : State := { State.reset with parts := [(0, { power := { state := .standby, moving := some .run } })], banksOff := 0 }
    (s.part 0).power.moving = some .run ∧ (∀ q ∈ s.quadsOf 0, s.banksOff.getLsbD q = false) := by decide
theorem witness_bankPrechargeComplete :
    let s : State := { State.reset with
      parts := [(0, { power := { state := .standby, moving := some .run } })], banksOff := 1, rst := {} }
    s.banksOff.getLsbD 0 = true ∧ s.bankWanted 0 = true := by decide +kernel
theorem witness_coolantRead : 4000 ≤ coolantCap 1200 400 ∧ 600 ≤ (1200 : BitVec 12).toNat ∧ (400 : BitVec 10).toNat ≤ 500 ∧
    500 < (501 : BitVec 10).toNat := by decide
theorem witness_dieTrips : (State.reset.pwr.links.get {} 0).trip = false ∧ State.reset.switchOpen = false ∧ 110 ≤ (110 : BitVec 8).toNat ∧
    (94 : BitVec 8).toNat < 95 := by decide
theorem witness_dieTripClear : (({ links := [(0, { trip := true })] } : Power).links.get {} 0).trip = true := by decide
/-- A user calibration image of no entry. -/
def wCal : List Byte := bytesOf (0x5543414C * 2 ^ 224 + ucCrc (0x5543414C * 2 ^ 224) []) 32
theorem witness_pwrCalGo : ({ calLen := 32 } : Power).ucParse (wCal.take 32) = some [] ∧ ({ calLen := 32 } : Power).calStatus ≠ 1 := by decide +kernel
theorem witness_meter_present : wLive.present12 = true := by decide
theorem witness_meter : let m : Meter := { running := true }
    m.running = true ∧ m.sealed = true ∧ m.log.length < 65536 ∧ m.signing = none ∧ m.commitLost = false ∧ m.cell = false ∧ 5 ≤ (100 : BitVec 16).toNat := by decide
/-- A signature under way, before and at the sample that ends it. -/
theorem witness_meter_signing : let m : Meter := { running := true, signing := some { ticks := 158 } }
    m.running = true ∧ m.signing ≠ none ∧ (158 : Nat) + 1 < 160 ∧ 160 ≤ (159 : Nat) + 1 := by decide
/-- No request waits, and two do; a broadcast that waits counts as none. -/
theorem witness_meter_busy : ({} : Meter).busy = false ∧ ({ waiting := [.read 0 0, .read 1 0] } : Meter).busy = true ∧
    ({ waiting := [.broadcast, .read 0 0] } : Meter).busy = false := by decide
/-- A frame of GET_INFO and one of READ with nothing wrong, one with a wrong sync, one with an unknown code (17 R449). -/
def wFrame (code : Nat) (payload : List Byte) : List Byte :=
  let h := bytesOf (0xA7 + code * 2 ^ 8 + payload.length * 2 ^ 32) 8 ++ payload
  h ++ bytesOf (crc32 h).toNat 4
theorem witness_meterError : frameFault (wFrame 1 []) = none ∧ frameFault (wFrame 4 []) = none ∧ ((wFrame 4 []).getD 1 0).toNat = 4 ∧
    frameFault (wFrame 2 (List.replicate 32 0)) = none ∧ ((wFrame 2 (List.replicate 32 0)).getD 1 0).toNat = 2 ∧
    frameFault (wFrame 9 []) = some .code ∧ frameFault [] = some .frame ∧ ((wFrame 1 []).getD 1 0).toNat = 1 := by decide +kernel
theorem witness_meterStart : let m : Meter := { fwLogged := some 0, cell := false }
    m.running = false ∧ m.holdup = false ∧ wLive.power12 = true ∧ m.commitLost = false ∧ m.fwLogged = some 0 ∧ m.log.length < 65536 ∧ m.cell = false := by decide
theorem witness_readLog : (1 : BitVec 8) ≠ 0 ∧ (32 : BitVec 8).toNat ≤ 32 := by decide
theorem witness_meterRecordReceive :
    let s : State := { State.reset with meter := { line := some [] }, rst := { mgmtUp := true }, meterView := { stale := false, age := 0 } }
    s.meter.line = some [] ∧ s.rst.mgmtUp = true ∧ s.meterView.stale = false ∧ max s.meterView.age.toNat (min 2999 65535) < 3000 ∧
      3000 ≤ max s.meterView.age.toNat (min 3000 65535) := by decide
theorem witness_registerWrite : (0x10010 : BitVec 26).toNat % 8 = 0 ∧ (0x10011 : BitVec 26).toNat % 4 ≠ 0 ∧
    (0x10011 : BitVec 26).toNat % 8 ≠ 0 ∧ State.reset.hostBlocked = false ∧
    ({ hostWait := [.registerWrite (.bar0 0) false 0 0] } : State).hostBlocked = true ∧
    (5 : BitVec 64).setWidth 32 ≤ ({ wr := 5 } : ErrLog).wr := by decide +kernel
theorem witness_emptyQueue : State.reset.pending = [] := rfl
theorem witness_memoryOk : State.reset.memoryOk = true ∧ step State.reset = .next State.reset := ⟨by decide, rfl⟩
theorem witness_memoryOk_written :
    let s : State := { dram := [(5, 1)], far := [(7, 2)], flash := [(9, 3)], pending := [.frameGapTimeout] }
    s.memoryOk = true ∧ ∃ t, step s = .next t := ⟨by decide, _, rfl⟩
theorem witness_layoutOk : State.reset.layoutOk = true ∧ (∃ t, step { State.reset with pending := [.frameGapTimeout] } = .next t) :=
  ⟨by decide, _, rfl⟩
theorem witness_frames :
    let c : Instr := .frameGapTimeout
    c.actsOnMeter = false ∧ c.writesFar = false ∧ c.writesFlash = false ∧ c.changesLayout = false ∧ c.storesDram = false ∧
      exec c State.reset = .next State.reset := ⟨rfl, rfl, rfl, rfl, rfl, rfl⟩
theorem witness_passIssue_not : (State.reset.core 0).lists.inst = none := rfl
theorem witness_elementPacking : (∀ x ∈ [1, 15, 7], x < 2 ^ Fmt.fp4.bits) ∧ packElems .fp4 [1, 15, 7] = [0xF1, 0x07] := by decide

end Sys2Proof.Tests
end

section
/-! SUPPORT. REGISTER_WRITE (00 R12 to R14, 11 R297): the turn of the host's accesses, the words of BAR0 and the registers of the
control spaces. -/

namespace Sys2Proof.Machine

/-- R297: a command that acts in the host's turn waits in the hub while an access of the host waits there. -/
theorem exec_waits_of_inTurn {c : Instr} {f : State → State} {s : State} (hexec : exec c s = .next (s.inTurn c f))
    (hblocked : s.hostBlocked = true) : exec c s = .next { s with hostWait := s.hostWait ++ [c] } := by
  rw [hexec, s.inTurn_blocked c f hblocked, State.hostWaits]

/-- R248, R297: behind an access of the host that waits, one through BAR2 waits. -/
theorem bar2Access_blocked (off : BitVec 36) (act : MemAct) (f : LineFound) {s : State} (hblocked : s.hostBlocked = true) :
    bar2Access off act f s = s.hostWaits (.bar2Access off act f) := by
  simp only [bar2Access, hblocked, Bool.true_or, if_true]

/-- R297: behind an access of the host that waits, a write of a module word, a job control page, a window or the power cap waits. -/
theorem exec_pageAccess_waits (p : PartId) (img : StartImage) (w : WordWrite) (e : BitVec 32) (en : BitVec 11) (o : Option PartId)
    (n : Fin 16) (ab : Bool) (l : List CtxKey) (port : Fin 2) (s : State) (hblocked : s.hostBlocked = true) :
    ∀ c ∈ ([.hostMaxVersionWrite e, .partCfgWrite (e.setWidth 8), .jobStart p img, .jobPause p, .jobResume p, .jobStop p,
        .jobAbort p, .jobClear p, .endStepWrite p w, .epochWrite p e, .eventEnableWrite o en, .swEnable n, .swDisable n ab l,
        .persistAckWrite p w, .latTolWrite p e, .farQuotaWrite p port e, .recSnapAck, .attGo, .ghClrCounts,
        .pwrCapWrite (e.setWidth 16)] : List Instr),
      exec c s = .next { s with hostWait := s.hostWait ++ [c] } := by
  simp only [List.forall_mem_cons, List.not_mem_nil, false_implies, implies_true, and_true]
  and_intros <;> exact exec_waits_of_inTurn rfl hblocked

/-- R297: behind an access of the host that waits, a keyed request, a far-tier eviction, a boot or reset request and an access through
BAR2 wait. -/
theorem exec_keyedAccess_waits (key : BitVec 8) (x : FwSupply) (cut : Option SlotCut) (t : Token) (kind : BitVec 4) (unit : BitVec 12)
    (i : Fin 512) (bytes : List Byte) (b : Bool) (p : PartId) (a : BitVec 64) (r : BitVec 32) (off : BitVec 36) (act : MemAct)
    (f : LineFound) (s : State) (hblocked : s.hostBlocked = true) :
    ∀ c ∈ ([.writeSlot key x cut, .fwuSelect key, .fwuConfirm key, .svnCommit key, .mgmtWrite key x cut, .activateQuad key,
        .ownerClaim key t, .ownerTransfer key t, .revokeImage key t, .ownerRelease key t, .debugUnlock key t, .lifecycleToken key t,
        .ghReq key kind unit, .fenceAdd key, .fenceRemove key i, .pwrCalGo key b bytes b, .bootGo x, .farEvict p a,
        .rstSwRequest (.host r), .bar2Access off act f] : List Instr),
      exec c s = .next { s with hostWait := s.hostWait ++ [c] } := by
  have hbar2 : exec (.bar2Access off act f) s = .next { s with hostWait := s.hostWait ++ [.bar2Access off act f] } :=
    congrArg Host.Outcome.next (bar2Access_blocked off act f hblocked)
  simp only [List.forall_mem_cons, List.not_mem_nil, false_implies, implies_true, and_true, hbar2]
  and_intros <;> exact exec_waits_of_inTurn rfl hblocked

/-- REGISTER_WRITE completes in every state. -/
theorem exec_registerWrite (r : RegRef) (wide : Bool) (v h : BitVec 64) (s : State) :
    exec (.registerWrite r wide v h) s = .next (registerWrite r wide v h s) := rfl

/-- R297: a write of BAR0 behind an access of the host that waits, waits. -/
theorem registerWrite_bar0_blocked (off : BitVec 26) (wide : Bool) (v h : BitVec 64) {s : State} (hblocked : s.hostBlocked = true) :
    registerWrite (.bar0 off) wide v h s = { s with hostWait := s.hostWait ++ [.registerWrite (.bar0 off) wide v h] } := by
  simp only [registerWrite, s.inTurn_blocked _ _ hblocked, State.hostWaits]

/-- R297: a write of BAR0 with no access of the host before it acts at once. -/
theorem registerWrite_bar0_free (off : BitVec 26) (wide : Bool) (v h : BitVec 64) {s : State} (hfree : s.hostBlocked = false) :
    registerWrite (.bar0 off) wide v h s = s.bar0Apply off wide v h := by
  simp only [registerWrite, s.inTurn_free _ _ hfree]

/-- R12: a write outside BAR0 writes the register that its reference resolves to, and nothing where there is none. -/
theorem registerWrite_control {r : RegRef} (wide : Bool) (v h : BitVec 64) (s : State) (hr : ∀ off, r ≠ .bar0 off) :
    registerWrite r wide v h s = r.resolve.elim s (fun q => s.ctlWrite q v h) := by
  unfold registerWrite
  split
  case h_1 off => exact absurd rfl (hr off)
  case h_2 => cases r.resolve <;> rfl

/-- R297: a 32-bit write of BAR0 writes the word at an aligned offset, and nothing at another. -/
theorem State.bar0Apply_narrow (s : State) (off : BitVec 26) (v h : BitVec 64) :
    s.bar0Apply off false v h = if off.toNat % 4 = 0 then s.bar0Write off.toNat (v.setWidth 32) (h.setWidth 32) else s := rfl

/-- R13, R297: a 64-bit write of BAR0 writes two words at an 8-byte-aligned offset, the low one first, and nothing at another. -/
theorem State.bar0Apply_wide (s : State) (off : BitVec 26) (v h : BitVec 64) :
    s.bar0Apply off true v h =
      if off.toNat % 8 = 0 then
        (s.bar0Write off.toNat (v.setWidth 32) (h.setWidth 32)).bar0Write (off.toNat + 4) (v.extractLsb' 32 32) (h.extractLsb' 32 32)
      else s := rfl

/-- Table 11.2: the first four pages of BAR0 are the partitions' job control pages. -/
theorem State.bar0Write_jcp (s : State) {p off : Nat} (v h : BitVec 32) (hp : p < 4) (hoff : off < 0x1000) :
    s.bar0Write (0x1000 * p + off) v h = s.jcpWrite p off v h := by
  have hpage : (0x1000 * p + off) / 0x1000 = p := by omega
  have hword : (0x1000 * p + off) % 0x1000 = off := by omega
  rw [State.bar0Write, if_pos (by omega), hpage, hword]

/-- R303: a word of a job control page other than JOB_CMD, STATUS, EVENT_STATUS and STEP_IRQ_EVERY is stored in IDLE alone. -/
theorem State.jcpWrite_latch (s : State) (p : Nat) {off : Nat} (v h : BitVec 32) (hcmd : off ≠ 0x000) (hstatus : off ≠ 0x004)
    (hevent : off ≠ 0x080) (hirq : off ≠ 0x088) :
    s.jcpWrite p off v h =
      if (s.part p).jcp.state = .idle then s.modJcp p (fun x => { x with latch := x.latch.write off v }) else s := by
  unfold State.jcpWrite
  split
  case h_5 => rfl
  all_goals contradiction

/-- R313: ERR.RD takes a value that is not above ERR.WR. -/
theorem State.bar0Write_errRd (s : State) {v : BitVec 32} (h : BitVec 32) (hle : v ≤ s.err.wr) :
    s.bar0Write 0x20004 v h = { s with err := { s.err with rd := v } } := by
  simp [State.bar0Write, State.errWrite, hle]

/-- Table 00.5: a write of CHN.POISON_SEEN. -/
theorem State.ctlWrite_chanPoison (s : State) (k : ChannelId) (v h : BitVec 64) :
    s.ctlWrite (.chanPoison k) v h = s.setChan k.val { s.chan k.val with
      poisonSeen := ((s.chan k.val).poisonSeen && !(v.setWidth 32).getLsbD 0) || (h.setWidth 32).getLsbD 0 } := rfl

/-- Table 00.5: a write of QEP.STUCK_SEEN. -/
theorem State.ctlWrite_queueStuck (s : State) (c : CoreId) (e : EpId) (v h : BitVec 64) :
    s.ctlWrite (.queueStuck c e) v h = s.setCore c.val ((s.core c.val).modEp e.val (fun x => { x with
      stuckSeen := (x.stuckSeen && !(v.setWidth 32).getLsbD 10) || (h.setWidth 32).getLsbD 10 })) := rfl

/-- R13, R297: a 32-bit write of an aligned word of BAR0 with no access of the host before it. -/
theorem exec_bar0_word {off : BitVec 26} (v h : BitVec 64) {s : State} (hfree : s.hostBlocked = false) (halign : off.toNat % 4 = 0) :
    exec (.registerWrite (.bar0 off) false v h) s = .next (s.bar0Write off.toNat (v.setWidth 32) (h.setWidth 32)) := by
  rw [exec_registerWrite, registerWrite_bar0_free off false v h hfree, State.bar0Apply_narrow, if_pos halign]

/-- R303: a write of a latched word of a job control page. -/
theorem exec_jcp_latch (p : PartId) {off : Nat} (v h : BitVec 64) {s : State} (hfree : s.hostBlocked = false)
    (hlow : 0x10 ≤ off) (hhigh : off < 0x88) (halign : off % 4 = 0) (hevent : off ≠ 0x80) :
    exec (.registerWrite (.bar0 (BitVec.ofNat 26 (0x1000 * p.val + off))) false v h) s = .next
      (if (s.part p.val).jcp.state = .idle then
        s.modJcp p.val (fun x => { x with latch := x.latch.write off (v.setWidth 32) }) else s) := by
  have haddr : (BitVec.ofNat 26 (0x1000 * p.val + off)).toNat = 0x1000 * p.val + off := by
    rw [BitVec.toNat_ofNat]; omega
  rw [exec_bar0_word v h hfree (by omega), haddr, s.bar0Write_jcp _ _ p.isLt (by omega),
    s.jcpWrite_latch _ _ _ (by omega) (by omega) hevent (by omega)]

/-- Settles O55: the host's turn decides whether a write of BAR0 waits or acts, the alignment which words it writes, and the reference
which register of a control space. -/
theorem registerWriteCompletes : Obligations.RegisterWriteCompletes := by
  unfold Obligations.RegisterWriteCompletes
  refine ⟨?every, ?bar0Waits, exec_pageAccess_waits, exec_keyedAccess_waits, ?control, ?bar0Words, ?latch, ?errRd, ?poison, ?stuck⟩
  case every =>
    intro r wide v h s
    rw [exec_registerWrite]
    split
    case h_1 off =>
      cases hturn : s.hostBlocked with
      | true => simp only [registerWrite_bar0_blocked off wide v h hturn, if_true]
      | false =>
        cases wide <;>
          simp only [registerWrite_bar0_free off _ v h hturn, State.bar0Apply_narrow, State.bar0Apply_wide, Bool.false_eq_true,
            Bool.true_eq_false, if_true, if_false]
    case h_2 hr =>
      rw [registerWrite_control wide v h s hr]
      cases r.resolve <;> rfl
  case bar0Waits =>
    intro off wide v h s hblocked
    rw [exec_registerWrite, registerWrite_bar0_blocked off wide v h hblocked]
  case control =>
    intro r wide v h s hr
    rw [exec_registerWrite, registerWrite_control wide v h s hr]
    exact ⟨fun q hq => by rw [hq]; rfl, fun hnone => by rw [hnone]; rfl⟩
  case bar0Words =>
    intro off v h s hfree
    simp only [exec_registerWrite, registerWrite_bar0_free off _ v h hfree, State.bar0Apply_narrow, State.bar0Apply_wide]
    exact ⟨fun hm => by rw [if_neg hm], fun ha => by rw [if_pos ha], fun ha => by rw [if_pos ha], fun hm => by rw [if_neg hm]⟩
  case latch =>
    intro p w v h s off hevent hfree
    exact exec_jcp_latch p v h hfree (by omega) (by omega) (by omega) hevent
  case errRd =>
    intro v h s hfree hle
    rw [exec_bar0_word v h hfree rfl]
    exact congrArg _ (s.bar0Write_errRd _ hle)
  case poison =>
    intro k v h s
    rw [exec_registerWrite, registerWrite_control false v h s (by simp)]
    exact congrArg _ (s.ctlWrite_chanPoison k v h)
  case stuck =>
    intro c e v h s
    rw [exec_registerWrite, registerWrite_control false v h s (by simp)]
    exact congrArg _ (s.ctlWrite_queueStuck c e v h)

end Sys2Proof.Machine
end

section
/-! SUPPORT. The partition layout over a step (01 R26, 11 R302): which commands leave it, and that the others keep it legal. -/

namespace Sys2Proof.Machine

/-- What a step can do: idle on an empty queue, or run the front command over the rest of the queue. -/
theorem step_next_cases {s t : State} (hstep : step s = .next t) :
    (s.pending = [] ∧ t = s) ∨ ∃ c rest, s.pending = c :: rest ∧ exec c { s with pending := rest } = .next t := by
  unfold step at hstep
  split at hstep
  next hqueue => exact .inl ⟨hqueue, (Host.Outcome.next.inj hstep).symm⟩
  next c rest hqueue => exact .inr ⟨c, rest, hqueue, hstep⟩

/-- The layout check speaks of the layout that the frame lemmas keep. -/
theorem State.layoutOk_iff_legal (s : State) : s.layoutOk = true ↔ Legal s.kept.layout := by
  rw [State.layoutOk, s.layout_eq, Legal]

/-- R297: an access of the host keeps the layout legal if its act does; one that waits in the hub leaves it. -/
theorem State.inTurn_layout_legal (s : State) (a : Instr) (f : State → State) (hf : Legal (f s).kept.layout)
    (hlegal : Legal s.kept.layout) : Legal (s.inTurn a f).kept.layout := by
  cases hturn : s.hostBlocked with
  | true => simpa only [s.inTurn_blocked a f hturn, ↓State.hostWaits_frame] using hlegal
  | false => rwa [s.inTurn_free a f hturn]

/-- A command that is no layout write, begins no reset and resends no access leaves the layout: each by the frame of its own meaning.
The resend is apart because the accesses of the host that it lets through may write the layout (log 109). -/
theorem exec_layout_frame {c : Instr} {s t : State} (hexec : exec c s = .next t) (hother : c.changesLayout = false)
    (hresend : ∀ k src f, c ≠ .retryResend k src f) : t.kept.layout = s.kept.layout := by
  cases c
  case retryResend k src f => exact absurd rfl (hresend k src f)
  case partCfgWrite | powerOn | brownOut | mrstN | watchdogExpire | rstSwRequest | debugRequest | clockFailure | controlCoreLockup |
      sourceRelease | activateQuad | dieThermalTrip | pldmRequest => cases hother
  all_goals obtain rfl := Host.Outcome.next.inj hexec
  -- REC_SNAP_ACK writes the flash (R373), so that its frame is given part by part
  case recSnapAck => exact State.inTurn_keep (·.layout) s .recSnapAck recSnapAck fun a => by simp only [↓recSnapAck_frame]
  -- the arrays, the passes and the slots (03, 04)
  case passIssue | anchorCompute | shadowLoad | drainIssue | drainComplete | vectorIssue | sramUe | coreEnable | coreHaltReq |
      passBoundaryStop | loopLengthLatch | slotSpill | slotReload | addModeReload | boundaryGateClose =>
    simp only [↓State.commitLog_frame, ↓passIssue_frame, ↓anchorCompute_frame, ↓shadowLoad_frame, ↓drainIssue_frame,
      ↓drainComplete_frame, ↓vectorIssue_frame, ↓sramUe_frame, ↓coreEnable_frame, ↓coreHaltReq_frame, ↓passBoundaryStop_frame,
      ↓loopLengthLatch_frame, ↓slotSpill_frame, ↓slotReload_frame, ↓addModeReload_frame, ↓boundaryGateClose_frame]
  -- the weave and the steps (05)
  case tileArrive | endOfStepMarker | externalEventRelease | creditReceive | steerSwitch | steerSelect | steerMerge | stallTimerExpire |
      queueMoveBack | stallSuspect | stepStart | stepEnd | reportCompare | variantChange =>
    simp only [↓tileArrive_frame, ↓endOfStepMarker_frame, ↓externalEventRelease_frame, ↓creditReceive_frame, ↓steerSwitch_frame,
      ↓steerSelect_frame, ↓steerMerge_frame, ↓stallTimerExpire_frame, ↓queueMoveBack_frame, ↓stallSuspect_frame, ↓stepStart_frame,
      ↓stepEnd_frame, ↓reportCompare_frame, ↓variantChange_frame]
  -- the streams (06)
  case strArm | descriptorActivate | strEnable | strDisableReq | strResume | endProgram | loopb | loope | strStride | strAdd | emit |
      strSkip | plfetch | bfetch | twait | mergeHoldExpire | requestRetire | requestTimeout | streamFault | haltSettleDone |
      settleTimeout | saveAreaWritten | ringPeriodEnd =>
    simp only [↓strArm_frame, ↓descriptorActivate_frame, ↓strEnable_frame, ↓strDisableReq_frame, ↓strResume_frame,
      ↓endProgram_frame, ↓loopb_frame, ↓loope_frame, ↓strStride_frame, ↓strAdd_frame, ↓emit_frame, ↓strSkip_frame, ↓plfetch_frame,
      ↓bfetch_frame, ↓twait_frame, ↓mergeHoldExpire_frame, ↓requestRetire_frame, ↓requestTimeout_frame, ↓streamFault_frame,
      ↓haltSettleDone_frame, ↓settleTimeout_frame, ↓saveAreaWritten_frame, ↓ringPeriodEnd_frame]
  -- the update and the reduction (07, 08)
  case tensorShiftUpdate | adamwUpdate | reductionAdd | redrain | slotRelease | memsideOp | tileCloseReport | segmentReceive |
      noticeReceive | rescaleReceive | memberRemoval | withdrawStep | paramPartReceive =>
    simp only [↓State.commitLog_frame, ↓tensorShiftUpdate_frame, ↓adamwUpdate_frame, ↓reductionAdd_frame, ↓redrain_frame,
      ↓slotRelease_frame, ↓memsideOp_frame, ↓tileCloseReport_frame, ↓segmentReceive_frame, ↓noticeReceive_frame,
      ↓rescaleReceive_frame, ↓memberRemoval_frame, ↓withdrawStep_frame, ↓paramPartReceive_frame]
  -- the tower memory and the far tier (09)
  case channelRequest | frameTableWrite | refreshSlot | scrubSlot | farFaultResolve | farFillComplete | farEvict | evictComplete |
      cxlLinkDown | cxlLinkRetrain =>
    simp only [↓State.inTurn_kept, ↓channelRequest_frame, ↓frameTableWrite_frame, ↓refreshSlot_frame, ↓scrubSlot_frame,
      ↓farFaultResolve_frame, ↓farFillComplete_frame, ↓farEvict_frame, ↓evictComplete_frame, ↓cxlLinkDown_frame,
      ↓cxlLinkRetrain_frame, implies_true]
  -- the links (10)
  case flitSend | flitReceive | nakReceive | replayTimeout | signalDetect | equalisationDone | fecLockDone | exchangeBlockReceive |
      trainingAttemptTimeout | signalLoss | linkRetrain | packetSend | packetReceive | klpCredit | unreachablePacket |
      memberUnreachable | epochAhead | ldEpochWrite | klpEnable | klpRetrain | klpCtrClr =>
    simp only [↓flitSend_frame, ↓flitReceive_frame, ↓nakReceive_frame, ↓replayTimeout_frame, ↓signalDetect_frame,
      ↓equalisationDone_frame, ↓fecLockDone_frame, ↓exchangeBlockReceive_frame, ↓trainingAttemptTimeout_frame, ↓signalLoss_frame,
      ↓linkRetrain_frame, ↓packetSend_frame, ↓packetReceive_frame, ↓klpCredit_frame, ↓unreachablePacket_frame,
      ↓memberUnreachable_frame, ↓epochAhead_frame, ↓ldEpochWrite_frame, ↓klpEnable_frame, ↓klpRetrain_frame, ↓klpCtrClr_frame]
  -- the host (11)
  case functionLevelReset | bar2Access | hostMaxVersionWrite | layoutDone | jobStart | jobEnableComplete | jobPause | jobResume |
      jobStop | stopStepReached | endStepWrite | jobAbort | abortComplete | jobClear | clearComplete | epochWrite | eventEnableWrite |
      swEnable | swDisable | sergeSegmentWrite | persistAckWrite | latTolWrite | farQuotaWrite | registerWrite =>
    simp only [↓State.inTurn_kept, ↓functionLevelReset_frame, ↓bar2Access_frame, ↓hostMaxVersionWrite_frame, ↓layoutDone_frame,
      ↓jobStart_frame, ↓jobEnableComplete_frame, ↓jobPause_frame, ↓jobResume_frame, ↓jobStop_frame, ↓stopStepReached_frame,
      ↓endStepWrite_frame, ↓jobAbort_frame, ↓abortComplete_frame, ↓jobClear_frame, ↓clearComplete_frame, ↓epochWrite_frame,
      ↓eventEnableWrite_frame, ↓swEnable_frame, ↓swDisable_frame, ↓sergeSegmentWrite_frame, ↓persistAckWrite_frame,
      ↓latTolWrite_frame, ↓farQuotaWrite_frame, ↓registerWrite_frame, implies_true]
  -- the snapshots (12)
  case frameCopied | snapshotPoint | snapOpen | pageData | snapManifest | fetchData | rideData | rideDigest | snapSeal | snapCommitted |
      snapDone | snapAbort | copyBudgetExpire | snapFetch | fetchEnd | flashWriteComplete | rejoin | rejoinLate | snapRestore |
      restoreComplete | fetchResend =>
    simp only [↓frameCopied_frame, ↓snapshotPoint_frame, ↓snapOpen_frame, ↓pageData_frame, ↓snapManifest_frame, ↓fetchData_frame,
      ↓rideData_frame, ↓rideDigest_frame, ↓snapSeal_frame, ↓snapCommitted_frame, ↓snapDone_frame, ↓snapAbort_frame,
      ↓copyBudgetExpire_frame, ↓snapFetch_frame, ↓fetchEnd_frame, ↓flashWriteComplete_frame, ↓rejoin_frame, ↓rejoinLate_frame,
      ↓snapRestore_frame, ↓restoreComplete_frame, ↓fetchResend_frame]
  -- the start of the module (13)
  case watchdogRestart | managementStart | clockStart | strapSample | optionLoading | hubStart | configurationRead | bringUp |
      islandExit | moduleReady | bootGo | refclkReturn | trstN =>
    simp only [↓State.inTurn_kept, ↓watchdogRestart_frame, ↓managementStart_frame, ↓clockStart_frame, ↓strapSample_frame,
      ↓optionLoading_frame, ↓hubStart_frame, ↓configurationRead_frame, ↓bringUp_frame, ↓islandExit_frame, ↓moduleReady_frame,
      ↓bootGo_frame, ↓refclkReturn_frame, ↓trstN_frame, implies_true]
  -- the firmware and its tokens (14)
  case writeSlot | fwuConfirm | svnCommit | mgmtWrite | ownerClaim | ownerTransfer | revokeImage | ownerRelease | debugUnlock |
      lifecycleToken | attGo | fwuSelect =>
    simp only [↓State.inTurn_kept, ↓writeSlot_frame, ↓fwuConfirm_frame, ↓svnCommit_frame, ↓mgmtWrite_frame, ↓claim_frame,
      ↓ownerTransfer_frame, ↓revokeImage_frame, ↓ownerRelease_frame, ↓debugUnlock_frame, ↓lifecycleToken_frame, ↓attGo_frame,
      ↓fwuSelect_frame, implies_true]
  -- the self-test and the fences (15)
  case ginghamTest | ginghamTestComplete | cePoll | suppressionWindowExpire | ghReq | ghClrCounts | fenceAdd | fenceRemove =>
    simp only [↓State.inTurn_kept, ↓ginghamTest_frame, ↓ginghamTestComplete_frame, ↓cePoll_frame, ↓suppressionWindowExpire_frame,
      ↓ghReq_frame, ↓ghClrCounts_frame, ↓fenceAdd_frame, ↓fenceRemove_frame, implies_true]
  -- the power states and the temperatures (16)
  case pstateEntryComplete | wakeComplete | bankPrechargeComplete | thermalEvaluation | coolantRead | pwrCapWrite | pwrCalGo |
      dieTripClear =>
    simp only [↓State.inTurn_kept, ↓pstateEntryComplete_frame, ↓wakeComplete_frame, ↓bankPrechargeComplete_frame,
      ↓thermalEvaluation_frame, ↓coolantRead_frame, ↓pwrCapWrite_frame, ↓pwrCalGo_frame, ↓dieTripClear_frame, implies_true]
  -- the meter (17)
  case meterSample | meterBroadcast | holdupCommit | meterStart | sealBroken | getInfo | meterRead | readLog | getCert |
      frameGapTimeout | meterRecordReceive | meterStale | meterError =>
    simp only [↓meterSample_frame, ↓meterBroadcast_frame, ↓holdupCommit_frame, ↓meterStart_frame, ↓sealBroken_frame, ↓getInfo_frame,
      ↓meterRead_frame, ↓readLog_frame, ↓getCert_frame, ↓frameGapTimeout_frame, ↓meterRecordReceive_frame, ↓meterStale_frame,
      ↓meterError_frame]

/-- R26, R302: a command keeps the layout legal: a layout write takes none but a legal one, a reset of the hub restores the four single
quadrants, and no other command changes the layout. -/
theorem exec_layout_legal {c : Instr} {s t : State} (hexec : exec c s = .next t) (hlegal : Legal s.kept.layout) :
    Legal t.kept.layout := by
  have hframe := exec_layout_frame hexec
  cases c
  all_goals obtain rfl := Host.Outcome.next.inj hexec
  case partCfgWrite v => exact s.inTurn_layout_legal _ _ (partCfgWrite_layout_legal v s hlegal) hlegal
  case activateQuad key => exact s.inTurn_layout_legal _ _ (activateQuad_layout_legal key s hlegal) hlegal
  case rstSwRequest r =>
    have hrun := rstSwRequest_layout_legal r s hlegal
    cases r with
    | host _ => exact s.inTurn_layout_legal _ _ hrun hlegal
    | control _ => exact hrun
  case powerOn v12 => exact powerOn_layout_legal v12 s hlegal
  case brownOut x => exact brownOut_layout_legal x s hlegal
  case mrstN lowNs => exact mrstN_layout_legal lowNs s hlegal
  case watchdogExpire u cycles => exact watchdogExpire_layout_legal u cycles s hlegal
  case debugRequest r => exact debugRequest_layout_legal r s hlegal
  case clockFailure clock unsent => exact clockFailure_layout_legal clock unsent s hlegal
  case controlCoreLockup u => exact controlCoreLockup_layout_legal u s hlegal
  case sourceRelease src r x => exact sourceRelease_layout_legal src r x s hlegal
  case dieThermalTrip die temp => exact dieThermalTrip_layout_legal die temp s hlegal
  case pldmRequest r => exact pldmRequest_layout_legal r s hlegal
  case retryResend k src f => exact resendInOrder_layout_legal k src f s hlegal
  all_goals rwa [hframe rfl nofun]

/-- Settles O4: idling answers the same state, and the front command keeps the layout legal (`exec_layout_legal`). -/
theorem stepKeepsLayoutLegal : Obligations.StepKeepsLayoutLegal := by
  unfold Obligations.StepKeepsLayoutLegal
  intro s t hok hstep
  obtain ⟨-, rfl⟩ | ⟨c, rest, -, hexec⟩ := step_next_cases hstep
  · exact hok
  · have hlegal : Legal ({ s with pending := rest } : State).kept.layout := (State.layoutOk_iff_legal _).mp hok
    exact t.layoutOk_iff_legal.mpr (exec_layout_legal hexec hlegal)

end Sys2Proof.Machine
end

section
/-! SUPPORT. Elements in memory (02 R39): what the reader `elemOf` answers on each shape of packed bytes, and that it reads back what
`packElems` packs. -/

namespace Sys2Proof.Machine

/-- R39: element 0 of an FP4 string is in bits [3:0] of its first byte. -/
theorem elemOf_fp4_cons_zero (b : Byte) (bs : List Byte) : elemOf .fp4 (b :: bs) 0 = b.toNat % 16 := rfl

/-- R39: element 1 of an FP4 string is in bits [7:4] of its first byte. -/
theorem elemOf_fp4_cons_one (b : Byte) (bs : List Byte) : elemOf .fp4 (b :: bs) 1 = b.toNat / 16 := rfl

/-- R39: a byte before an FP4 string moves its elements up by two. -/
theorem elemOf_fp4_cons_add_two (b : Byte) (bs : List Byte) (i : Nat) : elemOf .fp4 (b :: bs) (i + 2) = elemOf .fp4 bs i := by
  simp only [elemOf, if_true, Nat.add_mod_right, Nat.add_div_right i Nat.two_pos, List.getD_cons_succ]

/-- R39: the byte that holds two FP4 elements, as a number. -/
theorem toNat_fp4_pair {a b : Nat} (ha : a < 16) (hb : b < 16) :
    (BitVec.ofNat 8 (a % 16 + 16 * (b % 16))).toNat = a + 16 * b := by
  rw [BitVec.toNat_ofNat, Nat.mod_eq_of_lt ha, Nat.mod_eq_of_lt hb, Nat.mod_eq_of_lt (by omega)]

/-- R39: FP4 elements read back as they were packed. The induction goes by pairs, as the packing does: the byte of a pair answers for
its two elements, and the bytes behind it for the others. -/
theorem elemOf_packElems_fp4 : ∀ (l : List Nat), (∀ x ∈ l, x < 16) →
    ∀ i, i < l.length → elemOf .fp4 (packElems .fp4 l) i = l.getD i 0
  | [], _, i, hi => absurd hi i.not_lt_zero
  | [a], hfit, 0, _ => by
    have ha : a < 16 := hfit a (.head _)
    simp only [packElems, if_true, elemOf_fp4_cons_zero, BitVec.toNat_ofNat, List.getD_cons_zero]
    omega
  | a :: b :: t, hfit, i, hi => by
    have ha : a < 16 := hfit a (.head _)
    have hb : b < 16 := hfit b (.tail _ (.head _))
    rw [packElems, if_pos rfl]
    match i with
    | 0 =>
      rw [elemOf_fp4_cons_zero, toNat_fp4_pair ha hb, List.getD_cons_zero]
      omega
    | 1 =>
      rw [elemOf_fp4_cons_one, toNat_fp4_pair ha hb, List.getD_cons_succ, List.getD_cons_zero]
      omega
    | i + 2 =>
      rw [elemOf_fp4_cons_add_two, List.getD_cons_succ, List.getD_cons_succ]
      exact elemOf_packElems_fp4 t (fun x hx => hfit x (.tail _ (.tail _ hx))) i (by simpa using hi)

/-- Table 02.1: a format of whole bytes is not FP4. -/
theorem Fmt.ne_fp4_of_bits {f : Fmt} {n : Nat} (hbits : f.bits = 8 * n) : f ≠ .fp4 := by
  rintro rfl
  have hfour : 4 = 8 * n := hbits
  omega

/-- Table 02.1: every format but FP4 takes whole bytes. -/
theorem Fmt.bits_eq_of_ne_fp4 {f : Fmt} (hf : f ≠ .fp4) : f.bits = 8 * (f.bits / 8) := by
  cases f
  case fp4 => exact absurd rfl hf
  all_goals rfl

/-- R39: in a format of whole bytes, element `i` is the number of as many bytes as the format has, behind those of the `i` before. -/
theorem elemOf_of_bits {f : Fmt} {n : Nat} (hbits : f.bits = 8 * n) (bs : List Byte) (i : Nat) :
    elemOf f bs i = ofBytes ((bs.drop (i * n)).take n) := by
  simp only [elemOf, if_neg (Fmt.ne_fp4_of_bits hbits), hbits, Nat.mul_div_cancel_left n (Nat.succ_pos 7)]

/-- R39: element 0 of a format of whole bytes is the number of its first bytes. -/
theorem elemOf_append_zero {f : Fmt} {xs : List Byte} (hbits : f.bits = 8 * xs.length) (bs : List Byte) :
    elemOf f (xs ++ bs) 0 = ofBytes xs := by
  rw [elemOf_of_bits hbits, Nat.zero_mul, List.drop_zero, List.take_left]

/-- R39: the bytes of an element before a string move the string's elements up by one. -/
theorem elemOf_append_succ {f : Fmt} {xs : List Byte} (hbits : f.bits = 8 * xs.length) (bs : List Byte) (i : Nat) :
    elemOf f (xs ++ bs) (i + 1) = elemOf f bs i := by
  rw [elemOf_of_bits hbits, elemOf_of_bits hbits, Nat.succ_mul, Nat.add_comm, List.drop_length_add_append]

/-- R39: in a format of whole bytes the elements are packed one by one, though the packing walks the list by pairs. -/
theorem packElems_cons {f : Fmt} (hf : f ≠ .fp4) : ∀ (a : Nat) (t : List Nat),
    packElems f (a :: t) = bytesOf a (f.bits / 8) ++ packElems f t
  | a, [] => by simp only [packElems, if_neg hf, List.append_nil]
  | a, b :: t => by rw [packElems, if_neg hf, packElems_cons hf b t]

/-- R11: the bytes of a pattern that fits a format of whole bytes read back as the pattern. -/
theorem ofBytes_bytesOf_of_fits {f : Fmt} (hf : f ≠ .fp4) {a : Nat} (ha : a < 2 ^ f.bits) :
    ofBytes (bytesOf a (f.bits / 8)) = a := by
  have hpow : 256 ^ (f.bits / 8) = 2 ^ f.bits := by
    rw [show (256 : Nat) = 2 ^ 8 from rfl, ← pow_mul, ← Fmt.bits_eq_of_ne_fp4 hf]
  rw [ofBytes_bytesOf, hpow, Nat.mod_eq_of_lt ha]

/-- R39: elements of a format of whole bytes read back as they were packed. -/
theorem elemOf_packElems_of_ne_fp4 {f : Fmt} (hf : f ≠ .fp4) (l : List Nat) (hfit : ∀ x ∈ l, x < 2 ^ f.bits) (i : Nat)
    (hi : i < l.length) : elemOf f (packElems f l) i = l.getD i 0 := by
  induction l generalizing i with
  | nil => exact absurd hi i.not_lt_zero
  | cons a t ih =>
    obtain ⟨ha, ht⟩ := List.forall_mem_cons.mp hfit
    have hbits : f.bits = 8 * (bytesOf a (f.bits / 8)).length := by rw [length_bytesOf, ← Fmt.bits_eq_of_ne_fp4 hf]
    rw [packElems_cons hf]
    cases i with
    | zero => rw [elemOf_append_zero hbits, ofBytes_bytesOf_of_fits hf ha, List.getD_cons_zero]
    | succ i => rw [elemOf_append_succ hbits, List.getD_cons_succ, ih ht i (Nat.lt_of_succ_lt_succ hi)]

/-- R39: the elements of every format read back as they were packed. -/
theorem elemOf_packElems (f : Fmt) (l : List Nat) (hfit : ∀ x ∈ l, x < 2 ^ f.bits) (i : Nat) (hi : i < l.length) :
    elemOf f (packElems f l) i = l.getD i 0 := by
  by_cases hf : f = .fp4
  · subst hf
    exact elemOf_packElems_fp4 l hfit i hi
  · exact elemOf_packElems_of_ne_fp4 hf l hfit i hi

/-- R11: two bytes, the low one first. -/
theorem ofBytes_two (b0 b1 : Byte) : ofBytes [b0, b1] = b0.toNat + 2 ^ 8 * b1.toNat := rfl

/-- R11, R39: three bytes, the low one first. -/
theorem ofBytes_three (b0 b1 b2 : Byte) : ofBytes [b0, b1, b2] = b0.toNat + 2 ^ 8 * b1.toNat + 2 ^ 16 * b2.toNat := by
  simp only [ofBytes]
  omega

/-- R11: four bytes, the low one first. -/
theorem ofBytes_four (b0 b1 b2 b3 : Byte) :
    ofBytes [b0, b1, b2, b3] = b0.toNat + 2 ^ 8 * b1.toNat + 2 ^ 16 * b2.toNat + 2 ^ 24 * b3.toNat := by
  simp only [ofBytes]
  omega

/-- Settles O59: the packing reads back (`elemOf_packElems`), the halves of a byte are the two FP4 elements, and the first element of
a format of whole bytes is the number of its first bytes (`elemOf_append_zero`), the low byte first. -/
theorem elementPacking : Obligations.ElementPacking := by
  unfold Obligations.ElementPacking
  refine ⟨elemOf_packElems, fun b bs => ⟨?_, ?_⟩, fun b0 b1 b2 bs => ?_, ?_, ?_⟩
  · exact (elemOf_fp4_cons_zero b bs).trans (congrArg (· % 16) (Nat.div_one b.toNat).symm)
  · have hb : b.toNat < 256 := b.isLt
    rw [elemOf_fp4_cons_one, bitsAt]
    omega
  · exact (elemOf_append_zero (xs := [b0, b1, b2]) (show Fmt.int24.bits = 8 * 3 from rfl) bs).trans (ofBytes_three b0 b1 b2)
  · rintro f rfl b0 b1 bs
    exact (elemOf_append_zero (xs := [b0, b1]) (show Fmt.bf16.bits = 8 * 2 from rfl) bs).trans (ofBytes_two b0 b1)
  · rintro f (rfl | rfl) b0 b1 b2 b3 bs
    · exact (elemOf_append_zero (xs := [b0, b1, b2, b3]) (show Fmt.fp32.bits = 8 * 4 from rfl) bs).trans (ofBytes_four b0 b1 b2 b3)
    · exact (elemOf_append_zero (xs := [b0, b1, b2, b3]) (show Fmt.int32.bits = 8 * 4 from rfl) bs).trans (ofBytes_four b0 b1 b2 b3)

end Sys2Proof.Machine
end

section
/-! SUPPORT. PASS_ISSUE and the conditions of Table 03.2 (03 R71), and the other commands of the arrays (02 R47, 03 R74, R82). -/

namespace Sys2Proof.Machine

/-- Table 03.2: pass `p` is the head pass of the instance that stands at the head of core `c`, and every condition of its issue holds. -/
def State.PassReady (s : State) (c : CoreId) (io : PassIo) (i : Instance) (p : Pass) (rest : List Pass) : Prop :=
  (s.core c.val).lists.inst = some i ∧ i.passes = p :: rest ∧
    s.coreIssues c.val = true ∧ (s.core c.val).pendCtrl = none ∧ (s.core c.val).inputReady i p = true ∧
    (s.core c.val).weightsReady c.val i p io = true ∧ (p.named i).all ((s.core c.val).tileReady i) = true ∧
    (i.fresh = true → (s.core c.val).tokensReady i.op = true)

/-- The test of PASS_ISSUE at the head pass of a core is that every condition of Table 03.2 holds. -/
theorem State.passReady_iff {s : State} {c : CoreId} {io : PassIo} {i : Instance} {p : Pass} {rest : List Pass}
    (hinst : (s.core c.val).lists.inst = some i) (hpasses : i.passes = p :: rest) :
    s.PassReady c io i p rest ↔
      (s.coreIssues c.val && (s.core c.val).pendCtrl.isNone && (s.core c.val).inputReady i p &&
        (s.core c.val).weightsReady c.val i p io && (p.named i).all ((s.core c.val).tileReady i) &&
        (!i.fresh || (s.core c.val).tokensReady i.op)) = true := by
  have htokens : (i.fresh = true → (s.core c.val).tokensReady i.op = true) ↔
      (!i.fresh || (s.core c.val).tokensReady i.op) = true := by cases i.fresh <;> simp
  simp only [State.PassReady, hinst, hpasses, true_and, Bool.and_eq_true, Option.isNone_iff_eq_none, htokens, and_assoc]

theorem exec_passIssue (c : CoreId) (io : PassIo) (s : State) :
    exec (.passIssue c io) s = .next ((passIssue c io s).commitLog c.val) := rfl

/-- R71: where no pass has every condition of Table 03.2, no pass runs. -/
theorem passIssue_of_not_ready {c : CoreId} {io : PassIo} {s : State} (hnone : ¬ ∃ i p rest, s.PassReady c io i p rest) :
    passIssue c io s = s := by
  unfold passIssue
  dsimp only
  split
  next => rfl
  next i hinst =>
    split
    next => rfl
    next p rest hpasses => exact if_neg fun htest => hnone ⟨i, p, rest, (State.passReady_iff hinst hpasses).mpr htest⟩

/-- R145: a core whose records have all been written to its ring commits nothing. -/
theorem State.commitLog_of_logOut_nil {s : State} {c : Nat} (hlog : (s.core c).report.logOut = []) : s.commitLog c = s := by
  simp only [State.commitLog, hlog, List.isEmpty_nil, if_true]

/-- Settles O58: a pass that does not have every condition leaves the state (`passIssue_of_not_ready`), so that the records that wait are
all that is written. -/
theorem passIssueNeedsEveryCondition : Obligations.PassIssueNeedsEveryCondition := by
  unfold Obligations.PassIssueNeedsEveryCondition
  intro c io s hnone
  have hrun : exec (.passIssue c io) s = .next (s.commitLog c.val) := by
    rw [exec_passIssue, passIssue_of_not_ready hnone]
  exact ⟨hrun, fun hlog => by rw [hrun, State.commitLog_of_logOut_nil hlog]⟩

theorem exec_anchorCompute (c : CoreId) (xOff wOff : Nat) (s : State) :
    exec (.anchorCompute c xOff wOff) s = .next (anchorCompute c xOff wOff s) := rfl

theorem exec_shadowLoad (c : CoreId) (a : Fin 4) (off : Nat) (tw : List TwillMove) (s : State) :
    exec (.shadowLoad c a off tw) s = .next (shadowLoad c a off tw s) := rfl

theorem exec_sramUe (c : CoreId) (store : Fin 5) (bank : BitVec 8) (hit : SramHit) (s : State) :
    exec (.sramUe c store bank hit) s = .next (sramUe c store bank hit s) := rfl

/-- Settles O6: each command's tests hold where its conditions do (`State.passReady_iff` for Table 03.2), and its meaning is then the
next state stated. -/
theorem arrayCommandsComplete : Obligations.ArrayCommandsComplete := by
  unfold Obligations.ArrayCommandsComplete
  refine ⟨?pass, ?anchor, ?shadow, ?corrected, ?uncorrectable⟩
  case pass =>
    intro c io s i p rest hinst hpasses hissues hpend hinput hweights htiles htokens
    have htest := (State.passReady_iff hinst hpasses).mp
      ⟨hinst, hpasses, hissues, hpend, hinput, hweights, htiles, htokens⟩
    simp only [exec_passIssue, passIssue, hinst, hpasses, htest, if_true]
  case anchor =>
    intro c xOff wOff s i at' a mb nt hnext hat hissues hroom hx hw
    simp only [exec_anchorCompute, anchorCompute, hnext, hat, hissues, hx, hw, Nat.not_le.mpr hroom, decide_false, Bool.not_true,
      Bool.or_false, Bool.false_eq_true, if_false]
  case shadow =>
    intro c a off tw s i p hinst hfind hissues harray hcovers htwill hrange
    simp only [exec_shadowLoad, shadowLoad, hinst, hfind, hissues, harray, hcovers, htwill, hrange, Bool.and_true, if_true]
  case corrected =>
    intro c store bank n s hclock
    simp only [exec_sramUe, sramUe, hclock, Bool.false_eq_true, if_false]
  case uncorrectable =>
    intro c store bank off s hclock
    exact (exec_sramUe c store bank _ s).trans (congrArg _ (if_neg (Bool.eq_false_iff.mp hclock)))

end Sys2Proof.Machine
end

section
/-! SUPPORT. Drains (03 R72, R78, 05 R129, 07 R191): the space that a drain needs, and the posting to a scaling record. -/

namespace Sys2Proof.Machine

/-- R72, Table 03.5: the space test of DRAIN_ISSUE holds where the destination that the drain's kind names has its space: a place at the
queue, a term's place at the reduction port, or room in the core store. -/
theorem drainIssue_space_of_dest {s : State} {c : Nat} {d : DrainItem} {f : Fmt} (hkind : d.desc.destKind.toNat < 5)
    (hstore : d.desc.destKind.toNat < 3 → d.at' + drainBytes f ≤ (destStore d.desc.destKind.toNat).size ∧
      s.placeFree c (destStore d.desc.destKind.toNat) d.at' (drainBytes f) = true)
    (hqueue : d.desc.destKind.toNat = 3 → (s.core c).canSend d.desc.destQueue.toNat = true)
    (hport : d.desc.destKind.toNat = 4 → f = .int24 ∧ s.takesTerm c (bitsAt d.at' 0 30) = true) :
    (if d.desc.destKind.toNat = 3 then (s.core c).canSend d.desc.destQueue.toNat
      else if d.desc.destKind.toNat = 4 then s.takesTerm c (bitsAt d.at' 0 30) && decide (f = .int24)
      else decide (d.desc.destKind.toNat < 3) && decide (d.at' + drainBytes f ≤ (destStore d.desc.destKind.toNat).size) &&
        s.placeFree c (destStore d.desc.destKind.toNat) d.at' (drainBytes f)) = true := by
  split
  next h3 => exact hqueue h3
  next h3 =>
    split
    next h4 =>
      obtain ⟨hfmt, hterm⟩ := hport h4
      rw [hterm, hfmt]
      rfl
    next h4 =>
      have hlow : d.desc.destKind.toNat < 3 := by omega
      obtain ⟨hroom, hfree⟩ := hstore hlow
      rw [decide_eq_true hlow, decide_eq_true hroom, hfree]
      rfl

theorem exec_drainIssue (c : CoreId) (io : IssueIo) (s : State) :
    exec (.drainIssue c io) s = .next ((drainIssue c io s).commitLog c.val) := rfl

theorem exec_drainComplete (c : CoreId) (s : State) : exec (.drainComplete c) s = .next (drainComplete c s) := rfl

/-- R245, R247: a memory-side operation of a core happens where its ranges may be accessed and no gate on its route is closed. -/
theorem State.whenUnit_merge {s : State} {p c : Nat} {rs : List (Nat × Nat)} (f : State → State) (haccess : s.mayAccess p rs = true)
    (hroute : s.rangesRefused p (c / 16) rs = false) : s.whenUnit p c [] rs [] f = f s := by
  obtain ⟨hfault, hcow, hpoison⟩ := (s.mayAccess_iff p rs).mp haccess
  simp only [State.whenUnit, State.accessBy, List.nil_append, List.append_nil, hroute, hfault, hcow, hpoison, s.poisonedIn_nil p,
    Bool.false_eq_true, if_false, List.foldl_nil]

/-- R191: what posts to a tensor's scaling record happens at once where the record, if the tensor has one, may be written. -/
theorem State.whenScaling_ready {s : State} {p c : Nat} {tensor : BitVec 32} {posts : Bool} (f : State → State)
    (hrecord : posts = true → ∀ m, (s.body p).managed.find? (fun m => m.tensor = tensor) = some m →
      s.mayAccess p [(m.addr.toNat, 256)] = true ∧ s.rangesRefused p (c / 16) [(m.addr.toNat, 256)] = false) :
    s.whenScaling p c tensor posts f = f s := by
  unfold State.whenScaling
  split
  next => rfl
  next m hfind =>
    split
    next hposts =>
      obtain ⟨haccess, hroute⟩ := hrecord hposts m hfind
      exact State.whenUnit_merge f haccess hroute
    next => rfl

/-- Settles O7: DRAIN_ISSUE's tests hold where the drain's destination has its space (`drainIssue_space_of_dest`), DRAIN_COMPLETE acts
where the scaling record may be written (`State.whenScaling_ready`), and their meanings are then the next states stated. -/
theorem drainCommandsComplete : Obligations.DrainCommandsComplete := by
  unfold Obligations.DrainCommandsComplete
  refine ⟨?issue, ?marker, ?complete⟩
  case issue =>
    intro c io s d rest f hhead hmarker hfmt hissues hclock hidle hdrainable hpasses hkind hstore hqueue hport
    have hspace := drainIssue_space_of_dest hkind hstore (fun h3 => (hqueue h3).1) hport
    have hgate : (decide (d.desc.destKind.toNat = 3) && s.edgeRefused c.val d.desc.destQueue.toNat) = false := by
      by_cases h3 : d.desc.destKind.toNat = 3
      · rw [(hqueue h3).2, Bool.and_false]
      · rw [decide_eq_false h3, Bool.false_and]
    simp only [exec_drainIssue, drainIssue, hhead, hmarker, hfmt, hissues, hclock, hidle, hdrainable, hpasses, hspace, hgate,
      Option.isSome_none, Bool.not_true, Bool.or_false, Bool.false_eq_true, if_false]
  case marker =>
    intro c io s d rest hhead hmarker hissues hclock hidle hgate
    simp only [exec_drainIssue, drainIssue, hhead, hmarker, hissues, hclock, hidle, hgate, Option.isSome_none, Bool.not_true,
      Bool.or_false, Bool.false_eq_true, if_false, if_true]
  case complete =>
    intro c s r hdrain hclock hrecord
    have hposts : ∀ f, s.whenScaling (s.partOfCore c.val) c.val r.item.desc.tensorId r.post.isSome f = f s := fun f =>
      State.whenScaling_ready f fun hsome => hrecord (Option.isSome_iff_ne_none.mp hsome)
    simp only [exec_drainComplete, drainComplete, hdrain]
    exact congrArg _ ((if_neg (Bool.eq_false_iff.mp hclock)).trans (hposts _))

end Sys2Proof.Machine
end

section
/-! SUPPORT. The control register of a core and the pass boundary (03 R73, R90). -/

namespace Sys2Proof.Machine

/-- R90: a change of CORE.CTRL takes effect at once with no pass running in a partition in Run, and else waits. -/
theorem State.writeCtrl_eq (s : State) (c : Nat) (q : CoreCtrl) :
    s.writeCtrl c q =
      if (s.core c).pass = none ∧ (s.part (s.partOfCore c)).power.state = .run then s.setCore c ((s.core c).applyCtrl q)
      else s.setCore c { s.core c with pendCtrl := some q } := by
  simp only [State.writeCtrl, Bool.and_eq_true, Option.isNone_iff_eq_none, decide_eq_true_eq]

theorem exec_coreEnable (c : CoreId) (on : Bool) (s : State) : exec (.coreEnable c on) s = .next (coreEnable c on s) := rfl

theorem exec_coreHaltReq (c : CoreId) (on : Bool) (s : State) : exec (.coreHaltReq c on) s = .next (coreHaltReq c on s) := rfl

theorem exec_passBoundaryStop (c : CoreId) (s : State) : exec (.passBoundaryStop c) s = .next (passBoundaryStop c s) := rfl

/-- R421: an enable that no disable in progress refuses, and every disable, is a write of CORE.ENABLE. -/
theorem coreEnable_of_taken {c : CoreId} {on : Bool} {s : State}
    (htaken : on = true → (s.core c.val).wantCtrl.enable = true ∨ ((s.core c.val).pass = none ∧ (s.core c.val).drain = none)) :
    coreEnable c on s = s.writeCtrl c.val { (s.core c.val).wantCtrl with enable := on } := by
  refine if_neg fun hrefused => ?_
  simp only [Bool.and_eq_true, Bool.not_eq_true', Bool.or_eq_true, Option.isSome_iff_ne_none] at hrefused
  obtain ⟨hon, hdisabled, hinFlight⟩ := hrefused
  obtain henabled | ⟨hpass, hdrain⟩ := htaken hon
  · exact Bool.false_ne_true (hdisabled.symm.trans henabled)
  · exact hinFlight.elim (· hpass) (· hdrain)

/-- R459: a halt that the module's lifecycle permits, and every release, is a write of CORE.HALT_REQ, after which the power target is
evaluated. -/
theorem coreHaltReq_of_permitted {c : CoreId} {on : Bool} {s : State}
    (hpermitted : on = true → s.fw.production = false ∨ s.fw.unlocked = true) :
    coreHaltReq c on s =
      (s.writeCtrl c.val { (s.core c.val).wantCtrl with haltReq := on }).retarget (s.partOfCore c.val) := by
  refine if_neg fun hrefused => ?_
  simp only [State.debugOpen, Bool.and_eq_true, Bool.not_eq_true', Bool.or_eq_false_iff, Bool.not_eq_false'] at hrefused
  obtain ⟨hon, hproduction, hlocked⟩ := hrefused
  obtain hdevelopment | hunlocked := hpermitted hon
  · exact Bool.false_ne_true (hdevelopment.symm.trans hproduction)
  · exact Bool.false_ne_true (hlocked.symm.trans hunlocked)

/-- Settles O9: a write of CORE.CTRL takes effect or waits (`State.writeCtrl_eq`) where nothing refuses it, and a pass boundary ends the
pass, with the change that waits. -/
theorem coreControlCompletes : Obligations.CoreControlCompletes := by
  unfold Obligations.CoreControlCompletes
  refine ⟨?enable, ?halt, ?boundaryChange, ?boundary⟩
  case enable =>
    intro c on s htaken
    rw [exec_coreEnable, coreEnable_of_taken htaken, State.writeCtrl_eq]
  case halt =>
    intro c on s hpermitted
    rw [exec_coreHaltReq, coreHaltReq_of_permitted hpermitted, State.writeCtrl_eq]
  case boundaryChange =>
    intro c s q hpend hclock hawake
    simp only [exec_passBoundaryStop, passBoundaryStop, hpend, hclock, hawake, Bool.false_eq_true, if_false, if_true]
  case boundary =>
    intro c s hpend hclock
    simp only [exec_passBoundaryStop, passBoundaryStop, hpend, hclock, Bool.false_eq_true, if_false]

end Sys2Proof.Machine
end

section
/-! SUPPORT. LOOP_LENGTH_LATCH and its tests (04 R98 to R112, 05 R129). -/

namespace Sys2Proof.Machine

theorem exec_loopLengthLatch (c : CoreId) (s : State) :
    exec (.loopLengthLatch c) s = .next ((loopLengthLatch c s).commitLog c.val) := rfl

/-- R103: a loop of static length, or of a length within LOOP.MAX, does not pass the test that faults a latched length. -/
theorem LoopDesc.not_tooLong {l : LoopDesc} {n : Nat} (hmax : l.src ≠ 0 → n ≤ l.max.toNat) :
    (decide (l.src ≠ 0) && decide (l.max.toNat < n)) = false := by
  simpa using hmax

/-- Settles O10: the head operator may be latched, its pointer entry is legal and its lengths are ready and within LOOP.MAX
(`LoopDesc.not_tooLong`), so that it waits for nothing and does not fault. Where M or N is 0 it is passed over; else its slots or its
spill region hold its demand. -/
theorem loopLengthLatchCompletes : Obligations.LoopLengthLatchCompletes := by
  unfold Obligations.LoopLengthLatchCompletes
  intro c s o os lm ln lk hissues hops hmay hentry htokens hroute hlegal hlm hln hlk hmaxM hmaxN hmaxK hspill
  rw [exec_loopLengthLatch]
  refine congrArg (fun a : State => Host.Outcome.next (a.commitLog c.val)) ?_
  have hlist : (decide (o.tiling.plMax ≠ 0) && (s.core c.val).lists.plPending.isNone) = false := by
    simpa [Option.isSome_iff_ne_none] using hentry
  have hwords : ((decide (o.tiling.m.src = 3) || decide (o.tiling.n.src = 3) || decide (o.tiling.k.src = 3)) &&
      !(s.core c.val).tokensReady o) = false := by
    simpa [or_assoc] using htokens
  have hfault : (s.core c.val).lists.plPending.bind (plFault o (s.core c.val).lists.plIndex) = none :=
    Option.bind_eq_none_iff.mpr fun e he => (hlegal e he).2
  simp only [loopLengthLatch, hissues, hops, hmay, hlist, hwords, hroute, hfault, Bool.not_true, Bool.or_false, Bool.false_eq_true,
    if_false]
  refine (if_neg ?valid).trans ?_
  case valid =>
    cases he : (s.core c.val).lists.plPending with
    | none => exact Bool.false_ne_true
    | some e => simp [hlegal e he]
  simp only [hlm, hln, hlk, LoopDesc.not_tooLong hmaxM, LoopDesc.not_tooLong hmaxN, LoopDesc.not_tooLong hmaxK, Bool.or_false,
    Bool.false_and, Bool.false_eq_true, if_false, Bool.or_eq_true, decide_eq_true_eq]
  by_cases hzero : lm = 0 ∨ ln = 0
  · exact (if_pos hzero).trans (if_pos hzero).symm
  · obtain ⟨hm0, hn0⟩ := not_or.mp hzero
    refine (if_neg hzero).trans (Eq.trans ?_ (if_neg hzero).symm)
    refine (if_neg ?waits).trans ((if_neg ?mode).trans (if_neg ?room))
    all_goals simp only [Bool.and_eq_true, decide_eq_true_eq]
    case waits =>
      rintro ⟨⟨hover, hlacks⟩, -⟩
      obtain ⟨hmode, hfits⟩ := hspill hm0 hn0 hover
      simp [hmode, Nat.not_lt.mpr hfits] at hlacks
    case mode =>
      rintro ⟨hover, hlacks⟩
      simp [(hspill hm0 hn0 hover).1] at hlacks
    case room => exact fun ⟨hover, hlacks⟩ => Nat.not_lt.mpr (hspill hm0 hn0 hover).2 hlacks

end Sys2Proof.Machine
end

section
/-! SUPPORT. The commands of a slot: its spill, its reload, and the combining of a K split's partial sums (04 R111, R112, R115). -/

namespace Sys2Proof.Machine

theorem exec_slotSpill (c : CoreId) (j : Fin 32) (s : State) :
    exec (.slotSpill c j) s = .next ((slotSpill c j s).commitLog c.val) := rfl

theorem exec_slotReload (c : CoreId) (j : Fin 32) (s : State) :
    exec (.slotReload c j) s = .next ((slotReload c j s).commitLog c.val) := rfl

theorem exec_addModeReload (c : CoreId) (j : Fin 32) (src : CoreId) (sj : Fin 32) (s : State) :
    exec (.addModeReload c j src sj) s = .next (((addModeReload c j src sj s).commitLog c.val).commitLog src.val) := rfl

/-- R245, R247: what a source only writes happens where `mayAccess` says so. -/
theorem State.accessBy_full {s : State} {p : Nat} {rs : List (Nat × Nat)} (src : ReqSrc) (f : State → State)
    (haccess : s.mayAccess p rs = true) : s.accessBy p src [] [] rs f = f s := by
  obtain ⟨hfault, hcow, hpoison⟩ := (s.mayAccess_iff p rs).mp haccess
  simp only [State.accessBy, List.nil_append, hfault, hcow, hpoison, s.poisonedIn_nil p, List.foldl_nil]

/-- R240, R247, R255: a read happens where no page faults, no line is poisoned and no request for a frame is held. -/
theorem State.whenReadable_ready {s : State} {p : Nat} {rs : List (Nat × Nat)} (f : State → State)
    (hfault : s.placeFault p rs false = none) (hpoison : s.poisonedIn p rs = [])
    (hheld : (s.cowPlaces p rs).any (fun pl => s.frameHeld pl.tower pl.g) = false) : s.whenReadable p rs f = f s := by
  simp only [State.whenReadable, hfault, hpoison, hheld, Bool.false_eq_true, if_false]

/-- Settles O11: each command's tests hold where its conditions do; its access then happens (`State.accessBy_full`,
`State.whenReadable_ready`), and its meaning is the next state stated. -/
theorem slotCommandsComplete : Obligations.SlotCommandsComplete := by
  unfold Obligations.SlotCommandsComplete
  refine ⟨?spill, ?reload, ?first, ?add⟩
  case spill =>
    intro c j s r hresident hopen hwanted hdrain hclock haccess
    have htest : ((s.core c.val).needed.any fun n => n.spilling && decide (n.home = j.val) &&
        decide (n.tile ≠ ((s.core c.val).slot j.val).tile) && decide (n.tile.inst = ((s.core c.val).slot j.val).tile.inst) &&
        decide (n.group = r.group)) = true := by
      simpa [and_assoc] using hwanted
    simp only [exec_slotSpill, slotSpill, hresident, hopen, htest, hdrain, hclock, State.accessBy_full _ _ haccess, decide_true,
      Option.isNone_none, Bool.not_false, Bool.and_true, if_true]
  case reload =>
    intro c j s n hslot hclock hdrain hnext hturn hspilled hfault hpoison hheld
    have htakes : (decide (((s.core c.val).slot j.val).state = .spilled) || (s.core c.val).openable j.val) = true := by
      simpa using hslot
    simp only [exec_slotReload, slotReload, htakes, hclock, hnext, hturn, hspilled, hdrain,
      State.whenReadable_ready _ hfault hpoison hheld, Option.isSome_none, Bool.not_true, Bool.or_false, Bool.false_eq_true, if_false,
      if_true]
  case first =>
    intro c j s n hslot hclock hnext hturn hspilled hanchor
    have hopens : (((s.core c.val).anchorFor n.array n.tile).isSome || decide (n.op.xFmt = .bf16)) = true := by
      simpa [Option.isSome_iff_ne_none] using hanchor
    simp only [exec_slotReload, slotReload, hslot, hclock, hnext, hturn, hspilled, hopens, decide_true, Bool.true_or, ne_eq,
      not_true_eq_false, Bool.not_true, Bool.or_false, Bool.false_eq_true, if_false, if_true]
  case add =>
    intro c j src sj s r r' place hresident hresident' hopen hopen' hmb hnt hop harray hdrain hdrain' hwide hwide' hclock hclock'
      hgate hplace haccess
    simp only [exec_addModeReload, addModeReload, hresident, hresident', hopen, hopen', hmb, hnt, hop, harray, hdrain, hdrain', hwide,
      hwide', hclock, hclock', hgate, hplace, State.accessBy_full _ _ haccess, decide_true, Option.isNone_none, Bool.not_false,
      Bool.and_true, Bool.false_eq_true, if_false, if_true, ne_eq, ite_not]

end Sys2Proof.Machine
end

section
/-! SUPPORT. VECTOR_ISSUE (05 R118, R129, R142, 07 R191, R196). -/

namespace Sys2Proof.Machine

theorem exec_vectorIssue (c : CoreId) (io : IssueIo) (s : State) :
    exec (.vectorIssue c io) s = .next ((vectorIssue c io s).commitLog c.val) := rfl

/-- Settles O8: the destination of the head entry has its space (a credit on each edge of the queue, a term's place at the port, or room
in the core store) and no gate refuses its route; the entry then posts where its scaling record may be written
(`State.whenScaling_ready`). -/
theorem vectorIssueCompletes : Obligations.VectorIssueCompletes := by
  unfold Obligations.VectorIssueCompletes
  refine ⟨?result, ?marker⟩
  case result =>
    intro c io s e rest hhead hissues hresult hready hqueue hport hscratch hinput hweights hrecord
    rw [exec_vectorIssue]
    refine congrArg (fun a : State => Host.Outcome.next (a.commitLog c.val)) ?_
    simp only [vectorIssue, hhead, hresult, hissues, hready, Bool.not_true, Bool.false_or, Bool.or_false, Bool.false_eq_true, if_false]
    refine (if_neg ?space).trans ((if_neg ?route).trans ((State.whenScaling_ready _ hrecord).trans ?_))
    case space =>
      cases hdest : e.dest with
      | scratch off => simp [hscratch off hdest]
      | input off => simp [hinput off hdest]
      | weights off => simp [hweights off hdest]
      | queue q n => simp [hqueue q n hdest]
      | reduction w => simp [hport w hdest]
    case route =>
      cases hdest : e.dest with
      | queue q n => simp [hqueue q n hdest]
      | scratch | input | weights | reduction => exact Bool.false_ne_true
    rfl
  case marker =>
    intro c io s e rest q n hhead hissues hmarker hdest
    simp only [exec_vectorIssue, vectorIssue, hhead, hissues, hmarker, hdest, Bool.not_true, Bool.or_true, Bool.false_eq_true, if_false,
      if_true]

end Sys2Proof.Machine
end

section
/-! SUPPORT. What arrives at an endpoint and what moves back into its queue (05 R127, R128, R129, R136, R143). -/

namespace Sys2Proof.Machine

theorem exec_tileArrive (c : CoreId) (e : EpId) (s : State) : exec (.tileArrive c e) s = .next (tileArrive c e s) := rfl

theorem exec_endOfStepMarker (c : CoreId) (e : EpId) (s : State) :
    exec (.endOfStepMarker c e) s = .next (endOfStepMarker c e s) := rfl

theorem exec_externalEventRelease (c : CoreId) (e : EpId) (arrived : Nat) (s : State) :
    exec (.externalEventRelease c e arrived) s = .next (externalEventRelease c e arrived s) := rfl

theorem exec_creditReceive (c : CoreId) (e : EpId) (s : State) : exec (.creditReceive c e) s = .next (creditReceive c e s) := rfl

theorem exec_queueMoveBack (c : CoreId) (e : EpId) (s : State) : exec (.queueMoveBack c e) s = .next (queueMoveBack c e s) := rfl

/-- R143: the oldest hidden tile is late where it arrived after the release cycle of its number. -/
theorem Endpoint.late_of_hiddenSeq {x : Endpoint} {i : BitVec 32} (arrived : Nat) (hhidden : x.hiddenSeq = some i) :
    x.late arrived = decide (x.releaseBase + i.toNat * x.releasePeriod < arrived) := by
  simp only [Endpoint.late, hhidden]

/-- R143, R161: a late event is counted and marks the step; one in time leaves the core. -/
theorem Core.countLate_decide (q : Core) (P : Prop) [Decidable P] :
    q.countLate (decide P) =
      if P then (q.modReport (fun r => { r with lateTiles := satAdd r.lateTiles 1 })).rptSet (fun r => { r with late := true })
      else q := by
  simp only [Core.countLate, decide_eq_true_eq]

/-- Settles O12: the core runs and the item that comes next at the endpoint passes each test of its command; the tile then takes the
lowest free slot or the spill region, and a release is late or in time (`Endpoint.late_of_hiddenSeq`). -/
theorem queueArrivalsComplete : Obligations.QueueArrivalsComplete := by
  unfold Obligations.QueueArrivalsComplete
  refine ⟨?tile, ?marker, ?release, ?credit, ?moveBack⟩
  case tile =>
    intro c e s a k0 hnext hmarker hrun hdir horder
    refine (exec_tileArrive c e s).trans (congrArg _ ?_)
    simp only [tileArrive, hrun, hnext, hmarker, Bool.false_eq_true, if_false]
    exact (if_neg (not_not_intro hdir)).trans (if_neg (Bool.eq_false_iff.mp horder))
  case marker =>
    intro c e s a k1 hnext hmarker hfirst hrun hdir
    simp only [exec_endOfStepMarker, endOfStepMarker, hrun, hnext, hmarker, hdir, hfirst, Bool.false_eq_true, if_false, ne_eq,
      not_true_eq_false, Bool.not_true]
  case release =>
    intro c e arrived i s x hhidden hreveal hrun
    simp only [exec_externalEventRelease, externalEventRelease, hrun, hreveal, Endpoint.late_of_hiddenSeq arrived hhidden,
      Core.countLate_decide, Bool.false_eq_true, if_false]
  case credit =>
    intro c e s i k1 hnext hrun
    simp only [exec_creditReceive, creditReceive, hrun, hnext, Bool.false_eq_true, if_false]
  case moveBack =>
    intro c e s t rest i hspill hfree hrun
    simp only [exec_queueMoveBack, queueMoveBack, hrun, hspill, hfree, Bool.false_eq_true, if_false]

end Sys2Proof.Machine
end

section
/-! SUPPORT. The stall watch (05 R135 to R138). -/

namespace Sys2Proof.Machine

theorem exec_stallTimerExpire (c : CoreId) (eps : BitVec 32) (s : State) :
    exec (.stallTimerExpire c eps) s = .next (stallTimerExpire c eps s) := rfl

theorem exec_stallSuspect (c : CoreId) (engine : Fin 3) (operator : BitVec 24) (s : State) :
    exec (.stallSuspect c engine operator) s = .next (stallSuspect c engine operator s) := rfl

/-- Settles O13: the watch of the die runs, so that each expired timer is dealt with and each wait recorded; a full queue whose engine
waits elsewhere is stuck. -/
theorem stallCommandsComplete : Obligations.StallCommandsComplete := by
  unfold Obligations.StallCommandsComplete
  refine ⟨?expire, ?stuck, ?suspect⟩
  case expire =>
    intro c eps s hwatch
    rw [exec_stallTimerExpire, stallTimerExpire, hwatch, if_neg Bool.false_ne_true]
  case stuck =>
    intro c e s hfull hwaits
    have hstuck : (!((s.core c).ep e).full || !(s.core c).waitsElsewhere e) = false := by rw [hfull, hwaits]; rfl
    exact if_neg (Bool.eq_false_iff.mp hstuck)
  case suspect =>
    intro c engine operator s hwatch
    rw [exec_stallSuspect, stallSuspect, hwatch, if_neg Bool.false_ne_true]

end Sys2Proof.Machine
end

section
/-! SUPPORT. The steering nodes (05 R129, R131, R132). -/

namespace Sys2Proof.Machine

theorem exec_steerSwitch (c : CoreId) (n : Fin 8) (s : State) : exec (.steerSwitch c n) s = .next (steerSwitch c n s) := rfl

theorem exec_steerSelect (c : CoreId) (n : Fin 8) (s : State) : exec (.steerSelect c n) s = .next (steerSelect c n s) := rfl

theorem exec_steerMerge (c : CoreId) (n : Fin 8) (s : State) : exec (.steerMerge c n) s = .next (steerMerge c n s) := rfl

/-- R132: the test of a node of the kind that a command is for passes where the node has not stopped. -/
theorem Steer.runs_of_kind {x : Steer} {kind : SteerKind} (hkind : x.kind = kind) (hgoes : x.stopped = false) :
    (decide (x.kind ≠ kind) || x.stopped) = false := by
  simp only [hkind, hgoes, ne_eq, not_true_eq_false, decide_false, Bool.or_false]

/-- Settles O14: the node runs (`Steer.runs_of_kind`); the token's field, or the order of the two oldest tiles, picks what goes out, and
the output that it goes to has its credits and its route. -/
theorem steeringCommandsComplete : Obligations.SteeringCommandsComplete := by
  unfold Obligations.SteeringCommandsComplete
  dsimp only
  refine ⟨?switchTile, ?switchMarker, ?selectTile, ?selectGap, ?selectMarker, ?mergeBoth, ?mergeOne, ?mergeMarker⟩
  case switchTile =>
    intro c n s tk d hkind hgoes hrun htoken hdata hseq hsel houtA houtB
    simp only [exec_steerSwitch, steerSwitch, hrun, Steer.runs_of_kind hkind hgoes, htoken, hdata]
    generalize tokenOf ((s.core c.val).tileBytes c.val _ tk) = tok at hseq hsel houtA houtB
    have hlegal : (decide (tok.2 = 3) || decide (tok.1 ≠ d.seq.toNat)) = false := by simp [hseq, hsel]
    simp only [hlegal, Bool.false_eq_true, if_false]
    by_cases hA : tok.2 = 0
    · obtain ⟨hcredit, hroute⟩ := houtA hA
      simp only [if_pos hA, hcredit, hroute, Bool.not_true, Bool.false_eq_true, if_false]
    · by_cases hB : tok.2 = 1
      · obtain ⟨hcredit, hroute⟩ := houtB hB
        simp only [if_neg hA, if_pos hB, hcredit, hroute, Bool.not_true, Bool.false_eq_true, if_false]
      · simp only [if_neg hA, if_neg hB]
  case switchMarker =>
    intro c n s hkind hgoes hrun hdata hmarker
    simp only [exec_steerSwitch, steerSwitch, hrun, Steer.runs_of_kind hkind hgoes, hdata, hmarker, Bool.false_eq_true, if_false, if_true]
    cases (s.core c.val).present ((s.core c.val).node n.val).token.toNat <;> rfl
  case selectTile =>
    intro c n s tk d hkind hgoes hrun htoken hsel hdata hseq hcredit hroute
    simp only [exec_steerSelect, steerSelect, hrun, Steer.runs_of_kind hkind hgoes, htoken, hdata, hseq, hcredit, hroute,
      Nat.ne_of_lt hsel, Nat.ne_of_lt (Nat.lt_succ_of_lt hsel), ne_eq, not_true_eq_false, Bool.not_true, Bool.false_eq_true, if_false]
  case selectGap =>
    intro c n s tk hkind hgoes hrun htoken hsel
    simp only [exec_steerSelect, steerSelect, hrun, Steer.runs_of_kind hkind hgoes, htoken, hsel, Bool.false_eq_true, if_false,
      if_true]
    rfl
  case selectMarker =>
    intro c n s hkind hgoes hrun htoken hmarkerA hmarkerB
    simp only [exec_steerSelect, steerSelect, hrun, Steer.runs_of_kind hkind hgoes, htoken, hmarkerA, hmarkerB, Bool.and_true,
      Bool.false_eq_true, if_false, if_true]
  case mergeBoth =>
    intro c n s a b hkind hgoes hrun ha hb hdiffer hcredit hroute
    simp only [exec_steerMerge, steerMerge, hrun, Steer.runs_of_kind hkind hgoes, ha, hb, hdiffer, hcredit, hroute, Bool.not_true,
      Bool.false_eq_true, if_false]
    by_cases hfirst : a.seq < b.seq
    · simp only [hfirst, if_true]
    · simp only [hfirst, if_false]
  case mergeOne =>
    intro c n s a hkind hgoes hrun ha hb hmarker hcredit hroute
    simp only [exec_steerMerge, steerMerge, hrun, Steer.runs_of_kind hkind hgoes, ha, hb, hmarker, hcredit, hroute, Bool.not_true,
      Bool.false_eq_true, if_false, if_true]
  case mergeMarker =>
    intro c n s hkind hgoes hrun ha hb hmarkerA hmarkerB
    simp only [exec_steerMerge, steerMerge, hrun, Steer.runs_of_kind hkind hgoes, ha, hb, hmarkerA, hmarkerB, Bool.and_true,
      Bool.false_eq_true, if_false, if_true]

end Sys2Proof.Machine
end

section
/-! SUPPORT. The steps of a core and the comparison with the report (05 R141 to R151). -/

namespace Sys2Proof.Machine

theorem exec_stepStart (c : CoreId) (wait : BitVec 32) (s : State) : exec (.stepStart c wait) s = .next (stepStart c wait s) := rfl

theorem exec_stepEnd (c : CoreId) (i0 i1 i2 : BitVec 32) (s : State) :
    exec (.stepEnd c i0 i1 i2) s = .next (stepEnd c i0 i1 i2 s) := rfl

theorem exec_reportCompare (t : TowerId) (s : State) : exec (.reportCompare t) s = .next (reportCompare t s) := rfl

/-- Settles O15: each command's test is the conjunction of its conditions, and its meaning is then the next state stated; a step is
compared with the entry of the report that is found for it. -/
theorem stepAndReportCommandsComplete : Obligations.StepAndReportCommandsComplete := by
  unfold Obligations.StepAndReportCommandsComplete
  dsimp only
  refine ⟨⟨?start, ?stop⟩, ⟨exec_reportCompare, ?core, ?step⟩⟩
  case start =>
    intro c wait s henable hhalt hfault hpass hpend hrun hbetween hlets hsnap hgate hshifts
    refine (exec_stepStart c wait s).trans (congrArg _ (if_neg ?_))
    simp only [henable, hhalt, hfault, hpass, hpend, hrun, hbetween, hlets, hsnap, hgate, hshifts, Option.isNone_none, Bool.not_false,
      Bool.not_true, Bool.and_true, Bool.false_eq_true, not_false_eq_true]
  case stop =>
    intro c i0 i1 i2 s hdone hrun
    refine (exec_stepEnd c i0 i1 i2 s).trans (congrArg _ (if_neg ?_))
    simp only [hdone, hrun, Bool.not_true, Bool.or_false, Bool.false_eq_true, not_false_eq_true]
  case core =>
    intro s c hloaded hended
    refine if_neg ?_
    simp only [hloaded, List.isEmpty_eq_false_iff.mpr hended, Bool.not_true, Bool.or_false, Bool.false_eq_true, not_false_eq_true]
  case step =>
    intro s c recs n e hfind hpredicted hverified hmark
    simp only [State.compareStep, hfind]
    refine if_neg ?_
    simp only [hpredicted, hverified, hmark, Bool.not_true, Bool.or_false, Bool.false_eq_true, not_false_eq_true]

end Sys2Proof.Machine
end

section
/-! SUPPORT. The commands that end a job command's work (05 R125, 11 R305 to R309). -/

namespace Sys2Proof.Machine

theorem exec_jobEnableComplete (p : PartId) (s : State) : exec (.jobEnableComplete p) s = .next (jobEnableComplete p s) := rfl

theorem exec_stopStepReached (p : PartId) (s : State) : exec (.stopStepReached p) s = .next (stopStepReached p s) := rfl

theorem exec_abortComplete (p : PartId) (s : State) : exec (.abortComplete p) s = .next (abortComplete p s) := rfl

theorem exec_clearComplete (p : PartId) (s : State) : exec (.clearComplete p) s = .next (clearComplete p s) := rfl

theorem exec_variantChange (p : PartId) (s : State) : exec (.variantChange p) s = .next (variantChange p s) := rfl

/-- R297, R307: END_STEP_WRITE with no access of the host before it. -/
theorem exec_endStepWrite_free (p : PartId) (x : WordWrite) {s : State} (hfree : s.hostBlocked = false) :
    exec (.endStepWrite p x) s = .next (endStepWrite p x.half x.value s) :=
  congrArg Host.Outcome.next (s.inTurn_free _ _ hfree)

/-- Settles O35: each command's test holds where its conditions do. What a write of JCP.END_STEP does turns on JCP.STATE and the highest
step begun (`exec_endStepWrite_free`), and the variant is changed at a step boundary of a live job. -/
theorem jobProgressCompletes : Obligations.JobProgressCompletes := by
  unfold Obligations.JobProgressCompletes
  dsimp only
  refine ⟨?enable, ?stop, ?endStep, ?abort, ?clear, ?variant⟩
  case enable =>
    intro p s hloading hrestore
    refine (exec_jobEnableComplete p s).trans (congrArg _ (if_pos ?_))
    simp only [hloading, hrestore, Option.isNone_none, decide_true, Bool.and_self]
  case stop =>
    intro p s h hstop hended hdue hcopy
    refine ⟨fun hstate => ?_, fun hstate hmode => ?_⟩
    · simp only [exec_stopStepReached, stopStepReached, hstop, hended, hdue, hcopy, hstate, Option.isSome_none, Bool.not_true,
        Bool.or_false, Bool.false_eq_true, if_false]
    · simp only [exec_stopStepReached, stopStepReached, hstop, hended, hdue, hcopy, hstate, hmode, Option.isSome_none, Bool.not_true,
        Bool.or_false, Bool.false_and, Bool.false_eq_true, if_false]
  case endStep =>
    intro p half w s hfree
    rw [exec_endStepWrite_free p ⟨half, w⟩ hfree]
    refine ⟨fun hnone => ?unbegun, fun h hbegun hstate => ?running, fun h hbegun hstate => ?pausing⟩
    case unbegun => simp only [endStepWrite, hnone]
    case running => simp only [endStepWrite, hbegun, hstate, Bool.or_eq_true, decide_eq_true_eq]
    case pausing => obtain hstate | hstate := hstate <;> simp only [endStepWrite, hbegun, hstate]
  case abort =>
    intro p s haborting hidle
    refine (exec_abortComplete p s).trans (congrArg _ (if_pos ?_))
    simp only [haborting, hidle, decide_true, Bool.not_false, Bool.and_self]
  case clear =>
    intro p s hclearing
    exact (exec_clearComplete p s).trans (congrArg _ (if_neg (not_not_intro hclearing)))
  case variant =>
    intro p s cause hasked hlive hhold htest hboundary
    have hbetween : (s.jobCores p.val).all (fun c => !(s.core c).report.inStep &&
        decide ((s.core c).report.next = (s.part p.val).jcp.step + 1)) = true := by
      simpa [List.all_eq_true] using hboundary
    obtain hstate | hstate | hstate | hstate := hlive
    all_goals
      simp only [exec_variantChange, variantChange, hasked, hstate, hhold, htest, hbetween, Bool.not_true, Bool.true_or, Bool.or_false,
        Bool.false_eq_true, if_false]

end Sys2Proof.Machine
end

section
/-! SUPPORT. The control packets and the reports of unreachable members (10 R280, R286, R288). -/

namespace Sys2Proof.Machine

theorem exec_klpCredit (p : PartId) (i : Nat) (s : State) : exec (.klpCredit p i) s = .next (klpCredit p i s) := rfl

theorem exec_unreachablePacket (p : PartId) (i : Nat) (s : State) :
    exec (.unreachablePacket p i) s = .next (unreachablePacket p i s) := rfl

theorem exec_memberUnreachable (p : PartId) (s : State) : exec (.memberUnreachable p) s = .next (memberUnreachable p s) := rfl

theorem exec_epochAhead (i : PortId) (v : Fin 5) (s : State) : exec (.epochAhead i v) s = .next (epochAhead i v s) := rfl

/-- Settles O60: the delivered packet is of the kind that the command takes, the oldest report names the member, and the held packet is
still ahead in a port that runs. -/
theorem controlPacketCommandsComplete : Obligations.ControlPacketCommandsComplete := by
  unfold Obligations.ControlPacketCommandsComplete
  refine ⟨?credit, ?unreachable, ?member, ?ahead⟩
  case credit =>
    intro p i s x hpacket hkind
    simp only [exec_klpCredit, klpCredit, hpacket, hkind, State.takeCredit, if_true]
  case unreachable =>
    intro p i s x hpacket hkind
    simp only [exec_unreachablePacket, unreachablePacket, hpacket, hkind, if_true]
  case member =>
    intro p s g m rest hreport
    simp only [exec_memberUnreachable, memberUnreachable, hreport]
  case ahead =>
    intro i v s pkt rest hheld hahead hruns
    simp only [exec_epochAhead, epochAhead, hheld, hahead, hruns, decide_true, Bool.not_false, Bool.and_self, if_true]

end Sys2Proof.Machine
end

section
/-! SUPPORT. The control of a stream context (06 R152, R164 to R166, R169). -/

namespace Sys2Proof.Machine

theorem exec_strArm (k : CtxKey) (addr : Option (BitVec 64)) (s : State) : exec (.strArm k addr) s = .next (strArm k addr s) := rfl

theorem exec_descriptorActivate (k : CtxKey) (s : State) :
    exec (.descriptorActivate k) s = .next (descriptorActivate k s) := rfl

theorem exec_strEnable (k : CtxKey) (s : State) : exec (.strEnable k) s = .next (strEnable k s) := rfl

theorem exec_strDisableReq (k : CtxKey) (abandon : Bool) (s : State) :
    exec (.strDisableReq k abandon) s = .next (strDisableReq k abandon s) := rfl

theorem exec_strResume (k : CtxKey) (s : State) : exec (.strResume k) s = .next (strResume k s) := rfl

/-- R164: an address written to an idle enabled context that has none is activated. -/
theorem armWrite_idle {k : CtxKey} {s : State} (addr : BitVec 64) (hidle : (s.ctx k.val).state = .idle)
    (henable : (s.ctx k.val).enable = true) (hactive : (s.ctx k.val).active = 0) (hshadow : (s.ctx k.val).shadow = 0)
    (hclock : s.ctxStopped k.val = false) : armWrite k addr s = s.activate k.val addr := by
  simp only [armWrite, hidle, henable, hactive, hshadow, hclock, decide_true, Bool.and_true, Bool.and_false, Bool.false_eq_true,
    if_false, if_true]

/-- R165: an address written while a descriptor is active waits in the empty shadow slot. -/
theorem armWrite_active {k : CtxKey} {s : State} (addr : BitVec 64) (hactive : (s.ctx k.val).active ≠ 0)
    (hshadow : (s.ctx k.val).shadow = 0) (hdisabling : (s.ctx k.val).state ≠ .disabling)
    (hdisabled : (s.ctx k.val).state ≠ .disabled) :
    armWrite k addr s = s.setCtx k.val { s.ctx k.val with shadow := addr } := by
  simp only [armWrite, hactive, hshadow, hdisabling, hdisabled, ne_eq, not_false_eq_true, decide_true, decide_false, Bool.and_true,
    Bool.and_false, Bool.false_and, Bool.false_eq_true, if_false, if_true]

/-- R164, Table 06.7: STR.ENABLE takes a DISABLED context to IDLE, and only enables one in any other state but DISABLING. -/
theorem strEnable_of_ne_disabling {k : CtxKey} {s : State} (hstate : (s.ctx k.val).state ≠ .disabling) :
    strEnable k s =
      if (s.ctx k.val).state = .disabled then s.setCtx k.val { s.ctx k.val with enable := true, state := .idle }
      else s.setCtx k.val { s.ctx k.val with enable := true } := by
  simp only [strEnable]
  split
  next hdisabling => exact absurd hdisabling hstate
  next hdisabled => exact (if_pos hdisabled).symm
  next hdisabled => exact (if_neg hdisabled).symm

/-- R169: a context halted on a resumable fault goes on from its save area, where that reads without a fault. -/
theorem strResume_readable {k : CtxKey} {s : State} (hhalted : (s.ctx k.val).state = .halted)
    (hresumable : resumable (s.ctx k.val).faultCode.toNat = true) (htrusted : (s.ctx k.val).saveTrusted = true)
    (hclock : s.ctxStopped k.val = false)
    (hread : s.readFault (s.ctxPart k.val) (s.ctx k.val).desc.saveArea.toNat 256 = none) :
    strResume k s =
      s.resumeFrom k.val (SaveArea.ofNat (ofBytes (s.jobBytes (ctxTower k.val) (s.ctx k.val).desc.saveArea.toNat 256))) := by
  simp only [strResume, hhalted, hresumable, htrusted, hclock, hread, decide_true, Bool.not_false, Bool.and_true, if_true]

/-- Settles O16: each command's tests are the conditions stated, so that it activates (`armWrite_idle`), fills the shadow slot
(`armWrite_active`), enables (`strEnable_of_ne_disabling`) or reloads (`strResume_readable`). -/
theorem streamControlCompletes : Obligations.StreamControlCompletes := by
  unfold Obligations.StreamControlCompletes
  refine ⟨?idle, ?shadow, ?next, ?activate, ?enable, exec_strDisableReq, ?resume⟩
  case idle =>
    intro k addr s hidle henable hactive hshadow hclock
    exact (exec_strArm k _ s).trans (congrArg _ (armWrite_idle addr hidle henable hactive hshadow hclock))
  case shadow =>
    intro k addr s hactive hshadow hdisabling hdisabled
    exact (exec_strArm k _ s).trans (congrArg _ (armWrite_active addr hactive hshadow hdisabling hdisabled))
  case next =>
    intro k c i addr rest s hcore harms hnamed hissues htakes
    simp only [exec_strArm, strArm, armNext, hcore, harms, hnamed, hissues, htakes, decide_true, Bool.and_true, if_true]
  case activate =>
    intro k s hidle henable hactive hshadow hclock
    simp only [exec_descriptorActivate, descriptorActivate, hidle, henable, hactive, hshadow, hclock, ne_eq, not_false_eq_true,
      decide_true, Bool.not_false, Bool.and_true, if_true]
  case enable =>
    intro k s hstate
    exact (exec_strEnable k s).trans (congrArg _ (strEnable_of_ne_disabling hstate))
  case resume =>
    intro k s hhalted hresumable htrusted hclock hread
    exact (exec_strResume k s).trans (congrArg _ (strResume_readable hhalted hresumable htrusted hclock hread))

end Sys2Proof.Machine
end

section
/-! SUPPORT. The commands that a stream context takes while its clock runs (01 R33, 06 R156). -/

namespace Sys2Proof.Machine

/-- R33: while its clock runs, a command of a context finds the responses that waited for the clock. -/
theorem State.inCtx_running {s u : State} {k : Nat} (f : State → State) (hwake : u = s.wake k) (hclock : s.ctxStopped k = false) :
    s.inCtx k f = f u := by
  rw [State.inCtx, hclock, if_neg Bool.false_ne_true, hwake]

/-- R156: a context whose clock runs and whose next word has the opcode of a command executes it. -/
theorem State.inCtx_at {s u : State} {k opcode : Nat} (f : State → State) (hwake : u = s.wake k) (hclock : s.ctxStopped k = false)
    (hat : (u.ctx k).at opcode = true) : s.inCtx k (fun s => if !(s.ctx k).at opcode then s else f s) = f u := by
  rw [State.inCtx_running _ hwake hclock, hat, Bool.not_true, if_neg Bool.false_ne_true]

end Sys2Proof.Machine
end

section
/-! SUPPORT. The instructions that move the generator of a stream context on (06 R156, Table 06.3). -/

namespace Sys2Proof.Machine

theorem exec_loopb (k : CtxKey) (s : State) : exec (.loopb k) s = .next (loopb k s) := rfl

theorem exec_loope (k : CtxKey) (s : State) : exec (.loope k) s = .next (loope k s) := rfl

theorem exec_strStride (k : CtxKey) (s : State) : exec (.strStride k) s = .next (strStride k s) := rfl

theorem exec_strAdd (k : CtxKey) (s : State) : exec (.strAdd k) s = .next (strAdd k s) := rfl

theorem exec_strSkip (k : CtxKey) (s : State) : exec (.strSkip k) s = .next (strSkip k s) := rfl

/-- Table 06.3: ADD writes by its mode the sum, the difference, the sum with a multiple, or the first register. -/
theorem Ctx.genAdd_eq (x : Ctx) :
    x.genAdd =
      (let w := x.word
       let b := x.gen.reg (bitsAt w 22 3)
       let c := x.gen.reg (bitsAt w 19 3)
       let m := bitsAt w 17 2
       let v := if m = 0 then b + c else if m = 1 then b - c
         else if m = 2 then b + c * ((x.gen.dim (bitsAt w 14 3)).1.setWidth 64) else b
       (x.gen.setReg (bitsAt w 25 3) v).goto (x.gen.pc + 1)) := by
  simp only [Ctx.genAdd]
  split
  next hmode => rw [if_pos hmode]
  next hmode => rw [hmode, if_neg Nat.one_ne_zero, if_pos rfl]
  next hmode => rw [hmode, if_neg (by decide), if_neg (by decide), if_pos rfl]
  next h0 h1 h2 => rw [if_neg h0, if_neg h1, if_neg h2]

/-- Table 06.3: SKIP passes over its words where the shifted index has reached the length. -/
theorem Ctx.genSkip_eq (x : Ctx) :
    x.genSkip =
      (let w := x.word
       let l := if bitsAt w 23 2 = 1 then x.gen.len else x.gen.plen
       let n := if l.toNat ≤ (x.gen.dim (bitsAt w 25 3)).1.toNat * 2 ^ bitsAt w 19 4 then bitsAt w 0 4 else 0
       x.gen.goto (x.gen.pc + 1 + n)) := by
  simp only [Ctx.genSkip, ge_iff_le, decide_eq_true_eq]

/-- Settles O17: the context executes the word at its program counter (`State.inCtx_at`), and the generator of
each instruction moves on as its row of Table 06.3 says. -/
theorem generatorInstructionsComplete : Obligations.GeneratorInstructionsComplete := by
  unfold Obligations.GeneratorInstructionsComplete
  refine ⟨?loopb, ?loope, ?stride, ?add, ?skip⟩
  case loopb =>
    intro k s u hwake hclock hat
    exact (exec_loopb k s).trans (congrArg _ (State.inCtx_at _ hwake hclock hat))
  case loope =>
    intro k s u hwake hclock hat
    exact (exec_loope k s).trans (congrArg _ (State.inCtx_at _ hwake hclock hat))
  case stride =>
    intro k s u hwake hclock hat
    exact (exec_strStride k s).trans (congrArg _ (State.inCtx_at _ hwake hclock hat))
  case add =>
    intro k s u hwake hclock hat
    exact (exec_strAdd k s).trans (congrArg _ ((State.inCtx_at _ hwake hclock hat).trans (congrArg _ (Ctx.genAdd_eq _))))
  case skip =>
    intro k s u hwake hclock hat
    exact (exec_strSkip k s).trans (congrArg _ ((State.inCtx_at _ hwake hclock hat).trans (congrArg _ (Ctx.genSkip_eq _))))

end Sys2Proof.Machine
end

section
/-! SUPPORT. The serialising instructions of a stream context (06 R156, R157, R159). -/

namespace Sys2Proof.Machine

theorem exec_endProgram (k : CtxKey) (s : State) : exec (.endProgram k) s = .next (endProgram k s) := rfl

theorem exec_plfetch (k : CtxKey) (s : State) : exec (.plfetch k) s = .next (plfetch k s) := rfl

theorem exec_bfetch (k : CtxKey) (s : State) : exec (.bfetch k) s = .next (bfetch k s) := rfl

theorem exec_twait (k : CtxKey) (s : State) : exec (.twait k) s = .next (twait k s) := rfl

/-- R157: a context with nothing outstanding has no bytes of a serialising read. -/
theorem Ctx.fetched_nil {x : Ctx} (hissued : x.issued = []) : x.fetched = none := by
  simp only [Ctx.fetched, hissued]

/-- R157: the read of a serialising instruction issues where nothing is outstanding and the merge buffer is empty. -/
theorem State.fetch_drained {s : State} {k : Nat} (adr : BitVec 64) (n : Nat) (hissued : (s.ctx k).issued = [])
    (hmerge : (s.ctx k).merge = none) :
    s.fetch k adr n =
      (let x := s.ctx k
       let s1 := s.issueReq k { addr := adr, len := n, pos := x.emitPos, serial := true, after := x.gen }
       if x.state = .running then s1.modCtx k (fun y => { y with state := .serialWait }) else s1) := by
  simp only [State.fetch, hissued, hmerge]

/-- Settles O18: the next word is the command's own (`State.inCtx_at`). With nothing outstanding no bytes have come (`Ctx.fetched_nil`), and
the read issues (`State.fetch_drained`); with its bytes there, or its token, the instruction takes its effect. -/
theorem serialisingInstructionsComplete : Obligations.SerialisingInstructionsComplete := by
  unfold Obligations.SerialisingInstructionsComplete
  refine ⟨?ends, ?reads, ?entry, ?word, ?token⟩
  case ends =>
    intro k s u hwake hclock hat hdrained
    refine (exec_endProgram k s).trans (congrArg _ ((State.inCtx_at _ hwake hclock hat).trans (if_neg ?_)))
    rw [hdrained, Bool.not_true]
    exact Bool.false_ne_true
  case reads =>
    intro k s u r x hwake hclock hat hissued hmerge hr
    subst hr
    have hnone : x.fetched = none := Ctx.fetched_nil hissued
    by_cases hpl : x.at 7 = true
    · rw [if_pos hpl, if_pos hpl, exec_plfetch, plfetch]
      refine congrArg _ ((State.inCtx_at _ hwake hclock hpl).trans ?_)
      simp only [hnone, x]
      exact State.fetch_drained _ _ hissued hmerge
    · rw [if_neg hpl, if_neg hpl, exec_bfetch, bfetch]
      refine congrArg _ ((State.inCtx_at _ hwake hclock (hat.resolve_left hpl)).trans ?_)
      simp only [hnone, x]
      exact State.fetch_drained _ _ hissued hmerge
  case entry =>
    intro k s u bs x a adr e hwake hclock hat hfetched hlead
    refine (exec_plfetch k s).trans (congrArg _ ((State.inCtx_at _ hwake hclock hat).trans ?_))
    dsimp only
    rewrite [hfetched]
    dsimp only
    cases hcore : ctxCore k.val with
    | none => rfl
    | some c =>
      cases hflag : x.desc.plLead with
      | false => rfl
      | true =>
        obtain ⟨hpending, o, os, hops, ho⟩ := hlead c hcore hflag
        refine if_pos ?_
        simp only [hpending, hops, ho, x, Option.isNone_none, decide_true, Bool.and_self]
  case word =>
    intro k s u bs x hwake hclock hat hfetched
    refine (exec_bfetch k s).trans (congrArg _ ((State.inCtx_at _ hwake hclock hat).trans ?_))
    dsimp only
    rewrite [hfetched]
    rfl
  case token =>
    intro k s u c t x e sel hwake hclock hat hdrained hcore hpresent hsel
    refine (exec_twait k s).trans (congrArg _ ((State.inCtx_at _ hwake hclock hat).trans ?_))
    dsimp only
    rewrite [hdrained, hcore]
    dsimp only
    rewrite [hpresent]
    exact if_neg (Nat.not_le_of_lt hsel)

end Sys2Proof.Machine
end

section
/-! SUPPORT. EMIT and the merge buffer (06 R154, R156, R158, R162). -/

namespace Sys2Proof.Machine

theorem exec_emit (k : CtxKey) (s : State) : exec (.emit k) s = .next (emit k s) := rfl

theorem exec_mergeHoldExpire (k : CtxKey) (s : State) : exec (.mergeHoldExpire k) s = .next (mergeHoldExpire k s) := rfl

/-- R156: the request that an EMIT at the program counter forms. -/
def Ctx.emitReq (x : Ctx) : StrReq :=
  let a := bitsAt x.word 25 3
  { addr := x.gen.reg a, dst := if x.desc.kind.isCopy then x.gen.reg (a + 1) else 0, len := bitsAt x.word 0 12 + 1, pos := x.emitPos,
    after := x.genEmit }

/-- R162, R169: whether the request of an EMIT is one that the merge buffer takes. -/
def Ctx.emitsSmall (x : Ctx) (k : Nat) : Bool :=
  decide (x.emitReq.len < 256) && decide (0 < x.desc.mergeHold) && (ctxCore k).isSome &&
    x.covers.all (fun c => decide (c.stop ≤ x.emitPos))

/-- R155: a context `y` moved past the EMIT that stands at the program counter of `x`. -/
def Ctx.pastEmit (x y : Ctx) : Ctx := { y with gen := x.genEmit, emitPos := x.emitPos + x.emitReq.len }

/-- R154, R162: what an EMIT does with its request, which waits where its context may not issue. -/
def State.takeEmit (s : State) (k : Nat) : State :=
  let x := s.ctx k
  let r := x.emitReq
  match x.emitsSmall k, x.merge with
  | true, none => s.setCtx k (x.pastEmit { x with merge := some r })
  | true, some m =>
    if joins m r then
      let s1 := s.setCtx k (x.pastEmit { x with merge := some { m with len := m.len + r.len, after := x.genEmit } })
      match ctxCore k with
      | some c => s1.modCore c (fun q => { q with mergeCount := q.mergeCount + 1 })
      | none => s1
    else if s.mayIssue k m then (s.flushMerge k).modCtx k (fun y => x.pastEmit { y with merge := some r })
    else s
  | false, some m =>
    if s.mayIssue k m then
      let s1 := s.flushMerge k
      if s1.mayIssue k r then (s1.setCtx k (x.pastEmit (s1.ctx k))).issueReq k r else s1
    else s
  | false, none => if s.mayIssue k r then (s.setCtx k (x.pastEmit x)).issueReq k r else s

/-- R158: EMIT puts its request on its way, and a program that has so ended has its merge buffer issued. -/
theorem emit_eq (k : CtxKey) (s : State) :
    emit k s = s.inCtx k.val fun s =>
      if !(s.ctx k.val).at 5 then s
      else if ((s.takeEmit k.val).ctx k.val).gen.ended then (s.takeEmit k.val).pastEnd k.val else s.takeEmit k.val := rfl

/-- Table 06.3: EMIT advances its address registers, where its word says so, by the length of its request. -/
theorem Ctx.genEmit_eq (x : Ctx) :
    x.genEmit =
      (let r := x.emitReq
       let a := bitsAt x.word 25 3
       let n64 : BitVec 64 := BitVec.ofNat 64 r.len
       let g0 := if x.word.testBit 24 then
           (let g1 := x.gen.setReg a (r.addr + n64)
            if x.desc.kind.isCopy then g1.setReg (a + 1) (r.dst + n64) else g1)
         else x.gen
       g0.goto (x.gen.pc + 1)) := by
  unfold Ctx.genEmit Ctx.emitReq
  cases x.desc.kind.isCopy <;> rfl

/-- R162: a small request enters the empty merge buffer. -/
theorem State.takeEmit_enters {s : State} {k : Nat} (hsmall : (s.ctx k).emitsSmall k = true) (hmerge : (s.ctx k).merge = none) :
    s.takeEmit k = s.setCtx k ((s.ctx k).pastEmit { s.ctx k with merge := some (s.ctx k).emitReq }) := by
  simp only [State.takeEmit, hsmall, hmerge]

/-- R162: a small request joins the buffer that it continues, and the core counts it. -/
theorem State.takeEmit_joins {s : State} {k : Nat} {m : StrReq} (hsmall : (s.ctx k).emitsSmall k = true)
    (hmerge : (s.ctx k).merge = some m) (hjoins : joins m (s.ctx k).emitReq = true) :
    s.takeEmit k =
      (let x := s.ctx k
       let s1 := s.setCtx k (x.pastEmit { x with merge := some { m with len := m.len + x.emitReq.len, after := x.genEmit } })
       match ctxCore k with
       | some c => s1.modCore c (fun q => { q with mergeCount := q.mergeCount + 1 })
       | none => s1) := by
  simp only [State.takeEmit, hsmall, hmerge, hjoins, if_true]

/-- R162: a small request that does not continue the buffer has it issue, and starts a new one. -/
theorem State.takeEmit_restarts {s : State} {k : Nat} {m : StrReq} (hsmall : (s.ctx k).emitsSmall k = true)
    (hmerge : (s.ctx k).merge = some m) (hjoins : joins m (s.ctx k).emitReq = false) (hissues : s.mayIssue k m = true) :
    s.takeEmit k =
      (s.flushMerge k).modCtx k (fun y => (s.ctx k).pastEmit { y with merge := some (s.ctx k).emitReq }) := by
  simp only [State.takeEmit, hsmall, hmerge, hjoins, hissues, Bool.false_eq_true, if_false, if_true]

/-- R162: any other request issues behind the buffer. -/
theorem State.takeEmit_follows {s : State} {k : Nat} {m : StrReq} (hsmall : (s.ctx k).emitsSmall k = false)
    (hmerge : (s.ctx k).merge = some m) (hissues : s.mayIssue k m = true) :
    s.takeEmit k =
      (let x := s.ctx k
       let s1 := s.flushMerge k
       if s1.mayIssue k x.emitReq then (s1.setCtx k (x.pastEmit (s1.ctx k))).issueReq k x.emitReq else s1) := by
  simp only [State.takeEmit, hsmall, hmerge, hissues, if_true]

/-- R154: any other request issues at once where the buffer is empty. -/
theorem State.takeEmit_issues {s : State} {k : Nat} (hsmall : (s.ctx k).emitsSmall k = false) (hmerge : (s.ctx k).merge = none)
    (hissues : s.mayIssue k (s.ctx k).emitReq = true) :
    s.takeEmit k = (s.setCtx k ((s.ctx k).pastEmit (s.ctx k))).issueReq k (s.ctx k).emitReq := by
  simp only [State.takeEmit, hsmall, hmerge, hissues, if_true]

/-- Settles O19: the request, the generator and the test of a small request are those that the command's own definitions give
(`emit_eq`, `Ctx.genEmit_eq`); the request then meets one of the five cases of `State.takeEmit`. A hold that expires issues the buffer. -/
theorem emitCompletes : Obligations.EmitCompletes := by
  unfold Obligations.EmitCompletes
  refine ⟨?emit, ?expire⟩
  case emit =>
    intro k s u x a len adr dst n64 g0 g r small moved hwake hclock hat hissues hflushes
    refine (exec_emit k s).trans (congrArg _ ((emit_eq k s).trans ((State.inCtx_at _ hwake hclock hat).trans ?_)))
    have hg : g = x.genEmit := (Ctx.genEmit_eq x).symm
    have hr : r = x.emitReq := congrArg (fun g => ({ x.emitReq with after := g } : StrReq)) hg
    have hsmall : small = x.emitsSmall k.val := rfl
    have hmoved : moved = x.pastEmit := funext fun y => congrArg (fun g => ({ x.pastEmit y with gen := g } : Ctx)) hg
    clear_value g small r moved
    subst hg hr hsmall hmoved
    refine congrArg (fun s1 : State => if (s1.ctx k.val).gen.ended then s1.pastEnd k.val else s1) ?_
    cases hsmall : x.emitsSmall k.val with
    | false =>
      cases hmerge : x.merge with
      | none => exact State.takeEmit_issues hsmall hmerge (hissues hmerge hsmall)
      | some m => exact State.takeEmit_follows hsmall hmerge (hflushes m hmerge (.inl hsmall))
    | true =>
      cases hmerge : x.merge with
      | none => exact State.takeEmit_enters hsmall hmerge
      | some m =>
        cases hjoins : joins m x.emitReq with
        | false =>
          refine (State.takeEmit_restarts hsmall hmerge hjoins (hflushes m hmerge (.inr hjoins))).trans ?_
          exact (if_neg (Bool.eq_false_iff.mp hjoins)).symm
        | true => exact (State.takeEmit_joins hsmall hmerge hjoins).trans (if_pos hjoins).symm
  case expire =>
    intro k s u hwake hclock hruns
    refine (exec_mergeHoldExpire k s).trans (congrArg _ ((State.inCtx_running _ hwake hclock).trans (if_pos ?_)))
    simpa only [Bool.or_eq_true] using hruns

end Sys2Proof.Machine
end

section
/-! SUPPORT. The retirement of requests (06 R154, R161, R177). -/

namespace Sys2Proof.Machine

theorem exec_requestRetire (k : CtxKey) (now arrived : Nat) (s : State) :
    exec (.requestRetire k now arrived) s = .next (requestRetire k now arrived s) := rfl

/-- R161, R175: a request that has reached its release cycle, where its descriptor has one, does not wait for it. -/
theorem Ctx.beforeRelease_eq_false {x : Ctx} {r : StrReq} {now : Nat}
    (hrelease : x.desc.release = true → x.desc.relBase + r.index * x.desc.relPeriod ≤ now) : x.beforeRelease r now = false := by
  rw [Ctx.beforeRelease, Bool.and_eq_false_imp]
  exact fun h => decide_eq_false (Nat.not_lt.mpr (hrelease h))

/-- Settles O20: the oldest request passes each test of the command, the release included (`Ctx.beforeRelease_eq_false`). -/
theorem requestRetireCompletes : Obligations.RequestRetireCompletes := by
  unfold Obligations.RequestRetireCompletes
  intro k now arrived s u r rest x hwake hclock hissued hretires hrelease hstate
  refine (exec_requestRetire k now arrived s).trans (congrArg _ ((State.inCtx_running _ hwake hclock).trans ?_))
  dsimp only
  rewrite [hissued]
  have hearly : x.beforeRelease r now = false := Ctx.beforeRelease_eq_false hrelease
  have hgoes : (decide (x.state ≠ .running) && decide (x.state ≠ .serialWait) && decide (x.state ≠ .disabling)) = false := by
    obtain h | h | h := hstate <;> rw [h] <;> rfl
  have htest : (!x.mayRetire r || x.beforeRelease r now ||
      (decide (x.state ≠ .running) && decide (x.state ≠ .serialWait) && decide (x.state ≠ .disabling))) = false := by
    rw [hretires, hearly, hgoes]
    rfl
  exact if_neg (Bool.eq_false_iff.mp htest)

end Sys2Proof.Machine
end

section
/-! SUPPORT. The faults of a stream context, its settle phase and its save area (06 R167 to R170, R178), and a ring's period (06 R174). -/

namespace Sys2Proof.Machine

theorem exec_requestTimeout (k : CtxKey) (i : Fin 32) (s : State) :
    exec (.requestTimeout k i) s = .next (requestTimeout k i s) := rfl

theorem exec_streamFault (k : CtxKey) (i : Fin 32) (code : Fin 8) (addr : BitVec 64) (s : State) :
    exec (.streamFault k i code addr) s = .next (streamFault k i code addr s) := rfl

theorem exec_haltSettleDone (h : HaltSettle) (s : State) :
    exec (.haltSettleDone h) s = .next (haltSettleDone h.ctx h.now h.arrived s) := rfl

theorem exec_settleTimeout (k : CtxKey) (s : State) : exec (.settleTimeout k) s = .next (settleTimeout k s) := rfl

theorem exec_saveAreaWritten (k : CtxKey) (ok : Bool) (s : State) :
    exec (.saveAreaWritten k ok) s = .next (saveAreaWritten k ok s) := rfl

theorem exec_ringPeriodEnd (c : CoreId) (done : Bool) (s : State) :
    exec (.ringPeriodEnd c done) s = .next (ringPeriodEnd c done s) := rfl

/-- R167: an outstanding request that has neither completed nor faulted is marked, and its context halts. -/
theorem State.faultReq_outstanding {s : State} {k i : Nat} {r : StrReq} (code addr : Nat) (dst : Bool)
    (hreq : (s.ctx k).issued[i]? = some r) (hfault : r.fault = none) (hopen : r.completed (s.ctx k).desc.kind = false) :
    s.faultReq k i code addr dst =
      (s.setCtx k { s.ctx k with issued := listSet (s.ctx k).issued i { r with
        fault := some (BitVec.ofNat 16 code), faultAddr := BitVec.ofNat 64 addr, faultDst := dst, refused := none } }).haltCtx
          k code addr := by
  simp only [State.faultReq, hreq, hfault, hopen, Option.isSome_none, Bool.or_self, Bool.false_eq_true, if_false]

/-- R178: a request that has had no response in time faults with TIMEOUT, at its first part that is not complete. -/
theorem State.timeoutReq_of_issued {s : State} {k i : Nat} {r : StrReq} (hreq : (s.ctx k).issued[i]? = some r) :
    s.timeoutReq k i =
      s.faultReq k i 0x0604 (r.lateSide (s.ctx k).desc.kind).1 (r.lateSide (s.ctx k).desc.kind).2 := by
  simp only [State.timeoutReq, hreq]

/-- Settles O21: an outstanding request is marked and its context halts (`State.faultReq_outstanding`), by a timeout as by a fault response;
the other commands' tests are the conditions stated. -/
theorem streamFaultsAndRingPeriodComplete : Obligations.StreamFaultsAndRingPeriodComplete := by
  unfold Obligations.StreamFaultsAndRingPeriodComplete
  refine ⟨⟨?timeout, ?fault, ?refusal, ?settled, ?settleTimeout, ?saved⟩, ?ring⟩
  case timeout =>
    intro k i s u r x hwake hclock hreq hfault hopen hspace
    refine (exec_requestTimeout k i s).trans (congrArg _ ((State.inCtx_running _ hwake hclock).trans ?_))
    dsimp only
    rewrite [hreq]
    refine (if_pos ?_).trans (congrArg State.settleWindows ?_)
    · simpa only [Bool.or_eq_true, Bool.and_eq_true, decide_eq_true_eq, or_assoc] using hspace
    · exact (State.timeoutReq_of_issued hreq).trans (State.faultReq_outstanding _ _ _ hreq hfault hopen)
  case fault =>
    intro k i code addr s u r x hwake hclock hreq hfault hopen hrefused hcode
    refine (exec_streamFault k i code addr s).trans (congrArg _ ((State.inCtx_running _ hwake hclock).trans ?_))
    dsimp only
    rewrite [hreq, Option.bind_some, hrefused]
    refine (if_neg hcode).trans (congrArg State.settleWindows ?_)
    rw [State.faultReq_outstanding _ _ _ hreq hfault hopen, BitVec.ofNat_toNat, BitVec.setWidth_eq, ← hrefused]
  case refusal =>
    intro k i code addr s u r q a d x hwake hclock hreq hfault hopen hrefused
    refine (exec_streamFault k i code addr s).trans (congrArg _ ((State.inCtx_running _ hwake hclock).trans ?_))
    dsimp only
    rewrite [hreq, Option.bind_some, hrefused]
    refine congrArg State.settleWindows ?_
    rw [State.faultReq_outstanding _ _ _ hreq hfault hopen, BitVec.ofNat_toNat, BitVec.setWidth_eq, BitVec.ofNat_toNat,
      BitVec.setWidth_eq]
  case settled =>
    intro k now arrived s u x hwake hclock hhalting hsettled hall hnow hpart hback
    refine (exec_haltSettleDone _ s).trans (congrArg _ ((State.inCtx_running _ hwake hclock).trans (if_pos ?_)))
    simp only [x] at hhalting hsettled hall hnow hpart hback
    simp only [hhalting, hsettled, hall, hnow, hpart, hback, decide_true, Bool.not_false, Bool.and_true]
  case settleTimeout =>
    intro k s u x hwake hclock hhalting hsettled
    refine (exec_settleTimeout k s).trans (congrArg _ ((State.inCtx_running _ hwake hclock).trans (if_pos ?_)))
    simp only [x] at hhalting hsettled
    simp only [hhalting, hsettled, decide_true, Bool.not_false, Bool.and_true]
  case saved =>
    intro k ok s u x p t area meets hwake hclock hhalting hsettled hmeets
    refine (exec_saveAreaWritten k ok s).trans (congrArg _ ((State.inCtx_running _ hwake hclock).trans ((if_pos ?_).trans (if_neg ?_))))
    · simp only [x] at hhalting hsettled
      simp only [hhalting, hsettled, decide_true, Bool.and_true]
    · have hgoes : (ok && decide (meets = .held)) = false := by
        rw [Bool.and_eq_false_imp]
        exact fun h => decide_eq_false (hmeets h)
      exact Bool.eq_false_iff.mp hgoes
  case ring =>
    intro c s q hclock hen hsize hsent hgot hpassed
    refine (exec_ringPeriodEnd c true s).trans (congrArg _ ((if_neg (Bool.eq_false_iff.mp hclock)).trans (if_pos ?_)))
    simp only [q] at hen hsize hsent hgot hpassed
    simp only [hen, hsize, hsent, hgot, hpassed, decide_true, Bool.and_self]

end Sys2Proof.Machine
end

section
/-! SUPPORT. Per-tensor shifts (07 R192) and the parameter update (07 R204 to R207, 08 R219, R235). -/

namespace Sys2Proof.Machine

theorem exec_tensorShiftUpdate (p : PartId) (k : Nat) (s : State) :
    exec (.tensorShiftUpdate p k) s = .next (tensorShiftUpdate p k s) := rfl

theorem exec_adamwUpdate (c : CoreId) (io : IssueIo) (s : State) :
    exec (.adamwUpdate c io) s = .next ((adamwUpdate c io s).commitLog c.val) := rfl

/-- R245, R247: what a core reads and writes happens where its ranges may be accessed and no gate on its route is closed. -/
theorem State.whenUnit_use {s : State} {p c : Nat} {rs : List (Nat × Nat)} (f : State → State) (haccess : s.mayAccess p rs = true)
    (hroute : s.rangesRefused p (c / 16) rs = false) : s.whenUnit p c rs [] [] f = f s := by
  obtain ⟨hfault, hcow, hpoison⟩ := (s.mayAccess_iff p rs).mp haccess
  simp only [State.whenUnit, State.accessBy, List.append_nil, hroute, hfault, hcow, hpoison, s.poisonedIn_nil p,
    Bool.false_eq_true, if_false, List.foldl_nil]

/-- R206: the tiles of the stopping regions, each with what ADAMW_UPDATE finds of its gradients. -/
def State.stopChecks (s : State) (p : Nat) (step : BitVec 32) : List ((GroupDesc × Nat × Region × Nat) × Option Bool) :=
  (s.stopTiles p).map (fun y => (y, s.tileBad p step y))

/-- R206: no tile of a stopping region is found bad where the gradients of each are formed and finite. -/
theorem State.stopChecks_clean {s : State} {p : Nat} {step : BitVec 32} (hclean : ∀ y ∈ s.stopTiles p, s.tileBad p step y = some false) :
    (s.stopChecks p step).find? (fun y => y.2 = some true) = none ∧ (s.stopChecks p step).any (fun y => y.2.isNone) = false := by
  constructor
  · simpa [State.stopChecks, List.find?_eq_none] using fun d t r tl hmem => by simp [hclean (d, t, r, tl) hmem]
  · simpa [State.stopChecks, List.any_eq_false] using fun d t r tl hmem => by simp [hclean (d, t, r, tl) hmem]

/-- R206: the first tile of a stopping region with a gradient that is not finite is the one found bad. -/
theorem State.stopChecks_bad {s : State} {p : Nat} {step : BitVec 32} {y : GroupDesc × Nat × Region × Nat}
    {before after : List (GroupDesc × Nat × Region × Nat)} (hsplit : s.stopTiles p = before ++ y :: after)
    (hbad : s.tileBad p step y = some true) (hfirst : ∀ x ∈ before, s.tileBad p step x ≠ some true) :
    (s.stopChecks p step).find? (fun y => y.2 = some true) = some (y, some true) := by
  rw [State.stopChecks, hsplit, List.find?_map, List.find?_append, List.find?_eq_none.mpr (fun x hx => by simpa using hfirst x hx)]
  simp [hbad]

/-- Settles O22: TENSOR_SHIFT_UPDATE writes where its page is writable (`State.whenWritable_ready`). ADAMW_UPDATE's outcome turns on the
stopping regions' tiles: with all of them clean the tile is updated (`State.stopChecks_clean`, `State.whenUnit_use`), and the first bad
one stops the job (`State.stopChecks_bad`). -/
theorem trainingCommandsComplete : Obligations.TrainingCommandsComplete := by
  unfold Obligations.TrainingCommandsComplete
  refine ⟨?shift, ?update, ?stop⟩
  case shift =>
    intro p k s m hmanaged ended behind last next hjob hdue hstep haccess
    have hahead : ¬ next ≤ s.tscStep p.val m := Nat.not_le.mpr hstep
    simp only [next, last, behind, ended] at hjob hahead
    simp only [exec_tensorShiftUpdate, tensorShiftUpdate, hmanaged, hjob, hdue, hahead, State.whenWritable_ready _ _ _ _ haccess,
      Option.isSome_none, decide_false, Bool.not_true, Bool.or_self, Bool.false_eq_true, if_false]
    rfl
  case update =>
    intro c io s e rest g tile d gr n r tl k p t step hhead hop hgroup hgrad hregion hissues hcomplete hclean hroute haccess
    obtain ⟨hnone, hformed⟩ := State.stopChecks_clean hclean
    refine (exec_adamwUpdate c io s).trans (congrArg (fun a : State => Host.Outcome.next (a.commitLog c.val)) ?_)
    simp only [k, p, t, step, State.stopChecks] at hhead hgroup hgrad hregion hcomplete hnone hformed hroute haccess
    simp only [adamwUpdate, hhead, hop, hgroup, hgrad, hregion, hissues, hcomplete, hnone, hformed, State.whenUnit_use _ haccess hroute,
      ne_eq, not_true_eq_false, decide_false, Bool.not_true, Bool.or_self, Bool.false_eq_true, if_false]
    rfl
  case stop =>
    intro c io s e rest g tile d gr n r tl y before after k p t step hhead hop hgroup hgrad hregion hissues hcomplete hsplit hbad hfirst
    have hfound := State.stopChecks_bad hsplit hbad hfirst
    refine (exec_adamwUpdate c io s).trans (congrArg (fun a : State => Host.Outcome.next (a.commitLog c.val)) ?_)
    simp only [k, p, t, step, State.stopChecks] at hhead hgroup hgrad hregion hcomplete hfound
    simp only [adamwUpdate, hhead, hop, hgroup, hgrad, hregion, hissues, hcomplete, hfound, ne_eq, not_true_eq_false, decide_false,
      Bool.not_true, Bool.or_self, Bool.false_eq_true, if_false]
    rfl

end Sys2Proof.Machine
end

section
/-! SUPPORT. Reduction: the port's terms, the owner and the members of a group, and the parts of parameters (08 R213 to R236). -/

namespace Sys2Proof.Machine

theorem exec_reductionAdd (c : CoreId) (s : State) : exec (.reductionAdd c) s = .next (reductionAdd c s) := rfl

theorem exec_redrain (c : CoreId) (s : State) : exec (.redrain c) s = .next (redrain c s) := rfl

theorem exec_slotRelease (c : CoreId) (j : Fin 32) (s : State) : exec (.slotRelease c j) s = .next (slotRelease c j s) := rfl

theorem exec_tileCloseReport (c : CoreId) (s : State) : exec (.tileCloseReport c) s = .next (tileCloseReport c s) := rfl

theorem exec_segmentReceive (p : PartId) (i : Nat) (s : State) :
    exec (.segmentReceive p i) s = .next (segmentReceive p i s) := rfl

theorem exec_noticeReceive (p : PartId) (i : Nat) (s : State) : exec (.noticeReceive p i) s = .next (noticeReceive p i s) := rfl

theorem exec_rescaleReceive (p : PartId) (i : Nat) (s : State) :
    exec (.rescaleReceive p i) s = .next (rescaleReceive p i s) := rfl

theorem exec_memberRemoval (p : PartId) (g : BitVec 8) (m : BitVec 12) (s : State) :
    exec (.memberRemoval p g m) s = .next (memberRemoval p g m s) := rfl

theorem exec_withdrawStep (p : PartId) (s : State) : exec (.withdrawStep p) s = .next (withdrawStep p s) := rfl

theorem exec_paramPartReceive (p : PartId) (i : Nat) (s : State) :
    exec (.paramPartReceive p i) s = .next (paramPartReceive p i s) := rfl

/-- R255: ranges among those that meet no poisoned line meet none. -/
theorem State.poisonedIn_eq_nil_of_subset {s : State} {p : Nat} {rs all : List (Nat × Nat)} (hclean : s.poisonedIn p all = [])
    (hsub : rs ⊆ all) : s.poisonedIn p rs = [] := by
  simp only [State.poisonedIn, List.flatMap_eq_nil_iff, List.filterMap_eq_nil_iff, ite_eq_right_iff, reduceCtorEq, imp_false,
    Bool.and_eq_true, not_and, List.any_eq_true, not_exists] at hclean ⊢
  exact fun e hchannel a hline hframe r hr => hclean e hchannel a hline hframe r (hsub hr)

/-- R28, R245, R247: a core's access to ranges that it uses, merges into and writes happens where the route to none of them crosses a
closed gate and all of them may be accessed. -/
theorem State.whenUnit_access {s : State} {p c : Nat} {use merge full : List (Nat × Nat)} (f : State → State)
    (hroute : s.rangesRefused p (c / 16) (use ++ merge ++ full) = false) (haccess : s.mayAccess p (use ++ merge ++ full) = true) :
    s.whenUnit p c use merge full f = f s := by
  obtain ⟨hfault, hcow, hpoison⟩ := (s.mayAccess_iff p _).mp haccess
  have huse : s.poisonedIn p use = [] := State.poisonedIn_eq_nil_of_subset hpoison (by simp)
  have hwritten : s.poisonedIn p (merge ++ full) = [] := State.poisonedIn_eq_nil_of_subset hpoison (by simp)
  simp only [State.whenUnit, State.accessBy, hroute, hfault, hcow, huse, hwritten, Bool.false_eq_true, if_false, List.foldl_nil]

/-- Settles O23: each command's tests hold where its conditions do, the access to memory then happens (`State.whenUnit_access`,
`State.whenUnit_merge`, `State.whenUnit_use`), and what it does is the next state stated. -/
theorem reductionPortCompletes : Obligations.ReductionPortCompletes := by
  unfold Obligations.ReductionPortCompletes
  dsimp only
  refine ⟨?add, ?drainAgain, ?lost, ?release, ?close⟩
  case add =>
    intro c s i t d hterm hgroup hclock hroute haccess
    simp only [exec_reductionAdd, reductionAdd, hterm, hgroup, hclock, Bool.false_eq_true, if_false]
    exact congrArg _ (State.whenUnit_access _ hroute haccess)
  case drainAgain =>
    intro c s i t j hterm hslot hclock hport hoffset hbyte
    simp only [exec_redrain, redrain, hterm, hclock, hport, hslot, hoffset, hbyte, Option.isSome_none, decide_true, Bool.and_self,
      Bool.or_self, Bool.false_eq_true, if_false]
  case lost =>
    intro c s i t d hterm hclock hport hbeyond hgroup hroute haccess
    simp only [exec_redrain, redrain, hterm, hclock, hport, Option.isSome_none, Bool.or_self, Bool.false_eq_true, if_false]
    split
    case h_1 j hslot hfits =>
      simp only [hslot, reduceCtorEq, false_or] at hbeyond
      simp only [Bool.and_eq_true, decide_eq_true_eq] at hfits
      omega
    case h_2 =>
      simp only [hgroup, State.whenUnit_merge _ haccess hroute]
  case release =>
    intro c j s hsome hdone hheld hclock
    have hadded : ((s.core c.val).red.filter fun t => decide (t.slot = some j.val)).any (fun t => !t.done) = false := by
      simpa only [List.any_eq_false, Bool.not_eq_true', Bool.not_eq_false] using hdone
    refine (exec_slotRelease c j s).trans (congrArg _ (if_neg ?_))
    simp only [List.isEmpty_eq_false_iff.mpr hsome, hadded, hheld, hclock, ne_eq, not_true_eq_false, decide_false, Bool.or_self,
      Bool.false_eq_true, not_false_eq_true]
  case close =>
    intro c s i step rest hcloses hdone hclock hroute haccess
    have hadded : ((s.core c.val).red.any fun t => decide (t.record = i) && !t.done) = false := by
      simpa only [List.any_eq_false, Bool.and_eq_true, decide_eq_true_eq, Bool.not_eq_true', not_and, Bool.not_eq_false] using hdone
    simp only [exec_tileCloseReport, tileCloseReport, hcloses, hadded, hclock, Bool.or_self, Bool.false_eq_true, if_false,
      State.whenUnit_use _ haccess hroute]

/-- Settles O24: the packet is the one that the command takes and passes each test of it, so that the access happens
(`State.whenUnit_use`); a membership change of a live member in a job goes on to its end, and a withdrawn step is cleared. -/
theorem ownerAndMemberCommandsComplete : Obligations.OwnerAndMemberCommandsComplete := by
  unfold Obligations.OwnerAndMemberCommandsComplete
  dsimp only
  refine ⟨?segment, ?notice, ?rescale, ?removal, ?withdraw⟩
  case segment =>
    intro p i s pkt d hpacket hgroup hkind howned hclock hroute haccess haccepts
    simp only [exec_segmentReceive, segmentReceive, hpacket, hgroup, hkind, hclock, howned, State.whenUnit_use _ haccess hroute, haccepts,
      ne_eq, not_true_eq_false, Bool.not_true, Bool.false_eq_true, if_false]
  case notice =>
    intro p i s pkt d hpacket hgroup hkind howned hclock hroute haccess haccepts habove
    simp only [exec_noticeReceive, noticeReceive, hpacket, hgroup, hkind, hclock, howned, State.whenUnit_use _ haccess hroute, haccepts,
      Nat.not_le.mpr habove, ne_eq, not_true_eq_false, decide_false, Bool.or_self, Bool.not_true, Bool.false_eq_true, if_false]
  case rescale =>
    intro p i s pkt d j hpacket hkind hgroup hrecord hroute haccess hstays hgoes hclock hstate
    simp only [exec_rescaleReceive, rescaleReceive, hpacket, hkind, hgroup, hrecord, hclock, State.whenUnit_use _ haccess hroute, hstays,
      hgoes, Option.isSome_none, Bool.or_self, ne_eq, not_true_eq_false, Bool.false_eq_true, if_false]
    obtain hopen | hsent | hnoticed := hstate
    · simp only [hopen, if_true]
    · simp only [hsent, OfNat.ofNat_ne_one, if_false]
    · simp only [hnoticed, OfNat.ofNat_ne_one, if_false]
  case removal =>
    intro p g m s d hjob hgroup hlive
    simp only [exec_memberRemoval, memberRemoval, State.removeMember, hjob, hgroup, hlive, Bool.not_true, Bool.false_eq_true, if_false,
      if_true]
  case withdraw =>
    intro p s habandons
    refine (exec_withdrawStep p s).trans (congrArg _ (if_pos ?_))
    simpa only [Bool.or_eq_true, Option.isSome_iff_ne_none] using habandons

/-- R236: a part of the step that a member takes next is not discarded: it is of the step after the core's, or of the core's own while the
generation of that step is not complete. -/
theorem partDiscarded_eq_false {next step : BitVec 32} {got all : Nat} (htaken : next = step + 1 ∨ (next = step ∧ got ≠ all)) :
    (decide (next ≠ step + 1) && (decide (next ≠ step) || decide (got = all))) = false := by
  obtain hnext | ⟨hown, hincomplete⟩ := htaken
  · simp only [hnext, ne_eq, not_true_eq_false, decide_false, Bool.false_and]
  · simp only [hown, hincomplete, ne_eq, not_true_eq_false, decide_false, Bool.or_self, Bool.and_false]

/-- Settles O25: the part is one that the member takes (`partDiscarded_eq_false`), and the access to its place happens
(`State.whenUnit_access`). -/
theorem paramPartReceiveCompletes : Obligations.ParamPartReceiveCompletes := by
  unfold Obligations.ParamPartReceiveCompletes
  dsimp only
  intro p i s pkt d n r tl hpacket hgroup hregion hclock htaken hroute haccess
  simp only [exec_paramPartReceive, paramPartReceive, hpacket, hgroup, hregion, hclock, partDiscarded_eq_false htaken,
    Bool.false_eq_true, if_false]
  exact congrArg _ (State.whenUnit_access _ hroute haccess)

end Sys2Proof.Machine
end

section
/-! SUPPORT. The canonical form of the three memories over a step (09 R237, R263, 12 R336, R340): which commands leave all three, and that
the others keep it. -/

namespace Sys2Proof.Machine

/-- The three memories are in canonical form, each under the name that the frame lemmas keep. -/
structure State.Canonical (s : State) : Prop where
  dram : Canon s.vDram
  far : Canon s.kept.far
  flash : Canon s.kept.flash

theorem State.canonical_iff (s : State) : s.Canonical ↔ Canon s.vDram ∧ Canon s.kept.far ∧ Canon s.kept.flash :=
  ⟨fun h => ⟨h.dram, h.far, h.flash⟩, fun ⟨hdram, hfar, hflash⟩ => ⟨hdram, hfar, hflash⟩⟩

/-- The memory check speaks of the memories that the frame lemmas keep. -/
theorem State.memoryOk_iff_canonical (s : State) : s.memoryOk = true ↔ s.Canonical := by
  simp only [State.memoryOk, Bool.and_eq_true, s.canonical_iff, Canon, ← s.vDram_eq, ← s.far_eq, ← s.flash_eq, and_assoc]

/-- A meaning that may store in the DRAM alone. -/
theorem State.Canonical.store {s t : State} (h : s.Canonical) (hkept : t.kept = s.kept) (hdram : Canon s.vDram → Canon t.vDram) :
    t.Canonical :=
  ⟨hdram h.dram, hkept ▸ h.far, hkept ▸ h.flash⟩

/-- A meaning that may begin a reset, which writes the layout and loses the DRAM (13 R355). -/
theorem State.Canonical.reset {s t : State} (h : s.Canonical)
    (hkept : t.kept.queue = s.kept.queue ∧ t.kept.far = s.kept.far ∧ t.kept.flash = s.kept.flash ∧ t.kept.meter = s.kept.meter)
    (hdram : Canon s.vDram → Canon t.vDram) : t.Canonical := by
  obtain ⟨-, hfar, hflash, -⟩ := hkept
  exact ⟨hdram h.dram, hfar ▸ h.far, hflash ▸ h.flash⟩

/-- R297: an access of the host that waits in the hub leaves the memories. -/
theorem State.Canonical.inTurn {s : State} (h : s.Canonical) {a : Instr} {f : State → State} (hf : (f s).Canonical) :
    (s.inTurn a f).Canonical := by
  cases hturn : s.hostBlocked with
  | true => simpa only [s.inTurn_blocked a f hturn, State.canonical_iff, ↓State.hostWaits_frame] using h
  | false => rwa [s.inTurn_free a f hturn]

/-- The records that wait in a core's log are written to the DRAM (05 R145). -/
theorem State.Canonical.commitLog {s : State} (h : s.Canonical) (c : Nat) : (s.commitLog c).Canonical :=
  h.store (s.commitLog_frame c) (s.commitLog_dram_canon c)

/-- A command outside the list `Instr.storesDram` keeps the canonical form. Nearly all of these leave the three memories. STR_ARM and
DESCRIPTOR_ACTIVATE can stop a job, which clears the catalogue entry of its snapshot, and FENCE_ADD can move a page out of its frame
(log 56): these store in the DRAM all the same. REC_SNAP_ACK writes the flash (R373). -/
theorem exec_canonical_of_not_storesDram {c : Instr} {s t : State} (hexec : exec c s = .next t) (hc : c.storesDram = false)
    (h : s.Canonical) : t.Canonical := by
  cases c
  all_goals obtain rfl := Host.Outcome.next.inj hexec
  -- the arrays, the passes and the slots (03, 04)
  case anchorCompute | shadowLoad | coreEnable | coreHaltReq | passBoundaryStop | boundaryGateClose =>
    simpa only [State.canonical_iff, ↓anchorCompute_frame, ↓shadowLoad_frame, ↓coreEnable_frame, ↓coreHaltReq_frame,
      ↓passBoundaryStop_frame, ↓boundaryGateClose_frame] using h
  -- the weave and the steps (05)
  case externalEventRelease | creditReceive | queueMoveBack | stallSuspect =>
    simpa only [State.canonical_iff, ↓externalEventRelease_frame, ↓creditReceive_frame, ↓queueMoveBack_frame, ↓stallSuspect_frame] using
      h
  -- the streams (06)
  case strEnable | strDisableReq | endProgram | loopb | loope | strStride | strAdd | emit | strSkip | plfetch | bfetch | twait |
      mergeHoldExpire | requestRetire | requestTimeout | streamFault | haltSettleDone | settleTimeout | ringPeriodEnd =>
    simpa only [State.canonical_iff, ↓strEnable_frame, ↓strDisableReq_frame, ↓endProgram_frame, ↓loopb_frame, ↓loope_frame,
      ↓strStride_frame, ↓strAdd_frame, ↓emit_frame, ↓strSkip_frame, ↓plfetch_frame, ↓bfetch_frame, ↓twait_frame,
      ↓mergeHoldExpire_frame, ↓requestRetire_frame, ↓requestTimeout_frame, ↓streamFault_frame, ↓haltSettleDone_frame,
      ↓settleTimeout_frame, ↓ringPeriodEnd_frame] using h
  -- the update and the reduction (07, 08)
  case slotRelease =>
    simpa only [State.canonical_iff, ↓slotRelease_frame] using h
  -- the tower memory and the far tier (09)
  case refreshSlot | cxlLinkRetrain =>
    simpa only [State.canonical_iff, ↓refreshSlot_frame, ↓cxlLinkRetrain_frame] using h
  -- the links (10)
  case flitSend | flitReceive | nakReceive | replayTimeout | signalDetect | equalisationDone | fecLockDone | exchangeBlockReceive
      | trainingAttemptTimeout | signalLoss | linkRetrain | packetReceive | klpCredit | unreachablePacket | epochAhead |
      ldEpochWrite | klpEnable | klpRetrain | klpCtrClr =>
    simpa only [State.canonical_iff, ↓flitSend_frame, ↓flitReceive_frame, ↓nakReceive_frame, ↓replayTimeout_frame, ↓signalDetect_frame,
      ↓equalisationDone_frame, ↓fecLockDone_frame, ↓exchangeBlockReceive_frame, ↓trainingAttemptTimeout_frame, ↓signalLoss_frame,
      ↓linkRetrain_frame, ↓packetReceive_frame, ↓klpCredit_frame, ↓unreachablePacket_frame, ↓epochAhead_frame,
      ↓ldEpochWrite_frame, ↓klpEnable_frame, ↓klpRetrain_frame, ↓klpCtrClr_frame] using h
  -- the host (11)
  case layoutDone | jobEnableComplete | abortComplete | sergeSegmentWrite | registerWrite =>
    simpa only [State.canonical_iff, ↓layoutDone_frame, ↓jobEnableComplete_frame, ↓abortComplete_frame, ↓sergeSegmentWrite_frame,
      ↓registerWrite_frame] using h
  case hostMaxVersionWrite | partCfgWrite | endStepWrite | eventEnableWrite | swEnable | swDisable | latTolWrite | farQuotaWrite
      =>
    refine h.inTurn ?_
    simpa only [State.canonical_iff, ↓hostMaxVersionWrite_frame, ↓partCfgWrite_frame, ↓endStepWrite_frame, ↓eventEnableWrite_frame,
      ↓swEnable_frame, ↓swDisable_frame, ↓latTolWrite_frame, ↓farQuotaWrite_frame] using h
  -- the snapshots (12)
  case rideDigest | snapFetch | rejoin | rejoinLate | fetchResend =>
    simpa only [State.canonical_iff, ↓rideDigest_frame, ↓snapFetch_frame, ↓rejoin_frame, ↓rejoinLate_frame, ↓fetchResend_frame] using h
  -- the start of the module (13)
  case watchdogRestart | managementStart | clockStart | strapSample | optionLoading | hubStart | configurationRead | refclkReturn
      | trstN =>
    simpa only [State.canonical_iff, ↓watchdogRestart_frame, ↓managementStart_frame, ↓clockStart_frame, ↓strapSample_frame,
      ↓optionLoading_frame, ↓hubStart_frame, ↓configurationRead_frame, ↓refclkReturn_frame, ↓trstN_frame] using h
  case bootGo =>
    refine h.inTurn ?_
    simpa only [State.canonical_iff, ↓bootGo_frame] using h
  -- the firmware and its tokens (14)
  case writeSlot | fwuConfirm | svnCommit | mgmtWrite | ownerClaim | ownerTransfer | revokeImage | ownerRelease | debugUnlock |
      lifecycleToken | attGo | fwuSelect =>
    refine h.inTurn ?_
    simpa only [State.canonical_iff, ↓writeSlot_frame, ↓fwuConfirm_frame, ↓svnCommit_frame, ↓mgmtWrite_frame, ↓claim_frame,
      ↓ownerTransfer_frame, ↓revokeImage_frame, ↓ownerRelease_frame, ↓debugUnlock_frame, ↓lifecycleToken_frame, ↓attGo_frame,
      ↓fwuSelect_frame] using h
  -- the self-test and the fences (15)
  case cePoll | suppressionWindowExpire =>
    simpa only [State.canonical_iff, ↓cePoll_frame, ↓suppressionWindowExpire_frame] using h
  case ghReq | ghClrCounts | fenceRemove =>
    refine h.inTurn ?_
    simpa only [State.canonical_iff, ↓ghReq_frame, ↓ghClrCounts_frame, ↓fenceRemove_frame] using h
  -- the power states and the temperatures (16)
  case pstateEntryComplete | bankPrechargeComplete | thermalEvaluation | coolantRead | dieTripClear =>
    simpa only [State.canonical_iff, ↓pstateEntryComplete_frame, ↓bankPrechargeComplete_frame, ↓thermalEvaluation_frame,
      ↓coolantRead_frame, ↓dieTripClear_frame] using h
  case pwrCapWrite | pwrCalGo =>
    refine h.inTurn ?_
    simpa only [State.canonical_iff, ↓pwrCapWrite_frame, ↓pwrCalGo_frame] using h
  -- the meter (17)
  case meterSample | meterBroadcast | holdupCommit | meterStart | sealBroken | getInfo | meterRead | readLog | getCert |
      frameGapTimeout | meterRecordReceive | meterStale | meterError =>
    simpa only [State.canonical_iff, ↓meterSample_frame, ↓meterBroadcast_frame, ↓holdupCommit_frame, ↓meterStart_frame,
      ↓sealBroken_frame, ↓getInfo_frame, ↓meterRead_frame, ↓readLog_frame, ↓getCert_frame, ↓frameGapTimeout_frame,
      ↓meterRecordReceive_frame, ↓meterStale_frame, ↓meterError_frame] using h
  -- those that store nonetheless
  case strArm k addr => exact h.store (strArm_frame k addr s) (strArm_dram_canon k addr s)
  case descriptorActivate k => exact h.store (descriptorActivate_frame k s) (descriptorActivate_dram_canon k s)
  case fenceAdd key => exact h.inTurn (h.store (fenceAdd_frame key s) (fenceAdd_dram_canon key s))
  case recSnapAck =>
    obtain ⟨-, -, hfar, -, hdram⟩ := recSnapAck_frame s
    exact h.inTurn ⟨hdram ▸ h.dram, hfar ▸ h.far, recSnapAck_flash_canon s h.flash⟩
  all_goals cases hc

/-- A command of the list `Instr.storesDram` keeps the canonical form: each stores through the operations that keep it. Those that also
store in the far tier (R263) or the flash (R336, R340) keep it there too. -/
theorem exec_canonical_of_storesDram {c : Instr} {s t : State} (hexec : exec c s = .next t) (hc : c.storesDram = true)
    (h : s.Canonical) : t.Canonical := by
  cases c
  all_goals obtain rfl := Host.Outcome.next.inj hexec
  -- the arrays, the passes and the slots (03, 04)
  case passIssue c io => exact (h.store (passIssue_frame c io s) (passIssue_dram_canon c io s)).commitLog c.val
  case drainIssue c io => exact (h.store (drainIssue_frame c io s).1 (fun hdram => (drainIssue_frame c io s).2 ▸ hdram)).commitLog c.val
  case drainComplete c => exact h.store (drainComplete_frame c s) (drainComplete_dram_canon c s)
  case vectorIssue c io => exact (h.store (vectorIssue_frame c io s) (vectorIssue_dram_canon c io s)).commitLog c.val
  case sramUe c store bank hit => exact h.store (sramUe_frame c store bank hit s) (sramUe_dram_canon c store bank hit s)
  case loopLengthLatch c => exact (h.store (loopLengthLatch_frame c s) (loopLengthLatch_dram_canon c s)).commitLog c.val
  case slotSpill c j => exact (h.store (slotSpill_frame c j s) (slotSpill_dram_canon c j s)).commitLog c.val
  case slotReload c j => exact (h.store (slotReload_frame c j s) (slotReload_dram_canon c j s)).commitLog c.val
  case addModeReload c j src sj =>
    exact ((h.store (addModeReload_frame c j src sj s) (addModeReload_dram_canon c j src sj s)).commitLog c.val).commitLog src.val
  -- the weave and the steps (05)
  case tileArrive c e => exact h.store (tileArrive_frame c e s) (tileArrive_dram_canon c e s)
  case endOfStepMarker c e => exact h.store (endOfStepMarker_frame c e s) (endOfStepMarker_dram_canon c e s)
  case steerSwitch c n => exact h.store (steerSwitch_frame c n s) (steerSwitch_dram_canon c n s)
  case steerSelect c n => exact h.store (steerSelect_frame c n s) (steerSelect_dram_canon c n s)
  case steerMerge c n => exact h.store (steerMerge_frame c n s) (steerMerge_dram_canon c n s)
  case stallTimerExpire c eps => exact h.store (stallTimerExpire_frame c eps s) (stallTimerExpire_dram_canon c eps s)
  case stepStart c wait => exact h.store (stepStart_frame c wait s) (stepStart_dram_canon c wait s)
  case stepEnd c idle0 idle1 idle2 => exact h.store (stepEnd_frame c idle0 idle1 idle2 s) (stepEnd_dram_canon c idle0 idle1 idle2 s)
  case reportCompare t => exact h.store (reportCompare_frame t s) (reportCompare_dram_canon t s)
  case variantChange p => exact h.store (variantChange_frame p s) (variantChange_dram_canon p s)
  -- the streams (06)
  case strResume k => exact h.store (strResume_frame k s) (strResume_dram_canon k s)
  case saveAreaWritten k ok => exact h.store (saveAreaWritten_frame k ok s) (saveAreaWritten_dram_canon k ok s)
  -- the update and the reduction (07, 08)
  case tensorShiftUpdate p k => exact h.store (tensorShiftUpdate_frame p k s) (tensorShiftUpdate_dram_canon p k s)
  case adamwUpdate c io => exact (h.store (adamwUpdate_frame c io s) (adamwUpdate_dram_canon c io s)).commitLog c.val
  case reductionAdd c => exact h.store (reductionAdd_frame c s) (reductionAdd_dram_canon c s)
  case redrain c => exact h.store (redrain_frame c s) (redrain_dram_canon c s)
  case memsideOp c addr code mask operand f =>
    exact h.store (memsideOp_frame c addr code mask operand f s) (memsideOp_dram_canon c addr code mask operand f s)
  case tileCloseReport c => exact h.store (tileCloseReport_frame c s) (tileCloseReport_dram_canon c s)
  case segmentReceive p i => exact h.store (segmentReceive_frame p i s) (segmentReceive_dram_canon p i s)
  case noticeReceive p i => exact h.store (noticeReceive_frame p i s) (noticeReceive_dram_canon p i s)
  case rescaleReceive p i => exact h.store (rescaleReceive_frame p i s) (rescaleReceive_dram_canon p i s)
  case memberRemoval p g m => exact h.store (memberRemoval_frame p g m s) (memberRemoval_dram_canon p g m s)
  case withdrawStep p => exact h.store (withdrawStep_frame p s) (withdrawStep_dram_canon p s)
  case paramPartReceive p i => exact h.store (paramPartReceive_frame p i s) (paramPartReceive_dram_canon p i s)
  -- the tower memory and the far tier (09)
  case frameTableWrite t g v => exact h.store (frameTableWrite_frame t g v s) (frameTableWrite_dram_canon t g v s)
  case scrubSlot k corrected bad odecc =>
    exact h.store (scrubSlot_frame k corrected bad odecc s) (scrubSlot_dram_canon k corrected bad odecc s)
  case farFaultResolve k => exact h.store (farFaultResolve_frame k s) (farFaultResolve_dram_canon k s)
  case channelRequest a f =>
    obtain ⟨-, -, hflash, -⟩ := channelRequest_frame a f s
    exact ⟨channelRequest_dram_canon a f s h.dram, channelRequest_far_canon a f s h.far, hflash ▸ h.flash⟩
  case retryResend k src f =>
    obtain ⟨-, hfar, -⟩ := resendInOrder_frame k src f s
    exact ⟨resendInOrder_dram_canon k src f s h.dram, hfar ▸ h.far, resendInOrder_flash_canon k src f s h.flash⟩
  case farFillComplete p port page host =>
    obtain ⟨-, -, hflash, -⟩ := farFillComplete_frame p port page host s
    exact ⟨farFillComplete_dram_canon p port page host s h.dram, farFillComplete_far_canon p port page host s h.far,
      hflash ▸ h.flash⟩
  case farEvict p addr => exact h.inTurn (h.store (farEvict_frame p addr s) (farEvict_dram_canon p addr s))
  case evictComplete p => exact h.store (evictComplete_frame p s) (evictComplete_dram_canon p s)
  case cxlLinkDown port => exact h.store (cxlLinkDown_frame port s) (cxlLinkDown_dram_canon port s)
  -- the links (10)
  case packetSend i => exact h.store (packetSend_frame i s) (packetSend_dram_canon i s)
  case memberUnreachable p => exact h.store (memberUnreachable_frame p s) (memberUnreachable_dram_canon p s)
  -- the host (11)
  case functionLevelReset unsent => exact h.store (functionLevelReset_frame unsent s) (functionLevelReset_dram_canon unsent s)
  case bar2Access off act f => exact h.store (bar2Access_frame off act f s) (bar2Access_dram_canon off act f s)
  case jobStart p img => exact h.inTurn (h.store (jobStart_frame p img s) (jobStart_dram_canon p img s))
  case jobPause p => exact h.inTurn (h.store (jobPause_frame p s) (jobPause_dram_canon p s))
  case jobResume p => exact h.inTurn (h.store (jobResume_frame p s) (jobResume_dram_canon p s))
  case jobStop p => exact h.inTurn (h.store (jobStop_frame p s) (jobStop_dram_canon p s))
  case stopStepReached p => exact h.store (stopStepReached_frame p s) (stopStepReached_dram_canon p s)
  case jobAbort p => exact h.inTurn (h.store (jobAbort_frame p s) (jobAbort_dram_canon p s))
  case jobClear p => exact h.inTurn (h.store (jobClear_frame p s) (jobClear_dram_canon p s))
  case clearComplete p => exact h.store (clearComplete_frame p s) (clearComplete_dram_canon p s)
  case epochWrite p v => exact h.inTurn (h.store (epochWrite_frame p v s) (epochWrite_dram_canon p v s))
  case persistAckWrite p w =>
    exact h.inTurn (h.store (persistAckWrite_frame p w.half w.value s) (persistAckWrite_dram_canon p w.half w.value s))
  -- the snapshots (12)
  case frameCopied t g bad => exact h.store (frameCopied_frame t g bad s) (frameCopied_dram_canon t g bad s)
  case snapshotPoint p => exact h.store (snapshotPoint_frame p s) (snapshotPoint_dram_canon p s)
  case snapOpen p i => exact h.store (snapOpen_frame p i s) (snapOpen_dram_canon p i s)
  case pageData p i => exact h.store (pageData_frame p i s) (pageData_dram_canon p i s)
  case snapManifest p i => exact h.store (snapManifest_frame p i s) (snapManifest_dram_canon p i s)
  case rideData p i => exact h.store (rideData_frame p i s) (rideData_dram_canon p i s)
  case snapSeal p i => exact h.store (snapSeal_frame p i s) (snapSeal_dram_canon p i s)
  case snapCommitted p i => exact h.store (snapCommitted_frame p i s) (snapCommitted_dram_canon p i s)
  case snapDone p i => exact h.store (snapDone_frame p i s) (snapDone_dram_canon p i s)
  case snapAbort p i => exact h.store (snapAbort_frame p i s) (snapAbort_dram_canon p i s)
  case copyBudgetExpire p begun => exact h.store (copyBudgetExpire_frame p begun s) (copyBudgetExpire_dram_canon p begun s)
  case fetchEnd p i => exact h.store (fetchEnd_frame p i s) (fetchEnd_dram_canon p i s)
  case fetchData p i =>
    obtain ⟨-, -, hfar, -⟩ := fetchData_frame p i s
    exact ⟨fetchData_dram_canon p i s h.dram, hfar ▸ h.far, fetchData_flash_canon p i s h.flash⟩
  case flashWriteComplete p =>
    obtain ⟨-, -, hfar, -⟩ := flashWriteComplete_frame p s
    exact ⟨flashWriteComplete_dram_canon p s h.dram, hfar ▸ h.far, flashWriteComplete_flash_canon p s h.flash⟩
  case snapRestore p muslin flashSig serge =>
    exact h.store (snapRestore_frame p muslin flashSig serge s) (snapRestore_dram_canon p muslin flashSig serge s)
  case restoreComplete p => exact h.store (restoreComplete_frame p s) (restoreComplete_dram_canon p s)
  -- the start of the module (13)
  case powerOn v12 =>
    obtain ⟨-, hfar, hflash⟩ := powerOn_frame v12 s
    exact ⟨powerOn_dram_canon v12 s h.dram, hfar ▸ h.far, hflash ▸ h.flash⟩
  case brownOut x => exact h.reset (brownOut_frame x s) (brownOut_dram_canon x s)
  case mrstN lowNs => exact h.reset (mrstN_frame lowNs s) (mrstN_dram_canon lowNs s)
  case watchdogExpire u cycles => exact h.reset (watchdogExpire_frame u cycles s) (watchdogExpire_dram_canon u cycles s)
  case rstSwRequest r =>
    have hrun := h.reset (rstSwRequest_frame r s) (rstSwRequest_dram_canon r s)
    cases r with
    | host _ => exact h.inTurn hrun
    | control _ => exact hrun
  case debugRequest r => exact h.reset (debugRequest_frame r s) (debugRequest_dram_canon r s)
  case clockFailure c unsent => exact h.reset (clockFailure_frame c unsent s) (clockFailure_dram_canon c unsent s)
  case controlCoreLockup u => exact h.reset (controlCoreLockup_frame u s) (controlCoreLockup_dram_canon u s)
  case sourceRelease src r x => exact h.reset (sourceRelease_frame src r x s) (sourceRelease_dram_canon src r x s)
  case bringUp d => exact h.store (bringUp_frame d s) (bringUp_dram_canon d s)
  case islandExit i => exact h.store (islandExit_frame i s) (islandExit_dram_canon i s)
  case moduleReady c0 c1 => exact h.store (moduleReady_frame c0 c1 s) (moduleReady_dram_canon c0 c1 s)
  -- the firmware and its tokens (14)
  case activateQuad key => exact h.inTurn (h.reset (activateQuad_frame key s) (activateQuad_dram_canon key s))
  case pldmRequest r => exact h.reset (pldmRequest_frame r s) (pldmRequest_dram_canon r s)
  -- the self-test and the fences (15)
  case ginghamTest cl => exact h.store (ginghamTest_frame cl s) (ginghamTest_dram_canon cl s)
  case ginghamTestComplete cl e => exact h.store (ginghamTestComplete_frame cl e s) (ginghamTestComplete_dram_canon cl e s)
  -- the power states and the temperatures (16)
  case wakeComplete p => exact h.store (wakeComplete_frame p s) (wakeComplete_dram_canon p s)
  case dieThermalTrip die temp => exact h.reset (dieThermalTrip_frame die temp s) (dieThermalTrip_dram_canon die temp s)
  all_goals cases hc

/-- Every command keeps the three memories in canonical form. -/
theorem exec_canonical {c : Instr} {s t : State} (hexec : exec c s = .next t) (h : s.Canonical) : t.Canonical := by
  cases hc : c.storesDram with
  | false => exact exec_canonical_of_not_storesDram hexec hc h
  | true => exact exec_canonical_of_storesDram hexec hc h

/-- Settles O3: idling answers the same state, and the front command keeps the canonical form (`exec_canonical`). -/
theorem stepKeepsMemoriesCanonical : Obligations.StepKeepsMemoriesCanonical := by
  unfold Obligations.StepKeepsMemoriesCanonical
  intro s t hok hstep
  obtain ⟨-, rfl⟩ | ⟨c, rest, -, hexec⟩ := step_next_cases hstep
  · exact hok
  · have hcanon : ({ s with pending := rest } : State).Canonical := (State.memoryOk_iff_canonical _).mp hok
    exact t.memoryOk_iff_canonical.mpr (exec_canonical hexec hcanon)

end Sys2Proof.Machine
end

section
/-! SUPPORT. Requests at a channel (09 R239, R245 to R248, R257): the turn that the refused requests of a source take, and what is served
where the frame lets it through. -/

namespace Sys2Proof.Machine

theorem exec_channelRequest (a : ChanArrival) (f : LineFound) (s : State) :
    exec (.channelRequest a f) s = .next (channelRequest a f s) := rfl

theorem exec_memsideOp (c : CoreId) (a : BitVec 64) (code : BitVec 4) (mask : BitVec 64) (v : BitVec 512) (f : LineFound) (s : State) :
    exec (.memsideOp c a code mask v f) s = .next (memsideOp c a code mask v f s) := rfl

theorem exec_retryResend (k : ChannelId) (src : Fin 1026) (f : LineFound) (s : State) :
    exec (.retryResend k src f) s = .next (resendInOrder k src f s) := rfl

/-- R245: a request whose frame lets it through is served, and its source need not send it again. -/
theorem State.admitLine_served {s : State} {k : Nat} {r : MemReq} (f : LineFound) (hserved : s.outcome (chanTower k) r = .served) :
    s.admitLine k r f = (s.serve k r f, true) := by
  simp only [State.admitLine, hserved]

/-- R248: a source with no refused request at a channel holds no request back from it. -/
theorem State.holdsBack_eq_false {s : State} {k : Nat} {r : MemReq}
    (hnone : (s.chan k).refused.filter (fun x => decide (x.src.source = r.src.source)) = []) : s.holdsBack k r = false := by
  simp only [State.holdsBack, hnone, List.isEmpty_nil, Bool.not_true, Bool.false_and]

/-- R248: a source with no refused request at a channel is not one that the channel refuses. -/
theorem State.refusedAt_eq_false {s : State} {k : Nat} {src : ReqSrc}
    (hnone : (s.chan k).refused.filter (fun x => decide (x.src.source = src.source)) = []) : s.refusedAt k src = false := by
  simpa only [State.refusedAt, List.any_eq_false, List.filter_eq_nil_iff] using hnone

/-- R239, R245, R248: a request from a source with no refused request at the channel is served where its frame lets it through. -/
theorem State.arrive_served {s : State} {k : Nat} {r : MemReq} (f : LineFound)
    (hnone : (s.chan k).refused.filter (fun x => decide (x.src.source = r.src.source)) = [])
    (hserved : s.outcome (chanTower k) r = .served) : s.arrive k r f = s.serve k r f := by
  simp only [State.arrive, State.holdsBack_eq_false hnone, State.refusedAt_eq_false hnone, State.admitLine_served f hserved,
    Bool.false_eq_true, if_false]

/-- R28, R33: a request of a core's port reaches a channel where both clocks run and no gate of the route is closed. -/
theorem State.portRequest_open {s : State} {c : CoreId} {k : Nat} (r : MemReq) (f : LineFound) (hchan : s.chanStopped k = false)
    (hcore : s.coreStopped c.val = false) (hroute : s.gateRefuses c.tower (chanTower k) = false) :
    s.portRequest c k r f = s.arrive k r f := by
  simp only [State.portRequest, hchan, hcore, hroute, Bool.or_self, Bool.false_eq_true, if_false]

/-- R257, R258: an operation of a core's port writes its line where that is neither poisoned nor found uncorrectable. -/
theorem State.serve_memside {s : State} {k c : Nat} {r : MemReq} {code : BitVec 4} {mask : BitVec 64} {operand : List Byte}
    {f : LineFound} (hsrc : r.src = .port c) (hact : r.act = .memside code mask operand)
    (hclean : (s.chan k).poisoned.contains (r.addr / 64 * 64) = false) (hgood : f ≠ .bad) :
    s.serve k r f = (s.countCe k f).setDramBytes (dramKey k (r.addr / 64 * 64))
      (memsideLine code mask (s.dramBytes (dramKey k (r.addr / 64 * 64)) 64) operand) := by
  simp only [State.serve, hact, hclean, hgood, hsrc, State.respondAck, Bool.false_eq_true, if_false]

/-- R240: where a map entry covers its address, an operation in space 0 travels as the request of its line. -/
theorem memsideOp_covered {c : CoreId} {a : BitVec 64} {s : State} {pl : Place} (code : BitVec 4) (mask : BitVec 64) (v : BitVec 512)
    (f : LineFound) (hspace : a.toNat < 2 ^ 48) (hplace : s.translate c.tower (a.toNat / 64 * 64) = some pl) :
    memsideOp c a code mask v f s = s.portRequest c pl.channel
      { src := .port c.val, part := BitVec.ofNat 2 (s.partOfCore c.val), page := BitVec.ofNat 27 (a.toNat / 64 * 64 / 2 ^ 21),
        frame := pl.g, addr := pl.chanAddr, act := .memside code mask (bytesOf v.toNat 64) } f := by
  have hzero : a.toNat / 2 ^ 48 = 0 := Nat.div_eq_of_lt hspace
  simp only [memsideOp, hzero, State.reqFor, hplace, ne_eq, not_true_eq_false, if_false]

/-- R248: the oldest refused request of a source that is served as it is resent is refused no longer. -/
theorem retryResend_served {k : ChannelId} {src : Fin 1026} {s : State} {i : Nat} {r : MemReq} (f : LineFound)
    (hchan : s.chanStopped k.val = false)
    (hfind : (s.chan k.val).refused.findIdx? (fun x => decide (x.src.source = src.val)) = some i)
    (hget : (s.chan k.val).refused[i]? = some r) (hserved : s.outcome (chanTower k.val) r = .served) :
    retryResend k src f s = (s.serve k.val r f).setChan k.val { (s.serve k.val r f).chan k.val with
      refused := ((s.serve k.val r f).chan k.val).refused.eraseIdx i } := by
  simp only [retryResend, hchan, hfind, hget, State.admitLine_served f hserved, Bool.false_eq_true, if_false]

/-- R154, R175: a part of a context's outstanding request at its end outside partition memory, in the far tier or a host window: its
offset, its length and its address, and that it is one that its context sends and that nothing has refused. -/
structure State.PartAtEnd (s : State) (k : CtxKey) (i : Nat) (second w : Bool) (r : StrReq) (off n b : Nat) : Prop where
  outstanding : (s.ctx k.val).issued[i]? = some r
  offset : (if second then partCut (r.side ((s.ctx k.val).onDst r w)) r.len else 0) = off
  length : (if second then r.len - partCut (r.side ((s.ctx k.val).onDst r w)) r.len
    else partCut (r.side ((s.ctx k.val).onDst r w)) r.len) = n
  address : r.side ((s.ctx k.val).onDst r w) + off = b
  nonempty : n ≠ 0
  space : b / 2 ^ 60 = 1 ∨ b / 2 ^ 60 = 2
  standing : r.already = false
  alive : r.dead ((s.ctx k.val).onDst r w) off = false
  sends : (s.ctx k.val).sends r w = true

/-- R153: such a part lies neither in partition memory nor in a core's store. -/
theorem State.PartAtEnd.space_bounds {s : State} {k : CtxKey} {i : Nat} {second w : Bool} {r : StrReq} {off n b : Nat}
    (hpart : s.PartAtEnd k i second w r off n b) : b / 2 ^ 60 ≠ 0 ∧ b / 2 ^ 60 ≠ 3 ∧ ¬ 4 ≤ b / 2 ^ 60 := by
  have hspace := hpart.space
  omega

/-- R175, R177: a part that its context's turn lets through is written at its end and acknowledged. -/
theorem State.external_write {s : State} {k : CtxKey} {i : Nat} {second : Bool} {r : StrReq} {off n b : Nat} (host : List Byte)
    (f : LineFound) (hpart : s.PartAtEnd k i second true r off n b) (hfault : b / 2 ^ 60 = 1 → s.farFault (s.ctxPart k.val) b true = none)
    (hfresh : r.acked.any (fun q => decide (q.1 = off)) = false)
    (hturn : (s.ctx k.val).externalTurn i off ((s.ctx k.val).onDst r true) = true)
    (hhere : (s.ctx k.val).desc.kind.isCopy = true → ∀ j < n, (r.data.get none (off + j)).isSome = true) :
    s.external k i second true host f =
      (((if b / 2 ^ 60 = 2 then s.hostSend k.val i else s).extWrite (s.ctxPart k.val) b
        (if (s.ctx k.val).desc.kind.isCopy then (r.bytes.drop off).take n else match ctxCore k.val with
          | some c => (s.core c).regionBytes c (s.ctx k.val).desc (r.pos + off) n
          | none => [])).respond k.val { pos := r.pos, off := off, answer := .ack n }).settleWindows := by
  obtain ⟨hlow, hcore, hhigh⟩ := hpart.space_bounds
  obtain ⟨hreq, hoff, hlen, haddr, hsome, -, hstanding, halive, hsends⟩ := hpart
  have hcame : (!(s.ctx k.val).desc.kind.isCopy || (List.range n).all (fun j => (r.data.get none (off + j)).isSome)) = true := by
    simpa only [Bool.or_eq_true, Bool.not_eq_true', List.all_eq_true, List.mem_range, ← Bool.not_eq_true, ← imp_iff_not_or] using hhere
  have hentry : (decide (b / 2 ^ 60 = 1) && (s.farFault (s.ctxPart k.val) b true).isSome) = false := by
    by_cases hfar : b / 2 ^ 60 = 1
    · simp only [hfault hfar, Option.isSome_none, Bool.and_false]
    · simp only [hfar, decide_false, Bool.false_and]
  simp only [State.external, hreq, hoff, hlen, haddr, hsome, hlow, hcore, hhigh, hstanding, halive, hsends, hfresh, hturn, hcame, hentry,
    decide_false, Bool.not_true, Bool.not_false, Bool.and_true, Bool.and_false, Bool.false_and, Bool.or_self, Bool.false_eq_true,
    if_true, if_false] <;> rfl

/-- R175, R176: a part of which nothing has come is read at its end, from the device's memory or with the bytes that the host answers. -/
theorem State.external_read {s : State} {k : CtxKey} {i : Nat} {second : Bool} {r : StrReq} {off n b : Nat} {host : List Byte}
    {f : LineFound} (hpart : s.PartAtEnd k i second false r off n b)
    (hfault : b / 2 ^ 60 = 1 → s.farFault (s.ctxPart k.val) b false = none ∧ f ≠ .bad)
    (hfresh : r.data.get none off = none) (hanswer : b / 2 ^ 60 = 2 → host.length = n) :
    s.external k i second false host f =
      ((if b / 2 ^ 60 = 2 then s.hostSend k.val i else s).respond k.val
        { pos := r.pos, off := off, answer := .data (s.extRead (s.ctxPart k.val) b n host) }).settleWindows := by
  obtain ⟨hlow, hcore, hhigh⟩ := hpart.space_bounds
  obtain ⟨hreq, hoff, hlen, haddr, hsome, -, hstanding, halive, hsends⟩ := hpart
  have hentry : (decide (b / 2 ^ 60 = 1) && (s.farFault (s.ctxPart k.val) b false).isSome) = false ∧
      (decide (b / 2 ^ 60 = 1) && decide (f = .bad)) = false := by
    by_cases hfar : b / 2 ^ 60 = 1
    · obtain ⟨hnone, hgood⟩ := hfault hfar
      simp only [hnone, hgood, Option.isSome_none, decide_false, Bool.and_false, and_self]
    · simp only [hfar, decide_false, Bool.false_and, and_self]
  have hcount : (decide (b / 2 ^ 60 = 2) && decide (host.length ≠ n)) = false := by
    by_cases hhost : b / 2 ^ 60 = 2
    · simp only [hanswer hhost, ne_eq, not_true_eq_false, decide_false, Bool.and_false]
    · simp only [hhost, decide_false, Bool.false_and]
  simp only [State.external, hreq, hoff, hlen, haddr, hsome, hlow, hcore, hhigh, hstanding, halive, hsends, hfresh, hentry, hcount,
    Option.isNone_none, decide_false, Bool.not_true, Bool.not_false, Bool.and_true, Bool.or_self, Bool.false_eq_true, if_false]

/-- R177: the hub has read back behind a request's last write once all of it is acknowledged. -/
theorem State.readBack_acked {s : State} {k : CtxKey} {i : Nat} {r : StrReq} (hreq : (s.ctx k.val).issued[i]? = some r)
    (hhost : (s.ctx k.val).writesHost r = true) (hacked : (r.acked.map Prod.snd).sum = r.len) :
    s.readBack k i = s.setCtx k.val { s.ctx k.val with issued := listSet (s.ctx k.val).issued i { r with backed := true } } := by
  simp only [State.readBack, hreq, hhost, hacked, decide_true, Bool.or_true, Bool.and_self, if_true]

/-- Settles O26: a request that its frame lets through is served as it arrives (`State.arrive_served`) or is resent
(`retryResend_served`), and a part outside partition memory is written or read at its end (`State.external_write`,
`State.external_read`). -/
theorem requestsServed : Obligations.RequestsServed := by
  unfold Obligations.RequestsServed
  dsimp only
  refine ⟨?stream, ?external, ?readBack, fun _ _ _ _ _ _ => rfl, ?port, ?memside, ?resend⟩
  case stream =>
    intro k i o w f s c r hpiece hnone hserved
    simp only [exec_channelRequest, channelRequest, hpiece, State.arrive_served f hnone hserved]
  case external =>
    intro k i second w host f s r hreq hsome hspace halready hdead hsends hholds hfar
    have hpart : s.PartAtEnd k i second w r _ _ _ := ⟨hreq, rfl, rfl, rfl, hsome, hspace, halready, hdead, hsends⟩
    have hexec : exec (.channelRequest (.external k i second w host) f) s = .next (s.external k i second w host f) := by
      simp only [exec_channelRequest, channelRequest, hholds, Bool.false_eq_true, if_false]
    refine ⟨?write, ?read⟩
    case write =>
      rintro rfl hfresh hturn hhere
      exact hexec.trans (congrArg _ (State.external_write host f hpart (fun h => (hfar h).1) hfresh hturn hhere))
    case read =>
      rintro rfl hfresh hanswer
      exact hexec.trans (congrArg _ (State.external_read hpart (fun h => (hfar h).imp_right (· rfl)) hfresh hanswer))
  case readBack =>
    intro k i f s r hreq hhost hacked hclock
    simp only [exec_channelRequest, channelRequest, hclock, State.readBack_acked hreq hhost hacked, Bool.false_eq_true, if_false]
  case port =>
    intro c a act f s k r hreq hchan hcore hroute hnone hserved
    simp only [exec_channelRequest, channelRequest, hreq, State.portRequest_open r f hchan hcore hroute,
      State.arrive_served f hnone hserved]
  case memside =>
    intro c a code mask v f s pl hspace hplace hchan hcore hroute hnone hserved hclean hgood
    refine (exec_memsideOp c a code mask v f s).trans (congrArg _ ?_)
    rw [memsideOp_covered code mask v f hspace hplace, State.portRequest_open _ f hchan hcore hroute,
      State.arrive_served f (by exact hnone) hserved]
    exact State.serve_memside rfl rfl hclean hgood
  case resend =>
    intro k src f s i r hchan hfind hget hserved
    simp only [exec_retryResend, resendInOrder, retryResend_served f hchan hfind hget hserved]

end Sys2Proof.Machine
end

section
/-! SUPPORT. The upkeep of a channel: its frame table, refresh and patrol scrub (09 R244, R246, R250, R251). -/

namespace Sys2Proof.Machine

theorem exec_frameTableWrite (t : TowerId) (g : Fin 49152) (v : BitVec 64) (s : State) :
    exec (.frameTableWrite t g v) s = .next (frameTableWrite t g v s) := rfl

theorem exec_refreshSlot (k : ChannelId) (temp : BitVec 8) (s : State) : exec (.refreshSlot k temp) s = .next (refreshSlot k temp s) := rfl

theorem exec_scrubSlot (k : ChannelId) (corrected bad : BitVec 32) (odecc : Nat) (s : State) :
    exec (.scrubSlot k corrected bad odecc) s = .next (scrubSlot k corrected bad odecc s) := rfl

/-- Neither of two is the other branch of one of the two. -/
theorem ite_not_and_not {α : Type} (a b : Bool) (x y : α) : (if !a && !b then x else y) = if a || b then y else x := by
  cases a <;> cases b <;> rfl

/-- Settles O27: a write of a frame's entry completes in every state, the cores are marked where the period is or was halved, and the scrub
row begins anew behind the last, 1,572,863. -/
theorem channelUpkeepCompletes : Obligations.ChannelUpkeepCompletes := by
  unfold Obligations.ChannelUpkeepCompletes
  dsimp only
  refine ⟨exec_frameTableWrite, ?refresh, ?scrub⟩
  case refresh =>
    intro k temp s hruns hclock
    simp only [exec_refreshSlot, refreshSlot, hruns, hclock, ite_not_and_not, Bool.not_true, Bool.or_self, Bool.false_eq_true, if_false]
  case scrub =>
    intro k corrected bad odecc s hruns hclock
    simp only [exec_scrubSlot, scrubSlot, hruns, hclock, Bool.not_true, Bool.or_self, Bool.false_eq_true, if_false]
    by_cases hlast : (s.chan k.val).scrubRow = 1572863
    · simp only [hlast, decide_true, if_true]
    · have hinner : (s.chan k.val).scrubRow + 1 ≠ 1572864 := by omega
      simp only [hlast, hinner, decide_false, Bool.false_eq_true, if_false]

end Sys2Proof.Machine
end

section
/-! SUPPORT. The far tier (09 R260 to R265, 11 R319): the commands that fill and evict its pages, and its links. -/

namespace Sys2Proof.Machine

theorem exec_farFaultResolve (k : CtxKey) (s : State) : exec (.farFaultResolve k) s = .next (farFaultResolve k s) := rfl

theorem exec_farFillComplete (p : PartId) (port : Fin 2) (page : Fin 2097152) (host : List Byte) (s : State) :
    exec (.farFillComplete p port page host) s = .next (farFillComplete p port page host s) := rfl

theorem exec_evictComplete (p : PartId) (s : State) : exec (.evictComplete p) s = .next (evictComplete p s) := rfl

theorem exec_cxlLinkDown (port : Fin 2) (s : State) : exec (.cxlLinkDown port) s = .next (cxlLinkDown port s) := rfl

theorem exec_cxlLinkRetrain (port : Fin 2) (pages : Fin 2097153) (s : State) :
    exec (.cxlLinkRetrain port pages) s = .next (cxlLinkRetrain port pages s) := rfl

/-- R297: with no access of the host before it, a write of JCP.FAR_EVICT acts at once. -/
theorem exec_farEvict_free (p : PartId) (a : BitVec 64) {s : State} (hfree : s.hostBlocked = false) :
    exec (.farEvict p a) s = .next (farEvict p a s) :=
  congrArg Host.Outcome.next (s.inTurn_free _ _ hfree)

/-- R240, R245: a far page's table entry that may be accessed is read and updated. -/
theorem State.whenFtt_ready {s : State} {p port page : Nat} (f : State → State)
    (haccess : s.mayAccess p [(s.fttAddr p port page, 8)] = true) : s.whenFtt p port page f = f s :=
  s.whenWritable_ready p _ f haccess

/-- Settles O29: the page's table entry may be accessed (`State.whenFtt_ready`), and each command's tests hold where its conditions do. -/
theorem farTierCommandsComplete : Obligations.FarTierCommandsComplete := by
  unfold Obligations.FarTierCommandsComplete
  dsimp only
  refine ⟨?resolve, ?fill, ?evict, ?evicted, ?down, ?retrain⟩
  case resolve =>
    intro k s port page hhalted hcode hpage hnone hevict habsent ⟨hmap, hreal⟩ hlink haccess
    have hnew : ((s.part (s.ctxPart k.val)).far.any fun r => decide (r.port = port) && decide (r.page = page)) = false := by
      simpa only [List.any_eq_false, Bool.and_eq_true, decide_eq_true_eq] using hnone
    simp only [exec_farFaultResolve, farFaultResolve, hhalted, hcode, hpage, State.whenFtt_ready _ haccess, hnew, hevict, habsent, hmap,
      hreal, hlink, decide_true, decide_false, Bool.and_self, Bool.or_self, Bool.not_true, Bool.false_eq_true, if_false]
  case fill =>
    intro p port page host s r hfind hwindow haccess
    have htaken : (decide ((s.ftt p.val port.val page.val).fill = 2) &&
        !((s.window (s.ftt p.val port.val page.val).window).takes p.val (2 ^ 21 * (s.ftt p.val port.val page.val).srcPage) (2 ^ 21) &&
          decide (host.length = 2 ^ 21))) = false := by
      simpa only [Bool.and_eq_false_imp, decide_eq_true_eq, Bool.not_eq_false', Bool.and_eq_true] using hwindow
    simp only [exec_farFillComplete, farFillComplete, hfind, State.whenFtt_ready _ haccess, htaken, Bool.false_eq_true, if_false]
  case evict =>
    intro p a s port page hfree hidle hpage hpresent hdirty hread hheld
    have hleaves : ((s.ftt p.val port page).dirty && decide ((s.ftt p.val port page).fill ≠ 2)) = false := by
      simpa only [Bool.and_eq_false_imp, decide_eq_false_iff_not, ne_eq, not_not] using hdirty
    simp only [exec_farEvict_free p a hfree, farEvict, hidle, hpage, hread, hheld, State.beginEvict, hpresent, hleaves, State.evicting,
      Bool.not_true, Bool.or_self, Bool.false_eq_true, if_false]
  case evicted =>
    intro p s port page hevict hbusy hheld habsent hwindow haccess
    have htaken : ((s.ftt p.val port page).dirty && decide ((s.ftt p.val port page).fill = 2) &&
        !(s.window (s.ftt p.val port page).window).takes p.val (2 ^ 21 * (s.ftt p.val port page).srcPage) (2 ^ 21)) = false := by
      simpa only [Bool.and_eq_false_imp, Bool.and_eq_true, decide_eq_true_eq, Bool.not_eq_false', and_imp] using hwindow
    simp only [exec_evictComplete, evictComplete, hevict, hbusy, hheld, State.whenFtt_ready _ haccess, habsent, htaken, Bool.not_true,
      Bool.false_eq_true, if_false]
  case down =>
    intro port s hlink
    simp only [exec_cxlLinkDown, cxlLinkDown, hlink, Bool.not_true, Bool.false_eq_true, if_false]
  case retrain =>
    intro port pages s hlink
    simp only [exec_cxlLinkRetrain, cxlLinkRetrain, hlink, Bool.false_eq_true, if_false]

end Sys2Proof.Machine
end

section
/-! SUPPORT. The flits of a port that is UP or exchanges blocks (10 R269 to R273). -/

namespace Sys2Proof.Machine

theorem exec_flitSend (i : PortId) (s : State) : exec (.flitSend i) s = .next (flitSend i s) := rfl

theorem exec_flitReceive (i : PortId) (f : Flit) (corrected uncorr : Nat) (s : State) :
    exec (.flitReceive i f corrected uncorr) s = .next (flitReceive i f corrected uncorr s) := rfl

theorem exec_nakReceive (i : PortId) (s : State) : exec (.nakReceive i) s = .next (nakReceive i s) := rfl

theorem exec_replayTimeout (i : PortId) (s : State) : exec (.replayTimeout i) s = .next (replayTimeout i s) := rfl

theorem Port.exchanges_iff (x : Port) :
    x.exchanges = true ↔ x.state = .exchange ∨ (x.state = .retrain ∧ x.phase = 2) := by
  simp only [Port.exchanges, Bool.or_eq_true, Bool.and_eq_true, decide_eq_true_eq]

/-- Table 10.12: a port that is UP is in no exchange phase. -/
theorem Port.exchanges_of_up {x : Port} (hup : x.state = .up) : x.exchanges = false := by
  rw [Port.exchanges, hup]
  rfl

/-- R273: the exchange goes on while no acknowledged block has come from the peer. -/
theorem State.endExchange_of_unacked {s : State} {i : Nat} (hunacked : (s.port i).peerAcked = false) : s.endExchange i = s := by
  rw [State.endExchange]
  split
  next => rw [hunacked, Bool.and_false, Bool.false_and, if_neg Bool.false_ne_true]
  next => rfl

/-- R273: an exchanging port whose peer has acknowledged nothing sends its block and stays in the exchange. -/
theorem State.sendBlock_of_unacked {s : State} {i : Nat} (hunacked : (s.port i).peerAcked = false) :
    s.sendBlock i =
      (let x := s.port i
       let s1 := s.setPort i { x with sentAcked := x.sentAcked || x.acked }
       { s1 with out := s1.out ++ [.exchange i (x.block i s.fw.loaded.moduleId)] }) := by
  refine State.endExchange_of_unacked ?_
  refine (congrArg Port.peerAcked (State.port_setPort s i i _)).trans ?_
  rw [if_pos rfl]
  exact hunacked

/-- Settles O30: a port that is UP is in no exchange phase (`Port.exchanges_of_up`), and what it sends turns on its replay; one that
exchanges without the peer's acknowledgement sends its block and goes on (`State.sendBlock_of_unacked`). What a received flit does turns
on its check and on its place in the order. -/
theorem flitCommandsComplete : Obligations.FlitCommandsComplete := by
  unfold Obligations.FlitCommandsComplete
  dsimp only
  refine ⟨?resend, ?new, ?full, ?word, ?block, ?inOrder, ?again, ?wrong, ?nak, ?timeout⟩
  case resend =>
    intro i s f rest hup hruns hresend
    simp only [exec_flitSend, flitSend, hruns, Port.exchanges_of_up hup, hup, hresend, ne_eq, not_true_eq_false, Bool.false_eq_true,
      if_false]
  case new =>
    intro i s hup hruns hresend hroom
    simp only [exec_flitSend, flitSend, hruns, Port.exchanges_of_up hup, hup, hresend, Nat.not_le.mpr hroom, ne_eq, not_true_eq_false,
      Bool.false_eq_true, if_false]
  case full =>
    intro i s hup hruns hresend hfull
    simp only [exec_flitSend, flitSend, hruns, Port.exchanges_of_up hup, hup, hresend, hfull, ne_eq, not_true_eq_false,
      Bool.false_eq_true, if_false, if_true]
  case word => exact fun f => ⟨rfl, rfl, rfl, rfl, rfl⟩
  case block =>
    intro i s hphase hruns hunacked
    simp only [exec_flitSend, flitSend, hruns, (Port.exchanges_iff _).mpr hphase, State.sendBlock_of_unacked hunacked,
      Bool.false_eq_true, if_false, if_true]
  case inOrder =>
    intro i f n s hup hruns hcrc hnext
    simp only [exec_flitReceive, flitReceive, hup, hruns, hcrc, hnext, ne_eq, not_true_eq_false, decide_false, Bool.or_self,
      Bool.false_eq_true, if_false, if_true]
  case again =>
    intro i f n s hup hruns hcrc hother hbehind
    simp only [exec_flitReceive, flitReceive, hup, hruns, hcrc, hother, hbehind, ne_eq, not_true_eq_false, decide_false, Bool.or_self,
      Bool.false_eq_true, if_false, if_true]
  case wrong =>
    intro i f n u s hup hruns hwrong
    by_cases hcorrectable : u = 0
    · have hcrc : f.crc ≠ f.crcOf := hwrong.resolve_left (not_not_intro hcorrectable)
      simp only [exec_flitReceive, flitReceive, hup, hruns, hcorrectable, hcrc, ne_eq, not_true_eq_false, not_false_eq_true,
        decide_false, Bool.or_self, Bool.false_eq_true, if_false, if_true]
    · simp only [exec_flitReceive, flitReceive, hup, hruns, hcorrectable, ne_eq, not_true_eq_false, not_false_eq_true, decide_false,
        Bool.or_self, Bool.false_eq_true, if_false, if_true]
  case nak =>
    intro i s hread hruns
    simp only [exec_nakReceive, nakReceive, hread, hruns, Port.replayAll, Bool.not_false, Bool.and_self, if_true]
    split <;> rfl
  case timeout =>
    intro i s hup hreplay hruns
    simp only [exec_replayTimeout, replayTimeout, hup, hruns, List.isEmpty_eq_false_iff.mpr hreplay, decide_true, Bool.not_false,
      Bool.and_self, if_true]

end Sys2Proof.Machine
end

section
/-! SUPPORT. The training of a port (10 R273 to R275, R290, R291). -/

namespace Sys2Proof.Machine

theorem exec_signalDetect (i : PortId) (lanes : BitVec 8) (s : State) :
    exec (.signalDetect i lanes) s = .next (signalDetect i lanes s) := rfl

theorem exec_equalisationDone (i : PortId) (trained : BitVec 8) (s : State) :
    exec (.equalisationDone i trained) s = .next (equalisationDone i trained s) := rfl

theorem exec_fecLockDone (i : PortId) (s : State) : exec (.fecLockDone i) s = .next (fecLockDone i s) := rfl

theorem exec_exchangeBlockReceive (i : PortId) (b : ExBlock) (c : FlitCheck) (s : State) :
    exec (.exchangeBlockReceive i b c) s = .next (exchangeBlockReceive i b c s) := rfl

theorem exec_trainingAttemptTimeout (i : PortId) (s : State) :
    exec (.trainingAttemptTimeout i) s = .next (trainingAttemptTimeout i s) := rfl

theorem exec_signalLoss (i : PortId) (s : State) : exec (.signalLoss i) s = .next (signalLoss i s) := rfl

theorem exec_linkRetrain (i : PortId) (seen : Bool) (s : State) : exec (.linkRetrain i seen) s = .next (linkRetrain i seen s) := rfl

/-- R273, R274, R291: the exchange ends with the block last received once an acknowledged block has been sent and received, on 8 lanes or
at 1.2 on both ends. -/
theorem State.endExchange_setPort (s : State) (i : Nat) {x : Port} {b : ExBlock} (hblock : x.lastBlock = some b)
    (hsent : x.sentAcked = true) (hpeer : x.peerAcked = true)
    (hlanes : x.lanes = 0xFF ∨ (2 ≤ x.minor ∧ 2 ≤ b.maxMinor.toNat)) :
    (s.setPort i x).endExchange i = (s.setPort i x).portUp i b := by
  have hallowed : (decide (x.lanes ≠ 0xFF) && decide (min x.minor b.maxMinor.toNat < 2)) = false := by
    simpa only [Bool.and_eq_false_imp, decide_eq_true_eq, decide_eq_false_iff_not, Nat.not_lt, le_min_iff, or_iff_not_imp_left,
      ne_eq] using hlanes
  simp only [State.endExchange, State.port_setPort, hblock, hsent, hpeer, hallowed, Bool.not_false, Bool.and_self, if_true]

/-- R290: what the retrain of a port that is UP does. -/
theorem State.retrain_of_up {s : State} {i : Nat} (hup : (s.port i).state = .up) :
    s.retrain i =
      (let x := s.port i
       let s1 := s.setPort i { x with state := .retrain, retraining := true, phase := 0, attempts := 0, lastBlock := none,
                                      sameBlocks := 0, acked := false, sentAcked := false, peerAcked := false, resent := [],
                                      offer := x.maxVer }
       (s1.linkError i 0x0A01 0 1).schedule
         { target := { kind := 7, index := BitVec.ofNat 28 i }, deferred := true, cause := s.err.wr, code := 0x0A01,
           part := some (BitVec.ofNat 2 (s.partOfPort i)) }) :=
  if_neg (not_not_intro hup)

/-- R290: a port that is not UP begins no retrain. -/
theorem State.retrain_of_ne_up {s : State} {i : Nat} (hother : (s.port i).state ≠ .up) : s.retrain i = s := if_pos hother

/-- R275: a port that is not disabled, DOWN or in loopback goes DOWN as its signal is lost. -/
theorem signalLoss_of_active {i : PortId} {s : State} (henabled : (s.port i.val).state ≠ .disabled)
    (hdown : (s.port i.val).state ≠ .down) (hloop : (s.port i.val).state ≠ .loopback) (hruns : s.portStopped i.val = false) :
    signalLoss i s = s.portDown i.val := by
  rw [signalLoss, hruns, if_neg Bool.false_ne_true]
  split
  next hstate => exact absurd hstate henabled
  next hstate => exact absurd hstate hdown
  next hstate => exact absurd hstate hloop
  next => rfl

/-- Settles O31: each command's test of the port's state holds where its conditions do. The third identical block leaves the port as
`State.endExchange_setPort` takes it, and a retrain begins in a port that is UP (`State.retrain_of_up`). -/
theorem portTrainingCompletes : Obligations.PortTrainingCompletes := by
  unfold Obligations.PortTrainingCompletes
  dsimp only
  refine ⟨?detect, ?equalised, ?unusable, ?locked, ?third, ?version, ?discarded, ?attempt, ?loss, ?retrain⟩
  case detect =>
    intro i lanes s henable hstate hlanes hruns
    have hwaits : ((s.port i.val).state = .signal || (s.port i.val).state = .down) = true := by
      simpa only [Bool.or_eq_true, decide_eq_true_eq] using hstate
    simp only [exec_signalDetect, signalDetect, henable, hwaits, hlanes, hruns, decide_true, Bool.not_false, Bool.and_self, if_true]
  case equalised =>
    intro i t s hphase hlanes hruns
    have hin : ((s.port i.val).state = .equalise || ((s.port i.val).state = .retrain && (s.port i.val).phase = 0)) = true := by
      simpa only [Bool.or_eq_true, Bool.and_eq_true, decide_eq_true_eq] using hphase
    simp only [exec_equalisationDone, equalisationDone, hin, hlanes, hruns, Bool.not_true, Bool.or_self, Bool.false_eq_true, if_false]
  case unusable =>
    intro i t s hstate hphase hlanes hruns
    simp only [exec_equalisationDone, equalisationDone, hstate, hphase, hlanes, hruns, decide_true, Bool.and_self, Bool.or_true,
      Bool.not_true, Bool.or_self, Bool.false_eq_true, if_false, if_true]
  case locked =>
    intro i s hphase hruns
    have hin : ((s.port i.val).state = .lock || ((s.port i.val).state = .retrain && (s.port i.val).phase = 1)) = true := by
      simpa only [Bool.or_eq_true, Bool.and_eq_true, decide_eq_true_eq] using hphase
    simp only [exec_fecLockDone, fecLockDone, hin, hruns, Bool.not_false, Bool.and_self, if_true]
  case third =>
    intro i b s hphase hcrc hmagic hmajor hlast hsame hsent hpeer hlanes hruns
    have hthird : 3 ≤ (s.port i.val).sameBlocks + 1 := by omega
    have hacked : ((s.port i.val).peerAcked || b.acked) = true := by simpa only [Bool.or_eq_true] using hpeer
    simp only [exec_exchangeBlockReceive, exchangeBlockReceive, (Port.exchanges_iff _).mpr hphase, hruns, hcrc, hmagic, hmajor, hlast,
      hthird, hacked, ne_eq, not_true_eq_false, decide_true, decide_false, Bool.not_true, Bool.or_true, Bool.or_self, Bool.false_eq_true,
      if_false, if_true]
    exact congrArg _ (State.endExchange_setPort s _ rfl hsent rfl hlanes)
  case version =>
    intro i b n s hstate hcrc hmagic hmajor hruns
    simp only [exec_exchangeBlockReceive, exchangeBlockReceive, (Port.exchanges_iff _).mpr (.inl hstate), hruns, hcrc, hmagic, hmajor,
      ne_eq, not_true_eq_false, not_false_eq_true, decide_false, Bool.not_true, Bool.or_self, Bool.false_eq_true, if_false, if_true]
  case discarded =>
    intro i b c s hphase hruns hwrong
    by_cases hcorrectable : c.uncorr = 0
    · have hcrc : c.crcWrong = true := hwrong.resolve_left (not_not_intro hcorrectable)
      simp only [exec_exchangeBlockReceive, exchangeBlockReceive, (Port.exchanges_iff _).mpr hphase, hruns, hcorrectable, hcrc, ne_eq,
        not_true_eq_false, Bool.not_true, Bool.or_self, Bool.false_eq_true, if_false, if_true]
    · simp only [exec_exchangeBlockReceive, exchangeBlockReceive, (Port.exchanges_iff _).mpr hphase, hruns, hcorrectable, ne_eq,
        not_false_eq_true, Bool.not_true, Bool.or_self, Bool.false_eq_true, if_false, if_true]
  case attempt =>
    intro i s hstate hruns
    obtain hstate | hstate | hstate | hstate := hstate
    all_goals
      simp only [exec_trainingAttemptTimeout, trainingAttemptTimeout, hstate, hruns, Bool.not_true, Bool.or_self, Bool.false_eq_true,
        if_false]
  case loss =>
    intro i s henabled hdown hloop hruns
    exact (exec_signalLoss i s).trans (congrArg _ (signalLoss_of_active henabled hdown hloop hruns))
  case retrain =>
    intro i s hup hruns
    simp only [exec_linkRetrain, linkRetrain, hruns, State.retrain_of_up hup, Bool.true_or, Bool.not_false, Bool.and_self, if_true]

end Sys2Proof.Machine
end

section
/-! SUPPORT. The registers of a port and of its link die (10 R287, R288, R290, R292, R294). -/

namespace Sys2Proof.Machine

theorem exec_klpEnable (i : PortId) (on : Bool) (s : State) : exec (.klpEnable i on) s = .next (klpEnable i on s) := rfl

theorem exec_klpRetrain (i : PortId) (s : State) : exec (.klpRetrain i) s = .next (klpRetrain i s) := rfl

theorem exec_klpCtrClr (i : PortId) (s : State) : exec (.klpCtrClr i) s = .next (klpCtrClr i s) := rfl

theorem exec_ldEpochWrite (d : LinkDieId) (v : BitVec 32) (s : State) : exec (.ldEpochWrite d v) s = .next (s.writeEpoch d.val v) := rfl

theorem portOf_linkDie (d : LinkDieId) {j : Nat} (hj : j < 6) : (portOf (6 * d.val + j)).val = 6 * d.val + j :=
  Nat.mod_eq_of_lt (by omega)

theorem State.setLinkDie_port (s : State) (d i : Nat) (x : LinkDie) : (s.setLinkDie d x).port i = s.port i := rfl

/-- R288: where no port of the link die holds a packet, a write of its epoch checks none again. -/
theorem State.writeEpoch_of_none_held {s : State} {d : LinkDieId} (v : BitVec 32)
    (hnone : ∀ j < 6, ∀ q ∈ (s.port (6 * d.val + j)).received, q.2 = false) :
    s.writeEpoch d.val v = s.setLinkDie d.val { s.linkDie d.val with epoch := v } := by
  refine List.foldlRecOn (motive := fun a => a = s.setLinkDie d.val { s.linkDie d.val with epoch := v }) _ _ rfl fun a ha j hj => ?_
  have hheld : (s.port (6 * d.val + j)).received.filter (fun q => q.2) = [] := by
    simpa only [List.filter_eq_nil_iff, Bool.not_eq_true] using hnone j (List.mem_range.mp hj)
  simp only [ha, portOf_linkDie d (List.mem_range.mp hj), State.setLinkDie_port, hheld, List.foldl_nil]

/-- Settles O32: the port's clock runs and its state picks the branch. A request of KLP_RETRAIN is set first, so that the retrain begins,
or is held, with it in place (`State.retrain_of_up`, `State.retrain_of_ne_up`). -/
theorem portRegisterCommandsComplete : Obligations.PortRegisterCommandsComplete := by
  unfold Obligations.PortRegisterCommandsComplete
  dsimp only
  refine ⟨?on, ?off, ?offActive, ?held, ?begun, ?clear, ?noneHeld, exec_ldEpochWrite⟩
  case on =>
    intro i s hdisabled hruns
    simp only [exec_klpEnable, klpEnable, hruns, hdisabled, Bool.false_eq_true, if_false, if_true]
  case off =>
    intro i s hup hretrain hruns
    simp only [exec_klpEnable, klpEnable, hruns, hup, hretrain, decide_false, Bool.or_self, Bool.false_eq_true, if_false]
  case offActive =>
    intro i s hactive hruns
    have hlink : ((s.port i.val).state = .up || (s.port i.val).state = .retrain) = true := by
      simpa only [Bool.or_eq_true, decide_eq_true_eq] using hactive
    simp only [exec_klpEnable, klpEnable, hruns, hlink, Bool.false_eq_true, if_false, if_true]
  case held =>
    intro i s hother hruns
    have hport : ((s.setPort i.val { s.port i.val with retrainReq := true }).port i.val).state ≠ .up := by
      rwa [State.port_setPort, if_pos rfl]
    simp only [exec_klpRetrain, klpRetrain, hruns, State.modPort, State.retrain_of_ne_up hport, Bool.false_eq_true, if_false]
  case begun =>
    intro i s hup hruns
    have hport : (s.setPort i.val { s.port i.val with retrainReq := true }).port i.val =
        { s.port i.val with retrainReq := true } := by
      rw [State.port_setPort, if_pos rfl]
    have hstate : ((s.setPort i.val { s.port i.val with retrainReq := true }).port i.val).state = .up := by rwa [hport]
    simp only [exec_klpRetrain, klpRetrain, hruns, State.modPort, State.retrain_of_up hstate, hport, Bool.false_eq_true, if_false]
    rfl
  case clear =>
    intro i s hruns
    simp only [exec_klpCtrClr, klpCtrClr, hruns, State.modPort, Bool.false_eq_true, if_false]
  case noneHeld =>
    intro d v s hnone
    exact (exec_ldEpochWrite d v s).trans (congrArg _ (State.writeEpoch_of_none_held v hnone))

end Sys2Proof.Machine
end

section
/-! SUPPORT. The packets that a link die sends and takes (10 R282, R283, R287). -/

namespace Sys2Proof.Machine

theorem exec_packetSend (i : Nat) (s : State) : exec (.packetSend i) s = .next (packetSend i s) := rfl

theorem exec_packetReceive (i : PortId) (v : Fin 5) (s : State) : exec (.packetReceive i v) s = .next (packetReceive i v s) := rfl

/-- R279: the packet at a place heads its flow where none before it is of the same flow. -/
theorem State.headsFlow_of_forall {s : State} {i : Nat} {x : OutPkt} (hfirst : ∀ a ∈ s.txq.take i, a.sameFlow x = false) :
    (s.txq.take i).any (fun a => a.sameFlow x) = false := by
  simpa only [List.any_eq_false, Bool.not_eq_true] using hfirst

/-- R283: a port at 1.0 refuses no packet of up to 4 hops, and one of a later version none for its hops. -/
theorem hopsRefused_eq_false {x : Port} {pkt : Packet} (hhops : x.ver = 0 → pkt.hops.toNat ≤ 4) :
    (decide (x.ver = 0) && decide (4 < pkt.hops.toNat)) = false := by
  simpa only [Bool.and_eq_false_imp, decide_eq_true_eq, decide_eq_false_iff_not, Nat.not_lt] using hhops

/-- Settles O33: the packet heads its flow (`State.headsFlow_of_forall`) and its route is live, so that the output port or the member
itself takes it. The oldest packet of a VC is discarded by an older epoch; one of the current epoch goes on while hops are left. -/
theorem packetCommandsComplete : Obligations.PacketCommandsComplete := by
  unfold Obligations.PacketCommandsComplete
  dsimp only
  refine ⟨?send, ?sendHere, ?older, ?forward, ?deliver⟩
  case send =>
    intro i s x q hpacket hfirst hclock hvalid hlive hself hport
    simp only [exec_packetSend, packetSend, hpacket, State.headsFlow_of_forall hfirst, hclock, hvalid, hlive, hself, hport, Bool.not_true,
      Bool.false_and, Bool.or_self, Bool.false_eq_true, if_false]
  case sendHere =>
    intro i s x hpacket hfirst hclock hvalid hlive hself
    simp only [exec_packetSend, packetSend, hpacket, State.headsFlow_of_forall hfirst, hclock, hvalid, hlive, hself, Bool.not_true,
      Bool.false_and, Bool.or_self, Bool.false_eq_true, if_false, if_true]
  case older =>
    intro i v s pkt h rest holdest holder hruns hclock
    simp only [exec_packetReceive, packetReceive, hruns, hclock, holdest, holder, Bool.or_self, Bool.false_eq_true, if_false, if_true]
  case forward =>
    intro i v s pkt h rest q holdest hepoch hhops hleft hfwd hpart hout hruns hclock
    have hfits : ((s.outPorts (i.val / 6) (bitsAt pkt.route.toNat (5 * pkt.hop.toNat) 5)).all fun z =>
        decide (s.partOfPort z = s.partOfPort i.val)) = true := by
      simpa only [List.all_eq_true, decide_eq_true_eq] using hpart
    simp only [exec_packetReceive, packetReceive, hruns, hclock, holdest, hepoch, BitVec.lt_irrefl,
      hopsRefused_eq_false hhops, hleft, hfwd, hfits, hout, Bool.and_self, Bool.or_self, Bool.false_eq_true, if_false, if_true]
  case deliver =>
    intro i v s pkt h rest holdest hepoch hhops hlast hmember hlive hruns hclock
    simp only [exec_packetReceive, packetReceive, hruns, hclock, holdest, hepoch, BitVec.lt_irrefl,
      hopsRefused_eq_false hhops, Nat.not_lt.mpr hlast, hmember, hlive, Bool.not_true, Bool.or_self, Bool.false_eq_true, if_false]

end Sys2Proof.Machine
end

section
/-! SUPPORT. The step of the module and its queue (00, 01), and the state after reset (11 Table 11.6, 13 R361). -/

namespace Sys2Proof.Machine

/-- Settles O1: the step is defined by the queue's two shapes. -/
theorem stepRunsFrontCommand : Obligations.StepRunsFrontCommand := by
  unfold Obligations.StepRunsFrontCommand
  refine ⟨fun c rest s => rfl, fun s hqueue => ?_⟩
  simp only [step, hqueue]

/-- R297: an access of the host keeps the queue if its act does; one that waits, waits in the hub. -/
theorem State.inTurn_queue (s : State) (a : Instr) (f : State → State) (h : ∀ a, (f a).kept.queue = a.kept.queue) :
    (s.inTurn a f).kept.queue = s.kept.queue := State.inTurn_keep (·.queue) s a f h

/-- A step with a command at the front of the queue runs it over the rest of the queue. -/
theorem step_of_cons {s : State} {c : Instr} {rest : List Instr} (hqueue : s.pending = c :: rest) :
    step s = exec c { s with pending := rest } := by
  simp only [step, hqueue]

/-- Every command answers a next state, and leaves the queue as it is: each by the frame of its own meaning. -/
theorem exec_next_queue (c : Instr) (s : State) : ∃ t, exec c s = .next t ∧ t.kept.queue = s.kept.queue := by
  cases c
  all_goals refine ⟨_, rfl, ?_⟩
  case rstSwRequest r =>
    cases r with
    | host w => exact s.inTurn_queue _ _ fun a => (rstSwRequest_frame (.host w) a).1
    | control x => exact (rstSwRequest_frame (.control x) s).1
  -- the arrays, the passes and the slots (03, 04)
  case passIssue | anchorCompute | shadowLoad | drainIssue | drainComplete | vectorIssue | sramUe | coreEnable | coreHaltReq |
      passBoundaryStop | loopLengthLatch | slotSpill | slotReload | addModeReload | boundaryGateClose =>
    simp only [↓State.commitLog_frame, ↓passIssue_frame, ↓anchorCompute_frame, ↓shadowLoad_frame, ↓drainIssue_frame,
      ↓drainComplete_frame, ↓vectorIssue_frame, ↓sramUe_frame, ↓coreEnable_frame, ↓coreHaltReq_frame, ↓passBoundaryStop_frame,
      ↓loopLengthLatch_frame, ↓slotSpill_frame, ↓slotReload_frame, ↓addModeReload_frame, ↓boundaryGateClose_frame]
  -- the weave and the steps (05)
  case tileArrive | endOfStepMarker | externalEventRelease | creditReceive | steerSwitch | steerSelect | steerMerge | stallTimerExpire |
      queueMoveBack | stallSuspect | stepStart | stepEnd | reportCompare | variantChange =>
    simp only [↓tileArrive_frame, ↓endOfStepMarker_frame, ↓externalEventRelease_frame, ↓creditReceive_frame, ↓steerSwitch_frame,
      ↓steerSelect_frame, ↓steerMerge_frame, ↓stallTimerExpire_frame, ↓queueMoveBack_frame, ↓stallSuspect_frame, ↓stepStart_frame,
      ↓stepEnd_frame, ↓reportCompare_frame, ↓variantChange_frame]
  -- the streams (06)
  case strArm | descriptorActivate | strEnable | strDisableReq | strResume | endProgram | loopb | loope | strStride | strAdd | emit |
      strSkip | plfetch | bfetch | twait | mergeHoldExpire | requestRetire | requestTimeout | streamFault | haltSettleDone |
      settleTimeout | saveAreaWritten | ringPeriodEnd =>
    simp only [↓strArm_frame, ↓descriptorActivate_frame, ↓strEnable_frame, ↓strDisableReq_frame, ↓strResume_frame,
      ↓endProgram_frame, ↓loopb_frame, ↓loope_frame, ↓strStride_frame, ↓strAdd_frame, ↓emit_frame, ↓strSkip_frame, ↓plfetch_frame,
      ↓bfetch_frame, ↓twait_frame, ↓mergeHoldExpire_frame, ↓requestRetire_frame, ↓requestTimeout_frame, ↓streamFault_frame,
      ↓haltSettleDone_frame, ↓settleTimeout_frame, ↓saveAreaWritten_frame, ↓ringPeriodEnd_frame]
  -- the update and the reduction (07, 08)
  case tensorShiftUpdate | adamwUpdate | reductionAdd | redrain | slotRelease | memsideOp | tileCloseReport | segmentReceive |
      noticeReceive | rescaleReceive | memberRemoval | withdrawStep | paramPartReceive =>
    simp only [↓State.commitLog_frame, ↓tensorShiftUpdate_frame, ↓adamwUpdate_frame, ↓reductionAdd_frame, ↓redrain_frame,
      ↓slotRelease_frame, ↓memsideOp_frame, ↓tileCloseReport_frame, ↓segmentReceive_frame, ↓noticeReceive_frame,
      ↓rescaleReceive_frame, ↓memberRemoval_frame, ↓withdrawStep_frame, ↓paramPartReceive_frame]
  -- the tower memory and the far tier (09)
  case channelRequest | frameTableWrite | refreshSlot | scrubSlot | farFaultResolve | farFillComplete | farEvict | evictComplete |
      cxlLinkDown | cxlLinkRetrain | retryResend =>
    simp only [↓State.inTurn_queue, ↓channelRequest_frame, ↓frameTableWrite_frame, ↓refreshSlot_frame, ↓scrubSlot_frame,
      ↓farFaultResolve_frame, ↓farFillComplete_frame, ↓farEvict_frame, ↓evictComplete_frame, ↓cxlLinkDown_frame,
      ↓cxlLinkRetrain_frame, ↓resendInOrder_frame, implies_true]
  -- the links (10)
  case flitSend | flitReceive | nakReceive | replayTimeout | signalDetect | equalisationDone | fecLockDone | exchangeBlockReceive |
      trainingAttemptTimeout | signalLoss | linkRetrain | packetSend | packetReceive | klpCredit | unreachablePacket |
      memberUnreachable | epochAhead | ldEpochWrite | klpEnable | klpRetrain | klpCtrClr =>
    simp only [↓flitSend_frame, ↓flitReceive_frame, ↓nakReceive_frame, ↓replayTimeout_frame, ↓signalDetect_frame,
      ↓equalisationDone_frame, ↓fecLockDone_frame, ↓exchangeBlockReceive_frame, ↓trainingAttemptTimeout_frame, ↓signalLoss_frame,
      ↓linkRetrain_frame, ↓packetSend_frame, ↓packetReceive_frame, ↓klpCredit_frame, ↓unreachablePacket_frame,
      ↓memberUnreachable_frame, ↓epochAhead_frame, ↓ldEpochWrite_frame, ↓klpEnable_frame, ↓klpRetrain_frame, ↓klpCtrClr_frame]
  -- the host (11)
  case functionLevelReset | bar2Access | hostMaxVersionWrite | layoutDone | jobStart | jobEnableComplete | jobPause | jobResume |
      jobStop | stopStepReached | endStepWrite | jobAbort | abortComplete | jobClear | clearComplete | epochWrite | eventEnableWrite |
      swEnable | swDisable | sergeSegmentWrite | persistAckWrite | latTolWrite | farQuotaWrite | registerWrite | partCfgWrite =>
    simp only [↓State.inTurn_queue, ↓functionLevelReset_frame, ↓bar2Access_frame, ↓hostMaxVersionWrite_frame, ↓layoutDone_frame,
      ↓jobStart_frame, ↓jobEnableComplete_frame, ↓jobPause_frame, ↓jobResume_frame, ↓jobStop_frame, ↓stopStepReached_frame,
      ↓endStepWrite_frame, ↓jobAbort_frame, ↓abortComplete_frame, ↓jobClear_frame, ↓clearComplete_frame, ↓epochWrite_frame,
      ↓eventEnableWrite_frame, ↓swEnable_frame, ↓swDisable_frame, ↓sergeSegmentWrite_frame, ↓persistAckWrite_frame,
      ↓latTolWrite_frame, ↓farQuotaWrite_frame, ↓registerWrite_frame, ↓partCfgWrite_frame, implies_true]
  -- the snapshots (12)
  case frameCopied | snapshotPoint | snapOpen | pageData | snapManifest | fetchData | rideData | rideDigest | snapSeal | snapCommitted |
      snapDone | snapAbort | copyBudgetExpire | snapFetch | fetchEnd | flashWriteComplete | rejoin | rejoinLate | snapRestore |
      restoreComplete | fetchResend =>
    simp only [↓frameCopied_frame, ↓snapshotPoint_frame, ↓snapOpen_frame, ↓pageData_frame, ↓snapManifest_frame, ↓fetchData_frame,
      ↓rideData_frame, ↓rideDigest_frame, ↓snapSeal_frame, ↓snapCommitted_frame, ↓snapDone_frame, ↓snapAbort_frame,
      ↓copyBudgetExpire_frame, ↓snapFetch_frame, ↓fetchEnd_frame, ↓flashWriteComplete_frame, ↓rejoin_frame, ↓rejoinLate_frame,
      ↓snapRestore_frame, ↓restoreComplete_frame, ↓fetchResend_frame]
  -- the start of the module (13)
  case watchdogRestart | managementStart | clockStart | strapSample | optionLoading | hubStart | configurationRead | bringUp |
      islandExit | moduleReady | bootGo | refclkReturn | trstN | recSnapAck | powerOn | brownOut | mrstN | watchdogExpire | debugRequest |
      clockFailure | controlCoreLockup | sourceRelease =>
    simp only [↓State.inTurn_queue, ↓watchdogRestart_frame, ↓managementStart_frame, ↓clockStart_frame, ↓strapSample_frame,
      ↓optionLoading_frame, ↓hubStart_frame, ↓configurationRead_frame, ↓bringUp_frame, ↓islandExit_frame, ↓moduleReady_frame,
      ↓bootGo_frame, ↓refclkReturn_frame, ↓trstN_frame, ↓recSnapAck_frame, ↓powerOn_frame, ↓brownOut_frame, ↓mrstN_frame,
      ↓watchdogExpire_frame, ↓debugRequest_frame, ↓clockFailure_frame, ↓controlCoreLockup_frame, ↓sourceRelease_frame, implies_true]
  -- the firmware and its tokens (14)
  case writeSlot | fwuConfirm | svnCommit | mgmtWrite | ownerClaim | ownerTransfer | revokeImage | ownerRelease | debugUnlock |
      lifecycleToken | attGo | fwuSelect | activateQuad | pldmRequest =>
    simp only [↓State.inTurn_queue, ↓writeSlot_frame, ↓fwuConfirm_frame, ↓svnCommit_frame, ↓mgmtWrite_frame, ↓claim_frame,
      ↓ownerTransfer_frame, ↓revokeImage_frame, ↓ownerRelease_frame, ↓debugUnlock_frame, ↓lifecycleToken_frame, ↓attGo_frame,
      ↓fwuSelect_frame, ↓activateQuad_frame, ↓pldmRequest_frame, implies_true]
  -- the self-test and the fences (15)
  case ginghamTest | ginghamTestComplete | cePoll | suppressionWindowExpire | ghReq | ghClrCounts | fenceAdd | fenceRemove =>
    simp only [↓State.inTurn_queue, ↓ginghamTest_frame, ↓ginghamTestComplete_frame, ↓cePoll_frame, ↓suppressionWindowExpire_frame,
      ↓ghReq_frame, ↓ghClrCounts_frame, ↓fenceAdd_frame, ↓fenceRemove_frame, implies_true]
  -- the power states and the temperatures (16)
  case pstateEntryComplete | wakeComplete | bankPrechargeComplete | thermalEvaluation | coolantRead | pwrCapWrite | pwrCalGo |
      dieTripClear | dieThermalTrip =>
    simp only [↓State.inTurn_queue, ↓pstateEntryComplete_frame, ↓wakeComplete_frame, ↓bankPrechargeComplete_frame,
      ↓thermalEvaluation_frame, ↓coolantRead_frame, ↓pwrCapWrite_frame, ↓pwrCalGo_frame, ↓dieTripClear_frame,
      ↓dieThermalTrip_frame, implies_true]
  -- the meter (17)
  case meterSample | meterBroadcast | holdupCommit | meterStart | sealBroken | getInfo | meterRead | readLog | getCert |
      frameGapTimeout | meterRecordReceive | meterStale | meterError =>
    simp only [↓meterSample_frame, ↓meterBroadcast_frame, ↓holdupCommit_frame, ↓meterStart_frame, ↓sealBroken_frame, ↓getInfo_frame,
      ↓meterRead_frame, ↓readLog_frame, ↓getCert_frame, ↓frameGapTimeout_frame, ↓meterRecordReceive_frame, ↓meterStale_frame,
      ↓meterError_frame]

/-- Settles O2: idling answers the same state, and the front command answers one with the queue that it was given, the tail
(`exec_next_queue`). -/
theorem stepTakesOneCommand : Obligations.StepTakesOneCommand := by
  unfold Obligations.StepTakesOneCommand
  intro s
  cases hqueue : s.pending with
  | nil => exact ⟨s, stepRunsFrontCommand.2 s hqueue, hqueue⟩
  | cons c rest =>
    obtain ⟨t, hexec, hkept⟩ := exec_next_queue c { s with pending := rest }
    refine ⟨t, (step_of_cons hqueue).trans hexec, ?_⟩
    rw [t.queue_eq, hkept, ← State.queue_eq, List.tail_cons]

/-- R362, Table 11.6: a partition of the state after reset is one whose page and job have never been written. -/
theorem State.reset_part (p : Nat) : State.reset.part p = {} := rfl

/-- Settles O5: the state after reset is closed, and a page of it reads what the page's type defaults to. -/
theorem resetState : Obligations.ResetState := by
  unfold Obligations.ResetState
  refine ⟨rfl, rfl, rfl, rfl, rfl, fun p => ?_, rfl, by decide, by decide⟩
  rw [State.reset_part]
  exact ⟨rfl, rfl, rfl, rfl⟩

end Sys2Proof.Machine
end

section
/-! SUPPORT. The commands of the host's turn (11 R297), and the job commands (11 R305 to R309). -/

namespace Sys2Proof.Machine

/-- R297: a command that acts in the host's turn acts at once while no access of the host waits. -/
theorem exec_acts_of_inTurn {c : Instr} {f : State → State} {s : State} (hexec : exec c s = .next (s.inTurn c f))
    (hfree : s.hostBlocked = false) : exec c s = .next (f s) := by
  rw [hexec, s.inTurn_free c f hfree]

/-- A write of a partition's page leaves its other registers and its job. -/
theorem State.part_modJcp_self (s : State) (p : Nat) (f : Jcp → Jcp) :
    (s.modJcp p f).part p = { s.part p with jcp := f (s.part p).jcp } := by
  simp only [State.modJcp, State.modPart, State.part_setPart, if_true]

/-- A write of a partition's job leaves its page. -/
theorem State.part_modJob_self (s : State) (p : Nat) (f : Job → Job) :
    (s.modJob p f).part p = { s.part p with job := f (s.part p).job } := by
  simp only [State.modJob, State.modPart, State.part_setPart, if_true]

/-- R306: an accepted command that nothing makes wait, with none waiting before it, takes effect at once. -/
theorem State.jobCommand_runs {s : State} {p : Nat} {c : JobCmd} (img : StartImage) (haccepts : s.accepts p c = true)
    (hnone : (s.part p).job.waitingCmds = []) (hwaits : (s.modJcp p (fun j => { j with lastCmd := c.code })).cmdWaits p c = false) :
    s.jobCommand p c img = (s.modJcp p (fun j => { j with lastCmd := c.code })).runCmd p c img := by
  simp only [State.jobCommand, haccepts, hwaits, State.part_modJcp_self, Job.nextCmd, hnone, List.findIdx?_nil, Option.isSome_none,
    Bool.not_true, Bool.or_self, Bool.false_eq_true, if_false]

/-- R306: an access of the host that writes a job command, with none before it. -/
theorem exec_jobCommand_runs {x : Instr} {s : State} {p : Nat} {c : JobCmd} {img : StartImage}
    (hexec : exec x s = .next (s.inTurn x (fun a => a.jobCommand p c img))) (hfree : s.hostBlocked = false)
    (haccepts : s.accepts p c = true) (hnone : (s.part p).job.waitingCmds = [])
    (hwaits : (s.modJcp p (fun j => { j with lastCmd := c.code })).cmdWaits p c = false) :
    exec x s = .next ((s.modJcp p (fun j => { j with lastCmd := c.code })).runCmd p c img) := by
  rw [exec_acts_of_inTurn hexec hfree, s.jobCommand_runs img haccepts hnone hwaits]

/-- R305: START with every check passed loads the job, and for a restore raises LD.EPOCH. -/
theorem State.startJob_of_checks {s : State} {p : Nat} {img : StartImage} {t v : Nat}
    (hcheck : (s.setJobState p .loading).startCheck p img = .ok (t, v)) :
    s.startJob p img =
      (let s0 := s.setJobState p .loading
       let j := s0.newJob p img t
       let s1 := s0.modPart p (fun k => { k with
         job := j, jcp := { k.jcp with imageId := j.header.imageId, step := j.latched.startStep - 1, reason := 0 } })
       let s2 := ((((s1.loadVariant p v j.latched.startStep true).initCrs p).placeContents p).recastFrozen p).openCatalogue p
       if j.latched.restoreId = 0 then s2 else s2.applyEpoch p) := by
  simp only [State.startJob, hcheck]

/-- Table 11.7: a command of JCP 1.0 is accepted in each of its states. -/
theorem State.accepts_of_state {s : State} {p : Nat} {c : JobCmd} (hready : s.mod.ready = true)
    (hstate : match c with
      | .start => (s.part p).jcp.state = .idle
      | .stop => (s.part p).jcp.state = .running ∨ (s.part p).jcp.state = .pausing ∨ (s.part p).jcp.state = .paused
      | .abort => (s.part p).jcp.state = .loading ∨ (s.part p).jcp.state = .running ∨ (s.part p).jcp.state = .pausing ∨
          (s.part p).jcp.state = .paused ∨ (s.part p).jcp.state = .stopping
      | .clear => (s.part p).jcp.state = .done ∨ (s.part p).jcp.state = .failed ∨ (s.part p).jcp.state = .refused
      | .pause | .resume => False) : s.accepts p c = true := by
  cases c
  case start => simp only [State.accepts, hready, hstate, Bool.and_self]
  case stop => obtain h | h | h := hstate <;> simp only [State.accepts, hready, h, Bool.and_self]
  case abort => obtain h | h | h | h | h := hstate <;> simp only [State.accepts, hready, h, Bool.and_self]
  case clear => obtain h | h | h := hstate <;> simp only [State.accepts, hready, h, Bool.and_self]
  all_goals exact hstate.elim

/-- Table 11.7: PAUSE and RESUME are accepted in their state under a minor version. -/
theorem State.accepts_of_minor {s : State} {p : Nat} {c : JobCmd} (hready : s.mod.ready = true) (hminor : s.mod.jcpVersion &&& 0xFF ≠ 0)
    (hstate : c = .pause ∧ (s.part p).jcp.state = .running ∨ c = .resume ∧ (s.part p).jcp.state = .paused) : s.accepts p c = true := by
  obtain ⟨rfl, hstate⟩ | ⟨rfl, hstate⟩ := hstate <;>
    simp only [State.accepts, hready, hstate, hminor, ne_eq, not_false_eq_true, decide_true, Bool.and_self]

/-- Settles O34: the state is one in which Table 11.7 accepts the command, so that it runs (`exec_jobCommand_runs`). -/
theorem jobCommandsComplete : Obligations.JobCommandsComplete := by
  unfold Obligations.JobCommandsComplete
  intro p s hready hfree hnone st cmd
  refine ⟨?start, ?pause, ?resume, ?stop, ?abort, ?clear⟩
  case start =>
    intro img t v s0 hidle hwaits hcheck
    rw [exec_jobCommand_runs (img := img) rfl hfree (State.accepts_of_state hready hidle) hnone hwaits]
    change Host.Outcome.next (State.startJob (cmd .start) p.val img) = _
    rw [State.startJob_of_checks hcheck]
  case pause =>
    intro hrunning hminor hwaits
    exact exec_jobCommand_runs rfl hfree (State.accepts_of_minor hready hminor (.inl ⟨rfl, hrunning⟩)) hnone hwaits
  case resume =>
    intro hpaused hminor hwaits
    rw [exec_jobCommand_runs rfl hfree (State.accepts_of_minor hready hminor (.inr ⟨rfl, hpaused⟩)) hnone hwaits]
    simp only [State.runCmd, State.resumeJob, Bool.and_eq_true, decide_eq_true_eq, cmd, State.part_modJcp_self]
  case stop =>
    intro hstate hwaits
    exact exec_jobCommand_runs rfl hfree (State.accepts_of_state hready hstate) hnone hwaits
  case abort =>
    intro hstate hwaits
    exact exec_jobCommand_runs rfl hfree (State.accepts_of_state hready hstate) hnone hwaits
  case clear =>
    intro hstate hwaits
    exact exec_jobCommand_runs rfl hfree (State.accepts_of_state hready hstate) hnone hwaits

end Sys2Proof.Machine
end

section
/-! SUPPORT. The function, its window onto partition memory, the partition layout and the boundary gates (11 R296 to R302, 01 R27). -/

namespace Sys2Proof.Machine

theorem exec_functionLevelReset (u : List (Fin 16 × CtxKey)) (s : State) :
    exec (.functionLevelReset u) s = .next (functionLevelReset u s) := rfl

theorem exec_bar2Access (off : BitVec 36) (act : MemAct) (f : LineFound) (s : State) :
    exec (.bar2Access off act f) s = .next (bar2Access off act f s) := rfl

theorem exec_layoutDone (s : State) : exec .layoutDone s = .next (layoutDone s) := rfl

theorem exec_boundaryGateClose (i : Fin 12) (n : Fin 129) (s : State) :
    exec (.boundaryGateClose i n) s = .next (boundaryGateClose i n s) := rfl

/-- R300: the host reaches the frames of the enabled partition's towers whose memory is on, but for the control reserve. -/
theorem State.bar2Place_of_open {s : State} {off : BitVec 36} {pl : Place}
    (hplace : mpaPlace (s.mod.bar2Base.toNat / 2 ^ 21 * 2 ^ 21 + off.toNat) = some pl) (henabled : s.mod.bar2En = true)
    (hpart : s.partOfTower pl.tower = s.mod.bar2Part.toNat) (hon : s.memoryOn (quadOfTower pl.tower) = true) (hframe : pl.frame < 3070) :
    s.bar2Place off = some pl := by
  rw [State.bar2Place, hplace, Option.filter_some, if_pos]
  simp only [Bool.and_eq_true, decide_eq_true_eq]
  exact ⟨⟨⟨henabled, hpart⟩, hon⟩, hframe⟩

/-- R297, R300: an access through BAR2 with none of the host before it, to a channel whose clock runs. -/
theorem bar2Access_turn {off : BitVec 36} (act : MemAct) (f : LineFound) {s : State} (hfree : s.hostBlocked = false)
    (hheld : s.bar2Held off = false) : bar2Access off act f s = s.bar2Apply off act f := by
  simp only [bar2Access, hfree, hheld, Bool.or_self, Bool.false_eq_true, if_false]

/-- R301: CAP.JCP_VERSION of a host that offers major version 1 is 1.0 or 1.1. -/
theorem ofNat_minor_le_one (n : Nat) : BitVec.ofNat 16 (0x100 + if n < 1 then n else 1) = if n = 0 then 0x100 else 0x101 := by
  obtain rfl | hn := Nat.eq_zero_or_pos n
  · rfl
  · rw [if_neg (by omega), if_neg (by omega)]
    rfl

/-- Settles O36: a reset of the function aborts outside the settled states, the place that BAR2 names is open (`State.bar2Place_of_open`),
and every partition whose quadrants change is free. A gate closes where its conditions fail, and stays where they hold or it is closed. -/
theorem hostFunctionAndGateCommandsComplete : Obligations.HostFunctionAndGateCommandsComplete := by
  unfold Obligations.HostFunctionAndGateCommandsComplete
  refine ⟨⟨?function, ?bar2, ?version, ?layout, ?done⟩, ?closes, ?stays⟩
  case function =>
    intro u s
    rw [exec_functionLevelReset, functionLevelReset]
    dsimp only
    rw [List.foldl_ext (g := fun a p =>
      if (a.part p).jcp.state = .idle ∨ (a.part p).jcp.state = .notLead then a else a.jobCommand p .abort {}) (a := s)]
    intro a p _
    cases (a.part p).jcp.state <;> rfl
  case bar2 =>
    intro off act f s pl hheld hplace henabled hpart hon hframe hfree
    rw [exec_bar2Access, bar2Access_turn act f hfree hheld, State.bar2Apply, State.bar2Place_of_open hplace henabled hpart hon hframe,
      State.bar2Serve]
  case version =>
    intro v s hidle hfree
    rw [exec_acts_of_inTurn rfl hfree]
    refine congrArg _ ((if_neg ?_).trans ?_)
    · simp only [Bool.not_eq_true', Bool.not_eq_false, List.all_eq_true, List.mem_range]
      intro p hp
      obtain h | h := hidle p hp <;> rw [h]
    · simp only [ofNat_minor_le_one, apply_ite (BitVec.ofNat 16)]
      rfl
  case layout =>
    intro v s hlegal hchanged hsets hfree
    rw [exec_acts_of_inTurn rfl hfree]
    refine congrArg _ (if_neg ?_)
    simp only [hlegal, hsets, Bool.not_true, Bool.false_or, Bool.or_false, Bool.not_eq_true', Bool.not_eq_false, List.all_eq_true,
      List.mem_filter, List.mem_range, decide_eq_true_eq]
    rintro p ⟨hp, hdiff⟩
    obtain ⟨htest, h | h⟩ := hchanged p hp hdiff <;> rw [htest, h] <;> rfl
  case done =>
    intro s hbusy hclosed
    rw [exec_layoutDone, layoutDone]
    simp only [hbusy, hclosed, Bool.not_true, Bool.or_self, Bool.false_eq_true, if_false]
  case closes =>
    intro i n s hmay hopen
    simp only [exec_boundaryGateClose, boundaryGateClose, hmay, hopen, State.setGate, Bool.not_true, Bool.or_self, Bool.false_eq_true, if_false, Bool.and_eq_true, Bool.not_eq_true']
  case stays =>
    intro i n s hkept
    rw [exec_boundaryGateClose, boundaryGateClose, if_pos]
    simpa only [Bool.or_eq_true, Bool.not_eq_true'] using hkept

end Sys2Proof.Machine
end

section
/-! SUPPORT. The host's writes of a job control page and of a store window (11 R310 to R319). -/

namespace Sys2Proof.Machine

/-- R310: an epoch that raises JCP.EPOCH outside a job is stored, and marked for the wake of a partition in Retain or Standby. -/
theorem epochWrite_stored {p : PartId} {v : BitVec 32} {s : State} (hlt : (s.part p.val).jcp.epoch < v)
    (hstate : (s.part p.val).jcp.state = .idle ∨ (s.part p.val).jcp.state = .done ∨ (s.part p.val).jcp.state = .failed ∨
      (s.part p.val).jcp.state = .refused) :
    epochWrite p v s =
      (let s1 := s.modJcp p.val (fun j => { j with epoch := v })
       if (s.part p.val).power.state = .retain ∨ (s.part p.val).power.state = .standby then
         s1.modJob p.val (fun j => { j with raised := true }) else s1) := by
  rw [epochWrite, if_neg (BitVec.not_le.mpr hlt)]
  obtain h | h | h | h := hstate <;> rw [h] <;> cases (s.part p.val).power.state <;> rfl

/-- R310: an epoch that raises JCP.EPOCH in a running job of a partition in Run is written in every link die. -/
theorem epochWrite_running {p : PartId} {v : BitVec 32} {s : State} (hlt : (s.part p.val).jcp.epoch < v)
    (hrunning : (s.part p.val).jcp.state = .running) (hrun : (s.part p.val).power.state = .run) :
    epochWrite p v s = (s.modJcp p.val (fun j => { j with epoch := v })).applyEpoch p.val := by
  rw [epochWrite, if_neg (BitVec.not_le.mpr hlt), hrunning, hrun]
  rfl

/-- An entry that has been put in a map goes with its key. -/
theorem FMap.erase_ins_self {α : Type} (m : FMap α) (k : Nat) (v : α) : FMap.erase (FMap.ins k v m) k = FMap.erase m k := by
  induction m with
  | nil => simp [FMap.ins, FMap.erase]
  | cons q t ih =>
    obtain ⟨k', v'⟩ := q
    simp only [FMap.ins]
    split
    · simp [FMap.erase]
    · simp only [FMap.erase, List.filter_cons] at ih ⊢
      rw [ih]

/-- A write takes the place of an earlier one of the same key. -/
theorem FMap.set_set_self {α : Type} [DecidableEq α] (d : α) (m : FMap α) (k : Nat) (v w : α) :
    FMap.set d (FMap.set d m k v) k w = FMap.set d m k w := by
  have herase : FMap.erase (FMap.set d m k v) k = FMap.erase m k := by
    have htwice : FMap.erase (FMap.erase m k) k = FMap.erase m k := by simp only [FMap.erase, List.filter_filter, Bool.and_self]
    unfold FMap.set
    split
    · exact htwice
    · rw [FMap.erase_ins_self, htwice]
  unfold FMap.set at herase ⊢
  rw [herase]

/-- A write of a store window takes the place of an earlier one. -/
theorem State.setWindow_setWindow_self (s : State) (w : Nat) (x y : StoreWindow) : (s.setWindow w x).setWindow w y = s.setWindow w y := by
  simp only [State.setWindow, FMap.set_set_self]

/-- R315: an enabled window is asked to drain, or to abandon. -/
theorem swDisable_enabled {w : Fin 16} {abandon : Bool} {unsent : List CtxKey} {s : State}
    (henabled : (s.window w.val).state = .enabled) :
    swDisable w abandon unsent s =
      (let s1 := s.setWindow w.val { s.window w.val with state := .disabling, enable := false, abandon := abandon, mode := abandon }
       (if abandon then (unsent.foldl (fun a k => a.abandonWindowReq w.val k) s1).sendOthers w.val unsent else s1).settleWindows) := by
  simp only [swDisable, State.disableWindow, State.window_setWindow, State.setWindow_setWindow_self, henabled, reduceCtorEq, if_true, if_false]

/-- Settles O37: each write acts at once in the host's turn (`exec_acts_of_inTurn`); what one of JCP.EPOCH does turns on JCP.STATE and the
power state, and one of an acknowledgement or a quota on its bounds. -/
theorem hostPageWritesComplete : Obligations.HostPageWritesComplete := by
  unfold Obligations.HostPageWritesComplete
  refine ⟨?epoch, ?jobEvents, ?moduleEvents, ?enable, ?disable, ?ack, ?tolerance, ?quota⟩
  case epoch =>
    intro p v s hfree k s1
    rw [exec_acts_of_inTurn rfl hfree]
    exact ⟨fun hle => congrArg _ (if_pos hle), fun hlt hstate => congrArg _ (epochWrite_stored hlt hstate),
      fun hlt hrunning hrun => congrArg _ (epochWrite_running hlt hrunning hrun)⟩
  case jobEvents =>
    intro p v s hfree
    exact exec_acts_of_inTurn (f := eventEnableWrite (some p) v) rfl hfree
  case moduleEvents =>
    intro v s hfree
    exact exec_acts_of_inTurn (f := eventEnableWrite none v) rfl hfree
  case enable =>
    intro w s x hdisabled hfree
    rw [exec_acts_of_inTurn rfl hfree]
    exact congrArg _ (if_pos hdisabled)
  case disable =>
    intro w abandon unsent s x henabled hfree
    rw [exec_acts_of_inTurn rfl hfree]
    exact congrArg _ (swDisable_enabled henabled)
  case ack =>
    intro p half w s j v hback hbeyond hfree
    rw [exec_acts_of_inTurn rfl hfree]
    refine congrArg _ (if_neg ?_)
    simp only [Bool.or_eq_true, decide_eq_true_eq]
    exact not_or_intro hback hbeyond
  case tolerance =>
    intro p v s hfree
    exact exec_acts_of_inTurn (f := latTolWrite p v) rfl hfree
  case quota =>
    intro p port v s x hfits hfree
    rw [exec_acts_of_inTurn rfl hfree]
    exact congrArg _ (if_neg (Nat.not_lt.mpr hfits))

end Sys2Proof.Machine
end

section
/-! SUPPORT. The copying side of a snapshot (12 R320 to R335). -/

namespace Sys2Proof.Machine

theorem exec_frameCopied (t : TowerId) (g : Fin 49152) (bad : Option (Fin 32768)) (s : State) :
    exec (.frameCopied t g bad) s = .next (frameCopied t g bad s) := rfl

theorem exec_snapshotPoint (p : PartId) (s : State) : exec (.snapshotPoint p) s = .next (snapshotPoint p s) := rfl

theorem exec_copyBudgetExpire (p : PartId) (begun : List Nat) (s : State) :
    exec (.copyBudgetExpire p begun) s = .next (copyBudgetExpire p begun s) := rfl

theorem exec_rideDigest (p : PartId) (i : Nat) (s : State) : exec (.rideDigest p i) s = .next (rideDigest p i s) := rfl

theorem exec_snapCommitted (p : PartId) (i : Nat) (s : State) : exec (.snapCommitted p i) s = .next (snapCommitted p i s) := rfl

theorem exec_snapDone (p : PartId) (i : Nat) (s : State) : exec (.snapDone p i) s = .next (snapDone p i s) := rfl

theorem exec_snapAbort (p : PartId) (i : Nat) (s : State) : exec (.snapAbort p i) s = .next (snapAbort p i s) := rfl

/-- Nothing of a list stands before its head. -/
theorem takeWhile_ne_head {l : List Nat} {i : Nat} (hhead : l.head? = some i) : l.takeWhile (fun q => decide (q ≠ i)) = [] := by
  obtain ⟨t, rfl⟩ := List.head?_eq_some_iff.mp hhead
  simp

/-- Settles O28: the page heads its copier's queue, so that none is ahead of it, and no line of the frame is poisoned. -/
theorem frameCopiedCompletes : Obligations.FrameCopiedCompletes := by
  unfold Obligations.FrameCopiedCompletes
  dsimp only
  refine ⟨?copied, ?free⟩
  case copied =>
    intro t g s r x i hprot _ hcopy hplan hfound hhead hclean
    have hpoison : ([0, 1].findSome? fun b =>
        ((s.chan (32 * t.val + 2 * (g.val / 3072) + b)).poisoned.find? fun a => decide (a / 2 ^ 20 = g.val % 3072)).map
          fun a => (32 * t.val + 2 * (g.val / 3072) + b, a)) = none := by
      simp only [List.findSome?_eq_none_iff, Option.map_eq_none_iff, List.find?_eq_none, decide_eq_true_eq]
      exact hclean
    simp only [exec_frameCopied, frameCopied, hprot, hcopy, hplan, hfound, takeWhile_ne_head hhead, List.any_nil, Bool.false_eq_true,
      if_false, hpoison]
  case free =>
    intro t g bad s hprot _ hcopy
    simp only [exec_frameCopied, frameCopied, hprot, hcopy]

/-- Settles O38: the delivered packet is of the kind that the command takes and of the copy in progress, the budget's core counts, and the
snapshot that is due begins where its page may be written, or is skipped. -/
theorem snapshotCommandsComplete : Obligations.SnapshotCommandsComplete := by
  unfold Obligations.SnapshotCommandsComplete
  dsimp only
  refine ⟨?point, ?budget, ?digest, ?committed, ?done, ?abort⟩
  case point =>
    intro p s step x hrest hdue hplan
    refine ⟨fun hgoes haccess => ?_, fun r hskips => ?_⟩
    · simp only [exec_snapshotPoint, snapshotPoint, hrest, hdue, hplan, hgoes, s.whenAccess_full _ _ _ haccess, Bool.not_true,
        Bool.false_eq_true, if_false]
    · simp only [exec_snapshotPoint, snapshotPoint, hrest, hdue, hplan, hskips, Bool.not_true, Bool.false_eq_true, if_false]
  case budget =>
    intro p begun s hruns
    simp only [exec_copyBudgetExpire, copyBudgetExpire, hruns, Bool.false_eq_true, if_false]
  case digest =>
    intro p i s x hpacket hkind
    simp only [exec_rideDigest, rideDigest, hpacket, hkind, ne_eq, not_true_eq_false, if_false, Bool.and_eq_true, decide_eq_true_eq,
      List.contains_iff_mem]
  case committed =>
    intro p i s x r hpacket hkind hcopy hid hsealed
    simp only [exec_snapCommitted, snapCommitted, hpacket, hkind, hcopy, hid, hsealed, ne_eq, not_true_eq_false, Bool.not_true,
      decide_false, Bool.or_self, Bool.false_eq_true, if_false]
  case done =>
    intro p i s x hpacket hkind
    simp only [exec_snapDone, snapDone, hpacket, hkind, ne_eq, not_true_eq_false, if_false]
  case abort =>
    intro p i s x r hpacket hkind hcopy hid hsrc hnone
    have hown : (decide (r.id = (Ctl.ofBytes x.payload).id) && decide (x.src = s.partnerOf p.val)) = true := by
      rw [Bool.and_eq_true, decide_eq_true_eq, decide_eq_true_eq]
      exact ⟨hid, hsrc⟩
    simp only [exec_snapAbort, snapAbort, hpacket, hkind, hcopy, hown, hnone, ne_eq, not_true_eq_false, if_false, if_true]

end Sys2Proof.Machine
end

section
/-! SUPPORT. The holder of a partner's snapshot (12 R322, R331, R333, R335, R339). -/

namespace Sys2Proof.Machine

theorem exec_snapOpen (p : PartId) (i : Nat) (s : State) : exec (.snapOpen p i) s = .next (snapOpen p i s) := rfl

theorem exec_pageData (p : PartId) (i : Nat) (s : State) : exec (.pageData p i) s = .next (pageData p i s) := rfl

theorem exec_snapManifest (p : PartId) (i : Nat) (s : State) : exec (.snapManifest p i) s = .next (snapManifest p i s) := rfl

theorem exec_rideData (p : PartId) (i : Nat) (s : State) : exec (.rideData p i) s = .next (rideData p i s) := rfl

theorem exec_snapSeal (p : PartId) (i : Nat) (s : State) : exec (.snapSeal p i) s = .next (snapSeal p i s) := rfl

/-- R331, R333: the holder takes a delivered packet of the command's kind in the slot opened for its snapshot. -/
theorem State.holderTake_opened {s : State} {p i k : Nat} {x : Packet} {y : SnapPlan} {kind : BitVec 3}
    (f : State → Nat → SnapPlan → Sn → Packet → State) (hpacket : s.rxAt p i 4 = some x)
    (hopened : s.openSlot p (Sn.ofBytes x.payload).id x.src = some k) (hplan : s.plan p = some y)
    (hkind : (Sn.ofBytes x.payload).kind = kind) : s.holderTake p i kind f = f (s.dropRx i) k y (Sn.ofBytes x.payload) x := by
  simp only [State.holderTake, hpacket, hopened, hplan, hkind, ne_eq, not_true_eq_false, if_false]

/-- Settles O39: the partner's SNAP_OPEN fits and meets no pin; a packet for the slot opened is taken in it
(`State.holderTake_opened`). -/
theorem holderCommandsComplete : Obligations.HolderCommandsComplete := by
  unfold Obligations.HolderCommandsComplete
  dsimp only
  refine ⟨?opened, ?pieces, ?sealed⟩
  case opened =>
    intro p i s x y hpacket hkind hplan hsrc hroom hpin
    simp only [exec_snapOpen, snapOpen, hpacket, hkind, hplan, hsrc, Nat.not_lt.mpr hroom, hpin, ne_eq, not_true_eq_false,
      Bool.false_eq_true, if_false]
  case pieces =>
    intro p i s x k y hpacket hslot hplan
    refine ⟨fun hkind => ?page, fun hkind hfits => ?manifest, fun hkind => ?ride⟩
    case page => simp only [exec_pageData, pageData, State.holderTake_opened _ hpacket hslot hplan hkind]
    case manifest =>
      have hwithin := Nat.not_lt.mpr hfits
      simp only [← Nat.add_assoc] at hwithin
      simp only [exec_snapManifest, snapManifest, State.holderTake_opened _ hpacket hslot hplan hkind, ← Nat.add_assoc, hwithin,
        if_false]
    case ride => simp only [exec_rideData, rideData, State.holderTake_opened _ hpacket hslot hplan hkind]
  case sealed =>
    intro p i s x k hpacket hkind hslot
    simp only [exec_snapSeal, snapSeal, hpacket, hkind, hslot, ne_eq, not_true_eq_false, if_false]

end Sys2Proof.Machine
end

section
/-! SUPPORT. Fetches, and the flash and Serge tiers (12 R320, R341, R342, R345, R350, R352). -/

namespace Sys2Proof.Machine

theorem exec_snapFetch (p : PartId) (i : Nat) (s : State) : exec (.snapFetch p i) s = .next (snapFetch p i s) := rfl

theorem exec_fetchData (p : PartId) (i : Nat) (s : State) : exec (.fetchData p i) s = .next (fetchData p i s) := rfl

theorem exec_fetchEnd (p : PartId) (i : Nat) (s : State) : exec (.fetchEnd p i) s = .next (fetchEnd p i s) := rfl

theorem exec_fetchResend (p : PartId) (s : State) : exec (.fetchResend p) s = .next (fetchResend p s) := rfl

theorem exec_flashWriteComplete (p : PartId) (s : State) :
    exec (.flashWriteComplete p) s = .next (flashWriteComplete p s) := rfl

theorem exec_sergeSegmentWrite (p : PartId) (s : State) : exec (.sergeSegmentWrite p) s = .next (sergeSegmentWrite p s) := rfl

/-- R350: no restore fetches a snapshot where none has begun the fetch of it. -/
theorem Job.fetching_eq_none {j : Job} {id : BitVec 64} (hother : ∀ r, j.restore = some r → r.fetch.begun = false ∨ r.fetch.id ≠ id) :
    j.fetching id = none := by
  unfold Job.fetching
  split
  next r hr =>
    refine if_neg fun hmine => ?_
    obtain ⟨hbegun, hid⟩ := by simpa only [Bool.and_eq_true, decide_eq_true_eq] using hmine
    obtain h | h := hother r hr
    · rw [h] at hbegun; cases hbegun
    · exact h hid
  next => rfl

/-- R341: the flash snapshot under way fetches its own copy. -/
theorem Job.flashing_eq_some {j : Job} {f : FlashRun} (hflash : j.flash = some f) : j.flashing f.fetch.id = some f := by
  simp only [Job.flashing, hflash, if_true]

/-- Settles O40: the slot that holds the snapshot is its sender's; what is fetched goes to the flash snapshot where no restore fetches it
(`Job.fetching_eq_none`), and the next segment has its place in the window. -/
theorem fetchCommandsComplete : Obligations.FetchCommandsComplete := by
  unfold Obligations.FetchCommandsComplete
  dsimp only
  refine ⟨?fetch, ?data, ?ended, ?resend, ?flash, ?serge⟩
  case fetch =>
    intro p i s x k y hpacket hkind hplan hslot hmember hpin
    simp only [exec_snapFetch, snapFetch, hpacket, hkind, hplan, hslot, hmember, hpin, ne_eq, not_true_eq_false, decide_false,
      Bool.false_and, Bool.or_self, Bool.false_eq_true, if_false]
  case data =>
    intro p i s x f ft hpacket hkind hflash hother hid
    have hflashing : (s.part p.val).job.flashing (Sn.ofBytes x.payload).id = some f := hid ▸ Job.flashing_eq_some hflash
    refine ⟨fun hpiece => ?_, fun pg hwhole hfits => ?_⟩
    · simp only [exec_fetchData, fetchData, hpacket, hkind, Job.fetching_eq_none hother, hflashing, State.flashTake, hpiece,
        ne_eq, not_true_eq_false, if_false]
    · simp only [exec_fetchData, fetchData, hpacket, hkind, Job.fetching_eq_none hother, hflashing, State.flashTake, hwhole, hfits,
        ne_eq, not_true_eq_false, if_false, if_true]
  case ended =>
    intro p i s x f hpacket hkind hflash hother hid hstatus
    have hflashing : (s.part p.val).job.flashing (Ctl.ofBytes x.payload).id = some f := hid ▸ Job.flashing_eq_some hflash
    simp only [exec_fetchEnd, fetchEnd, hpacket, hkind, Job.fetching_eq_none hother, hflashing, hstatus, ne_eq, not_true_eq_false,
      if_false]
  case resend =>
    intro p s r hrestore hbegun hopen hleft
    simp only [exec_fetchResend, fetchResend, hrestore, hbegun, hopen, Nat.not_le.mpr hleft, Option.isSome_none, Bool.not_true,
      decide_false, Bool.or_self, Bool.false_eq_true, if_false]
  case flash =>
    intro p s f m hflash hmanifest hall hended
    have hcome : f.fetch.ended.isNone = false := Option.isNone_eq_false_iff.mpr (Option.isSome_iff_ne_none.mpr hended)
    simp only [exec_flashWriteComplete, flashWriteComplete, hflash, hmanifest, hall, hcome, Bool.not_true, Bool.or_self,
      Bool.false_eq_true, if_false]
  case serge =>
    intro p s r hrun hslots hroom htakes
    simp only [exec_sergeSegmentWrite, sergeSegmentWrite, hrun, hslots, hroom, htakes, decide_false, decide_true, Bool.not_true,
      Bool.or_self, Bool.false_eq_true, if_false]

end Sys2Proof.Machine
end

section
/-! SUPPORT. Rejoin and restore (12 R343, R346, R350 to R353). -/

namespace Sys2Proof.Machine

theorem exec_rejoin (p : PartId) (i : Nat) (s : State) : exec (.rejoin p i) s = .next (rejoin p i s) := rfl

theorem exec_rejoinLate (p : PartId) (i : Nat) (s : State) : exec (.rejoinLate p i) s = .next (rejoinLate p i s) := rfl

theorem exec_snapRestore (p : PartId) (muslin : Option HeaderArea) (flashSig : Option (List Byte)) (serge : Option SergeCopy) (s : State) :
    exec (.snapRestore p muslin flashSig serge) s = .next (snapRestore p muslin flashSig serge s) := rfl

theorem exec_restoreComplete (p : PartId) (s : State) : exec (.restoreComplete p) s = .next (restoreComplete p s) := rfl

/-- R350: a restore whose fetch has brought the manifest ends with the pages that the flash and the store window yield. -/
theorem snapRestore_ends {p : PartId} (muslin : Option HeaderArea) (flashSig : Option (List Byte)) (serge : Option SergeCopy) {s : State}
    {r : Restore} (hrestore : (s.part p.val).job.restore = some r) (hdone : r.done = false) (hbegun : r.fetch.begun = true)
    (hall : r.fetch.all = true) : snapRestore p muslin flashSig serge s = s.endRestore p.val r flashSig serge := by
  simp only [snapRestore, hrestore, hdone, hbegun, hall, Bool.or_true, Bool.true_or, Bool.not_true, Bool.false_eq_true, if_false, if_true]

/-- Settles O41: the delivered packet is of the command's kind, a restore begins with a header area that its checks accept, ends with the
pages that the flash and the store window yield, and completes once they are in place. -/
theorem rejoinAndRestoreComplete : Obligations.RejoinAndRestoreComplete := by
  unfold Obligations.RejoinAndRestoreComplete
  refine ⟨?rejoin, ?late, ?begins, ?ends, ?complete⟩
  case rejoin =>
    intro p i s x c hpacket hkind
    simp only [c] at hkind
    simp only [exec_rejoin, rejoin, hpacket, hkind, ne_eq, not_true_eq_false, if_false, c]
  case late =>
    intro p i s x st c hpacket hkind hgone hlate
    simp only [c] at hkind hlate
    simp only [exec_rejoinLate, rejoinLate, hpacket, hkind, hgone, BitVec.not_lt.mpr hlate, ne_eq, not_true_eq_false, if_false, c]
  case begins =>
    intro p h flashSig serge s r m hrestore hdone hroll hbegun hpartner hwaits hgood hfits
    simp only [exec_snapRestore, snapRestore, hrestore, hdone, hbegun, hwaits, State.beginRestore, hroll, hpartner, hgood, hfits,
      Option.map_some, Bool.not_true, Bool.not_false, Bool.false_eq_true, if_false, if_true] <;> rfl
  case ends =>
    intro p muslin flashSig serge s s1 r m slot takes store hrestore hdone hbegun hall hmanifest hparse hfits hpages
    have hgiven : (!r.fetch.manifest.isEmpty) = true := by simpa using hmanifest
    rw [exec_snapRestore, snapRestore_ends muslin flashSig serge hrestore hdone hbegun hall]
    simp only [State.endRestore, hgiven, hparse, hfits, if_true, Bool.not_true, Bool.false_eq_true, if_false]
    simp only [slot, store, takes] at hpages
    cases serge with
    | none => simp only [hpages]
    | some c =>
      cases hgood : c.header.good s.fw r.fetch.id 3 with
      | none =>
        simp only [hgood] at hpages
        simp only [hgood, hpages]
      | some q =>
        simp only [hgood] at hpages
        split at hpages
        next hroom => simp only [hgood, hroom, if_true, hpages]
        next hroom => simp only [hgood, hroom, Bool.false_eq_true, if_false, hpages]
  case complete =>
    intro p s r x j hrestore hplan hdone hroll
    simp only [j] at hrestore
    simp only [exec_restoreComplete, restoreComplete, hrestore, hplan, hdone, hroll, Bool.not_true, Bool.false_eq_true, if_false] <;> rfl

end Sys2Proof.Machine
end

section
/-! SUPPORT. The sources of a reset (13 R358 to R362, 14 R379, 19 R465 to R469). -/

namespace Sys2Proof.Machine

theorem exec_powerOn (v12 : InputVolts) (s : State) : exec (.powerOn v12) s = .next (powerOn v12 s) := rfl

theorem exec_brownOut (x : Input48) (s : State) : exec (.brownOut x) s = .next (brownOut x s) := rfl

theorem exec_mrstN (n : Nat) (s : State) : exec (.mrstN n) s = .next (mrstN n s) := rfl

theorem exec_watchdogExpire (u : Fin 39) (cycles : Nat) (s : State) :
    exec (.watchdogExpire u cycles) s = .next (watchdogExpire u cycles s) := rfl

theorem exec_watchdogRestart (u : Fin 39) (s : State) : exec (.watchdogRestart u) s = .next (watchdogRestart u s) := rfl

theorem exec_rstSwRequest_control (x : Reach) (s : State) :
    exec (.rstSwRequest (.control x)) s = .next (rstSwRequest (.control x) s) := rfl

theorem exec_debugRequest (r : DbgRequest) (s : State) : exec (.debugRequest r) s = .next (debugRequest r s) := rfl

theorem exec_trstN (low : Bool) (s : State) : exec (.trstN low) s = .next (trstN low s) := rfl

theorem exec_controlCoreLockup (u : Fin 78) (s : State) : exec (.controlCoreLockup u) s = .next (controlCoreLockup u s) := rfl

theorem exec_sourceRelease (src : RstSource) (r : Reach) (x : InputPair) (s : State) :
    exec (.sourceRelease src r x) s = .next (sourceRelease src r x s) := rfl

/-- R469: a low pulse of 1 µs or longer is taken. -/
theorem pulseTaken_of_long {ns : Nat} (n : Nat) (hlong : 1000 ≤ ns) : pulseTaken ns n = true := by
  simp only [pulseTaken, hlong, decide_true, Bool.true_or]

/-- R469: no low pulse shorter than 100 ns is taken. -/
theorem pulseTaken_of_short {ns : Nat} (n : Nat) (hshort : ns < 100) : pulseTaken ns n = false := by
  simp only [pulseTaken, Nat.not_le.mpr hshort, show ¬ 1000 ≤ ns by omega, decide_false, Bool.false_and, Bool.or_self]

/-- R358: the lockup of a control core of a die reaches the die. -/
theorem controlCoreLockup_of_die {u : Fin 78} {s : State} {d : Nat} (hcluster : clusterOfCore u.val = d)
    (hruns : s.clusterStopped d = false) (hlive : s.ctlHalted u.val = false) (hdie : d < 36) :
    controlCoreLockup u s = s.assertReset .lockup (.die ⟨d, hdie⟩) := by
  subst hcluster
  simp only [clusterOfCore] at hruns hdie
  simp only [controlCoreLockup, clusterOfCore, hruns, hlive, hdie, Bool.or_self, Bool.false_eq_true, if_false, dite_true]

/-- R358: the lockup of the management core reaches the module at power-on, that of another of the hub's cores at module-warm. -/
theorem controlCoreLockup_of_hub {u : Fin 78} {s : State} {d : Nat} (hcluster : clusterOfCore u.val = d)
    (hruns : s.clusterStopped d = false) (hlive : s.ctlHalted u.val = false) (hhub : ¬ d < 36) :
    controlCoreLockup u s = s.assertReset .lockup (if u.val = 77 then .powerOn else .warm) := by
  subst hcluster
  simp only [clusterOfCore] at hruns hhub
  simp only [controlCoreLockup, hruns, hlive, hhub, Bool.or_self, Bool.false_eq_true, if_false, dite_false]
  split <;> rfl

/-- Settles O42: each source asserts where its input, its pulse, its count or its key says so, a control core by its cluster (`clusterOfCore`),
and a source releases once its input is good. -/
theorem resetSourcesComplete : Obligations.ResetSourcesComplete := by
  unfold Obligations.ResetSourcesComplete
  dsimp only
  refine ⟨?powerOn, ?brownOut, ?mrst, ?expires, ?restarts, ?hostRequest, ?controlRequest, ?pin, ?jtag, ?trst, ?lockup, ?released,
    ?released48, ?halt, ?shift, ?released12⟩
  case powerOn =>
    intro v12 s hbelow
    simp only [exec_powerOn, powerOn, hbelow, Bool.not_true, Bool.false_eq_true, if_false]
  case brownOut =>
    intro x s hgood hbad
    have hasserts : (!x.volts.below 5801 || x.volts.below 4000) = true := by
      simpa only [Bool.or_eq_true, Bool.not_eq_true', or_comm] using hbad
    simp only [exec_brownOut, brownOut, hgood, hasserts, Bool.not_true, Bool.or_self, Bool.false_eq_true, if_false]
  case mrst =>
    intro n s hpresent
    refine ⟨fun hlong => ?_, fun hshort => ?_⟩
    · simp only [exec_mrstN, mrstN, hpresent, pulseTaken_of_long _ hlong, Bool.not_true, Bool.false_eq_true, if_false, if_true, State.drawn]
    · simp only [exec_mrstN, mrstN, hpresent, pulseTaken_of_short _ hshort, Bool.not_true, Bool.false_eq_true, if_false, State.drawn]
  case expires =>
    intro u cycles s hruns hlive
    simp only [exec_watchdogExpire, watchdogExpire, hruns, hlive, Bool.or_self, Bool.false_eq_true, if_false]
  case restarts => exact exec_watchdogRestart
  case hostRequest =>
    intro w x s hkey hcode hreach hfree
    rw [exec_acts_of_inTurn rfl hfree]
    simp only [rstSwRequest, hkey, hcode, hreach, and_self, if_true]
  case controlRequest =>
    intro x s hcode
    rw [exec_rstSwRequest_control, rstSwRequest, if_pos hcode]
  case pin =>
    intro n x s hpresent hlong hreach
    simp only [exec_debugRequest, debugRequest, hpresent, pulseTaken_of_long _ hlong, hreach, Bool.not_true, Bool.false_eq_true, if_false,
      if_true, State.drawn]
  case jtag =>
    intro v x s hpresent hhigh hreach
    simp only [exec_debugRequest, debugRequest, hpresent, hhigh, hreach, Bool.not_true, Bool.false_eq_true, if_false]
  case trst => exact exec_trstN
  case lockup =>
    intro u s hlive
    refine ⟨fun hlow hruns hdie => ?_, fun hlow hhigh hruns hdie => ?_, fun hlow hhigh hruns36 hruns37 => ?_, fun hlast hruns => ?_⟩
    · have hcluster : clusterOfCore u.val = u.val / 2 := if_pos hlow
      rw [exec_controlCoreLockup, controlCoreLockup_of_die hcluster hruns hlive hdie]
    · have hcluster : clusterOfCore u.val = 32 + (u.val - 64) / 2 := by
        rw [clusterOfCore, if_neg (by omega), if_pos hhigh]
      rw [exec_controlCoreLockup, controlCoreLockup_of_die hcluster hruns hlive hdie]
    · have hcluster : clusterOfCore u.val = 36 ∨ clusterOfCore u.val = 37 := by
        unfold clusterOfCore
        split_ifs <;> omega
      have hwarm : (if u.val = 77 then Reach.powerOn else .warm) = .warm := if_neg (by omega)
      obtain h | h := hcluster
      · rw [exec_controlCoreLockup, controlCoreLockup_of_hub h hruns36 hlive (by decide), hwarm]
      · rw [exec_controlCoreLockup, controlCoreLockup_of_hub h hruns37 hlive (by decide), hwarm]
    · have hcluster : clusterOfCore u.val = 38 := by rw [hlast]; rfl
      rw [exec_controlCoreLockup, controlCoreLockup_of_hub hcluster hruns hlive (by decide), if_pos hlast]
  case released =>
    intro src r x s h12 h48
    cases src
    case powerOn => exact absurd rfl h12
    case brownOut => exact absurd rfl h48
    all_goals rfl
  case released48 =>
    intro r x s hclosed hgood
    simp only [exec_sourceRelease, sourceRelease, hclosed, hgood, Bool.not_true, Bool.or_self, Bool.false_eq_true, if_false]
  case halt =>
    intro k on s hpresent hhigh hopen
    have hallowed : (on && !s.debugOpen) = false := by
      cases on with
      | false => rfl
      | true => rw [hopen rfl]; rfl
    simp only [exec_debugRequest, debugRequest, hpresent, hhigh, hallowed, Bool.not_true, Bool.or_self, Bool.false_eq_true, if_false]
  case shift =>
    intro on s hpresent hhigh
    simp only [exec_debugRequest, debugRequest, hpresent, hhigh, Bool.not_true, Bool.false_eq_true, if_false]
  case released12 =>
    intro r x s hbad hpresent hgood hfall hclosed hnormal
    simp only [exec_sourceRelease, sourceRelease, hbad, hpresent, hgood, hfall, hclosed, hnormal, Bool.not_true, Bool.or_self,
      Bool.false_eq_true, if_false]

end Sys2Proof.Machine
end

section
/-! SUPPORT. The first phases of the exit sequence, and the clocks (13 R363 to R370). -/

namespace Sys2Proof.Machine

theorem exec_managementStart (s : State) : exec .managementStart s = .next (managementStart s) := rfl

theorem exec_clockStart (r : Reach) (s : State) : exec (.clockStart r) s = .next (clockStart r s) := rfl

theorem exec_strapSample (boot clk : BitVec 2) (s : State) : exec (.strapSample boot clk) s = .next (strapSample boot clk s) := rfl

theorem exec_optionLoading (n : Fin 3) (got : Bool) (s : State) : exec (.optionLoading n got) s = .next (optionLoading n got s) := rfl

theorem exec_hubStart (s : State) : exec .hubStart s = .next (hubStart s) := rfl

theorem exec_clockFailure (c : ClockSource) (u : List (Fin 16 × CtxKey)) (s : State) :
    exec (.clockFailure c u) s = .next (clockFailure c u s) := rfl

theorem exec_refclkReturn (s : State) : exec .refclkReturn s = .next (refclkReturn s) := rfl

/-- R391: a selector that is not on trial is left as it is. -/
theorem State.trialBoot_of_settled {s : State} (hsettled : s.fw.selector.trial = false) : s.trialBoot = s := by
  simp only [State.trialBoot, hsettled, Bool.not_false, if_true]

/-- R367, R392: a slot that passes its checks runs. -/
theorem State.trySlot_good {s : State} (e : Episode) {slot : Bool} (hsettled : s.fw.selector.trial = false)
    (hgood : s.fw.slotCheck (s.fw.slots.get {} (slotKey slot)) = none) :
    s.trySlot e slot false =
      s.hubRuns e (s.fw.slots.get {} (slotKey slot)).image (BitVec.ofNat 2 (slotKey slot)) false := by
  have hsame : s.setRst { s.rst with fallback := s.rst.fallback || false } = s := by rw [Bool.or_false]; rfl
  simp only [State.trySlot, hsame, hgood, hsettled, Bool.false_and]

/-- HUB_START's registers of the boot as the first try of an exit leaves them (R367). -/
def State.bootBegun (s : State) : State := s.setRst { s.rst with bootFail := 0, fallback := false, recoveryWait := false }

/-- R367: the first try of an exit under STRAP_BOOT = 00 runs the slot that a settled selector names, where it passes its checks. -/
theorem hubStart_firstTry {s : State} {e : Episode} (hexit : s.exiting .hubStart Reach.hub = some e) (hleft : e.waiting = false)
    (hpowered : s.hubPowered e = true) (hfirst : e.tried = []) (hroot : digestOf s.fw.rootKey = s.fw.loaded.rootHash) (hstrap : s.rst.strapBoot = 0)
    (hsettled : s.bootBegun.fw.selector.trial = false)
    (hgood : s.bootBegun.fw.slotCheck (s.bootBegun.fw.slots.get {} (slotKey s.bootBegun.fw.selector.slot)) = none) :
    hubStart s = s.bootBegun.hubRuns e (s.bootBegun.fw.slots.get {} (slotKey s.bootBegun.fw.selector.slot)).image
      (BitVec.ofNat 2 (slotKey s.bootBegun.fw.selector.slot)) false := by
  have hcode : s.rst.strapBoot.toNat = 0 := congrArg BitVec.toNat hstrap
  have hbegun : s.setRst { s.rst with bootFail := 0, fallback := false, recoveryWait := false } = s.bootBegun := rfl
  simp only [hubStart, hexit, hleft, hpowered, hfirst, hroot, hcode, hbegun, List.isEmpty_nil, List.contains_nil, Bool.not_true, Bool.or_self,
    Bool.false_eq_true, if_false, if_true, ne_eq, not_true_eq_false, State.trialBoot_of_settled hsettled, State.trySlot_good e hsettled hgood]

/-- Settles O43: management start, clocks, straps and options each stand in their phase; the first try of a settled selector runs the named slot;
a clock's failure asserts the reach of what it feeds. -/
theorem exitSequenceBeginsAndClockCommands : Obligations.ExitSequenceBeginsAndClockCommands := by
  unfold Obligations.ExitSequenceBeginsAndClockCommands
  dsimp only
  refine ⟨⟨?management, ?clock, ?straps, ?options, ?hub⟩, ?failure, ?refclk⟩
  case management =>
    intro s hgood hnone hdown
    have hreleased : (s.rst.episodes.any fun e => e.asserted.any fun x => decide (x.2 = .powerOn)) = false := by
      simpa only [List.any_eq_false, List.any_eq_true, decide_eq_true_eq, not_exists, not_and] using hnone
    simp only [exec_managementStart, managementStart, hgood, hreleased, hdown, Bool.not_false, Bool.and_self, if_true]
  case clock =>
    intro r s e hexit
    simp only [exec_clockStart, clockStart, hexit]
  case straps =>
    intro boot clk s e hexit
    simp only [exec_strapSample, strapSample, hexit]
  case options =>
    intro n s e hexit hlive
    refine ⟨fun hread => ?_, fun hread => ?_, ?_⟩
    · simp only [exec_optionLoading, optionLoading, hexit, hlive, hread, Bool.and_self, Bool.or_true, Bool.not_true, Bool.false_eq_true,
        if_false, if_true, State.setRst]
    · simp only [exec_optionLoading, optionLoading, hexit, hlive, hread, Bool.and_false, Bool.or_false, Bool.not_false, Bool.false_eq_true,
        if_false, if_true]
    · simp only [exec_optionLoading, optionLoading, hexit, hlive, Bool.false_and, Bool.or_false, Bool.not_false, Bool.false_eq_true,
        if_false, if_true]
  case hub =>
    intro s e hexit hleft hpowered hfirst hroot hstrap hsettled hgood
    exact congrArg Host.Outcome.next (hubStart_firstTry hexit hleft hpowered hfirst hroot hstrap hsettled hgood)
  case failure =>
    intro u s
    refine ⟨fun hstrap => ?_, fun hstrap => ?_, fun hstrap => ?_, rfl, rfl, fun i => rfl⟩
    · have hclk : s.rst.strapClk.toNat ≠ 1 := fun h => hstrap (BitVec.eq_of_toNat_eq h)
      simp only [exec_clockFailure, clockFailure, hclk, if_false]
    · have hclk : s.rst.strapClk.toNat = 1 := congrArg BitVec.toNat hstrap
      simp only [exec_clockFailure, clockFailure, hclk, if_true]
    · have hclk : s.rst.strapClk.toNat = 2 := congrArg BitVec.toNat hstrap
      simp only [exec_clockFailure, clockFailure, hclk, OfNat.ofNat_ne_one, if_false, if_true, State.refclkFails]
  case refclk =>
    intro s hstrap hlost
    simp only [exec_refclkReturn, refclkReturn, hstrap, hlost, if_true]

end Sys2Proof.Machine
end

section
/-! SUPPORT. The last phases of the exit sequence (13 R367 to R373). -/

namespace Sys2Proof.Machine

theorem exec_configurationRead (x : ConfigNor) (s : State) : exec (.configurationRead x) s = .next (configurationRead x s) := rfl

theorem exec_bringUp (d : Fin 36) (s : State) : exec (.bringUp d) s = .next (bringUp d s) := rfl

theorem exec_islandExit (i : Island) (s : State) : exec (.islandExit i) s = .next (islandExit i s) := rfl

theorem exec_moduleReady (c0 c1 : Option (Fin 2097153)) (s : State) : exec (.moduleReady c0 c1) s = .next (moduleReady c0 c1 s) := rfl

/-- ISLAND_EXIT of a channel takes its dies out of self-refresh, in which a standing trip keeps them (Table 13.5). -/
theorem islandExit_channel {k : Fin 1024} {s : State} {e : Episode}
    (hexit : s.exiting .islandExit (fun r => decide (r = .island (.channel k))) = some e) :
    islandExit (.channel k) s =
      ((s.setChan k.val { s.chan k.val with selfRef := s.tripped (chanTower k.val) }).takeTrims
        (fun n => decide (n = (Island.channel k).number))).endEpisode e := by
  unfold islandExit
  rw [hexit]

/-- ISLAND_EXIT of an island that is no channel gives it its trims alone (R363). -/
theorem islandExit_of_not_channel {i : Island} {s : State} {e : Episode} (hother : ∀ k, i ≠ .channel k)
    (hexit : s.exiting .islandExit (fun r => decide (r = .island i)) = some e) :
    islandExit i s = (s.takeTrims (fun n => decide (n = i.number))).endEpisode e := by
  unfold islandExit
  rw [hexit]
  dsimp only
  split
  case h_1 k => exact absurd rfl (hother k)
  case h_2 => rfl

/-- R367, R369: an image that passes its checks runs where an exit waits for one. -/
theorem State.takeImage_waited {s : State} {x : FwSupply} {e : Episode} (src : BitVec 2) (hgood : s.fw.supplyCheck x = none)
    (hexit : s.exiting .hubStart Reach.hub = some e) (hwaits : e.waiting = true) :
    s.takeImage x src = (s.hubRuns e x.image src false, none) := by
  simp only [State.takeImage, hgood, hexit, hwaits, if_true]

/-- BOOT_GO in recovery wait, or under STRAP_BOOT = 10, of a length in range takes the image (R369). -/
theorem bootGo_takes {x : FwSupply} {s : State} {e : Episode} (hopen : s.rst.strapBoot = 2 ∨ s.rst.recoveryWait = true) (hsome : s.rst.bootLen ≠ 0)
    (hmost : s.rst.bootLen.toNat ≤ 33554432) (hgood : s.fw.supplyCheck (x.upTo s.rst.bootLen.toNat) = none)
    (hexit : s.exiting .hubStart Reach.hub = some e) (hwaits : e.waiting = true) :
    bootGo x s =
      (let s1 := s.hubRuns e (x.upTo s.rst.bootLen.toNat).image 2 false
       s1.setRst { s1.rst with bootStatus := 2 }) := by
  have htaken : (!(decide (s.rst.strapBoot = 2) || s.rst.recoveryWait)) = false := by
    simpa only [Bool.not_eq_false', Bool.or_eq_true, decide_eq_true_eq] using hopen
  have hlen : ¬ (s.rst.bootLen = 0 ∨ 32 * 2 ^ 20 < s.rst.bootLen.toNat) := not_or.mpr ⟨hsome, by omega⟩
  unfold bootGo
  rw [if_neg (Bool.eq_false_iff.mp htaken), if_neg hlen, State.takeImage_waited 2 hgood hexit hwaits]

/-- Settles O44: each phase of the exit finds its episode and goes on from it; an acknowledged report and a waited image take effect in the
host's turn. -/
theorem exitSequenceEnds : Obligations.ExitSequenceEnds := by
  unfold Obligations.ExitSequenceEnds
  dsimp only
  refine ⟨?config, ?bringUp, ?island, ?ready, ?trained, ?acknowledge, ?boot⟩
  case config =>
    intro x s e hexit hctl hfac
    have hregion : (if decide (s.rst.bootSrc.toNat < 2) then s.fw.hub.ctlCheck else none) = none := by
      by_cases h : s.rst.bootSrc.toNat < 2
      · simp only [h, decide_true, if_true, hctl h]
      · simp only [h, decide_false, Bool.false_eq_true, if_false]
    simp only [exec_configurationRead, configurationRead, hexit, hregion, hfac, Option.isNone_none, if_true]
  case bringUp =>
    intro d s e hexit hbank hnew
    have hfresh : e.dies.contains d.val = false := by simpa only [Bool.eq_false_iff, ne_eq, List.contains_iff_mem] using hnew
    simp only [exec_bringUp, bringUp, hexit, hbank, hfresh, Bool.or_self, Bool.false_eq_true, if_false]
  case island =>
    intro i s e hexit
    refine ⟨fun k hk => ?_, fun hother => ?_⟩
    · subst hk
      exact congrArg Host.Outcome.next (islandExit_channel hexit)
    · exact congrArg Host.Outcome.next (islandExit_of_not_channel hother hexit)
  case ready =>
    intro s e hexit
    have hports : BitVec.ofNat 8 (4 * bitOf (none : Option (Fin 2097153)).isSome + 8 * bitOf (none : Option (Fin 2097153)).isSome) = 0 := rfl
    simp only [exec_moduleReady, moduleReady, hexit, hports]
  case trained =>
    intro n m s e hexit
    have hports : BitVec.ofNat 8 (4 * bitOf (some n).isSome + 8 * bitOf (some m).isSome) = 12 := rfl
    simp only [exec_moduleReady, moduleReady, hexit, hports]
  case acknowledge =>
    intro s hreport hfree
    rw [exec_acts_of_inTurn (f := recSnapAck) rfl hfree]
    simp only [recSnapAck, hreport, Bool.not_true, Bool.false_eq_true, if_false]
  case boot =>
    intro x s e hopen hsome hmost hfree hgood hexit hwaits
    rw [exec_acts_of_inTurn (f := bootGo x) rfl hfree, bootGo_takes hopen hsome hmost hgood hexit hwaits]

end Sys2Proof.Machine
end

section
/-! SUPPORT. The commands of FWU.CTRL and the token operations (14 R393 to R401). -/

namespace Sys2Proof.Machine

/-- R394: an image that passes its checks and fits is staged and written whole. -/
theorem State.writeSlot_passes {s : State} {x : FwSupply} {len : Nat} (hmost : len ≤ 33554432) (hgood : s.fw.supplyCheck x = none)
    (hfits : bitsAt x.image.bits 32 32 ≤ len) :
    s.writeSlot x len none =
      (let b := s.updateSlot
       let slots := s.fw.slots.set {} (slotKey b) ((s.fw.slots.get {} (slotKey b)).write x.image none)
       (s.setFw { s.fw with staged := some x.image, lastSlot := some b, slots := slots, state := .busy, lastCmd := 1 }).fwuDone 1) := by
  have hlen : ¬ 32 * 2 ^ 20 < len := by omega
  unfold State.writeSlot
  rw [if_neg hlen, hgood]
  dsimp only
  rw [if_neg (Nat.not_lt.mpr hfits), Option.isNone_none, if_pos rfl]

/-- R395: the slot written last, where it is committed, goes on trial. -/
theorem State.selectSlot_committed {s : State} {b : Bool} (hlast : s.fw.lastSlot = some b)
    (hcommitted : (s.fw.slots.get {} (slotKey b)).committed ≠ none) :
    s.selectSlot = (s.setFw (s.fw.writeSelector { s.fw.selector with slot := b, trial := true, trialLeft := 3 })).fwuDone 3 := by
  have hsome : (s.fw.slots.get {} (slotKey b)).committed.isNone = false := by
    simpa only [Option.isNone_eq_false_iff, Option.isSome_iff_ne_none] using hcommitted
  simp only [State.selectSlot, hlast, hsome, Bool.false_eq_true, if_false]

/-- R398: a management image that passes its checks is written in the slot not in use, which the selector then names. -/
theorem State.mgmtWrite_passes {s : State} {x : FwSupply} {len : Nat} (hmost : len ≤ 4194304)
    (hgood : s.fw.mgmtCheck { x.image with readError := x.image.readError || x.readError } (fcDigest x.commit) = none) :
    s.mgmtWrite x len none =
      (let i : FwImage := { x.image with readError := x.image.readError || x.readError }
       let b := !s.fw.selector.mgmtSlot
       let s1 := s.setFw { s.fw with
         mgmt := s.fw.mgmt.set {} (slotKey b) ((s.fw.mgmt.get {} (slotKey b)).write i none), state := .busy, lastCmd := 7 }
       (s1.setFw (s1.fw.writeSelector { s.fw.selector with mgmtSlot := b })).fwuDone 7) := by
  have hlen : ¬ 4 * 2 ^ 20 < len := by omega
  unfold State.mgmtWrite
  rw [if_neg hlen]
  dsimp only
  rw [hgood]
  dsimp only
  rw [Option.isSome_none, if_neg Bool.false_ne_true]

/-- R400: a token that passes its checks and its operation's condition is carried out. -/
theorem State.token_passes {s : State} {key : BitVec 8} {t : Token} {op cls : Nat} {hasKey ok : Bool} {f : Firmware} {r : OwnerRec}
    (htakes : s.fwuTakes key = true) (hgood : (s.fw.tokenCheck t op cls hasKey).1 = true) (hok : ok = true) :
    s.token key t op cls hasKey ok f r = s.tokenDone f r := by
  simp only [State.token, htakes, hgood, hok, Bool.not_true, Bool.and_self, Bool.false_eq_true, if_false, if_true]

/-- Settles O45: a taken command runs in the host's turn, and each runs to its result by the lemma of its operation. -/
theorem updateCommandsComplete : Obligations.UpdateCommandsComplete := by
  unfold Obligations.UpdateCommandsComplete
  intro key s hfree htakes
  refine ⟨?write, ?select, ?confirm, ?svn, ?mgmt, ?activate⟩
  case write =>
    intro x y hmost hgood hfits
    rw [exec_acts_of_inTurn (f := Sys2Proof.Machine.writeSlot key x none) rfl hfree, Sys2Proof.Machine.writeSlot, if_pos htakes,
      State.writeSlot_passes hmost hgood hfits]
  case select =>
    intro b hlast hcommitted
    rw [exec_acts_of_inTurn (f := fwuSelect key) rfl hfree, fwuSelect, if_pos htakes, State.selectSlot_committed hlast hcommitted]
  case confirm =>
    intro htrial hbooted
    rw [exec_acts_of_inTurn (f := fwuConfirm key) rfl hfree]
    simp only [fwuConfirm, htakes, htrial, hbooted, decide_true, Bool.and_self, Bool.not_true, Bool.false_eq_true, if_false]
  case svn =>
    intro hproduction hsettled
    have hsure : (s.fw.bootedTrial && !s.fw.confirmed) = false := by
      rcases hsettled with h | h <;> simp only [h, Bool.false_and, Bool.not_true, Bool.and_false]
    rw [exec_acts_of_inTurn (f := svnCommit key) rfl hfree]
    simp only [svnCommit, htakes, hproduction, hsure, Bool.not_true, Bool.or_self, Bool.false_eq_true, if_false]
  case mgmt =>
    intro x y hmost hgood
    rw [exec_acts_of_inTurn (f := mgmtWrite key x none) rfl hfree, mgmtWrite, if_pos htakes, State.mgmtWrite_passes hmost hgood]
  case activate =>
    intro i q hstaged hfits hidle
    have hidle' : (s.part (s.partOfQuad (bitsAt s.fw.arg.toNat 0 2))).jcp.state = .idle := hidle
    rw [exec_acts_of_inTurn (f := activateQuad key) rfl hfree]
    simp only [activateQuad, htakes, hstaged, hfits, hidle', Bool.not_true, Bool.false_eq_true, if_false, q]

/-- Settles O46: a token that passes is carried out, and what each operation leaves in the owner record is written in the copy not in force. -/
theorem tokenCommandsComplete : Obligations.TokenCommandsComplete := by
  unfold Obligations.TokenCommandsComplete
  intro key t s hfree htakes
  dsimp only
  refine ⟨?claim, ?transfer, ?revoke, ?release, ?unlock, ?lifecycle⟩
  case claim =>
    intro hi3c hlen hop hid hsubject hblock hempty
    rw [exec_acts_of_inTurn (f := claim key t) rfl hfree]
    have hfields : (s.fw.tokenFields t 1 true && allZero t.block && s.fw.ownKey.isEmpty) = true := by
      simp only [Firmware.tokenFields, Firmware.ownKey, hlen, hop, hid, hsubject, hblock, hempty]
      rfl
    simp only [claim, htakes, hi3c, hfields, Bool.not_true, Bool.false_eq_true, if_false, if_true, State.tokenDone]
  case transfer =>
    intro hgood hseq
    have hnow : t.seq = s.fw.ownSeq := hseq
    rw [exec_acts_of_inTurn (f := ownerTransfer key t) rfl hfree, ownerTransfer, State.token_passes htakes hgood (decide_eq_true hnow)]
    rfl
  case revoke =>
    intro hgood hseq
    have hnow : t.seq = s.fw.ownSeq := hseq
    rw [exec_acts_of_inTurn (f := revokeImage key t) rfl hfree, revokeImage, State.token_passes htakes hgood (decide_eq_true hnow)]
    rfl
  case release =>
    intro hgood hseq
    have hnow : t.seq = s.fw.ownSeq := hseq
    rw [exec_acts_of_inTurn (f := ownerRelease key t) rfl hfree, ownerRelease, State.token_passes htakes hgood (decide_eq_true hnow)]
    rfl
  case unlock =>
    intro hgood hchallenge
    rw [exec_acts_of_inTurn (f := debugUnlock key t) rfl hfree, debugUnlock, State.token_passes htakes hgood (decide_eq_true hchallenge)]
    rfl
  case lifecycle =>
    intro hgood hdevelopment
    rw [exec_acts_of_inTurn (f := lifecycleToken key t) rfl hfree, lifecycleToken,
      State.token_passes htakes hgood (by rw [hdevelopment, Bool.not_false])]
    rfl

end Sys2Proof.Machine
end

section
/-! SUPPORT. The Gingham tests, the polls of corrected counts and the suppression windows (15 R405 to R415). -/

namespace Sys2Proof.Machine

theorem exec_ginghamTest (cl : Fin 39) (s : State) : exec (.ginghamTest cl) s = .next (ginghamTest cl s) := rfl

theorem exec_ginghamTestComplete (cl : Fin 39) (e : TestEnd) (s : State) :
    exec (.ginghamTestComplete cl e) s = .next (ginghamTestComplete cl e s) := rfl

theorem exec_cePoll (x : CePoll) (s : State) : exec (.cePoll x) s = .next (cePoll x.tower x.coreNow x.chanNow s) := rfl

theorem exec_suppressionWindowExpire (cl : Fin 39) (s : State) :
    exec (.suppressionWindowExpire cl) s = .next (suppressionWindowExpire cl s) := rfl

/-- R410: a cluster runs no test where no running test is of it. -/
theorem Gingham.find_running_eq_none {g : Gingham} {cl : Nat} (hidle : ∀ x ∈ g.running, x.1 ≠ cl) :
    g.running.find? (fun x => decide (x.1 = cl)) = none := by
  simpa only [List.find?_eq_none, decide_eq_true_eq] using hidle

/-- R411: a test of a frame that holds no page, or of no frame, begins at once. -/
theorem State.row_vacant {s : State} {row : Option Nat}
    (hvacant : ∀ n, row = some n → (s.frame (n / 49152) (n % 49152)).present = false) :
    (row.isSome && (s.frame (row.getD 0 / 49152) (row.getD 0 % 49152)).present) = false := by
  cases row with
  | none => rfl
  | some n => simp only [Option.getD_some, hvacant n rfl, Bool.and_false]

/-- R413: a test that fails is a lasting fault, whichever unit it was of. -/
theorem ginghamTestComplete_fail {cl : Fin 39} {s : State} {k : Nat} {t : Test} (a : BitVec 64)
    (hruns : s.gh.running.find? (fun x => decide (x.1 = cl.val)) = some (k, t)) :
    ginghamTestComplete cl (.fail a) s =
      (((((({ s with gh := { s.gh with
        reqState := if t.host then 4 else s.gh.reqState
        running := s.gh.running.filter (fun x => decide (x.1 ≠ cl.val)), disabled := s.gh.disabled.filter (fun x => decide (x ≠ t.target))
        tests := s.gh.tests + 1 } } : State).settleQuiesced).restoreUnit t).openGates).lasting t 0 a.toNat false).afterTest t) := by
  unfold ginghamTestComplete
  rw [hruns]
  dsimp only
  rw [Bool.false_and, Bool.false_and, if_neg Bool.false_ne_true, if_neg Bool.false_ne_true, if_neg Bool.false_ne_true, if_neg Bool.false_ne_true]

/-- R413: a whole test that passes below the repeat limit counts a transient, and its unit comes back. -/
theorem ginghamTestComplete_pass {cl : Fin 39} {s : State} {k : Nat} {t : Test}
    (hruns : s.gh.running.find? (fun x => decide (x.1 = cl.val)) = some (k, t))
    (hbelow : s.gh.counts.get 0 t.target.key + 1 < s.gh.repeatLimit.toNat) (hwhole : s.wholeTest t = true) :
    ginghamTestComplete cl .pass s =
      ((((((({ s with gh := { s.gh with
        transient := s.gh.transient + 1, counts := s.gh.counts.set 0 t.target.key (s.gh.counts.get 0 t.target.key + 1)
        reqState := if t.host then 3 else s.gh.reqState
        running := s.gh.running.filter (fun x => decide (x.1 ≠ cl.val)), disabled := s.gh.disabled.filter (fun x => decide (x ≠ t.target))
        tests := s.gh.tests + 1 } } : State).settleQuiesced).restoreUnit t).openGates).logError (t.report 0x0F01 t.kind t.cause.toNat 0)).comesBack
          t.target).afterTest t) := by
  unfold ginghamTestComplete
  rw [hruns]
  dsimp only
  rw [decide_eq_true hbelow, hwhole, Bool.true_and, Bool.true_and, Bool.not_true, if_neg Bool.false_ne_true, if_pos rfl, if_pos rfl, if_pos rfl,
    if_pos rfl]

/-- R405: whether a suppressed pair's window is of a cluster and outside a job, so that it ends with SUPPRESSION_WINDOW_EXPIRE. -/
def State.windowEnds (s : State) (cl : Nat) (x : Suppress) : Bool :=
  decide (s.windowOf x = cl) && (match x.part with | none => true | some p => !(s.part p.toNat).jcp.state.inJob)

/-- R405: the state with a cluster's windows outside a job closed. -/
def State.windowsClosed (s : State) (cl : Nat) : State :=
  { s with err := { s.err with suppress := s.err.suppress.filter (fun x => !s.windowEnds cl x) } }

/-- R405: of a cluster whose clock runs, the windows close and each with suppressed records writes its summary. -/
theorem suppressionWindowExpire_runs {cl : Fin 39} {s : State} (hruns : s.clusterStopped cl.val = false) :
    suppressionWindowExpire cl s =
      (s.err.suppress.filter (s.windowEnds cl.val)).foldl
        (fun a x => if x.count = 0 then a else a.writeRecord (a.record x.summary x.count)) (s.windowsClosed cl.val) := by
  have hclock : ¬ s.clusterStopped cl.val = true := Bool.eq_false_iff.mp hruns
  exact if_neg hclock

/-- R405: windows that hold no suppressed record end without a summary. -/
theorem foldl_summaries_of_unsuppressed {xs : List Suppress} (hnone : ∀ x ∈ xs, x.count = 0) (a : State) :
    xs.foldl (fun a x => if x.count = 0 then a else a.writeRecord (a.record x.summary x.count)) a = a := by
  induction xs generalizing a with
  | nil => rfl
  | cons x xs ih =>
    have hx : x.count = 0 := hnone x List.mem_cons_self
    simp only [List.foldl_cons, hx, if_true]
    exact ih (fun y hy => hnone y (List.mem_cons_of_mem x hy)) a

theorem suppressionWindowExpire_unsuppressed {cl : Fin 39} {s : State} (hruns : s.clusterStopped cl.val = false)
    (hnone : ∀ x ∈ s.err.suppress, s.windowEnds cl.val x = true → x.count = 0) : suppressionWindowExpire cl s = s.windowsClosed cl.val := by
  rw [suppressionWindowExpire_runs hruns,
    foldl_summaries_of_unsuppressed fun x hx => hnone x (List.mem_filter.mp hx).1 (List.mem_filter.mp hx).2]

theorem suppressionWindowExpire_one {cl : Fin 39} {s : State} {x : Suppress} (hruns : s.clusterStopped cl.val = false)
    (hone : s.err.suppress.filter (s.windowEnds cl.val) = [x]) (hcount : x.count ≠ 0) :
    suppressionWindowExpire cl s = (s.windowsClosed cl.val).writeRecord ((s.windowsClosed cl.val).record x.summary x.count) := by
  rw [suppressionWindowExpire_runs hruns, hone, List.foldl_cons, List.foldl_nil, if_neg hcount]

/-- Settles O48: the scheduled test that may begin moves the page first or begins, a test that ends leaves its unit as its outcome says, and
polls and windows are read as they stand. -/
theorem testCommandsComplete : Obligations.TestCommandsComplete := by
  unfold Obligations.TestCommandsComplete
  refine ⟨?begins, ?goesOn, ?ends, ?poll, ?window⟩
  case begins =>
    intro cl s i
    dsimp only
    intro hidle hready
    have hnone := Gingham.find_running_eq_none hidle
    refine ⟨fun n hrow hpresent => ?_, fun hfree hvacant => ?_⟩
    · simp only [exec_ginghamTest, ginghamTest, hnone, hready, hrow, Option.isSome_some, Option.getD_some, hpresent, Bool.and_self, if_true]
    · have hrow := State.row_vacant hvacant
      simp only [exec_ginghamTest, ginghamTest, hnone, hready, hrow, hfree, Bool.not_true, Bool.false_eq_true, if_false]
  case goesOn =>
    intro cl s k t hruns
    simp only [exec_ginghamTest, ginghamTest, hruns]
  case ends =>
    intro cl s k t
    dsimp only
    intro hruns
    refine ⟨fun hbelow hwhole => ?_, fun a => ?_⟩
    · rw [exec_ginghamTestComplete, ginghamTestComplete_pass hruns hbelow hwhole]
    · rw [exec_ginghamTestComplete, ginghamTestComplete_fail a hruns]
  case poll =>
    intro t coreNow chanNow s hruns
    simp only [exec_cePoll, cePoll, hruns, Bool.false_eq_true, if_false]
  case window =>
    intro cl s
    dsimp only
    intro hruns
    exact ⟨fun hnone => congrArg Host.Outcome.next (suppressionWindowExpire_unsuppressed hruns hnone),
      fun x hone hcount => congrArg Host.Outcome.next (suppressionWindowExpire_one hruns hone hcount)⟩

end Sys2Proof.Machine
end

section
/-! SUPPORT. The host's requests for tests and its fences (15 R413 to R419). -/

namespace Sys2Proof.Machine

/-- R418: FENCE_REMOVE with the key, of a valid entry, as its next state before the unit's test is scheduled: the entry is gone and recorded. -/
def State.fenceDropped (s : State) (i : Nat) : State :=
  let e := s.gh.fences.get {} i
  let s0 : State := { s with gh := { s.gh with fences := s.gh.fences.set {} i {} } }
  ({ s0 with mod := { s0.mod with fenced := s0.fencedQuads } } : State).logError
    { code := 0x0F06, kind := e.kind.toNat, unit := if e.kind = 13 then e.index.toNat / 49152 else e.index.toNat, info := i,
      frame := if e.kind = 13 then e.index.toNat % 49152 else 0, part := s.unitPart { kind := e.kind, index := e.index } }

/-- R418: the test of a unit whose fence has been removed is scheduled, and its partition's target evaluated. -/
def State.testAfterFence (a s : State) (x : UnitRef) : State :=
  let p := s.unitPart x
  let s3 := a.schedule { target := x, cause := s.err.wr, code := 0x0F06, part := p.map (BitVec.ofNat 2) }
  match p with | some n => s3.retarget n | none => s3

/-- 12 R349: a tower or link die is stale once a fence within it has been removed. -/
def State.staleUnit (a : State) (u : Nat) : State :=
  { a with fromFence := if a.fromFence.contains u then a.fromFence else a.fromFence ++ [u] }

/-- R418: the fence of a frame leaves no tower or link die stale. -/
theorem fenceRemove_of_frame {i : Fin 512} {s : State} (hvalid : (s.gh.fences.get {} i.val).valid = true)
    (htest : ({ kind := (s.gh.fences.get {} i.val).kind, index := (s.gh.fences.get {} i.val).index } : UnitRef).test ≠ 0)
    (hframe : (s.gh.fences.get {} i.val).kind = 13) :
    fenceRemove 0x46 i s =
      (s.fenceDropped i.val).testAfterFence s { kind := (s.gh.fences.get {} i.val).kind, index := (s.gh.fences.get {} i.val).index } := by
  have hkey : ¬ ((0x46 : BitVec 8) ≠ 0x46 ∨ (s.gh.fences.get {} i.val).valid = false) := by
    simp only [hvalid, ne_eq, not_true_eq_false, Bool.true_eq_false, or_self, not_false_eq_true]
  have hhome : (if (s.gh.fences.get {} i.val).kind = 13 then (none : Option (Nat × Nat)) else
      fenceHome (s.gh.fences.get {} i.val).kind.toNat (s.gh.fences.get {} i.val).index.toNat) = none := if_pos hframe
  unfold fenceRemove
  rw [if_neg hkey]
  dsimp only
  rw [hhome, if_neg htest]
  rfl

/-- R418, 12 R349: the fence of another unit leaves its tower or link die stale. -/
theorem fenceRemove_of_unit {i : Fin 512} {s : State} {k j : Nat} (hvalid : (s.gh.fences.get {} i.val).valid = true)
    (htest : ({ kind := (s.gh.fences.get {} i.val).kind, index := (s.gh.fences.get {} i.val).index } : UnitRef).test ≠ 0)
    (hunit : (s.gh.fences.get {} i.val).kind ≠ 13)
    (hhome : fenceHome (s.gh.fences.get {} i.val).kind.toNat (s.gh.fences.get {} i.val).index.toNat = some (k, j)) :
    fenceRemove 0x46 i s =
      ((s.fenceDropped i.val).staleUnit (if k = 3 then j else 32 + j)).testAfterFence s
        { kind := (s.gh.fences.get {} i.val).kind, index := (s.gh.fences.get {} i.val).index } := by
  have hkey : ¬ ((0x46 : BitVec 8) ≠ 0x46 ∨ (s.gh.fences.get {} i.val).valid = false) := by
    simp only [hvalid, ne_eq, not_true_eq_false, Bool.true_eq_false, or_self, not_false_eq_true]
  have hhome' : (if (s.gh.fences.get {} i.val).kind = 13 then (none : Option (Nat × Nat)) else
      fenceHome (s.gh.fences.get {} i.val).kind.toNat (s.gh.fences.get {} i.val).index.toNat) = some (k, j) := by rw [if_neg hunit, hhome]
  unfold fenceRemove
  rw [if_neg hkey]
  dsimp only
  rw [hhome', if_neg htest]
  rfl

/-- R415, R419: FENCE_ADD of a fenceable unit with no test of it, where the table has a free entry, fences it with cause 2. -/
theorem fenceAdd_fences {s : State} (hroom : ∃ i < 512, (s.gh.fences.get {} i).valid = false)
    (hkind : fenceable { kind := (FenceEntry.ofBits s.gh.fenceArg).kind, index := (FenceEntry.ofBits s.gh.fenceArg).index } = true)
    (huntested : ∀ t ∈ s.gh.running,
      t.2.target ≠ { kind := (FenceEntry.ofBits s.gh.fenceArg).kind, index := (FenceEntry.ofBits s.gh.fenceArg).index } ∧
      t.2.target.fences ≠ some ((FenceEntry.ofBits s.gh.fenceArg).kind.toNat, (FenceEntry.ofBits s.gh.fenceArg).index.toNat)) :
    fenceAdd 0x46 s =
      s.fenceUnit (FenceEntry.ofBits s.gh.fenceArg).kind.toNat (FenceEntry.ofBits s.gh.fenceArg).index.toNat
        (FenceEntry.ofBits s.gh.fenceArg).code 2
        (s.unitPart { kind := (FenceEntry.ofBits s.gh.fenceArg).kind, index := (FenceEntry.ofBits s.gh.fenceArg).index }) := by
  obtain ⟨i, hi, hfree⟩ := hroom
  have hfull : ((List.range 512).all fun i => (s.gh.fences.get {} i).valid) = false :=
    List.all_eq_false.mpr ⟨i, List.mem_range.mpr hi, Bool.eq_false_iff.mp hfree⟩
  have htested : (s.gh.running.any fun t =>
      decide (t.2.target = { kind := (FenceEntry.ofBits s.gh.fenceArg).kind, index := (FenceEntry.ofBits s.gh.fenceArg).index }) ||
      decide (t.2.target.fences = some ((FenceEntry.ofBits s.gh.fenceArg).kind.toNat, (FenceEntry.ofBits s.gh.fenceArg).index.toNat))) = false := by
    simpa only [List.any_eq_false, Bool.or_eq_true, decide_eq_true_eq, not_or] using huntested
  unfold fenceAdd
  rw [if_neg (not_not_intro rfl), hfull, hkind, htested]
  rfl

/-- Settles O49: each keyed request whose conditions hold passes its guards in the host's turn; an entry that is removed leaves its unit to a
test. -/
theorem fenceCommandsComplete : Obligations.FenceCommandsComplete := by
  unfold Obligations.FenceCommandsComplete
  refine ⟨?request, ?clear, ?add, ?remove⟩
  case request =>
    intro kind unit s p x hkind htest hpart htestable hfree
    rw [exec_acts_of_inTurn (f := ghReq 0x47 kind unit) rfl hfree]
    have hpart' : s.unitPart { kind := kind, index := unit.setWidth 28 } = some p := hpart
    have htest' : ({ kind := kind, index := unit.setWidth 28 } : UnitRef).test ≠ 0 := htest
    simp only [ghReq, hpart', htest', htestable, hkind, ne_eq, not_true_eq_false, not_false_eq_true, decide_true, Bool.and_self, Bool.not_true,
      Bool.false_eq_true, if_false]
    rfl
  case clear =>
    intro s hfree
    rw [exec_acts_of_inTurn (f := ghClrCounts) rfl hfree, ghClrCounts]
  case add =>
    intro s e x hfree hroom hkind huntested
    rw [exec_acts_of_inTurn (f := fenceAdd 0x46) rfl hfree, fenceAdd_fences hroom hkind huntested]
  case remove =>
    intro i s
    dsimp only
    intro hvalid hfree htest
    have hturn : exec (.fenceRemove 0x46 i) s = .next (fenceRemove 0x46 i s) := exec_acts_of_inTurn (f := fenceRemove 0x46 i) rfl hfree
    refine ⟨fun hframe => ?_, fun k j hunit hhome => ?_⟩
    · rw [hturn, fenceRemove_of_frame hvalid htest hframe]
      rfl
    · rw [hturn, fenceRemove_of_unit hvalid htest hunit hhome]
      rfl

end Sys2Proof.Machine
end

section
/-! SUPPORT. Power states, throttling, trips and the user calibration (16 R424 to R438). -/

namespace Sys2Proof.Machine

theorem exec_pstateEntryComplete (p : PartId) (s : State) : exec (.pstateEntryComplete p) s = .next (pstateEntryComplete p s) := rfl

theorem exec_wakeComplete (p : PartId) (s : State) : exec (.wakeComplete p) s = .next (wakeComplete p s) := rfl

theorem exec_bankPrechargeComplete (b : Fin 5) (s : State) : exec (.bankPrechargeComplete b) s = .next (bankPrechargeComplete b s) := rfl

theorem exec_thermalEvaluation (t : TowerId) (sensors : List (BitVec 8)) (power : Nat) (s : State) :
    exec (.thermalEvaluation t sensors power) s = .next (thermalEvaluation t sensors power s) := rfl

theorem exec_coolantRead (flow : BitVec 12) (inlet outlet : BitVec 10) (v48 i48 v12 i12 : BitVec 16) (s : State) :
    exec (.coolantRead flow inlet outlet v48 i48 v12 i12) s = .next (coolantRead flow inlet outlet v48 i48 v12 i12 s) := rfl

theorem exec_dieThermalTrip (die : Option LinkDieId) (temp : BitVec 8) (s : State) :
    exec (.dieThermalTrip die temp) s = .next (dieThermalTrip die temp s) := rfl

theorem exec_dieTripClear (die : Option LinkDieId) (temp : BitVec 8) (s : State) :
    exec (.dieTripClear die temp) s = .next (dieTripClear die temp s) := rfl

/-- R427: WAKE_COMPLETE of a partition that wakes, with its banks on where it leaves Standby. -/
theorem wakeComplete_wakes {p : PartId} {s : State} (hwakes : (s.part p.val).power.moving = some .run)
    (hbanks : (s.part p.val).power.state = .standby → ∀ q ∈ s.quadsOf p.val, s.banksOff.getLsbD q = false) :
    wakeComplete p s =
      (let w := (s.part p.val).power
       let s1 := if 3 ≤ w.state.code then s.startPart p.val (decide (w.state = .standby)) else s
       let s2 := s1.modPart p.val (fun k => { k with power := { k.power with state := .run, moving := none } })
       let s3 := s2.modCoresOf p.val (fun k => match k.pendCtrl with
         | some q => if k.pass.isNone && k.drain.isNone then k.applyCtrl q else k
         | none => k)
       let s4 := if 3 ≤ w.state.code then s3.wakeEpoch p.val else s3
       ((s4.modEvent 3).retryCmds).retarget p.val) := by
  have hlit : (decide ((s.part p.val).power.state = .standby) && (s.quadsOf p.val).any (fun q => s.banksOff.getLsbD q)) = false := by
    by_cases hstandby : (s.part p.val).power.state = .standby
    · simpa only [hstandby, decide_true, Bool.true_and, List.any_eq_false, Bool.not_eq_true] using hbanks hstandby
    · simp only [hstandby, decide_false, Bool.false_and]
  unfold wakeComplete
  simp only [hwakes, hlit, ne_eq, not_true_eq_false, Bool.false_eq_true, or_self, if_false, decide_eq_true_eq] <;> rfl

/-- Settles O50: an entry that ends, a wake whose banks are on and a wanted bank each pass their guards. -/
theorem powerStateCommandsComplete : Obligations.PowerStateCommandsComplete := by
  unfold Obligations.PowerStateCommandsComplete
  refine ⟨?entry, ?wake, ?bank⟩
  case entry =>
    intro p s d hmoving hdeeper
    simp only [exec_pstateEntryComplete, pstateEntryComplete, hmoving, hdeeper, if_false, Option.isNone_iff_eq_none]
  case wake =>
    intro p s
    dsimp only
    intro hwakes hbanks
    exact congrArg Host.Outcome.next (wakeComplete_wakes hwakes hbanks)
  case bank =>
    intro b s hoff hwanted
    simp only [exec_bankPrechargeComplete, bankPrechargeComplete, hoff, hwanted, Bool.and_self, if_true]

/-- R434: without a coolant alarm COOLANT_READ takes its readings and sets the cap in force. -/
theorem coolantRead_calm {flow : BitVec 12} {inlet : BitVec 10} (outlet : BitVec 10) (v48 i48 v12 i12 : BitVec 16) (s : State)
    (hcap : 4000 ≤ coolantCap flow.toNat inlet.toNat) (hflow : 600 ≤ flow.toNat) (hinlet : inlet.toNat ≤ 500) :
    coolantRead flow inlet outlet v48 i48 v12 i12 s =
      (s.setPwr { s.pwr with
        flow := flow, inlet := inlet, outlet := outlet, voltage48 := v48, current48 := i48, voltage12 := v12, current12 := i12
        alarm := false }).setCap s.pwr.capW.toNat (coolantCap flow.toNat inlet.toNat) := by
  have halarm : (decide (coolantCap flow.toNat inlet.toNat < 4000) || decide (flow.toNat < 600) || decide (500 < inlet.toNat)) = false := by
    rw [decide_eq_false (Nat.not_lt.mpr hcap), decide_eq_false (Nat.not_lt.mpr hflow), decide_eq_false (Nat.not_lt.mpr hinlet)]
    rfl
  unfold coolantRead
  dsimp only
  rw [halarm, if_neg Bool.false_ne_true]

/-- R434: under a coolant alarm it trips every tower. -/
theorem coolantRead_alarmed {flow : BitVec 12} {inlet : BitVec 10} (outlet : BitVec 10) (v48 i48 v12 i12 : BitVec 16) (s : State)
    (hbad : coolantCap flow.toNat inlet.toNat < 4000 ∨ flow.toNat < 600 ∨ 500 < inlet.toNat) :
    coolantRead flow inlet outlet v48 i48 v12 i12 s =
      ((s.setPwr { s.pwr with
        flow := flow, inlet := inlet, outlet := outlet, voltage48 := v48, current48 := i48, voltage12 := v12, current12 := i12
        alarm := true }).setCap s.pwr.capW.toNat (coolantCap flow.toNat inlet.toNat)).alarmTrip := by
  have halarm : (decide (coolantCap flow.toNat inlet.toNat < 4000) || decide (flow.toNat < 600) || decide (500 < inlet.toNat)) = true := by
    simpa only [Bool.or_eq_true, decide_eq_true_eq, or_assoc] using hbad
  unfold coolantRead
  dsimp only
  rw [halarm, if_pos rfl]

/-- Settles O51: an evaluation is the model's own computation; a reading raises the alarm exactly below its bounds; the cap is clamped. -/
theorem thermalCommandsComplete : Obligations.ThermalCommandsComplete := by
  unfold Obligations.ThermalCommandsComplete
  refine ⟨?evaluation, ?coolant, ?cap⟩
  case evaluation =>
    intro t sensors power s
    rw [exec_thermalEvaluation, thermalEvaluation]
  case coolant =>
    intro flow inlet outlet v48 i48 v12 i12 s
    dsimp only
    refine ⟨fun hcap hflow hinlet => ?_, fun hbad => ?_⟩
    · rw [exec_coolantRead, coolantRead_calm outlet v48 i48 v12 i12 s hcap hflow hinlet]
    · rw [exec_coolantRead, coolantRead_alarmed outlet v48 i48 v12 i12 s hbad]
  case cap =>
    intro v s hfree
    rw [exec_acts_of_inTurn (f := pwrCapWrite v) rfl hfree, pwrCapWrite]

/-- R437, R438: PWR_CAL_GO of an image that passes its checks writes the copy not in force. -/
theorem pwrCalGo_writes {bytes : List Byte} {s : State} {entries : List (BitVec 64)} (hidle : s.pwr.calStatus ≠ 1)
    (hmost : s.pwr.calLen.toNat ≤ 1048576) (hgood : s.pwr.ucParse (bytes.take s.pwr.calLen.toNat) = some entries) :
    pwrCalGo 0x50 true bytes false s =
      (let new := ucWrite (bytes.take s.pwr.calLen.toNat) ((s.pwr.cal.map UserCal.seq).getD 0 + 1) entries
       let s1 := s.setPwr { s.pwr with calStatus := 2 }
       if s.pwr.cal.isSome && !s.pwr.calCopy then { s1 with userCal1 := some new } else { s1 with userCal0 := some new }) := by
  have htaken : ¬ ((0x50 : BitVec 8) ≠ 0x50 ∨ (!true) = true ∨ s.pwr.calStatus = 1) :=
    not_or.mpr ⟨not_not_intro rfl, not_or.mpr ⟨Bool.false_ne_true, hidle⟩⟩
  have hparsed : (if s.pwr.calLen.toNat ≤ 2 ^ 20 then s.pwr.ucParse (bytes.take s.pwr.calLen.toNat) else none) = some entries := by
    rw [if_pos (by omega), hgood]
  unfold pwrCalGo
  rw [if_neg htaken]
  dsimp only
  rw [hparsed]
  dsimp only
  rw [if_neg Bool.false_ne_true, if_neg Bool.false_ne_true]

/-- Settles O52: a reading past its limit trips or clears what it was taken of; a calibration that passes is stored. -/
theorem tripAndCalibrationComplete : Obligations.TripAndCalibrationComplete := by
  unfold Obligations.TripAndCalibrationComplete
  refine ⟨?trip, ?clear, ?calibration⟩
  case trip =>
    intro temp s hhot
    refine ⟨fun d hnew => ?_, fun hclosed => ?_⟩
    · simp only [exec_dieThermalTrip, dieThermalTrip, hhot, hnew, decide_true, Bool.or_true, Bool.not_true, Bool.or_self, Bool.false_eq_true,
        if_false]
    · simp only [exec_dieThermalTrip, dieThermalTrip, hhot, hclosed, decide_true, Bool.or_true, Bool.not_true, Bool.or_self, Bool.false_eq_true,
        if_false, State.setPwr]
  case clear =>
    intro temp s hcool
    refine ⟨fun d htripped => ?_, fun hopen => ?_⟩
    · simp only [exec_dieTripClear, dieTripClear, hcool, htripped, decide_true, Bool.not_true, Bool.and_false, Bool.and_self, if_true]
    · simp only [exec_dieTripClear, dieTripClear, hcool, hopen, decide_true, Bool.not_true, Bool.and_false, Bool.and_self, if_true, State.setPwr]
  case calibration =>
    intro bytes s entries hfree img hidle hmost hgood
    rw [exec_acts_of_inTurn (f := pwrCalGo 0x50 true bytes false) rfl hfree, pwrCalGo_writes hidle hmost hgood]

end Sys2Proof.Machine
end

section
/-! SUPPORT. Attestation and the requests over I3C (14 R402, 16 R428, 17 R452, 19 R465). -/

namespace Sys2Proof.Machine

theorem exec_pldmRequest (r : PldmReq) (s : State) : exec (.pldmRequest r) s = .next (pldmRequest r s) := rfl

/-- 19 R465: a target with no dynamic address takes one and does nothing else. -/
theorem pldmRequest_of_unaddressed {s : State} (r : PldmReq) (hup : s.rst.mgmtUp = true) (hnone : s.rst.i3cAddr = none) :
    pldmRequest r s = s.takeAddress r := by
  simp only [pldmRequest, hup, hnone, Bool.not_true, Bool.false_eq_true, if_false, Option.isNone_none, if_true]

/-- Settles O47: an attestation that is not under way is made in the host's turn; a request is answered by the address the target has, and by
whether the hub runs. -/
theorem attestationAndRequestsComplete : Obligations.AttestationAndRequestsComplete := by
  unfold Obligations.AttestationAndRequestsComplete
  refine ⟨?attest, ?address, ?requests⟩
  case attest =>
    intro s hidle hfree
    rw [exec_acts_of_inTurn (f := attGo) rfl hfree, attGo, if_neg hidle]
  case address =>
    intro s hup hnone a
    constructor
    · rw [exec_pldmRequest, pldmRequest_of_unaddressed _ hup hnone, State.takeAddress, if_pos rfl]
    · rw [exec_pldmRequest, pldmRequest_of_unaddressed _ hup hnone, State.takeAddress]
  case requests =>
    intro s hup hsome
    have haddr : s.rst.i3cAddr.isNone = false := Option.isNone_eq_false_iff.mpr hsome
    refine ⟨fun hoff => ?_, fun hon => ?_, fun hon => ?_, fun nonce hon => ?_⟩
    · simp only [exec_pldmRequest, pldmRequest, hup, haddr, hoff, Bool.not_true, Bool.false_eq_true, if_false, if_true]
    · simp only [exec_pldmRequest, pldmRequest, hup, haddr, hon, Bool.not_true, Bool.false_eq_true, if_false]
    · simp only [exec_pldmRequest, pldmRequest, hup, haddr, hon, Bool.not_true, Bool.false_eq_true, if_false]
    · simp only [exec_pldmRequest, pldmRequest, hup, haddr, hon, Bool.not_true, Bool.false_eq_true, if_false]

end Sys2Proof.Machine
end

section
/-! SUPPORT. The running meter (17 R440 to R451). -/

namespace Sys2Proof.Machine

theorem exec_meterSample (ch12 : Bool) (v i : BitVec 16) (selfFail : Bool) (s : State) :
    exec (.meterSample ch12 v i selfFail) s = .next (meterSample ch12 v i selfFail s) := rfl

theorem exec_meterBroadcast (s : State) : exec .meterBroadcast s = .next (meterBroadcast s) := rfl

theorem exec_holdupCommit (x : Holdup) (s : State) : exec (.holdupCommit x) s = .next (holdupCommit x.ok x.cut s) := rfl

theorem exec_meterStart (fwSum : BitVec 256) (s : State) : exec (.meterStart fwSum) s = .next (meterStart fwSum s) := rfl

theorem exec_sealBroken (s : State) : exec .sealBroken s = .next (sealBroken s) := rfl

/-- R445: a request begins at once where the engine is idle. -/
theorem Meter.ask_idle {m : Meter} (a : MeterAsk) (hidle : m.signing = none) : m.ask a = m.beginSigning a := by
  simp only [Meter.ask, hidle, Option.isNone_none, if_true]

/-- R445: it waits, in order of arrival, where the engine is busy. -/
theorem Meter.ask_busy {m : Meter} (a : MeterAsk) (hbusy : m.signing ≠ none) : m.ask a = { m with waiting := m.waiting ++ [a] } := by
  have hsome : m.signing.isNone = false := Option.isNone_eq_false_iff.mpr (Option.isSome_iff_ne_none.mpr hbusy)
  simp only [Meter.ask, hsome, Bool.false_eq_true, if_false]

/-- R445: no signature under way: a sample passes no time for the engine. -/
theorem State.meterTick_idle {s : State} (hidle : s.meter.signing = none) : s.meterTick = s := by
  simp only [State.meterTick, hidle]

/-- R445: a signature that has taken fewer than its 160 samples goes on. -/
theorem State.meterTick_goesOn {s : State} {y : MeterSigning} (hbusy : s.meter.signing = some y) (hmore : y.ticks + 1 < 160) :
    s.meterTick = s.setMeter { s.meter with signing := some { y with ticks := y.ticks + 1 } } := by
  simp only [State.meterTick, hbusy]
  exact if_pos hmore

/-- R445: one that has taken them all ends. -/
theorem State.meterTick_ends {s : State} {y : MeterSigning} (hbusy : s.meter.signing = some y) (hall : 160 ≤ y.ticks + 1) :
    s.meterTick = s.endSigning y := by
  simp only [State.meterTick, hbusy]
  exact if_neg (Nat.not_lt.mpr hall)

/-- R443: the meter a second later. -/
def Meter.secondOn (m : Meter) : Meter := { m with regs := { m.regs with seconds := m.regs.seconds + 1 } }

/-- R443, R445: METER_BROADCAST of a running meter counts the second and asks for a broadcast record. -/
theorem meterBroadcast_runs {s : State} (hruns : s.meter.running = true) : meterBroadcast s = s.setMeter (s.meter.secondOn.ask .broadcast) := by
  have hon : ¬ (!s.meter.running) = true := by rw [hruns, Bool.not_true]; exact Bool.false_ne_true
  exact if_neg hon

/-- R442: the meter after an in-range sample of its 12 V channel. -/
def Meter.sampled12 (m : Meter) (v i : BitVec 16) : Meter :=
  let x := integrate m.regs.e12 m.rest12 (v.toNat * i.toNat) 288000000
  { m with regs := { m.regs with e12 := x.1 }, rest12 := x.2, v12 := v, i12 := BitVec.ofNat 16 i.toNat, over12 := false }

/-- R442: the meter after an in-range sample of its 48 V channel. -/
def Meter.sampled48 (m : Meter) (v i : BitVec 16) : Meter :=
  let x := integrate m.regs.e48 m.rest48 (v.toNat * i.toNat) 28800000
  { m with regs := { m.regs with e48 := x.1 }, rest48 := x.2, v48 := v, i48 := BitVec.ofNat 16 i.toNat, over48 := false }

/-- R442: a sample of the 12 V channel between the starting current and the top of its range. -/
theorem meterSample_inRange12 {v i : BitVec 16} {s : State} (hruns : s.meter.running = true) (htop : i.toNat ≤ 800) (hstart : 2 ≤ i.toNat) :
    meterSample true v i false s = s.setMeter (s.meter.sampled12 v i) := by
  have hon : (!s.meter.running) = false := by rw [hruns, Bool.not_true]
  have hwithin : decide (800 < i.toNat) = false := decide_eq_false (Nat.not_lt.mpr htop)
  have hflows : ¬ i.toNat < 2 := Nat.not_lt.mpr hstart
  simp only [meterSample, hon, hwithin, hflows, Bool.false_eq_true, Bool.false_and, if_false, if_true]
  rfl

/-- R442, R445: a sample of the 48 V channel in range; the engine's time passes with it. -/
theorem meterSample_inRange48 {v i : BitVec 16} {s : State} (hruns : s.meter.running = true) (htop : i.toNat ≤ 3000) (hstart : 5 ≤ i.toNat) :
    meterSample false v i false s = (s.setMeter (s.meter.sampled48 v i)).meterTick := by
  have hon : (!s.meter.running) = false := by rw [hruns, Bool.not_true]
  have hwithin : decide (3000 < i.toNat) = false := decide_eq_false (Nat.not_lt.mpr htop)
  have hflows : ¬ i.toNat < 5 := Nat.not_lt.mpr hstart
  simp only [meterSample, hon, hwithin, hflows, Bool.false_eq_true, Bool.false_and, if_false]
  rfl

theorem Meter.logEvent_fwLogged (m : Meter) (kind : BitVec 8) (detail : BitVec 64) : (m.logEvent kind detail).fwLogged = m.fwLogged := by
  unfold Meter.logEvent
  split <;> rfl

theorem Meter.logEvent_cell (m : Meter) (kind : BitVec 8) (detail : BitVec 64) : (m.logEvent kind detail).cell = m.cell := by
  unfold Meter.logEvent
  split <;> rfl

theorem Meter.logEvent_sealed (m : Meter) (kind : BitVec 8) (detail : BitVec 64) : (m.logEvent kind detail).sealed = m.sealed := by
  unfold Meter.logEvent
  split <;> rfl

/-- R441, R446: a stopped meter with nothing to report starts from what it has committed, and logs the return of its supply alone. -/
theorem meterStart_clean {fwSum : BitVec 256} {s : State} (hstopped : s.meter.running = false) (hsupply : s.power12 = true)
    (hkept : s.meter.commitLost = false) (hmade : s.meter.holdup = false) (hsum : s.meter.fwLogged = some fwSum)
    (hcell : s.meter.cell = false ∨ s.meter.sealed = false) :
    meterStart fwSum s =
      s.setMeter (({ s.meter with
        running := true, holdup := false, signing := none, waiting := [], regs := s.meter.committed, rest48 := 0, rest12 := 0
        selfCheckFail := false, over48 := false, over12 := false, fwSum := fwSum, line := none } : Meter).logEvent 2 0).commit := by
  have hguard : (s.meter.running || !s.power12) = false := by rw [hstopped, hsupply, Bool.not_true, Bool.or_self]
  have hreport : (s.meter.commitLost || s.meter.holdup) = false := by rw [hkept, hmade, Bool.or_self]
  have hintact : (s.meter.cell && s.meter.sealed) = false := by
    rcases hcell with h | h <;> simp only [h, Bool.false_and, Bool.and_false]
  simp only [meterStart, hguard, hreport, Meter.logEvent_fwLogged, hsum, Meter.logEvent_cell, Meter.logEvent_sealed, hintact, Bool.false_eq_true,
    if_false, if_true]

/-- Settles O53: samples in range add their energy, a second asks for a record, a loss of supply stops the meter, and a clean start goes on from
what was committed. -/
theorem meterRunsComplete : Obligations.MeterRunsComplete := by
  unfold Obligations.MeterRunsComplete
  refine ⟨?sample12, ?sample48, ?runs, ?starts⟩
  case sample12 =>
    intro v i s m hruns htop hstart
    exact congrArg Host.Outcome.next (meterSample_inRange12 hruns htop hstart)
  case sample48 =>
    intro v i s
    dsimp only
    intro hruns htop hstart
    have hsample : exec (.meterSample false v i false) s = .next (s.setMeter (s.meter.sampled48 v i)).meterTick :=
      congrArg Host.Outcome.next (meterSample_inRange48 hruns htop hstart)
    refine ⟨fun hidle => ?_, fun y hbusy hmore => ?_, fun y hbusy hall => ?_⟩
    · rw [hsample, State.meterTick_idle (s := s.setMeter (s.meter.sampled48 v i)) hidle]
      rfl
    · rw [hsample, State.meterTick_goesOn (s := s.setMeter (s.meter.sampled48 v i)) hbusy hmore]
      rfl
    · rw [hsample, State.meterTick_ends (s := s.setMeter (s.meter.sampled48 v i)) hbusy hall]
      rfl
  case runs =>
    intro s m hruns
    have hruns' : s.meter.running = true := hruns
    refine ⟨fun hidle => ?_, fun hbusy => ?_, fun cut => ?_, fun cut => ?_, fun hsealed => ?_⟩
    · rw [exec_meterBroadcast, meterBroadcast_runs hruns, Meter.ask_idle (m := s.meter.secondOn) _ hidle]
      rfl
    · rw [exec_meterBroadcast, meterBroadcast_runs hruns, Meter.ask_busy (m := s.meter.secondOn) _ hbusy]
      rfl
    · simp only [exec_holdupCommit, holdupCommit, hruns', Bool.not_true, Bool.false_and, Bool.false_eq_true, if_false, if_true, m]
    · simp only [exec_holdupCommit, holdupCommit, hruns', Bool.not_true, Bool.false_and, Bool.false_eq_true, if_false, m]
    · have hsealed' : s.meter.sealed = true := hsealed
      simp only [exec_sealBroken, sealBroken, hruns', hsealed', Bool.not_true, Bool.false_eq_true, if_false, if_true, m]
  case starts =>
    intro fwSum s m hstopped hsupply hkept hmade hsum _ hcell
    exact congrArg Host.Outcome.next (meterStart_clean hstopped hsupply hkept hmade hsum hcell)

end Sys2Proof.Machine
end

section
/-! SUPPORT. The meter's external port and the module's view of the meter (17 R444 to R452). -/

namespace Sys2Proof.Machine

theorem exec_getInfo (tag : BitVec 16) (s : State) : exec (.getInfo tag) s = .next (getInfo tag s) := rfl

theorem exec_meterRead (tag : BitVec 16) (nonce : BitVec 256) (s : State) : exec (.meterRead tag nonce) s = .next (meterRead tag nonce s) := rfl

theorem exec_readLog (tag : BitVec 16) (nonce : BitVec 256) (first : BitVec 32) (count : BitVec 8) (s : State) :
    exec (.readLog tag nonce first count) s = .next (readLog tag nonce first count s) := rfl

theorem exec_getCert (tag : BitVec 16) (s : State) : exec (.getCert tag) s = .next (getCert tag s) := rfl

theorem exec_meterError (header rest : List Byte) (s : State) : exec (.meterError header rest) s = .next (meterError (header ++ rest) s) := rfl

theorem exec_meterRecordReceive (crcOk sigOk : Bool) (s : State) :
    exec (.meterRecordReceive crcOk sigOk) s = .next (meterRecordReceive crcOk sigOk s) := rfl

theorem exec_meterStale (ms : Nat) (s : State) : exec (.meterStale ms) s = .next (meterStale ms s) := rfl

/-- R449: a running meter with room for a request serves it. -/
theorem State.onPort_serves {s : State} (tag : BitVec 16) (f : State → State) (hruns : s.meter.running = true) (hroom : s.meter.busy = false) :
    s.onPort tag f = f s := by
  simp only [State.onPort, hruns, hroom, Bool.not_true, Bool.false_eq_true, if_false]

/-- R449: with two requests waiting a further one is answered with BUSY. -/
theorem State.onPort_busy {s : State} (tag : BitVec 16) (f : State → State) (hruns : s.meter.running = true) (hfull : s.meter.busy = true) :
    s.onPort tag f = s.answer 0xFE tag [3] := by
  simp only [State.onPort, hruns, hfull, Bool.not_true, Bool.false_eq_true, if_false, if_true, MeterFault.byte]

/-- R449: READ_LOG of 1 to 32 entries asks for its extract. -/
theorem readLog_inRange {tag : BitVec 16} {nonce : BitVec 256} {first : BitVec 32} {count : BitVec 8} {s : State}
    (hruns : s.meter.running = true) (hroom : s.meter.busy = false) (hsome : count ≠ 0) (hmost : count.toNat ≤ 32) :
    readLog tag nonce first count s = s.setMeter (s.meter.ask (.log tag nonce first count)) := by
  rw [readLog, State.onPort_serves tag _ hruns hroom, if_neg (not_or.mpr ⟨hsome, Nat.not_lt.mpr hmost⟩)]

/-- R449: a frame with nothing wrong is the command that its code spells. -/
theorem meterError_spells_getInfo {bs : List Byte} {s : State} (hgood : frameFault bs = none) (hcode : (bs.getD 1 0).toNat = 1) :
    meterError bs s = getInfo (frameTag bs) s := by
  simp only [meterError, hgood, hcode]

theorem meterError_spells_meterRead {bs : List Byte} {s : State} (hgood : frameFault bs = none) (hcode : (bs.getD 1 0).toNat = 2) :
    meterError bs s = meterRead (frameTag bs) (BitVec.ofNat 256 (ofBytes ((bs.drop 8).take 32))) s := by
  simp only [meterError, hgood, hcode]

theorem meterError_spells_getCert {bs : List Byte} {s : State} (hgood : frameFault bs = none) (hcode : (bs.getD 1 0).toNat = 4) :
    meterError bs s = getCert (frameTag bs) s := by
  simp only [meterError, hgood, hcode]

/-- R449: a frame with something wrong is answered with ERROR. -/
theorem meterError_faulty {bs : List Byte} {s : State} {f : MeterFault} (hbad : frameFault bs = some f) (hruns : s.meter.running = true) :
    meterError bs s = s.answer 0xFE (frameTag bs) [f.byte] := by
  simp only [meterError, hbad, hruns, Bool.not_true, Bool.false_eq_true, if_false]

/-- Settles O54: the port serves a request where it has room and answers with ERROR where it has not or the frame is wrong; the view takes or
discards a record by its checks, and becomes stale at 3,000 ms. -/
theorem meterPortAndViewComplete : Obligations.MeterPortAndViewComplete := by
  unfold Obligations.MeterPortAndViewComplete
  refine ⟨⟨?served, ?busy, ?busySigned, ?frames, fun _ => rfl⟩, ?record, ?stale⟩
  case served =>
    intro tag s m hruns hroom
    refine ⟨?_, ?_, fun nonce hidle => ?_, fun nonce hbusy => ?_, fun nonce first count hsome hmost => ⟨fun hidle => ?_, fun hbusy => ?_⟩,
      fun nonce first count hbad => ?_⟩
    · rw [exec_getInfo, getInfo, State.onPort_serves tag _ hruns hroom]
    · rw [exec_getCert, getCert, State.onPort_serves tag _ hruns hroom]
    · rw [exec_meterRead, meterRead, State.onPort_serves tag _ hruns hroom, Meter.ask_idle (m := s.meter) _ hidle]
      rfl
    · rw [exec_meterRead, meterRead, State.onPort_serves tag _ hruns hroom, Meter.ask_busy (m := s.meter) _ hbusy]
    · rw [exec_readLog, readLog_inRange hruns hroom hsome hmost, Meter.ask_idle (m := s.meter) _ hidle]
      rfl
    · rw [exec_readLog, readLog_inRange hruns hroom hsome hmost, Meter.ask_busy (m := s.meter) _ hbusy]
    · rw [exec_readLog, readLog, State.onPort_serves tag _ hruns hroom, if_pos hbad, MeterFault.byte]
  case busy =>
    intro tag s hruns hfull c hc
    rcases List.mem_cons.mp hc with rfl | hc
    · rw [exec_getInfo, getInfo, State.onPort_busy tag _ hruns hfull]
    · rw [List.mem_singleton.mp hc, exec_getCert, getCert, State.onPort_busy tag _ hruns hfull]
  case busySigned =>
    intro tag nonce first count s hruns hfull
    constructor
    · rw [exec_meterRead, meterRead, State.onPort_busy tag _ hruns hfull]
    · rw [exec_readLog, readLog, State.onPort_busy tag _ hruns hfull]
  case frames =>
    intro header rest s bs tag
    refine ⟨fun f hbad hruns => ?_, fun hgood hcode => ?_, fun hgood hcode => ?_, fun hgood hcode => ?_⟩
    · rw [exec_meterError, meterError_faulty hbad hruns]
      cases f <;> rfl
    · exact congrArg Host.Outcome.next (meterError_spells_getInfo hgood hcode)
    · exact congrArg Host.Outcome.next (meterError_spells_meterRead hgood hcode)
    · exact congrArg Host.Outcome.next (meterError_spells_getCert hgood hcode)
  case record =>
    intro crcOk sigOk s r
    dsimp only
    intro hline hup
    refine ⟨fun hbad => ?_, fun hgood => ?_⟩
    · simp only [exec_meterRecordReceive, meterRecordReceive, hline, hup, hbad, Bool.not_true, Bool.not_false, Bool.false_eq_true, if_false,
        if_true]
    · simp only [exec_meterRecordReceive, meterRecordReceive, hline, hup, hgood, Bool.not_true, Bool.false_eq_true, if_false]
  case stale =>
    intro ms s
    dsimp only
    intro hup
    refine ⟨fun hyoung => ?_, fun hold hfresh => ?_⟩
    · have hage : decide (3000 ≤ max s.meterView.age.toNat (min ms 65535)) = false := decide_eq_false (Nat.not_le.mpr hyoung)
      simp only [exec_meterStale, meterStale, hup, hage, Bool.not_true, Bool.or_false, Bool.false_and, Bool.false_eq_true, if_false]
    · have hage : decide (3000 ≤ max s.meterView.age.toNat (min ms 65535)) = true := decide_eq_true hold
      simp only [exec_meterStale, meterStale, hup, hage, hfresh, Bool.not_true, Bool.not_false, Bool.or_true, Bool.and_self, Bool.false_eq_true,
        if_false, if_true]

end Sys2Proof.Machine
end
